-- ==== Sys2Proof/Word.lean ====
section
/-! DEFINITION. The word types of the Searis 9 and the shapes of its sparse plain data. -/

namespace Sys2Proof

/-- One byte of memory. -/
abbrev Byte := BitVec 8
/-- One 32-bit word of a lane register. -/
abbrev W32 := BitVec 32
/-- One 64-bit scalar register. -/
abbrev W64 := BitVec 64
/-- A set of the 128 lanes of a group: bit L for lane L. -/
abbrev Mask := BitVec 128
/-- A 96-bit internal word (R289). -/
abbrev IWord := BitVec 96

/-- Sparse data by key: every unlisted key reads as one fixed default. The operations (Machine/Map.lean)
keep it in one canonical form: keys rising, no entry equal to the default. -/
abbrev SMap (α : Type) := List (Nat × α)

end Sys2Proof
end

