-- ==== Sys2Proof/Machine/Map.lean ====
section
/-! DEFINITION. Sparse maps: lists of keys and values, keys rising. An operation that knows the default of unlisted
keys (`set`) removes an entry that would equal it, so that equal contents are equal lists. -/

namespace Sys2Proof

/-- The entry of a key. -/
def SMap.find {α : Type} (m : SMap α) (k : Nat) : Option α :=
  match m with
  | [] => none
  | (j, v) :: l => if j = k then some v else SMap.find l k

/-- The value of a key; unlisted keys read `d`. -/
def SMap.get {α : Type} (m : SMap α) (k : Nat) (d : α) : α := (m.find k).getD d

/-- Without a key. -/
def SMap.erase {α : Type} (m : SMap α) (k : Nat) : SMap α :=
  match m with
  | [] => []
  | (j, v) :: l => if j = k then SMap.erase l k else (j, v) :: SMap.erase l k

/-- An entry put in its place before the first larger key. -/
def SMap.ins {α : Type} (k : Nat) (v : α) : SMap α → SMap α
  | [] => [(k, v)]
  | (j, w) :: l => if k < j then (k, v) :: (j, w) :: l else (j, w) :: SMap.ins k v l

/-- The map with one key's value replaced. -/
def SMap.put {α : Type} (m : SMap α) (k : Nat) (v : α) : SMap α := SMap.ins k v (m.erase k)

/-- The map with one key's value replaced, where unlisted keys read `d`. -/
def SMap.set {α : Type} [DecidableEq α] (m : SMap α) (d : α) (k : Nat) (v : α) : SMap α :=
  if v = d then m.erase k else m.put k v

/-- The map with one key's value changed. -/
def SMap.modify {α : Type} (m : SMap α) (k : Nat) (d : α) (f : α → α) : SMap α := m.put k (f (m.get k d))

/-- The listed keys. -/
def SMap.keys {α : Type} (m : SMap α) : List Nat := m.map Prod.fst

/-- Keys strictly rising. -/
def SMap.sorted {α : Type} : SMap α → Bool
  | [] => true
  | [_] => true
  | (j, _) :: (k, w) :: l => j < k && SMap.sorted ((k, w) :: l)

/-- The canonical form for a map whose unlisted keys read `d`: keys strictly rising, no entry equal to `d`. -/
def SMap.wf {α : Type} [DecidableEq α] (m : SMap α) (d : α) : Bool := m.sorted && m.all fun e => e.2 ≠ d

/-- Memory: unlisted bytes read zero (log 2). -/
abbrev Memory := SMap Byte

/-- What a byte that nothing has written reads as (log 2, DESIGN CHOICE). -/
def Memory.fresh : Byte := 0

/-- The canonical form of a memory. -/
def Memory.wf (m : Memory) : Bool := SMap.wf m Memory.fresh

/-- One byte. -/
def Memory.byte (m : Memory) (a : Nat) : Byte := m.get a Memory.fresh

/-- One byte written. -/
def Memory.setByte (m : Memory) (a : Nat) (b : Byte) : Memory := m.set Memory.fresh a b

/-- `n` bytes from `a`, lowest address first. -/
def Memory.bytes (m : Memory) (a : Nat) : Nat → List Byte
  | 0 => []
  | n + 1 => m.byte a :: m.bytes (a + 1) n

/-- Bytes written from `a` upwards. -/
def Memory.setBytes (m : Memory) (a : Nat) : List Byte → Memory
  | [] => m
  | b :: l => Memory.setBytes (m.setByte a b) (a + 1) l

end Sys2Proof
end

