-- ==== Sys2Proof/Machine/Bits.lean ====
section
/-! DEFINITION. Helpers over bits, bytes and lane masks. -/

namespace Sys2Proof

/-- A power of two. -/
def pow2 (n : Nat) : Nat := 2 ^ n

/-- The lanes of a mask, ascending. -/
def Mask.lanes (m : Mask) : List Nat := (List.range 128).filter fun i => m.getLsbD i

/-- The mask of the lanes for which `f` holds. -/
def maskOf (f : Nat → Bool) : Mask :=
  BitVec.ofNat 128 ((List.range 128).foldl (fun n i => if f i then n + pow2 i else n) 0)

/-- Every lane. -/
def Mask.full : Mask := BitVec.allOnes 128

/-- The mask of one lane. -/
def Mask.one (l : Nat) : Mask := BitVec.ofNat 128 (pow2 l)

/-- The number of lanes in a mask. -/
def Mask.count (m : Mask) : Nat := m.lanes.length

/-- R5: the n little-endian bytes of a number. -/
def leBytes : Nat → Nat → List Byte
  | 0, _ => []
  | n + 1, v => BitVec.ofNat 8 v :: leBytes n (v / 256)

/-- R5: the number that little-endian bytes hold. -/
def leNat : List Byte → Nat
  | [] => 0
  | b :: l => b.toNat + 256 * leNat l

/-- Bits [hi:lo] of a number. -/
def bitsOf (v hi lo : Nat) : Nat := v / pow2 lo % pow2 (hi + 1 - lo)

/-- Bits [hi:lo] of a 64-bit register, as a number. -/
def W64.bits (v : W64) (hi lo : Nat) : Nat := bitsOf v.toNat hi lo

/-- A number as a 64-bit word, modulo 2^64. -/
def w64 (n : Nat) : W64 := BitVec.ofNat 64 n

/-- A number as a 32-bit word. -/
def w32 (n : Nat) : W32 := BitVec.ofNat 32 n

/-- The low 32 bits. -/
def W64.lo (v : W64) : W32 := v.setWidth 32
/-- The high 32 bits. -/
def W64.hi (v : W64) : W32 := (v >>> 32).setWidth 32
/-- A 64-bit word from its halves. -/
def W64.ofHalves (hi lo : W32) : W64 := hi ++ lo

/-- Sign extension of a 32-bit lane value to 64 bits. -/
def sx64 (v : W32) : W64 := v.signExtend 64

/-- R276: rotation to the left. -/
def rotl64 (v : W64) (n : Nat) : W64 := (v <<< n) ||| (v >>> (64 - n))

/-- Leading zeros of a w-bit word. -/
def clz {w : Nat} (v : BitVec w) : Nat :=
  ((List.range w).find? fun i => v.getLsbD (w - 1 - i)).getD w

/-- Ones in a word. -/
def popc {w : Nat} (v : BitVec w) : Nat := ((List.range w).filter fun i => v.getLsbD i).length

/-- A counter that saturates at 64 bits (R164, R261). -/
def satAdd64 (v : W64) (n : Nat) : W64 :=
  if v.toNat + n < pow2 64 then w64 (v.toNat + n) else BitVec.allOnes 64

/-- R261: a register with a corrected count in [63:32] and an uncorrected one in [31:0], both saturating. -/
def addPair (v : W64) (hi lo : Nat) : W64 :=
  let sat := fun (x n : Nat) => if x + n < pow2 32 then x + n else pow2 32 - 1
  W64.ofHalves (w32 (sat v.hi.toNat hi)) (w32 (sat v.lo.toNat lo))

/-- The least of the numbers that meet a test, from a list. -/
def firstSome {α β : Type} (l : List α) (f : α → Option β) : Option β := l.findSome? f

/-- Round up to a multiple of `n`. -/
def roundUp (v n : Nat) : Nat := (v + n - 1) / n * n

/-- ⌈a / b⌉. -/
def ceilDiv (a b : Nat) : Nat := (a + b - 1) / b

/-- The distinct elements of a list, in order of first appearance. -/
def distinct : List Nat → List Nat
  | [] => []
  | a :: l => a :: (distinct l).filter fun b => b != a

/-- The least power of two that is at least n. -/
def ceilPow2 (n : Nat) : Nat := if n ≤ 1 then 1 else pow2 (Nat.log2 (n - 1) + 1)

/-- A Bool as 0 or 1. -/
def bit (b : Bool) : Nat := if b then 1 else 0

/-- ⌊log₂⌋ of a positive number. -/
def flog2 (n : Nat) : Nat := Nat.log2 n

end Sys2Proof
end

