-- ==== Sys2Proof/Machine/Flags.lean ====
section
/-! DEFINITION. Relations: what compares write into predicates and q registers (R308, R341, R378). -/

namespace Sys2Proof

/-- R341, R378: relation code `r` on w-bit words, read signed or unsigned. -/
def relBits {w : Nat} (r : Nat) (signed : Bool) (a b : BitVec w) : Bool :=
  let lt := fun (x y : BitVec w) => if signed then x.slt y else x.ult y
  match r with
  | 0 => a == b
  | 1 => a != b
  | 2 => lt a b
  | 3 => !lt b a
  | 4 => lt b a
  | _ => !lt a b

end Sys2Proof
end

