-- ==== Sys2Proof/Syntax.lean ====
section
/-! DEFINITION. The instruction type: one constructor for each row of the opcode table. 199 are words that a
group or the partition's handler issues (formats V3, VI, S, PR, M, C, tree, X, Y of R289 to R307); 123 are steps
of the device outside a word. Fields are held as the bits the encoding gives them. -/

namespace Sys2Proof

/-- R289: the common fields of a word. -/
structure Hdr where
  bnd : Bool
  la : BitVec 4
  gn : Bool
  grd : BitVec 5
  deriving DecidableEq, Repr

/-- R294: the fields of a V3 word. -/
structure V3 where
  vd : BitVec 8
  va : BitVec 8
  vb : BitVec 8
  vc : BitVec 8
  ty : BitVec 5
  rm : BitVec 3
  sat : Bool
  ftz : Bool
  pd : BitVec 4
  bs : Bool
  ty2 : BitVec 5
  slot : BitVec 3
  usl : Bool
  imm8 : BitVec 8
  deriving DecidableEq, Repr

/-- R295: the fields of a VI word. -/
structure VI where
  vd : BitVec 8
  va : BitVec 8
  ty : BitVec 5
  rm : BitVec 3
  sat : Bool
  ftz : Bool
  pd : BitVec 4
  imm : BitVec 32
  deriving DecidableEq, Repr

/-- R296: the fields of an S word. -/
structure SF where
  sd : BitVec 6
  sa : BitVec 6
  sb : BitVec 6
  qd : BitVec 3
  w : Bool
  sg : Bool
  is : Bool
  pos : BitVec 6
  len : BitVec 6
  cmp : BitVec 3
  imm : BitVec 32
  deriving DecidableEq, Repr

/-- R297: the fields of a PR word; `sop` is OP[9:5], `vop` is OP[4:0]. -/
structure PR where
  sop : BitVec 5
  vop : BitVec 5
  sd : BitVec 6
  sa : BitVec 6
  sb : BitVec 6
  is : Bool
  imm : BitVec 16
  vd : BitVec 8
  va : BitVec 8
  vb : BitVec 8
  vc : BitVec 8
  typ : BitVec 2
  sat : Bool
  bs : Bool
  deriving DecidableEq, Repr

/-- R298: the fields of an M word of the access layout. -/
structure MF where
  vd : BitVec 8
  va : BitVec 8
  sb : BitVec 6
  spc : BitVec 2
  rk : BitVec 6
  rki : Bool
  sz : BitVec 3
  sx : Bool
  av : Bool
  scp : BitVec 3
  ord : BitVec 2
  rmt : Bool
  tw : BitVec 8
  off : BitVec 18
  deriving DecidableEq, Repr

/-- R299: the fields of an M word of the copy layout. -/
structure CP where
  vsrc : BitVec 8
  vdst : BitVec 8
  sdst : BitVec 6
  ssrc : BitVec 6
  se : BitVec 6
  sz : BitVec 3
  tq : BitVec 2
  tk : BitVec 3
  tw : BitVec 8
  off : BitVec 18
  deriving DecidableEq, Repr

/-- R300: the fields of a C word. -/
structure CF where
  va : BitVec 8
  sx : BitVec 6
  sa : BitVec 6
  qn : Bool
  qc : BitVec 3
  disp : BitVec 32
  deriving DecidableEq, Repr

/-- R301: the fields of an X word; `acd` and `aca` together are VX where the opcode names VX. -/
structure XF where
  acd : BitVec 4
  aca : BitVec 4
  sa : BitVec 6
  sb : BitVec 6
  sc : BitVec 6
  shp : BitVec 3
  fsa : BitVec 3
  fsb : BitVec 3
  nega : Bool
  negb : Bool
  acz : Bool
  spa : Bool
  lcb : Bool
  afa : Bool
  tk : BitVec 3
  tw : BitVec 8
  rm : BitVec 3
  sat : Bool
  imm8 : BitVec 8
  deriving DecidableEq, Repr

/-- R302: the fields of a Y word. -/
structure YF where
  sd : BitVec 6
  sa : BitVec 6
  creg : BitVec 16
  imm : BitVec 32
  deriving DecidableEq, Repr

/-- R308: one test of a tree. -/
structure Test where
  kind : BitVec 2
  rel : BitVec 3
  typ : BitVec 2
  va : BitVec 8
  b : BitVec 16
  deriving DecidableEq, Repr

/-- R309: one arc slot of a tree. -/
structure Arc where
  aop : BitVec 6
  vd : BitVec 8
  va : BitVec 8
  b : BitVec 8
  deriving DecidableEq, Repr

/-- R307: the parts of a tree; `c` is the count of T1 words, 1 to 3. Slots of absent words are zero. -/
structure TF where
  c : BitVec 2
  shape : BitVec 2
  t0 : Test
  t1 : Test
  t2 : Test
  l0 : BitVec 15
  l1 : BitVec 15
  l2 : BitVec 15
  l3 : BitVec 15
  a0 : Arc
  a1 : Arc
  a2 : Arc
  a3 : Arc
  a4 : Arc
  a5 : Arc
  deriving DecidableEq, Repr

/-- R16: a supply rail. -/
inductive Rail
  | vcore (c : Nat)
  | vfix | vsys | vser | vserh | vhbmc | vhbmq | vio
  deriving DecidableEq, Repr

/-- R22: a temperature sensor. -/
inductive Sensor
  | core (cl co : Nat)
  | l2 (i : Nat)
  | hbm (i : Nat)
  deriving DecidableEq, Repr

/-- R38: a PCIe function: the physical one or virtual function n. -/
inductive Fn
  | pf
  | vf (n : Nat)
  deriving DecidableEq, Repr

/-- A space of registers that software reads and writes: a function's control window (R47) and doorbell pages (R52), a partition's
page (R82), the device page (R91) and a cluster's status block (R122). -/
inductive Space
  | bar0 (fn : Fn)
  | bar2 (fn : Fn)
  | page (p : Nat)
  | devPage
  | clusterBlock (cl : Nat)
  deriving DecidableEq, Repr

/-- R28: a flit as it arrives: what FEC made of it, its header fields, its 240 payload bytes and its CRC. -/
structure Flit where
  fecOk : Bool
  /-- R34: the FEC symbols corrected, and the codewords that FEC could not correct, counted with this flit. -/
  fecFixed : Nat
  fecBad : Nat
  ftype : BitVec 4
  seq : BitVec 8
  ackseq : BitVec 8
  ackv : Bool
  vc : BitVec 3
  dst : BitVec 12
  src : BitVec 12
  len : BitVec 8
  tag : BitVec 16
  low : BitVec 24
  payload : List Byte
  crc : BitVec 32
  deriving DecidableEq, Repr

/-- R260: where a soft error strikes. -/
inductive ErrSite
  | reg (g t grp v lane : Nat)
  | tile (g t acc elem : Nat)
  | spad (g t word : Nat)
  | l1 (cl co sector : Nat)
  | l2 (sector : Nat)
  /-- R15: and the 8-bit symbols of the 64-byte access that are in error. -/
  | hbm (sector symbols : Nat)
  | slotTable (cl slot : Nat)
  | coupling (cl var slot : Nat)
  | control (g : Nat)
  | tlt (g t : Nat)
  | plt (page : Nat)
  | icache (cl co line : Nat)
  | tlbCore (cl co entry : Nat)
  | tlbCluster (cl entry : Nat)
  | queueEntry
  deriving DecidableEq, Repr

/-- R280: the times and the lane of a sample record that the memory system measures. -/
structure SampleTimes where
  ql1 : BitVec 16
  ql2 : BitVec 16
  qdram : BitVec 16
  lastLane : Byte
  deriving DecidableEq, Repr

/-- The operands of a step of the device outside a word: what the outside world, or the turn that the agenda
gives, says about the step. Each step reads the fields its name calls for and ignores the others. -/
structure Ev where
  /-- R21: the rail that failed. -/
  rail : Rail := .vfix
  /-- R22, R23: a sensor and its reading in 0.25 °C. -/
  sensor : Sensor := .l2 0
  reading : Int := 0
  /-- The PCIe function that an access comes through. -/
  fn : Fn := .pf
  /-- The register space of an access. -/
  space : Space := .devPage
  /-- A cluster, a core in it, a quadrant of that core. -/
  cl : Nat := 0
  co : Nat := 0
  qd : Nat := 0
  /-- A partition, a grid number, a team index, a group. -/
  p : Nat := 0
  g : Nat := 0
  t : Nat := 0
  grp : Nat := 0
  /-- A port, or one of a row of registers. -/
  n : Nat := 0
  /-- A queue number. -/
  q : Nat := 0
  /-- The number of an operation in flight, or of a result due. -/
  id : Nat := 0
  /-- A hart, a die, a voltage bus, a carafe slot. -/
  hart : Nat := 0
  die : Nat := 0
  bus : Nat := 0
  slot : Nat := 0
  /-- A collective's handle and step. -/
  handle : Nat := 0
  step : Nat := 0
  /-- A virtual address, or a PC. -/
  va : Nat := 0
  /-- A register offset, a length, an index, a pause in nanoseconds. -/
  off : Nat := 0
  len : Nat := 0
  index : Nat := 0
  /-- Stream mode, four lanes, a write, a corrected error: as the step's name says. -/
  flag : Bool := false
  /-- A command or request code; the byte written, when there is one. -/
  code : Byte := 0
  wr : Option Byte := none
  /-- R26: the 7-bit SMBus address of a sideband transfer, and the packet error code that came with a write. -/
  smbTo : BitVec 7 := 0x60
  pec : Option Byte := none
  /-- The 64-bit value written, or a call's argument. -/
  v : W64 := 0
  /-- A 16-bit estimate (R26 watts, R121) and four stall counts. -/
  w16 : BitVec 16 := 0
  r0 : BitVec 16 := 0
  r1 : BitVec 16 := 0
  r2 : BitVec 16 := 0
  r3 : BitVec 16 := 0
  /-- A flit, the data of a BAR4 write, the site of a soft error, the times of a sample. -/
  flit : Flit := { fecOk := true, fecFixed := 0, fecBad := 0, ftype := 0, seq := 0, ackseq := 0, ackv := false, vc := 0,
                   dst := 0, src := 0, len := 0, tag := 0, low := 0, payload := [], crc := 0 }
  data : List Byte := []
  site : ErrSite := .queueEntry
  times : SampleTimes := { ql1 := 0, ql2 := 0, qdram := 0, lastLane := 0 }
  deriving DecidableEq, Repr

/-- One constructor for each row of the opcode table. The words come first; a step of the device takes its operands
from the machine's input latch, an `Ev`. -/
inductive Instr
  /-- VADD (R376). -/
  | vadd (h : Hdr) (f : V3)
  /-- VSUB (R376). -/
  | vsub (h : Hdr) (f : V3)
  /-- VMUL (R376). -/
  | vmul (h : Hdr) (f : V3)
  /-- VMULH (R376). -/
  | vmulh (h : Hdr) (f : V3)
  /-- VMULHU (R376). -/
  | vmulhu (h : Hdr) (f : V3)
  /-- VMAD (R376). -/
  | vmad (h : Hdr) (f : V3)
  /-- VAND (R376). -/
  | vand (h : Hdr) (f : V3)
  /-- VOR (R376). -/
  | vor (h : Hdr) (f : V3)
  /-- VXOR (R376). -/
  | vxor (h : Hdr) (f : V3)
  /-- VNOT (R376). -/
  | vnot (h : Hdr) (f : V3)
  /-- VSHL (R376). -/
  | vshl (h : Hdr) (f : V3)
  /-- VSHR (R376). -/
  | vshr (h : Hdr) (f : V3)
  /-- VSAR (R376). -/
  | vsar (h : Hdr) (f : V3)
  /-- VMIN (R376). -/
  | vmin (h : Hdr) (f : V3)
  /-- VMINU (R376). -/
  | vminu (h : Hdr) (f : V3)
  /-- VMAX (R376). -/
  | vmax (h : Hdr) (f : V3)
  /-- VMAXU (R376). -/
  | vmaxu (h : Hdr) (f : V3)
  /-- VABS (R376). -/
  | vabs (h : Hdr) (f : V3)
  /-- VNEG (R376). -/
  | vneg (h : Hdr) (f : V3)
  /-- VMOV (R376). -/
  | vmov (h : Hdr) (f : V3)
  /-- VSEL (R376). -/
  | vsel (h : Hdr) (f : V3)
  /-- VCMP (R378). -/
  | vcmp (h : Hdr) (f : V3)
  /-- VPOPC (R376). -/
  | vpopc (h : Hdr) (f : V3)
  /-- VCLZ (R376). -/
  | vclz (h : Hdr) (f : V3)
  /-- VFADD (R385). -/
  | vfadd (h : Hdr) (f : V3)
  /-- VFSUB (R385). -/
  | vfsub (h : Hdr) (f : V3)
  /-- VFMUL (R385). -/
  | vfmul (h : Hdr) (f : V3)
  /-- VFMA (R385). -/
  | vfma (h : Hdr) (f : V3)
  /-- VFMIN (R385). -/
  | vfmin (h : Hdr) (f : V3)
  /-- VFMAX (R385). -/
  | vfmax (h : Hdr) (f : V3)
  /-- VFNEG (R385). -/
  | vfneg (h : Hdr) (f : V3)
  /-- VFABS (R385). -/
  | vfabs (h : Hdr) (f : V3)
  /-- VFCMP (R386). -/
  | vfcmp (h : Hdr) (f : V3)
  /-- VFCLASS (R387). -/
  | vfclass (h : Hdr) (f : V3)
  /-- VFRND (R388). -/
  | vfrnd (h : Hdr) (f : V3)
  /-- VFDIV (R389). -/
  | vfdiv (h : Hdr) (f : V3)
  /-- VEXP2 (R390). -/
  | vexp2 (h : Hdr) (f : V3)
  /-- VLOG2 (R390). -/
  | vlog2 (h : Hdr) (f : V3)
  /-- VRCP (R390). -/
  | vrcp (h : Hdr) (f : V3)
  /-- VRSQ (R390). -/
  | vrsq (h : Hdr) (f : V3)
  /-- VSQRT (R390). -/
  | vsqrt (h : Hdr) (f : V3)
  /-- VSINPI (R390). -/
  | vsinpi (h : Hdr) (f : V3)
  /-- VCOSPI (R390). -/
  | vcospi (h : Hdr) (f : V3)
  /-- VTANH (R390). -/
  | vtanh (h : Hdr) (f : V3)
  /-- VSIGM (R390). -/
  | vsigm (h : Hdr) (f : V3)
  /-- VCVT (R394). -/
  | vcvt (h : Hdr) (f : V3)
  /-- VSHUF (R381). -/
  | vshuf (h : Hdr) (f : V3)
  /-- VBCAST (R380). -/
  | vbcast (h : Hdr) (f : V3)
  /-- VLANEID (R380). -/
  | vlaneid (h : Hdr) (f : V3)
  /-- VBALLOT (R382). -/
  | vballot (h : Hdr) (f : V3)
  /-- VANY (R382). -/
  | vany (h : Hdr) (f : V3)
  /-- VALL (R382). -/
  | vall (h : Hdr) (f : V3)
  /-- VRED (R383). -/
  | vred (h : Hdr) (f : V3)
  /-- VSCAN (R383). -/
  | vscan (h : Hdr) (f : V3)
  /-- VFRED (R392). -/
  | vfred (h : Hdr) (f : V3)
  /-- VFSCAN (R392). -/
  | vfscan (h : Hdr) (f : V3)
  /-- VCVTBS_PACK (R396). -/
  | vcvtbsPack (h : Hdr) (f : V3)
  /-- VCVTBS_UNPACK (R397). -/
  | vcvtbsUnpack (h : Hdr) (f : V3)
  /-- VADD_IMM (R379). -/
  | vaddImm (h : Hdr) (f : VI)
  /-- VMUL_IMM (R379). -/
  | vmulImm (h : Hdr) (f : VI)
  /-- VAND_IMM (R379). -/
  | vandImm (h : Hdr) (f : VI)
  /-- VOR_IMM (R379). -/
  | vorImm (h : Hdr) (f : VI)
  /-- VXOR_IMM (R379). -/
  | vxorImm (h : Hdr) (f : VI)
  /-- VSHL_IMM (R379). -/
  | vshlImm (h : Hdr) (f : VI)
  /-- VSHR_IMM (R379). -/
  | vshrImm (h : Hdr) (f : VI)
  /-- VSAR_IMM (R379). -/
  | vsarImm (h : Hdr) (f : VI)
  /-- VMIN_IMM (R379). -/
  | vminImm (h : Hdr) (f : VI)
  /-- VMINU_IMM (R379). -/
  | vminuImm (h : Hdr) (f : VI)
  /-- VMAX_IMM (R379). -/
  | vmaxImm (h : Hdr) (f : VI)
  /-- VMAXU_IMM (R379). -/
  | vmaxuImm (h : Hdr) (f : VI)
  /-- VCMP_IMM (R379). -/
  | vcmpImm (h : Hdr) (f : VI)
  /-- VMOV_IMM (R379). -/
  | vmovImm (h : Hdr) (f : VI)
  /-- VFADD_IMM (R391). -/
  | vfaddImm (h : Hdr) (f : VI)
  /-- VFMUL_IMM (R391). -/
  | vfmulImm (h : Hdr) (f : VI)
  /-- VFMIN_IMM (R391). -/
  | vfminImm (h : Hdr) (f : VI)
  /-- VFMAX_IMM (R391). -/
  | vfmaxImm (h : Hdr) (f : VI)
  /-- VFCMP_IMM (R391). -/
  | vfcmpImm (h : Hdr) (f : VI)
  /-- VMOV_FLOAT_IMM (R391). -/
  | vmovFloatImm (h : Hdr) (f : VI)
  /-- SADD (R339). -/
  | sadd (h : Hdr) (f : SF)
  /-- SSUB (R339). -/
  | ssub (h : Hdr) (f : SF)
  /-- SMUL (R339). -/
  | smul (h : Hdr) (f : SF)
  /-- SMULH (R339). -/
  | smulh (h : Hdr) (f : SF)
  /-- SMULHU (R339). -/
  | smulhu (h : Hdr) (f : SF)
  /-- SDIV (R340). -/
  | sdiv (h : Hdr) (f : SF)
  /-- SDIVU (R340). -/
  | sdivu (h : Hdr) (f : SF)
  /-- SREM (R340). -/
  | srem (h : Hdr) (f : SF)
  /-- SREMU (R340). -/
  | sremu (h : Hdr) (f : SF)
  /-- SAND (R339). -/
  | sand (h : Hdr) (f : SF)
  /-- SOR (R339). -/
  | sor (h : Hdr) (f : SF)
  /-- SXOR (R339). -/
  | sxor (h : Hdr) (f : SF)
  /-- SNOT (R339). -/
  | snot (h : Hdr) (f : SF)
  /-- SSHL (R339). -/
  | sshl (h : Hdr) (f : SF)
  /-- SSHR (R339). -/
  | sshr (h : Hdr) (f : SF)
  /-- SSAR (R339). -/
  | ssar (h : Hdr) (f : SF)
  /-- SMIN (R339). -/
  | smin (h : Hdr) (f : SF)
  /-- SMINU (R339). -/
  | sminu (h : Hdr) (f : SF)
  /-- SMAX (R339). -/
  | smax (h : Hdr) (f : SF)
  /-- SMAXU (R339). -/
  | smaxu (h : Hdr) (f : SF)
  /-- SCMP (R341). -/
  | scmp (h : Hdr) (f : SF)
  /-- SSEL (R341). -/
  | ssel (h : Hdr) (f : SF)
  /-- SMOV (R342). -/
  | smov (h : Hdr) (f : SF)
  /-- SMOVLO (R342). -/
  | smovlo (h : Hdr) (f : SF)
  /-- SMOVHI (R342). -/
  | smovhi (h : Hdr) (f : SF)
  /-- SBFX (R343). -/
  | sbfx (h : Hdr) (f : SF)
  /-- SBFI (R343). -/
  | sbfi (h : Hdr) (f : SF)
  /-- SCLZ (R339). -/
  | sclz (h : Hdr) (f : SF)
  /-- SPOPC (R339). -/
  | spopc (h : Hdr) (f : SF)
  /-- SLEA (R344). -/
  | slea (h : Hdr) (f : SF)
  /-- SRD (R345). -/
  | srd (h : Hdr) (f : SF)
  /-- REGGROW (R426). -/
  | reggrow (h : Hdr) (f : SF)
  /-- REGSHRINK (R427). -/
  | regshrink (h : Hdr) (f : SF)
  /-- BATGET (R428). -/
  | batget (h : Hdr) (f : SF)
  /-- BATPASS (R428). -/
  | batpass (h : Hdr) (f : SF)
  /-- TSKGET (R429). -/
  | tskget (h : Hdr) (f : SF)
  /-- PROG (R430). -/
  | prog (h : Hdr) (f : SF)
  /-- YIELDT (R431). -/
  | yieldt (h : Hdr) (f : SF)
  /-- PAIR (R347). -/
  | pair (h : Hdr) (f : PR)
  /-- LD (R403). -/
  | ld (h : Hdr) (f : MF)
  /-- ST (R403). -/
  | st (h : Hdr) (f : MF)
  /-- SLD (R404). -/
  | sld (h : Hdr) (f : MF)
  /-- SST (R404). -/
  | sst (h : Hdr) (f : MF)
  /-- ATOM_ADD (R405). -/
  | atomAdd (h : Hdr) (f : MF)
  /-- ATOM_MIN (R405). -/
  | atomMin (h : Hdr) (f : MF)
  /-- ATOM_MINU (R405). -/
  | atomMinu (h : Hdr) (f : MF)
  /-- ATOM_MAX (R405). -/
  | atomMax (h : Hdr) (f : MF)
  /-- ATOM_MAXU (R405). -/
  | atomMaxu (h : Hdr) (f : MF)
  /-- ATOM_AND (R405). -/
  | atomAnd (h : Hdr) (f : MF)
  /-- ATOM_OR (R405). -/
  | atomOr (h : Hdr) (f : MF)
  /-- ATOM_XOR (R405). -/
  | atomXor (h : Hdr) (f : MF)
  /-- ATOM_EXCH (R405). -/
  | atomExch (h : Hdr) (f : MF)
  /-- ATOM_CAS (R406). -/
  | atomCas (h : Hdr) (f : MF)
  /-- ATOM_FADD (R408). -/
  | atomFadd (h : Hdr) (f : MF)
  /-- ATOM_FMIN (R405). -/
  | atomFmin (h : Hdr) (f : MF)
  /-- ATOM_FMAX (R405). -/
  | atomFmax (h : Hdr) (f : MF)
  /-- CTRADD (R409). -/
  | ctradd (h : Hdr) (f : MF)
  /-- CTRWAIT (R410). -/
  | ctrwait (h : Hdr) (f : MF)
  /-- CTRRD (R411). -/
  | ctrrd (h : Hdr) (f : MF)
  /-- QPUSH (R413). -/
  | qpush (h : Hdr) (f : MF)
  /-- QPOP (R414). -/
  | qpop (h : Hdr) (f : MF)
  /-- WAITK (R415). -/
  | waitk (h : Hdr) (f : MF)
  /-- PF (R416). -/
  | pf (h : Hdr) (f : MF)
  /-- FENCE (R417). -/
  | fence (h : Hdr) (f : MF)
  /-- CPA_G2S (R420). -/
  | cpaG2S (h : Hdr) (f : CP)
  /-- CPA_S2G (R420). -/
  | cpaS2G (h : Hdr) (f : CP)
  /-- CPA_G2G (R420). -/
  | cpaG2G (h : Hdr) (f : CP)
  /-- CPA_S2S (R420). -/
  | cpaS2S (h : Hdr) (f : CP)
  /-- CPAV_GLOBAL (R421). -/
  | cpavGlobal (h : Hdr) (f : CP)
  /-- CPAV_SCRATCHPAD (R421). -/
  | cpavScratchpad (h : Hdr) (f : CP)
  /-- CPT_G2S (R422). -/
  | cptG2S (h : Hdr) (f : CP)
  /-- CPT_S2G (R422). -/
  | cptS2G (h : Hdr) (f : CP)
  /-- CPM_GLOBAL (R423). -/
  | cpmGlobal (h : Hdr) (f : CP)
  /-- CPM_SCRATCHPAD (R423). -/
  | cpmScratchpad (h : Hdr) (f : CP)
  /-- NOP (R349). -/
  | nop (h : Hdr) (f : CF)
  /-- BRA (R349). -/
  | bra (h : Hdr) (f : CF)
  /-- BRQ (R349). -/
  | brq (h : Hdr) (f : CF)
  /-- JMP (R349). -/
  | jmp (h : Hdr) (f : CF)
  /-- JMPV (R349). -/
  | jmpv (h : Hdr) (f : CF)
  /-- CALL (R349). -/
  | call (h : Hdr) (f : CF)
  /-- CALLI (R349). -/
  | calli (h : Hdr) (f : CF)
  /-- RET (R349). -/
  | ret (h : Hdr) (f : CF)
  /-- EXIT (R351). -/
  | exitWord (h : Hdr) (f : CF)
  /-- TRAP (R349). -/
  | trapWord (h : Hdr) (f : CF)
  /-- SYSCALL (R350). -/
  | syscall (h : Hdr) (f : CF)
  /-- BKPT (R349). -/
  | bkpt (h : Hdr) (f : CF)
  /-- RUNEND (R352). -/
  | runend (h : Hdr) (f : CF)
  /-- TREE (R356). -/
  | tree (h : Hdr) (f : TF)
  /-- MMA (R441). -/
  | mma (h : Hdr) (f : XF)
  /-- MACCLD (R446). -/
  | maccld (h : Hdr) (f : XF)
  /-- MACCST (R446). -/
  | maccst (h : Hdr) (f : XF)
  /-- MCVT (R447). -/
  | mcvt (h : Hdr) (f : XF)
  /-- SHPSET (R439). -/
  | shpset (h : Hdr) (f : XF)
  /-- SMOOTH (R439). -/
  | smooth (h : Hdr) (f : XF)
  /-- TTQ (R449). -/
  | ttq (h : Hdr) (f : XF)
  /-- TTWAIT (R452). -/
  | ttwait (h : Hdr) (f : XF)
  /-- NZSCAN (R453). -/
  | nzscan (h : Hdr) (f : XF)
  /-- COLL (R455). -/
  | coll (h : Hdr) (f : XF)
  /-- COLLW (R459). -/
  | collw (h : Hdr) (f : XF)
  /-- CRFCFG (R216). -/
  | crfcfg (h : Hdr) (f : XF)
  /-- CRFROUTE (R217). -/
  | crfroute (h : Hdr) (f : XF)
  /-- CRFDEP (R219). -/
  | crfdep (h : Hdr) (f : XF)
  /-- CRFSTAT (R228). -/
  | crfstat (h : Hdr) (f : XF)
  /-- CRFDROP (R224). -/
  | crfdrop (h : Hdr) (f : XF)
  /-- SFALOAD (R199). -/
  | sfaload (h : Hdr) (f : XF)
  /-- SFACLAMP (R203). -/
  | sfaclamp (h : Hdr) (f : XF)
  /-- SFASEED (R205). -/
  | sfaseed (h : Hdr) (f : XF)
  /-- SFASWEEP (R201). -/
  | sfasweep (h : Hdr) (f : XF)
  /-- SFAREAD (R207). -/
  | sfaread (h : Hdr) (f : XF)
  /-- SFASTAT (R212). -/
  | sfastat (h : Hdr) (f : XF)
  /-- TRAPRET (R363). -/
  | trapret (h : Hdr) (f : YF)
  /-- CTLRD (R361). -/
  | ctlrd (h : Hdr) (f : YF)
  /-- CTLWR (R362). -/
  | ctlwr (h : Hdr) (f : YF)
  /-- SIGRD (R365). -/
  | sigrd (h : Hdr) (f : YF)
  /-- SMPCTL (R366). -/
  | smpctl (h : Hdr) (f : YF)
  /-- TLBINV (R367). -/
  | tlbinv (h : Hdr) (f : YF)
  /-- TLBINVALL (R367). -/
  | tlbinvall (h : Hdr) (f : YF)
  /-- CWB (R368). -/
  | cwb (h : Hdr) (f : YF)
  /-- CINV (R368). -/
  | cinv (h : Hdr) (f : YF)
  /-- HALT (R364). -/
  | halt (h : Hdr) (f : YF)
  /-- STRICT (R369). -/
  | strict (h : Hdr) (f : YF)
  /-- PWR_OK_HIGH (R20). -/
  | pwrOkHigh
  /-- PERST_N_DEASSERT (R20). -/
  | perstNDeassert
  /-- RAIL_FAULT (R21). -/
  | railFault
  /-- POWER_DOWN (R21). -/
  | powerDown
  /-- THERMAL_HOLD (R23). -/
  | thermalHold
  /-- THERMAL_TRIP (R23). -/
  | thermalTrip
  /-- THERMAL_EVENT (R23). -/
  | thermalEvent
  /-- SVB_NAK (R18). -/
  | svbNak
  /-- VOLTAGE_SETTLED (R94). -/
  | voltageSettled
  /-- FREQUENCY_STEP_END (R95). -/
  | frequencyStepEnd
  /-- IDENT (R26). -/
  | ident
  /-- STATE (R26). -/
  | stateCode
  /-- TMAX (R26). -/
  | tmax
  /-- PWR (R26). -/
  | pwr
  /-- PWR_REFRESH (R26). -/
  | pwrRefresh
  /-- CLMASK (R26). -/
  | clmask
  /-- ALERT (R26). -/
  | alertReg
  /-- SMB_UNKNOWN_CODE (R26). -/
  | smbUnknownCode
  /-- PORT_ENABLE (R34). -/
  | portEnable
  /-- PORT_DISABLE (R34). -/
  | portDisable
  /-- PORT_MODE_SET (R31). -/
  | portModeSet
  /-- PORT_TRAINED (R27). -/
  | portTrained
  /-- DATA_FLIT_RECEIVE (R29). -/
  | dataFlitReceive
  /-- ACK_FLIT_RECEIVE (R29). -/
  | ackFlitReceive
  /-- REPLAY_REQUEST (R29). -/
  | replayRequest
  /-- ACK_TIMER (R29). -/
  | ackTimer
  /-- RETRAIN_DONE (R29). -/
  | retrainDone
  /-- STREAM_FLIT_RECEIVE (R33). -/
  | streamFlitReceive
  /-- STREAM_ENTRY_WRITE (R32). -/
  | streamEntryWrite
  /-- BOOT_VERIFY (R37). -/
  | bootVerify
  /-- CONFIG_REQUEST (R38). -/
  | configRequest
  /-- RCVGO (R39). -/
  | rcvgo
  /-- GET_VERSION (R40). -/
  | getVersion
  /-- GET_CAPABILITIES (R40). -/
  | getCapabilities
  /-- NEGOTIATE_ALGORITHMS (R40). -/
  | negotiateAlgorithms
  /-- GET_DIGESTS (R40). -/
  | getDigests
  /-- GET_CERTIFICATE (R40). -/
  | getCertificate
  /-- CHALLENGE (R40). -/
  | challenge
  /-- GET_MEASUREMENTS (R40). -/
  | getMeasurements
  /-- SPDM_UNSUPPORTED_REQUEST (R40). -/
  | spdmUnsupportedRequest
  /-- CREATE (R42). -/
  | create
  /-- MODIFY (R42). -/
  | modify
  /-- START (R42). -/
  | start
  /-- STOP (R42). -/
  | stop
  /-- PARTITION_STOPPED (R45). -/
  | partitionStopped
  /-- DELETE (R42). -/
  | delete
  /-- SETWIN (R42). -/
  | setwin
  /-- QUERY (R42). -/
  | query
  /-- MAILBOX_UNKNOWN_CMD (R42). -/
  | mailboxUnknownCmd
  /-- GET_INFO (R43). -/
  | getInfo
  /-- SET_ROOT (R43). -/
  | setRoot
  /-- SET_TRAP_HART (R43). -/
  | setTrapHart
  /-- SET_WBASE (R43). -/
  | setWbase
  /-- GET_BLKACC (R43). -/
  | getBlkacc
  /-- SBI_UNKNOWN_FUNCTION (R43). -/
  | sbiUnknownFunction
  /-- BAR4_READ (R48). -/
  | bar4Read
  /-- BAR4_WRITE (R48). -/
  | bar4Write
  /-- REGISTER_WRITE (R7). -/
  | registerWrite
  /-- W1C_CLEAR (R7). -/
  | w1cClear
  /-- QUEUE_ENABLE (R51). -/
  | queueEnable
  /-- QUEUE_DISABLE (R413). -/
  | queueDisable
  /-- DOORBELL (R52). -/
  | doorbell
  /-- LAUNCH_RECORD_CONSUME (R54). -/
  | launchRecordConsume
  /-- GRID_END (R58). -/
  | gridEnd
  /-- DISPATCH_DECISION (R65). -/
  | dispatchDecision
  /-- INDEX_ORDER_EVICTION (R70). -/
  | indexOrderEviction
  /-- RESTORE_COMPLETE (R88). -/
  | restoreComplete
  /-- TASK_SPLIT (R79). -/
  | taskSplit
  /-- PREEMPT (R86). -/
  | preempt
  /-- RELEASE_HELD (R86). -/
  | releaseHeld
  /-- PREEMPT_ESTIMATE (R87). -/
  | preemptEstimate
  /-- DRAIN_DEADLINE (R88). -/
  | drainDeadline
  /-- SAVE_COMPLETE (R88). -/
  | saveComplete
  /-- OPCLS_WRITE (R91). -/
  | opclsWrite
  /-- POOL_REASSIGN (R93). -/
  | poolReassign
  /-- BOOST_REFILL (R95). -/
  | boostRefill
  /-- RUN_START (R101). -/
  | runStart
  /-- LONG_LATENCY_RESULT (R107). -/
  | longLatencyResult
  /-- TRAP_RECORD (R268). -/
  | trapRecord
  /-- SENIORITY_SAVE (R115). -/
  | senioritySave
  /-- FROST (R118). -/
  | frost
  /-- THAW (R119). -/
  | thaw
  /-- BAROMETER_TICK (R121). -/
  | barometerTick
  /-- STALL_SAMPLE (R121). -/
  | stallSample
  /-- DRAFT_TICK (R124). -/
  | draftTick
  /-- DRAFT_STOP (R125). -/
  | draftStop
  /-- DRAFT_ABANDON (R125). -/
  | draftAbandon
  /-- DRAFT_RELEASE (R125). -/
  | draftRelease
  /-- COPY_LANDING (R137). -/
  | copyLanding
  /-- MULTICAST_DELIVERY (R149). -/
  | multicastDelivery
  /-- REMOTE_ACCESS (R150). -/
  | remoteAccess
  /-- CPAV_COMMIT (R146). -/
  | cpavCommit
  /-- TLB_WALK (R153). -/
  | tlbWalk
  /-- ATOMIC_EXECUTE (R160). -/
  | atomicExecute
  /-- SIDE_LOG_RETRY (R157). -/
  | sideLogRetry
  /-- ATOMIC_TOKEN_PASS (R257). -/
  | atomicTokenPass
  /-- SFA_LOAD_RUN (R199). -/
  | sfaLoadRun
  /-- SFA_CLAMP_RUN (R203). -/
  | sfaClampRun
  /-- SFA_SEED_RUN (R205). -/
  | sfaSeedRun
  /-- SFA_COLOUR_STEP (R201). -/
  | sfaColourStep
  /-- SFA_READ_RUN (R207). -/
  | sfaReadRun
  /-- DEPOSIT_ARRIVAL (R221). -/
  | depositArrival
  /-- DEPOSIT_LANDED (R221). -/
  | depositLanded
  /-- SLOT_DEADLINE (R223). -/
  | slotDeadline
  /-- SOFT_ERROR (R260). -/
  | softError
  /-- CKPT0_GO (R265). -/
  | ckpt0Go
  /-- TRAP_RING_SET (R483). -/
  | trapRingSet
  /-- DBGSEL_GO (R273). -/
  | dbgselGo
  /-- TRACE_ARM (R278). -/
  | traceArm
  /-- SAMPLING_ENABLE (R279). -/
  | samplingEnable
  /-- SAMPLE_RECORD (R280). -/
  | sampleRecord
  /-- HANG_CHECK (R281). -/
  | hangCheck
  /-- ICACHE_FILL (R286). -/
  | icacheFill
  /-- RUNEND_EXPIRY (R352). -/
  | runendExpiry
  /-- MATRIX_ENGINE_EXEC (R436). -/
  | matrixEngineExec
  /-- MACRO_OP (R451). -/
  | macroOp
  /-- NZS_RUN (R454). -/
  | nzsRun
  /-- COLL_FLIT_ARRIVAL (R456). -/
  | collFlitArrival
  /-- COLL_STEP_TIMEOUT (R458). -/
  | collStepTimeout
  /-- COLL_RESULT_TIMEOUT (R458). -/
  | collResultTimeout
  /-- QPUSH_SLOT_WRITE (R413). -/
  | qpushSlotWrite
  /-- QPOP_ENTRY_COPY (R414). -/
  | qpopEntryCopy
  /-- THERMAL_HOLD_END (R23). -/
  | thermalHoldEnd
  deriving DecidableEq, Repr

end Sys2Proof
end

