-- ==== Sys2Proof/Machine/Fields.lean ====
section
/-! DEFINITION. The reserved-field rules of every word (R291 to R293 and the fate tables R346, R347, R353, R370,
R375, R398, R418, R424, R433, R435, R463): which fields an opcode uses and which values it admits, and the bit
that a reserved-field trap reports. Only what the word's own bits decide stands here; checks against the state
(budgets, slots, scalar values) stand with the meanings. -/

namespace Sys2Proof

/-- The least of some bit positions. -/
def minBit : List (Option Nat) → Option Nat
  | [] => none
  | none :: l => minBit l
  | some b :: l =>
    match minBit l with
    | none => some b
    | some c => some (min b c)

/-- A field at bit `lo` that must be zero (R293): its lowest set bit offends. -/
def mbz {w : Nat} (lo : Nat) (v : BitVec w) : Option Nat :=
  ((List.range w).find? fun i => v.getLsbD i).map (lo + ·)

/-- A one-bit field that must be zero. -/
def mbz1 (lo : Nat) (b : Bool) : Option Nat := if b then some lo else none

/-- A field at bit `lo` whose value is admitted only when `ok` holds: its lowest bit offends (R375; log 10). -/
def adm (lo : Nat) (ok : Bool) : Option Nat := if ok then none else some lo

/-- A field that is checked for zero only when the opcode does not use it. -/
def zeroOr {w : Nat} (used : Bool) (lo : Nat) (v : BitVec w) : Option Nat := if used then none else mbz lo v

/-- R291: may the instruction carry a lane guard. -/
def Instr.laneGuard : Instr → Bool
  | .bra _ _ | .jmp _ _ | .jmpv _ _ | .call _ _ | .calli _ _ | .ret _ _ | .exitWord _ _ => true
  | .ld _ _ | .st _ _ | .sld _ _ | .sst _ _ | .atomAdd _ _ | .atomMin _ _ | .atomMinu _ _ | .atomMax _ _
  | .atomMaxu _ _ | .atomAnd _ _ | .atomOr _ _ | .atomXor _ _ | .atomExch _ _ | .atomCas _ _ | .atomFadd _ _
  | .atomFmin _ _ | .atomFmax _ _ | .ctradd _ _ | .ctrwait _ _ | .ctrrd _ _ | .qpush _ _ | .qpop _ _
  | .waitk _ _ | .pf _ _ | .fence _ _ | .cpaG2S _ _ | .cpaS2G _ _ | .cpaG2G _ _ | .cpaS2S _ _
  | .cpavGlobal _ _ | .cpavScratchpad _ _ | .cptG2S _ _ | .cptS2G _ _ | .cpmGlobal _ _ | .cpmScratchpad _ _ => true
  | .tree _ _ => true
  | .vadd _ _ | .vsub _ _ | .vmul _ _ | .vmulh _ _ | .vmulhu _ _ | .vmad _ _ | .vand _ _ | .vor _ _ | .vxor _ _
  | .vnot _ _ | .vshl _ _ | .vshr _ _ | .vsar _ _ | .vmin _ _ | .vminu _ _ | .vmax _ _ | .vmaxu _ _ | .vabs _ _
  | .vneg _ _ | .vmov _ _ | .vsel _ _ | .vcmp _ _ | .vpopc _ _ | .vclz _ _ | .vfadd _ _ | .vfsub _ _ | .vfmul _ _
  | .vfma _ _ | .vfmin _ _ | .vfmax _ _ | .vfneg _ _ | .vfabs _ _ | .vfcmp _ _ | .vfclass _ _ | .vfrnd _ _
  | .vfdiv _ _ | .vexp2 _ _ | .vlog2 _ _ | .vrcp _ _ | .vrsq _ _ | .vsqrt _ _ | .vsinpi _ _ | .vcospi _ _
  | .vtanh _ _ | .vsigm _ _ | .vcvt _ _ | .vshuf _ _ | .vbcast _ _ | .vlaneid _ _ | .vballot _ _ | .vany _ _
  | .vall _ _ | .vred _ _ | .vscan _ _ | .vfred _ _ | .vfscan _ _ | .vcvtbsPack _ _ | .vcvtbsUnpack _ _ => true
  | .vaddImm _ _ | .vmulImm _ _ | .vandImm _ _ | .vorImm _ _ | .vxorImm _ _ | .vshlImm _ _ | .vshrImm _ _
  | .vsarImm _ _ | .vminImm _ _ | .vminuImm _ _ | .vmaxImm _ _ | .vmaxuImm _ _ | .vcmpImm _ _ | .vmovImm _ _
  | .vfaddImm _ _ | .vfmulImm _ _ | .vfminImm _ _ | .vfmaxImm _ _ | .vfcmpImm _ _ | .vmovFloatImm _ _ => true
  | _ => false

/-- R309: a load arc. -/
def Arc.isLoad (a : Arc) : Bool := a.aop == 0x20 || a.aop == 0x21 || a.aop == 0x22 || a.aop == 0x23
/-- R309: a store arc. -/
def Arc.isStore (a : Arc) : Bool := a.aop == 0x28 || a.aop == 0x29 || a.aop == 0x2A || a.aop == 0x2B
/-- R309: an arc with a memory access. -/
def Arc.isMem (a : Arc) : Bool := a.isLoad || a.isStore
/-- R309: an 8-byte arc. -/
def Arc.isWide (a : Arc) : Bool := a.aop == 0x21 || a.aop == 0x23 || a.aop == 0x29 || a.aop == 0x2B
/-- R309: an arc to the scratchpad. -/
def Arc.isSpad (a : Arc) : Bool := a.aop == 0x22 || a.aop == 0x23 || a.aop == 0x2A || a.aop == 0x2B

/-- The six arc slots of a tree. -/
def TF.arcs (f : TF) : List Arc := [f.a0, f.a1, f.a2, f.a3, f.a4, f.a5]

/-- R292, R313, R317: is the instruction long-latency (marked in the opcode maps). -/
def Instr.isLong : Instr → Bool
  | .vfdiv _ _ | .vexp2 _ _ | .vlog2 _ _ | .vrcp _ _ | .vrsq _ _ | .vsqrt _ _ | .vsinpi _ _ | .vcospi _ _
  | .vtanh _ _ | .vsigm _ _ | .vred _ _ | .vscan _ _ | .vfred _ _ | .vfscan _ _ | .vcvtbsPack _ _ => true
  | .sdiv _ _ | .sdivu _ _ | .srem _ _ | .sremu _ _ => true
  | .ld _ _ | .sld _ _ | .ctrrd _ _ | .qpop _ _ => true
  | .atomAdd _ f | .atomMin _ f | .atomMinu _ f | .atomMax _ f | .atomMaxu _ f | .atomAnd _ f | .atomOr _ f
  | .atomXor _ f | .atomExch _ f | .atomCas _ f | .atomFadd _ f | .atomFmin _ f | .atomFmax _ f => !f.sx
  | .crfroute _ _ | .crfdrop _ _ => true
  | .tree _ f => f.arcs.any Arc.isLoad
  | _ => false

/-- R291, R292: the common-field checks, in the order of the fate tables: 81, 86, 87. -/
def Hdr.offence (h : Hdr) (lane long : Bool) : Option Nat :=
  let g := h.grd.toNat
  if g ≥ 24 || (!lane && 0 < g && g < 16) then some 81
  else if h.gn && g == 0 then some 86
  else if h.la != 0 && !long then some 87
  else none

/-! ### V3 and VI -/

/-- Which fields of a V3 word an opcode uses beside VC (ignored when not read, R293). -/
structure V3Use where
  vd : Bool := true
  va : Bool := true
  vb : Bool := false
  ty : Bool := false
  rm : Bool := false
  sat : Bool := false
  ftz : Bool := false
  pd : Bool := false
  bs : Bool := false
  ty2 : Bool := false
  slot : Bool := false
  imm : Bool := false

/-- R293: the unused fields of a V3 word that are not zero. -/
def V3.unused (f : V3) (u : V3Use) : List (Option Nat) :=
  [zeroOr u.vd 63 f.vd, zeroOr u.va 55 f.va, zeroOr u.vb 47 f.vb, zeroOr u.ty 34 f.ty, zeroOr u.rm 31 f.rm,
   mbz1 30 (f.sat && !u.sat), mbz1 29 (f.ftz && !u.ftz), zeroOr u.pd 25 f.pd, mbz1 24 (f.bs && !u.bs),
   zeroOr u.ty2 19 f.ty2, zeroOr u.slot 16 f.slot, mbz1 15 (f.usl && !u.slot), zeroOr u.imm 7 f.imm8]

/-- R294: with BS = 1, VB[7:6] are zero. -/
def V3.scalarVb (f : V3) : Option Nat := if f.bs then mbz 53 (f.vb.extractLsb' 6 2) else none

/-- R384: TY of a float word is 0x00, 0x01 or 0x02. -/
def floatTy (ty : BitVec 5) : Bool := ty == 0 || ty == 1 || ty == 2
/-- R377: TY and SAT of an integer word that admits `.sat`. -/
def satTy (u32 : Bool) (ty : BitVec 5) (sat : Bool) : Bool := ty == 0 || (u32 && sat && ty == 0x0B)

/-- R230: is TY a format code. -/
def knownTy (ty : BitVec 5) : Bool :=
  ty.toNat ≤ 0x06 || (0x08 ≤ ty.toNat && ty.toNat ≤ 0x0B) || ty == 0x10

/-- R393: the elements of a format in a lane; 1 for the 32-bit formats. -/
def elemCount (ty : BitVec 5) : Nat :=
  match ty.toNat with
  | 0x01 | 0x02 => 2
  | 0x03 | 0x04 | 0x05 | 0x08 => 4
  | 0x06 | 0x09 => 8
  | 0x10 => 16
  | _ => 1

/-- R246, R394: is the format FP32, FP16 or BF16. -/
def wideTy (ty : BitVec 5) : Bool := floatTy ty
/-- R395: may a conversion into the format round stochastically. -/
def stochTy (ty : BitVec 5) : Bool :=
  ty == 0x03 || ty == 0x04 || ty == 0x05 || ty == 0x06 || ty == 0x08 || ty == 0x09

/-- R376: a two-source integer word with no type. -/
def V3.tiersInt (f : V3) : List (List (Option Nat)) :=
  [f.unused { vb := true, bs := true } ++ [f.scalarVb]]

/-- R376, R377: a two-source integer word that admits `.sat`. -/
def V3.tiersIntSat (f : V3) : List (List (Option Nat)) :=
  [f.unused { vb := true, bs := true, ty := true, sat := true } ++ [f.scalarVb],
   [adm 34 (satTy true f.ty f.sat)]]

/-- R376: a one-source integer word. -/
def V3.tiersInt1 (f : V3) : List (List (Option Nat)) := [f.unused {}]

/-- R376, R377: `vabs`, `vneg`. -/
def V3.tiersAbs (f : V3) : List (List (Option Nat)) :=
  [f.unused { ty := true, sat := true }, [adm 34 (satTy false f.ty f.sat)]]

/-- R376: `vmov`. -/
def V3.tiersMov (f : V3) : List (List (Option Nat)) :=
  [f.unused { vb := true, bs := true } ++
    [f.scalarVb, if f.bs then mbz 55 f.va else mbz 47 f.vb]]

/-- R376: `vsel`. -/
def V3.tiersSel (f : V3) : List (List (Option Nat)) :=
  [f.unused { vb := true, bs := true, imm := true } ++ [f.scalarVb], [mbz 11 (f.imm8.extractLsb' 4 4)]]

/-- R378: a relation code. -/
def relOk (r : BitVec 3) : Bool := r.toNat ≤ 5

/-- R376, R378: `vcmp`. -/
def V3.tiersCmp (f : V3) : List (List (Option Nat)) :=
  [f.unused { vd := false, vb := true, bs := true, pd := true, imm := true } ++ [f.scalarVb],
   [adm 25 (f.pd != 0), adm 7 (relOk (f.imm8.extractLsb' 0 3)), mbz 11 (f.imm8.extractLsb' 4 4)]]

/-- R385, R389: a two-source float word that rounds. -/
def V3.tiersFloat (f : V3) : List (List (Option Nat)) :=
  [f.unused { vb := true, bs := true, ty := true, rm := true, sat := true, ftz := true } ++ [f.scalarVb],
   [adm 34 (floatTy f.ty), adm 31 (f.rm.toNat ≤ 3)]]

/-- R385: `vfmin`, `vfmax`. -/
def V3.tiersFMin (f : V3) : List (List (Option Nat)) :=
  [f.unused { vb := true, bs := true, ty := true, ftz := true } ++ [f.scalarVb], [adm 34 (floatTy f.ty)]]

/-- R385: `vfneg`, `vfabs`. -/
def V3.tiersFNeg (f : V3) : List (List (Option Nat)) :=
  [f.unused { ty := true, ftz := true }, [adm 34 (floatTy f.ty)]]

/-- R386: `vfcmp`. -/
def V3.tiersFCmp (f : V3) : List (List (Option Nat)) :=
  [f.unused { vd := false, vb := true, bs := true, ty := true, ftz := true, pd := true, imm := true } ++
    [f.scalarVb],
   [adm 34 (f.ty == 0), adm 25 (f.pd != 0), adm 7 (relOk (f.imm8.extractLsb' 0 3)),
    mbz 10 (f.imm8.extractLsb' 3 5)]]

/-- R387: `vfclass`; PD selects the form. -/
def V3.tiersFClass (f : V3) : List (List (Option Nat)) :=
  [f.unused { ty := true, ftz := true, pd := true, imm := true } ++
    [if f.pd == 0 then mbz 7 f.imm8 else mbz 63 f.vd],
   [adm 34 (if f.pd == 0 then floatTy f.ty else f.ty == 0)]]

/-- R388: `vfrnd`. -/
def V3.tiersFRnd (f : V3) : List (List (Option Nat)) :=
  [f.unused { ty := true, rm := true, ftz := true }, [adm 34 (floatTy f.ty), adm 31 (f.rm.toNat ≤ 3)]]

/-- R390: the correctly rounded functions. -/
def V3.tiersFun (f : V3) : List (List (Option Nat)) :=
  [f.unused { ty := true, rm := true, sat := true, ftz := true },
   [adm 34 (floatTy f.ty), adm 31 (f.rm.toNat ≤ 3)]]

/-- R394, R395, R398: `vcvt`. -/
def V3.tiersCvt (f : V3) : List (List (Option Nat)) :=
  [f.unused { vb := true, ty := true, rm := true, sat := true, ftz := true, bs := true, ty2 := true, imm := true }
    ++ [if f.bs then f.scalarVb else mbz 47 f.vb],
   [adm 34 (knownTy f.ty && f.ty != 0x10), adm 19 (knownTy f.ty2),
    adm 31 (f.rm.toNat ≤ 3 || (f.rm == 4 && stochTy f.ty)), adm 24 (f.bs == (f.rm == 4)),
    mbz1 30 (f.sat && !wideTy f.ty),
    adm 7 ((f.imm8.extractLsb' 0 4).toNat < elemCount f.ty2),
    adm 11 ((f.imm8.extractLsb' 4 4).toNat < elemCount f.ty)]]

/-- R381: `vshuf`. -/
def V3.tiersShuf (f : V3) : List (List (Option Nat)) :=
  [f.unused { vb := true, bs := true, imm := true } ++
    [f.scalarVb, if f.imm8 == 0 then none else mbz 47 f.vb, mbz1 24 (f.bs && f.imm8 != 0)]]

/-- R380: `vbcast`. -/
def V3.tiersBcast (f : V3) : List (List (Option Nat)) :=
  [f.unused { vb := true, bs := true, imm := true } ++
    [f.scalarVb, if f.bs then mbz 7 f.imm8 else mbz 47 f.vb],
   [adm 7 (f.imm8.toNat ≤ 127)]]

/-- R380: `vlaneid`. -/
def V3.tiersLaneid (f : V3) : List (List (Option Nat)) := [f.unused { va := false }]

/-- R382: `vballot`. -/
def V3.tiersBallot (f : V3) : List (List (Option Nat)) :=
  [f.unused {} ++ [mbz 69 (f.vd.extractLsb' 6 2), mbz 59 (f.va.extractLsb' 4 4),
    adm 63 (f.vd.extractLsb' 0 6 != 0 && !f.vd.getLsbD 0)]]

/-- R382: `vany`, `vall`. -/
def V3.tiersAny (f : V3) : List (List (Option Nat)) :=
  [f.unused {} ++ [mbz 66 (f.vd.extractLsb' 3 5), mbz 59 (f.va.extractLsb' 4 4),
    adm 63 (f.vd.extractLsb' 0 3 != 7)]]

/-- R383, R392: the IMM8 and VB of a reduction (`red`) or a scan with `ops` operation codes. -/
def V3.redSel (f : V3) (red : Bool) (ops : Nat) : List (Option Nat) :=
  [adm 7 ((f.imm8.extractLsb' 0 4).toNat < ops), mbz1 11 (red && f.imm8.getLsbD 4),
   mbz1 12 (!red && f.imm8.getLsbD 5), mbz 13 (f.imm8.extractLsb' 6 2)]

/-- R383: VB is zero unless the scalar copy is selected, and then names a scalar. -/
def V3.redVb (f : V3) (red : Bool) : Option Nat :=
  if red && f.imm8.getLsbD 5 then mbz 53 (f.vb.extractLsb' 6 2) else mbz 47 f.vb

/-- R383: `vred`, `vscan`. -/
def V3.tiersRed (f : V3) (red : Bool) : List (List (Option Nat)) :=
  [f.unused { vb := true, imm := true } ++ [f.redVb red], f.redSel red 8]

/-- R392: `vfred`, `vfscan`. -/
def V3.tiersFRed (f : V3) (red : Bool) : List (List (Option Nat)) :=
  [f.unused { vb := true, imm := true, ty := true, sat := true, ftz := true } ++ [f.redVb red],
   adm 34 (floatTy f.ty) :: f.redSel red 3]

/-- R396: `vcvtbs` pack. -/
def V3.tiersPack (f : V3) : List (List (Option Nat)) :=
  [f.unused { vb := true, rm := true, ftz := true, slot := true, imm := true } ++
    [mbz 53 (f.vb.extractLsb' 6 2)],
   [adm 15 f.usl, adm 31 (f.rm.toNat ≤ 4)]]

/-- R397: `vcvtbs` unpack. -/
def V3.tiersUnpack (f : V3) : List (List (Option Nat)) :=
  [f.unused { vb := true, rm := true, slot := true } ++ [mbz 53 (f.vb.extractLsb' 6 2)],
   [adm 15 f.usl, adm 31 (f.rm.toNat ≤ 3)]]

/-- Which fields of a VI word an opcode uses beside IMM32. -/
structure VIUse where
  vd : Bool := true
  va : Bool := true
  ty : Bool := false
  rm : Bool := false
  sat : Bool := false
  ftz : Bool := false
  pd : Bool := false

/-- R293: the unused fields of a VI word that are not zero. -/
def VI.unused (f : VI) (u : VIUse) : List (Option Nat) :=
  [zeroOr u.vd 63 f.vd, zeroOr u.va 55 f.va, zeroOr u.ty 50 f.ty, zeroOr u.rm 47 f.rm,
   mbz1 46 (f.sat && !u.sat), mbz1 45 (f.ftz && !u.ftz), zeroOr u.pd 41 f.pd]

/-- R379: an integer immediate word with no type. -/
def VI.tiersInt (f : VI) : List (List (Option Nat)) := [f.unused {}]
/-- R379: `vadd`, `vmul` with an immediate. -/
def VI.tiersIntSat (f : VI) : List (List (Option Nat)) :=
  [f.unused { ty := true, sat := true }, [adm 50 (satTy true f.ty f.sat)]]
/-- R379: `vcmp` with an immediate; the relation lies in VD. -/
def VI.tiersCmp (f : VI) : List (List (Option Nat)) :=
  [f.unused { pd := true } ++ [mbz 67 (f.vd.extractLsb' 4 4)],
   [adm 63 (relOk (f.vd.extractLsb' 0 3)), adm 41 (f.pd != 0)]]
/-- R379, R391: `vmov` with an immediate. -/
def VI.tiersMov (f : VI) : List (List (Option Nat)) := [f.unused { va := false }]
/-- R391: `vfadd`, `vfmul` with an immediate. -/
def VI.tiersFloat (f : VI) : List (List (Option Nat)) :=
  [f.unused { ty := true, rm := true, sat := true, ftz := true },
   [adm 50 (floatTy f.ty), adm 47 (f.rm.toNat ≤ 3)]]
/-- R391: `vfmin`, `vfmax` with an immediate. -/
def VI.tiersFMin (f : VI) : List (List (Option Nat)) :=
  [f.unused { ty := true, ftz := true }, [adm 50 (floatTy f.ty)]]
/-- R391: `vfcmp` with an immediate. -/
def VI.tiersFCmp (f : VI) : List (List (Option Nat)) :=
  [f.unused { ty := true, ftz := true, pd := true } ++ [mbz 66 (f.vd.extractLsb' 3 5)],
   [adm 50 (f.ty == 0), adm 63 (relOk (f.vd.extractLsb' 0 3)), adm 41 (f.pd != 0)]]

/-! ### S -/

/-- Which fields of an S word an opcode uses. -/
structure SUse where
  sd : Bool := true
  sa : Bool := true
  b : Bool := false
  qd : Bool := false
  w : Bool := false
  sg : Bool := false
  pl : Bool := false
  cmp : Bool := false

/-- R293, R339: the unused fields that are not zero. `b` words take s[SB] with IS = 0 or IMM32 with IS = 1. -/
def SF.unused (f : SF) (u : SUse) : List (Option Nat) :=
  [zeroOr u.sd 65 f.sd, zeroOr u.sa 59 f.sa,
   if u.b && !f.is then none else mbz 53 f.sb,
   zeroOr u.qd 50 f.qd, mbz1 49 (f.w && !u.w), mbz1 48 (f.sg && !u.sg),
   mbz1 47 (f.is && !u.b), zeroOr u.pl 41 f.pos, zeroOr u.pl 35 f.len, zeroOr u.cmp 32 f.cmp,
   if u.b && f.is then none else mbz 0 f.imm]

/-- R339: a two-operand S word. -/
def SF.tiers2 (f : SF) : List (List (Option Nat)) := [f.unused { b := true, w := true }]
/-- R339: `snot`, `sclz`, `spopc`. -/
def SF.tiers1 (f : SF) : List (List (Option Nat)) := [f.unused { w := true }]
/-- R339, R341: `scmp`. -/
def SF.tiersCmp (f : SF) : List (List (Option Nat)) :=
  [f.unused { sd := false, b := true, w := true, sg := true, qd := true, cmp := true } ++ [adm 50 (f.qd != 7)],
   [adm 32 (relOk f.cmp)]]
/-- R339: `ssel`. -/
def SF.tiersSel (f : SF) : List (List (Option Nat)) := [f.unused { b := true, qd := true }]
/-- R339: `smov`. -/
def SF.tiersMov (f : SF) : List (List (Option Nat)) :=
  [f.unused { b := true } ++ [mbz 53 f.sb, if f.is then mbz 59 f.sa else none]]
/-- R339: the words whose operand is the immediate alone; with IS = 0 only IS offends. -/
def SF.tiersImm (f : SF) : List (List (Option Nat)) :=
  [({ f with is := true } : SF).unused { sa := false, b := true } ++ [adm 47 f.is]]
/-- R345: a selector of `srd`. -/
def srdSel (v : BitVec 32) : Bool := v.toNat ≤ 0x0B && v != 7
/-- R339, R345: `srd`. -/
def SF.tiersRd (f : SF) : List (List (Option Nat)) := f.tiersImm ++ [[adm 0 (srdSel f.imm)]]
/-- R343: the length of a bit field. -/
def SF.fieldLen (f : SF) : Nat := if f.len == 0 then 64 else f.len.toNat
/-- R339, R343: `sbfx` (`sx`) and `sbfi`. -/
def SF.tiersField (f : SF) (sx : Bool) : List (List (Option Nat)) :=
  [f.unused { pl := true, sg := sx }, [adm 35 (f.pos.toNat + f.fieldLen ≤ 64)]]
/-- R339: `slea`. -/
def SF.tiersLea (f : SF) : List (List (Option Nat)) := [f.unused { b := true, pl := true }]
/-- R425: `reggrow`. -/
def SF.tiersGrow (f : SF) : List (List (Option Nat)) := [f.unused { sa := false, b := true }]
/-- R425: `regshrink`, `batpass`. -/
def SF.tiersShrink (f : SF) : List (List (Option Nat)) := [f.unused { sd := false, sa := false, b := true }]
/-- R425: `batget`. -/
def SF.tiersBat (f : SF) : List (List (Option Nat)) := [f.unused { sd := false, sa := false }]
/-- R425, R429: `tskget`; IMM32 = 0 is the fetch form. -/
def SF.tiersTsk (f : SF) : List (List (Option Nat)) :=
  [[adm 65 (f.sd != 0 && !f.sd.getLsbD 0)] ++
    [if f.imm == 0 then mbz 59 f.sa else none, if f.imm == 0 then mbz 53 f.sb else none,
     mbz 50 f.qd, mbz1 49 f.w, mbz1 48 f.sg, mbz1 47 f.is, mbz 41 f.pos, mbz 35 f.len, mbz 32 f.cmp,
     mbz 16 (f.imm.extractLsb' 16 16)]]
/-- R425: `prog`. -/
def SF.tiersProg (f : SF) : List (List (Option Nat)) :=
  [f.unused { sd := false, sa := false, b := true, sg := true }]
/-- R425: `yieldt`. -/
def SF.tiersYield (f : SF) : List (List (Option Nat)) := [f.unused { sa := false }]

/-! ### PR -/

/-- R319: a float half-code. -/
def PR.isFloat (f : PR) : Bool := 0x09 ≤ f.vop.toNat && f.vop.toNat ≤ 0x0E

/-- R347: a pair word. -/
def PR.tiers (f : PR) : List (List (Option Nat)) :=
  [[adm 2 (f.vop == 0 || f.typ == 0 || (f.typ != 1 && f.isFloat))],
   (if f.sop == 0 then [] else
     [if f.is then mbz 53 f.sb else mbz 36 f.imm,
      if f.sop == 0x0B then (if f.is then mbz 59 f.sa else mbz 53 f.sb) else none]) ++
   (if f.vop == 0 then [] else
     [if f.bs then mbz 18 (f.vb.extractLsb' 6 2) else none,
      if f.vop == 0x08 then (if f.bs then mbz 20 f.va else mbz 12 f.vb) else none,
      if f.vop == 0x0C then none else mbz 4 f.vc,
      mbz1 1 (f.sat && !(f.vop == 1 || f.vop == 2 || (0x09 ≤ f.vop.toNat && f.vop.toNat ≤ 0x0C)))])]

/-! ### M, access layout -/

/-- R400, R401, R418: the field values of an access-layout word: its admitted sizes, whether SX and RMT are
admitted, its admitted ORD values and its use of VA. -/
def MF.common (f : MF) (sizes : List Nat) (sxOk : Bool) (ords : List Nat) (lane : Bool) : List (Option Nat) :=
  [adm 47 (f.spc != 3), adm 37 (sizes.contains f.sz.toNat), mbz1 36 (f.sx && !sxOk),
   adm 30 (ords.contains f.ord.toNat),
   adm 32 ((f.ord == 0) == (f.scp == 0) && f.scp.toNat ≤ 5),
   mbz1 29 (f.rmt && !(f.ord.getLsbD 0 && f.scp == 4 && f.spc != 1)),
   adm 41 (!f.rki || f.rk.toNat ≤ 15),
   if lane then none else mbz 55 f.va, mbz1 35 (f.av && !lane)]

/-- R400: the register field of an access of 8 or 16 bytes is even. -/
def MF.evenVd (f : MF) : Option Nat := adm 63 (f.sz.toNat < 3 || !f.vd.getLsbD 0)
/-- R400: a scalar word names its register in VD[5:0]. -/
def MF.scalarVd (f : MF) : Option Nat := mbz 69 (f.vd.extractLsb' 6 2)
/-- R409: VD is an immediate, or a scalar register with VD[6] zero. -/
def MF.amountVd (f : MF) : Option Nat := mbz1 69 (!f.vd.getLsbD 7 && f.vd.getLsbD 6)

/-- R403: `ld`. -/
def MF.tiersLd (f : MF) : List (List (Option Nat)) :=
  [f.common [0, 1, 2, 3, 4] (f.sz.toNat ≤ 1) [0, 1] true ++ [f.evenVd]]
/-- R403: `st`. -/
def MF.tiersSt (f : MF) : List (List (Option Nat)) :=
  [f.common [0, 1, 2, 3, 4] false [0, 2] true ++ [f.evenVd]]
/-- R404: `sld`. -/
def MF.tiersSld (f : MF) : List (List (Option Nat)) :=
  [f.common [0, 1, 2, 3] (f.sz.toNat ≤ 2) [0, 1] false ++ [f.scalarVd]]
/-- R404: `sst`. -/
def MF.tiersSst (f : MF) : List (List (Option Nat)) :=
  [f.common [0, 1, 2, 3] false [0, 2] false ++ [f.scalarVd]]
/-- R405, R408: an atomic of the given sizes. -/
def MF.tiersAtom (f : MF) (sizes : List Nat) : List (List (Option Nat)) :=
  [f.common sizes true (if f.sx then [0, 2] else [0, 1, 2, 3]) true ++ [f.evenVd]]
/-- R406: `atom.cas`; VD is aligned to the registers of both operands. -/
def MF.tiersCas (f : MF) : List (List (Option Nat)) :=
  [f.common [2, 3, 4] true (if f.sx then [0, 2] else [0, 1, 2, 3]) true ++
    [adm 63 (f.vd.toNat % (if f.sz == 2 then 2 else if f.sz == 3 then 4 else 8) == 0)]]
/-- R409: `ctradd`. -/
def MF.tiersCtradd (f : MF) : List (List (Option Nat)) := [f.common [3] false [0, 2] false ++ [f.amountVd]]
/-- R410: `ctrwait`. -/
def MF.tiersCtrwait (f : MF) : List (List (Option Nat)) := [f.common [3] false [0, 1] false ++ [f.amountVd]]
/-- R411: `ctrrd`. -/
def MF.tiersCtrrd (f : MF) : List (List (Option Nat)) := [f.common [3] false [0, 1] false ++ [f.scalarVd]]
/-- R412: `qpush`, `qpop`. -/
def MF.tiersQueue (f : MF) : List (List (Option Nat)) :=
  [[adm 47 (f.spc.toNat ≤ 1), mbz1 40 f.rki, mbz 37 f.sz, mbz1 36 f.sx, mbz 32 f.scp, mbz 30 f.ord, mbz1 29 f.rmt,
    mbz 55 f.va, mbz1 35 f.av, f.scalarVd]]
/-- R415: `waitk`: TW alone. -/
def MF.tiersWaitk (f : MF) : List (List (Option Nat)) :=
  [[mbz 63 f.vd, mbz 55 f.va, mbz 49 f.sb, mbz 47 f.spc, mbz 41 f.rk, mbz1 40 f.rki, mbz 37 f.sz, mbz1 36 f.sx,
    mbz1 35 f.av, mbz 32 f.scp, mbz 30 f.ord, mbz1 29 f.rmt, mbz 0 f.off]]
/-- R416, R418: `pf`; R293 makes its TW a wait mask as on every M word, never reserved (log 10). -/
def MF.tiersPf (f : MF) : List (List (Option Nat)) :=
  [[mbz 63 f.vd, mbz 47 f.spc, mbz 41 f.rk, mbz1 40 f.rki, mbz 37 f.sz, mbz 32 f.scp, mbz 30 f.ord, mbz1 29 f.rmt]]
/-- R417: `fence`: SCP alone, 1 to 5. -/
def MF.tiersFence (f : MF) : List (List (Option Nat)) :=
  [[mbz 63 f.vd, mbz 55 f.va, mbz 49 f.sb, mbz 47 f.spc, mbz 41 f.rk, mbz1 40 f.rki, mbz 37 f.sz, mbz1 36 f.sx,
    mbz1 35 f.av, adm 32 (1 ≤ f.scp.toNat && f.scp.toNat ≤ 5), mbz 30 f.ord, mbz1 29 f.rmt, mbz 0 f.off]]

/-! ### M, copy layout -/

/-- R420: `cpa`. -/
def CP.tiersCpa (f : CP) : List (List (Option Nat)) :=
  [[adm 34 (2 ≤ f.sz.toNat && f.sz.toNat ≤ 4), mbz 32 f.tq, mbz 37 f.se]]
/-- R421: `cpav`. -/
def CP.tiersCpav (f : CP) : List (List (Option Nat)) :=
  [[adm 34 (2 ≤ f.sz.toNat && f.sz.toNat ≤ 4), mbz 32 f.tq, mbz1 37 (f.se.getLsbD 0)]]
/-- R422: `cpt`. -/
def CP.tiersCpt (f : CP) : List (List (Option Nat)) :=
  [[adm 34 (f.sz.toNat ≤ 2), adm 32 (f.tq == 0 || (f.tq == 1 && f.sz == 0) || (f.tq == 2 && f.sz == 1)),
    mbz1 37 (f.se.getLsbD 0), mbz 63 f.vsrc, mbz 55 f.vdst]]
/-- R423: `cpm`. -/
def CP.tiersCpm (f : CP) : List (List (Option Nat)) :=
  [[adm 34 (2 ≤ f.sz.toNat && f.sz.toNat ≤ 4), mbz 32 f.tq]]

/-! ### C -/

/-- R293, R349: a C word with the used fields given; `dbits` is how many low bits of DISP are used. -/
def CF.tiers (f : CF) (va sx sa q : Bool) (dbits : Nat) : List (List (Option Nat)) :=
  [[zeroOr va 63 f.va, zeroOr sx 42 f.sx, zeroOr sa 36 f.sa, mbz1 35 (f.qn && !q), zeroOr q 32 f.qc,
    mbz dbits (f.disp >>> dbits)]]

/-! ### X -/

/-- Which fields of an X word an opcode uses beside TW. -/
structure XUse where
  acd : Bool := false
  aca : Bool := false
  sa : Bool := false
  sb : Bool := false
  sc : Bool := false
  shp : Bool := false
  fsa : Bool := false
  fsb : Bool := false
  flags : Bool := false
  tk : Bool := false
  rm : Bool := false
  sat : Bool := false
  imm : Bool := false

/-- R293, R434: the unused fields of an X word that are not zero. -/
def XF.unused (f : XF) (u : XUse) : List (Option Nat) :=
  [zeroOr u.acd 67 f.acd, zeroOr u.aca 63 f.aca, zeroOr u.sa 57 f.sa, zeroOr u.sb 51 f.sb, zeroOr u.sc 45 f.sc,
   zeroOr u.shp 42 f.shp, zeroOr u.fsa 39 f.fsa, zeroOr u.fsb 36 f.fsb, mbz1 35 (f.nega && !u.flags),
   mbz1 34 (f.negb && !u.flags), mbz1 33 (f.acz && !u.flags), mbz1 32 (f.spa && !u.flags),
   mbz1 31 (f.lcb && !u.flags), mbz1 30 (f.afa && !u.flags), zeroOr u.tk 27 f.tk, zeroOr u.rm 16 f.rm,
   mbz1 15 (f.sat && !u.sat), zeroOr u.imm 0 f.imm8]

/-- R440: `mma`. -/
def XF.tiersMma (f : XF) : List (List (Option Nat)) :=
  [f.unused { acd := true, aca := f.afa, shp := true, fsa := true, fsb := true, flags := true, tk := true,
              imm := true } ++
    [mbz1 32 (f.spa && f.afa), mbz1 31 (f.lcb && f.afa), mbz 0 (f.imm8.extractLsb' 0 7)]]
/-- R446: `maccld`. -/
def XF.tiersMaccld (f : XF) : List (List (Option Nat)) :=
  [f.unused { acd := true, shp := true, sa := true, sb := true, tk := true, imm := true } ++
    [mbz 0 (f.imm8.extractLsb' 0 7)]]
/-- R446: `maccst`. -/
def XF.tiersMaccst (f : XF) : List (List (Option Nat)) :=
  [f.unused { aca := true, shp := true, sa := true, sb := true, tk := true, imm := true } ++
    [mbz 0 (f.imm8.extractLsb' 0 7)]]
/-- R446, R447: `mcvt`. -/
def XF.tiersMcvt (f : XF) : List (List (Option Nat)) :=
  [f.unused { aca := true, shp := true, fsa := true, sa := true, sb := true, sc := true, rm := true, sat := true,
              tk := true, imm := true } ++
    [adm 16 (f.rm.toNat ≤ 3), mbz 1 (f.imm8.extractLsb' 1 6)]]
/-- R439: `shpset`. -/
def XF.tiersShpset (f : XF) : List (List (Option Nat)) :=
  [f.unused { shp := true, sa := true, sb := true, sc := true, imm := true } ++ [mbz 1 (f.imm8.extractLsb' 1 7)]]
/-- R439: `smooth`. -/
def XF.tiersSmooth (f : XF) : List (List (Option Nat)) :=
  [f.unused { sa := f.imm8 != 1, imm := true } ++ [mbz 1 (f.imm8.extractLsb' 1 7)]]
/-- R449, R455: `ttq`, `coll`. -/
def XF.tiersCard (f : XF) : List (List (Option Nat)) := [f.unused { sa := true, sc := true, tk := true }]
/-- R452: `ttwait`. -/
def XF.tiersWait (f : XF) : List (List (Option Nat)) := [f.unused {}]
/-- R453: `nzscan`. -/
def XF.tiersNzscan (f : XF) : List (List (Option Nat)) :=
  [f.unused { sa := true, sb := true, sc := true, tk := true, imm := true } ++
    [adm 0 (f.imm8.extractLsb' 0 2 != 3), mbz 4 (f.imm8.extractLsb' 4 4)]]
/-- R459, R460: `collw`, `crfdrop`. -/
def XF.tiersPair (f : XF) : List (List (Option Nat)) := [f.unused { sa := true, sc := true }]
/-- R460, R463: `crfcfg`, `sfaload`. -/
def XF.tiersCfg (f : XF) : List (List (Option Nat)) := [f.unused { sa := true, tk := true }]
/-- R460: `crfroute`. -/
def XF.tiersRoute (f : XF) : List (List (Option Nat)) :=
  [f.unused { acd := true, aca := true, sa := true, imm := true }]
/-- R460: `crfdep`. -/
def XF.tiersDep (f : XF) : List (List (Option Nat)) :=
  [f.unused { sa := true, sb := true, sc := true, tk := true, imm := true } ++ [mbz 1 (f.imm8.extractLsb' 1 7)]]
/-- R460, R463: `crfstat` (n below 2), `sfastat` (n below 4). -/
def XF.tiersStat (f : XF) (n : Nat) : List (List (Option Nat)) :=
  [f.unused { sc := true, imm := true } ++ [adm 0 (f.imm8.toNat < n)]]
/-- R463: `sfaclamp`. -/
def XF.tiersClamp (f : XF) : List (List (Option Nat)) :=
  [f.unused { sa := true, sb := true, tk := true, imm := true } ++ [mbz 1 (f.imm8.extractLsb' 1 7)]]
/-- R463: `sfaseed`. -/
def XF.tiersSeed (f : XF) : List (List (Option Nat)) :=
  [f.unused { sa := f.imm8 != 1, imm := true } ++ [mbz 1 (f.imm8.extractLsb' 1 7)]]
/-- R463: `sfasweep`. -/
def XF.tiersSweep (f : XF) : List (List (Option Nat)) := [f.unused { sa := true, sb := true, tk := true }]
/-- R463: `sfaread`. -/
def XF.tiersRead (f : XF) : List (List (Option Nat)) :=
  [f.unused { sa := true, tk := true, imm := true } ++
    [mbz1 2 (f.imm8.getLsbD 2 && !f.imm8.getLsbD 1), mbz 3 (f.imm8.extractLsb' 3 5)]]

/-! ### Y -/

/-- R361, R370: `ctlrd` from a group. -/
def YF.tiersCtlrd (f : YF) : List (List (Option Nat)) :=
  [[mbz 59 f.sa, mbz 0 f.imm], [adm 43 (f.creg.toNat ≤ 7)]]
/-- R365: `sigrd`. -/
def YF.tiersSigrd (f : YF) : List (List (Option Nat)) :=
  [[mbz 59 f.sa, mbz 43 f.creg, mbz 1 (f.imm.extractLsb' 1 31)]]
/-- R369: `strict`. -/
def YF.tiersStrict (f : YF) : List (List (Option Nat)) :=
  [[mbz 65 f.sd, mbz 59 f.sa, mbz 43 f.creg, mbz 2 (f.imm.extractLsb' 2 30)]]

/-! ### Trees -/

/-- A test slot is all zero. -/
def Test.isZero (t : Test) : Bool := t.kind == 0 && t.rel == 0 && t.typ == 0 && t.va == 0 && t.b == 0
/-- An arc slot is all zero. -/
def Arc.isZero (a : Arc) : Bool := a.aop == 0 && a.vd == 0 && a.va == 0 && a.b == 0

/-- R308, R312 case 2: a test within the grammar; a KIND 0 test names its register in B[7:0]. -/
def Test.ok (t : Test) : Bool :=
  t.kind != 3 && t.typ != 3 && t.rel.toNat ≤ 5 &&
  (t.kind != 2 || (t.rel.toNat ≤ 1 && t.va.toNat < 16 && t.b == 0 && t.typ == 0)) &&
  (t.kind != 0 || t.b.toNat < 256)

/-- R309, R355, R312 cases 3 to 6: an arc within the grammar; `leaf` when the arc ends in a leaf. -/
def Arc.ok (a : Arc) (leaf : Bool) : Bool :=
  let op := a.aop.toNat
  if op == 0 then a.isZero
  else if op ≤ 0x16 then
    (op != 0x0D || a.va == 0) && (!(op == 0x0F || op == 0x15 || op == 0x16) || a.b == 0)
  else if op == 0x17 || op == 0x18 then a.vd.toNat < 16 && a.va == 0 && a.b == 0
  else a.isMem && leaf && a.b.toNat < 64 && (!a.isWide || !a.vd.getLsbD 0)

/-- R311: how many tests, leaves and arcs a shape has. -/
def shapeCounts (shape : BitVec 2) : Nat × Nat × Nat :=
  match shape.toNat with
  | 0 => (1, 2, 2)
  | 1 => (2, 3, 4)
  | _ => (3, 4, 6)

/-- R311: does arc k of the shape end in a leaf. -/
def arcIsLeaf (shape : BitVec 2) (k : Nat) : Bool :=
  match shape.toNat with
  | 0 => k < 2
  | 1 => k == 0 || k == 2 || k == 3
  | 2 => 2 ≤ k
  | _ => k == 0 || k == 2 || 4 ≤ k

/-- R312: test k fits the shape. -/
def TF.testOk (f : TF) (k : Nat) (t : Test) : Bool :=
  if k < (shapeCounts f.shape).1 then t.ok else t.isZero
/-- R312: arc k fits the shape. -/
def TF.arcOk (f : TF) (k : Nat) (a : Arc) : Bool :=
  if k < (shapeCounts f.shape).2.2 then a.ok (arcIsLeaf f.shape k) else a.isZero

/-- R312: the first internal word of the tree whose parts break the grammar. -/
def TF.badWord (f : TF) : Option Nat :=
  if !(f.testOk 0 f.t0 && f.testOk 1 f.t1) then some 0
  else if !(f.testOk 2 f.t2 && ((shapeCounts f.shape).2.1 ≥ 3 || f.l2 == 0) &&
      ((shapeCounts f.shape).2.1 ≥ 4 || f.l3 == 0)) then some 1
  else if !(f.arcOk 0 f.a0 && f.arcOk 1 f.a1 && f.arcOk 2 f.a2) then some 2
  else if !(f.arcOk 3 f.a3 && f.arcOk 4 f.a4 && f.arcOk 5 f.a5) then some 3
  else none

/-- R307: the slots of the T1 words that are absent carry no operation. -/
def TF.absentZero (f : TF) : Bool :=
  1 ≤ f.c.toNat &&
  (2 ≤ f.c.toNat || (f.a0.isZero && f.a1.isZero && f.a2.isZero)) &&
  (3 ≤ f.c.toNat || (f.a3.isZero && f.a4.isZero && f.a5.isZero))

/-! ### All words -/

/-- R321: a Y word that only the partition's handler issues. -/
def Instr.handlerOnly : Instr → Bool
  | .trapret _ _ | .ctlwr _ _ | .smpctl _ _ | .tlbinv _ _ | .tlbinvall _ _ | .cwb _ _ | .cinv _ _
  | .halt _ _ => true
  | _ => false

/-- The field checks of a word, in the tiers in which its fate table lists them: the first tier with an
offending bit decides, and within it the lowest bit. Steps of the device have none; nor have the handler's
words, which a group never completes (R370 names undefined-encoding first). -/
def Instr.tiers : Instr → List (List (Option Nat))
  | .vadd _ f => f.tiersIntSat
  | .vsub _ f => f.tiersIntSat
  | .vmul _ f => f.tiersIntSat
  | .vmulh _ f => f.tiersInt
  | .vmulhu _ f => f.tiersInt
  | .vmad _ f => f.tiersInt
  | .vand _ f => f.tiersInt
  | .vor _ f => f.tiersInt
  | .vxor _ f => f.tiersInt
  | .vnot _ f => f.tiersInt1
  | .vshl _ f => f.tiersInt
  | .vshr _ f => f.tiersInt
  | .vsar _ f => f.tiersInt
  | .vmin _ f => f.tiersInt
  | .vminu _ f => f.tiersInt
  | .vmax _ f => f.tiersInt
  | .vmaxu _ f => f.tiersInt
  | .vabs _ f => f.tiersAbs
  | .vneg _ f => f.tiersAbs
  | .vmov _ f => f.tiersMov
  | .vsel _ f => f.tiersSel
  | .vcmp _ f => f.tiersCmp
  | .vpopc _ f => f.tiersInt1
  | .vclz _ f => f.tiersInt1
  | .vfadd _ f => f.tiersFloat
  | .vfsub _ f => f.tiersFloat
  | .vfmul _ f => f.tiersFloat
  | .vfma _ f => f.tiersFloat
  | .vfmin _ f => f.tiersFMin
  | .vfmax _ f => f.tiersFMin
  | .vfneg _ f => f.tiersFNeg
  | .vfabs _ f => f.tiersFNeg
  | .vfcmp _ f => f.tiersFCmp
  | .vfclass _ f => f.tiersFClass
  | .vfrnd _ f => f.tiersFRnd
  | .vfdiv _ f => f.tiersFloat
  | .vexp2 _ f => f.tiersFun
  | .vlog2 _ f => f.tiersFun
  | .vrcp _ f => f.tiersFun
  | .vrsq _ f => f.tiersFun
  | .vsqrt _ f => f.tiersFun
  | .vsinpi _ f => f.tiersFun
  | .vcospi _ f => f.tiersFun
  | .vtanh _ f => f.tiersFun
  | .vsigm _ f => f.tiersFun
  | .vcvt _ f => f.tiersCvt
  | .vshuf _ f => f.tiersShuf
  | .vbcast _ f => f.tiersBcast
  | .vlaneid _ f => f.tiersLaneid
  | .vballot _ f => f.tiersBallot
  | .vany _ f => f.tiersAny
  | .vall _ f => f.tiersAny
  | .vred _ f => f.tiersRed true
  | .vscan _ f => f.tiersRed false
  | .vfred _ f => f.tiersFRed true
  | .vfscan _ f => f.tiersFRed false
  | .vcvtbsPack _ f => f.tiersPack
  | .vcvtbsUnpack _ f => f.tiersUnpack
  | .vaddImm _ f => f.tiersIntSat
  | .vmulImm _ f => f.tiersIntSat
  | .vandImm _ f => f.tiersInt
  | .vorImm _ f => f.tiersInt
  | .vxorImm _ f => f.tiersInt
  | .vshlImm _ f => f.tiersInt
  | .vshrImm _ f => f.tiersInt
  | .vsarImm _ f => f.tiersInt
  | .vminImm _ f => f.tiersInt
  | .vminuImm _ f => f.tiersInt
  | .vmaxImm _ f => f.tiersInt
  | .vmaxuImm _ f => f.tiersInt
  | .vcmpImm _ f => f.tiersCmp
  | .vmovImm _ f => f.tiersMov
  | .vfaddImm _ f => f.tiersFloat
  | .vfmulImm _ f => f.tiersFloat
  | .vfminImm _ f => f.tiersFMin
  | .vfmaxImm _ f => f.tiersFMin
  | .vfcmpImm _ f => f.tiersFCmp
  | .vmovFloatImm _ f => f.tiersMov
  | .sadd _ f => f.tiers2
  | .ssub _ f => f.tiers2
  | .smul _ f => f.tiers2
  | .smulh _ f => f.tiers2
  | .smulhu _ f => f.tiers2
  | .sdiv _ f => f.tiers2
  | .sdivu _ f => f.tiers2
  | .srem _ f => f.tiers2
  | .sremu _ f => f.tiers2
  | .sand _ f => f.tiers2
  | .sor _ f => f.tiers2
  | .sxor _ f => f.tiers2
  | .snot _ f => f.tiers1
  | .sshl _ f => f.tiers2
  | .sshr _ f => f.tiers2
  | .ssar _ f => f.tiers2
  | .smin _ f => f.tiers2
  | .sminu _ f => f.tiers2
  | .smax _ f => f.tiers2
  | .smaxu _ f => f.tiers2
  | .scmp _ f => f.tiersCmp
  | .ssel _ f => f.tiersSel
  | .smov _ f => f.tiersMov
  | .smovlo _ f => f.tiersImm
  | .smovhi _ f => f.tiersImm
  | .sbfx _ f => f.tiersField true
  | .sbfi _ f => f.tiersField false
  | .sclz _ f => f.tiers1
  | .spopc _ f => f.tiers1
  | .slea _ f => f.tiersLea
  | .srd _ f => f.tiersRd
  | .reggrow _ f => f.tiersGrow
  | .regshrink _ f => f.tiersShrink
  | .batget _ f => f.tiersBat
  | .batpass _ f => f.tiersShrink
  | .tskget _ f => f.tiersTsk
  | .prog _ f => f.tiersProg
  | .yieldt _ f => f.tiersYield
  | .pair _ f => f.tiers
  | .ld _ f => f.tiersLd
  | .st _ f => f.tiersSt
  | .sld _ f => f.tiersSld
  | .sst _ f => f.tiersSst
  | .atomAdd _ f => f.tiersAtom [2, 3]
  | .atomMin _ f => f.tiersAtom [2, 3]
  | .atomMinu _ f => f.tiersAtom [2, 3]
  | .atomMax _ f => f.tiersAtom [2, 3]
  | .atomMaxu _ f => f.tiersAtom [2, 3]
  | .atomAnd _ f => f.tiersAtom [2, 3]
  | .atomOr _ f => f.tiersAtom [2, 3]
  | .atomXor _ f => f.tiersAtom [2, 3]
  | .atomExch _ f => f.tiersAtom [2, 3]
  | .atomCas _ f => f.tiersCas
  | .atomFadd _ f => f.tiersAtom [2]
  | .atomFmin _ f => f.tiersAtom [2]
  | .atomFmax _ f => f.tiersAtom [2]
  | .ctradd _ f => f.tiersCtradd
  | .ctrwait _ f => f.tiersCtrwait
  | .ctrrd _ f => f.tiersCtrrd
  | .qpush _ f => f.tiersQueue
  | .qpop _ f => f.tiersQueue
  | .waitk _ f => f.tiersWaitk
  | .pf _ f => f.tiersPf
  | .fence _ f => f.tiersFence
  | .cpaG2S _ f => f.tiersCpa
  | .cpaS2G _ f => f.tiersCpa
  | .cpaG2G _ f => f.tiersCpa
  | .cpaS2S _ f => f.tiersCpa
  | .cpavGlobal _ f => f.tiersCpav
  | .cpavScratchpad _ f => f.tiersCpav
  | .cptG2S _ f => f.tiersCpt
  | .cptS2G _ f => f.tiersCpt
  | .cpmGlobal _ f => f.tiersCpm
  | .cpmScratchpad _ f => f.tiersCpm
  | .nop _ f => f.tiers false false false false 0
  | .bra _ f => f.tiers false false false false 32
  | .brq _ f => f.tiers false false false true 32
  | .jmp _ f => f.tiers false false true false 0
  | .jmpv _ f => f.tiers true false false false 0
  | .call _ f => f.tiers false true false false 32
  | .calli _ f => f.tiers false true true false 0
  | .ret _ f => f.tiers false false true false 0
  | .exitWord _ f => f.tiers false false false false 0
  | .trapWord _ f => f.tiers false false false false 16
  | .syscall _ f => f.tiers false false false false 16
  | .bkpt _ f => f.tiers false false false false 0
  | .runend _ f => f.tiers false false false false 8
  | .tree _ _ => []
  | .mma _ f => f.tiersMma
  | .maccld _ f => f.tiersMaccld
  | .maccst _ f => f.tiersMaccst
  | .mcvt _ f => f.tiersMcvt
  | .shpset _ f => f.tiersShpset
  | .smooth _ f => f.tiersSmooth
  | .ttq _ f => f.tiersCard
  | .ttwait _ f => f.tiersWait
  | .nzscan _ f => f.tiersNzscan
  | .coll _ f => f.tiersCard
  | .collw _ f => f.tiersPair
  | .crfcfg _ f => f.tiersCfg
  | .crfroute _ f => f.tiersRoute
  | .crfdep _ f => f.tiersDep
  | .crfstat _ f => f.tiersStat 2
  | .crfdrop _ f => f.tiersPair
  | .sfaload _ f => f.tiersCfg
  | .sfaclamp _ f => f.tiersClamp
  | .sfaseed _ f => f.tiersSeed
  | .sfasweep _ f => f.tiersSweep
  | .sfaread _ f => f.tiersRead
  | .sfastat _ f => f.tiersStat 4
  | .trapret _ _ => []
  | .ctlrd _ f => f.tiersCtlrd
  | .ctlwr _ _ => []
  | .sigrd _ f => f.tiersSigrd
  | .smpctl _ _ => []
  | .tlbinv _ _ => []
  | .tlbinvall _ _ => []
  | .cwb _ _ => []
  | .cinv _ _ => []
  | .halt _ _ => []
  | .strict _ f => f.tiersStrict
  | .pwrOkHigh | .perstNDeassert | .railFault | .powerDown | .thermalHold | .thermalTrip | .thermalEvent
  | .svbNak | .voltageSettled | .frequencyStepEnd | .ident | .stateCode | .tmax | .pwr | .pwrRefresh
  | .clmask | .alertReg | .smbUnknownCode | .portEnable | .portDisable | .portModeSet | .portTrained
  | .dataFlitReceive | .ackFlitReceive | .replayRequest | .ackTimer | .retrainDone | .streamFlitReceive
  | .streamEntryWrite | .bootVerify | .configRequest | .rcvgo | .getVersion | .getCapabilities
  | .negotiateAlgorithms | .getDigests | .getCertificate | .challenge | .getMeasurements
  | .spdmUnsupportedRequest | .create | .modify | .start | .stop | .partitionStopped | .delete | .setwin
  | .query | .mailboxUnknownCmd | .getInfo | .setRoot | .setTrapHart | .setWbase | .getBlkacc
  | .sbiUnknownFunction | .bar4Read | .bar4Write | .registerWrite | .w1cClear | .queueEnable | .queueDisable
  | .doorbell | .launchRecordConsume | .gridEnd | .dispatchDecision | .indexOrderEviction | .restoreComplete
  | .taskSplit | .preempt | .releaseHeld | .preemptEstimate | .drainDeadline | .saveComplete | .opclsWrite
  | .poolReassign | .boostRefill | .runStart | .longLatencyResult | .trapRecord | .senioritySave | .frost
  | .thaw | .barometerTick | .stallSample | .draftTick | .draftStop | .draftAbandon | .draftRelease
  | .copyLanding | .multicastDelivery | .remoteAccess | .cpavCommit | .tlbWalk | .atomicExecute
  | .sideLogRetry | .atomicTokenPass | .sfaLoadRun | .sfaClampRun | .sfaSeedRun | .sfaColourStep
  | .sfaReadRun | .depositArrival | .depositLanded | .slotDeadline | .softError | .ckpt0Go | .trapRingSet
  | .dbgselGo | .traceArm | .samplingEnable | .sampleRecord | .hangCheck | .icacheFill | .runendExpiry
  | .matrixEngineExec | .macroOp | .nzsRun | .collFlitArrival | .collStepTimeout | .collResultTimeout
  | .qpushSlotWrite | .qpopEntryCopy | .thermalHoldEnd => []

/-- The header of a word; none for a step of the device. -/
def Instr.hdr : Instr → Option Hdr
  | .vadd h _ | .vsub h _ | .vmul h _ | .vmulh h _ | .vmulhu h _ | .vmad h _ | .vand h _ | .vor h _ => some h
  | .vxor h _ | .vnot h _ | .vshl h _ | .vshr h _ | .vsar h _ | .vmin h _ | .vminu h _ | .vmax h _ => some h
  | .vmaxu h _ | .vabs h _ | .vneg h _ | .vmov h _ | .vsel h _ | .vcmp h _ | .vpopc h _ | .vclz h _ => some h
  | .vfadd h _ | .vfsub h _ | .vfmul h _ | .vfma h _ | .vfmin h _ | .vfmax h _ | .vfneg h _ | .vfabs h _ => some h
  | .vfcmp h _ | .vfclass h _ | .vfrnd h _ | .vfdiv h _ | .vexp2 h _ | .vlog2 h _ | .vrcp h _ | .vrsq h _ => some h
  | .vsqrt h _ | .vsinpi h _ | .vcospi h _ | .vtanh h _ | .vsigm h _ | .vcvt h _ | .vshuf h _ | .vbcast h _ => some h
  | .vlaneid h _ | .vballot h _ | .vany h _ | .vall h _ | .vred h _ | .vscan h _ | .vfred h _ | .vfscan h _ => some h
  | .vcvtbsPack h _ | .vcvtbsUnpack h _ | .vaddImm h _ | .vmulImm h _ | .vandImm h _ | .vorImm h _ | .vxorImm h _ | .vshlImm h _ => some h
  | .vshrImm h _ | .vsarImm h _ | .vminImm h _ | .vminuImm h _ | .vmaxImm h _ | .vmaxuImm h _ | .vcmpImm h _ | .vmovImm h _ => some h
  | .vfaddImm h _ | .vfmulImm h _ | .vfminImm h _ | .vfmaxImm h _ | .vfcmpImm h _ | .vmovFloatImm h _ | .sadd h _ | .ssub h _ => some h
  | .smul h _ | .smulh h _ | .smulhu h _ | .sdiv h _ | .sdivu h _ | .srem h _ | .sremu h _ | .sand h _ => some h
  | .sor h _ | .sxor h _ | .snot h _ | .sshl h _ | .sshr h _ | .ssar h _ | .smin h _ | .sminu h _ => some h
  | .smax h _ | .smaxu h _ | .scmp h _ | .ssel h _ | .smov h _ | .smovlo h _ | .smovhi h _ | .sbfx h _ => some h
  | .sbfi h _ | .sclz h _ | .spopc h _ | .slea h _ | .srd h _ | .reggrow h _ | .regshrink h _ | .batget h _ => some h
  | .batpass h _ | .tskget h _ | .prog h _ | .yieldt h _ | .pair h _ | .ld h _ | .st h _ | .sld h _ => some h
  | .sst h _ | .atomAdd h _ | .atomMin h _ | .atomMinu h _ | .atomMax h _ | .atomMaxu h _ | .atomAnd h _ | .atomOr h _ => some h
  | .atomXor h _ | .atomExch h _ | .atomCas h _ | .atomFadd h _ | .atomFmin h _ | .atomFmax h _ | .ctradd h _ | .ctrwait h _ => some h
  | .ctrrd h _ | .qpush h _ | .qpop h _ | .waitk h _ | .pf h _ | .fence h _ | .cpaG2S h _ | .cpaS2G h _ => some h
  | .cpaG2G h _ | .cpaS2S h _ | .cpavGlobal h _ | .cpavScratchpad h _ | .cptG2S h _ | .cptS2G h _ | .cpmGlobal h _ | .cpmScratchpad h _ => some h
  | .nop h _ | .bra h _ | .brq h _ | .jmp h _ | .jmpv h _ | .call h _ | .calli h _ | .ret h _ => some h
  | .exitWord h _ | .trapWord h _ | .syscall h _ | .bkpt h _ | .runend h _ | .tree h _ | .mma h _ | .maccld h _ => some h
  | .maccst h _ | .mcvt h _ | .shpset h _ | .smooth h _ | .ttq h _ | .ttwait h _ | .nzscan h _ | .coll h _ => some h
  | .collw h _ | .crfcfg h _ | .crfroute h _ | .crfdep h _ | .crfstat h _ | .crfdrop h _ | .sfaload h _ | .sfaclamp h _ => some h
  | .sfaseed h _ | .sfasweep h _ | .sfaread h _ | .sfastat h _ | .trapret h _ | .ctlrd h _ | .ctlwr h _ | .sigrd h _ => some h
  | .smpctl h _ | .tlbinv h _ | .tlbinvall h _ | .cwb h _ | .cinv h _ | .halt h _ | .strict h _ => some h
  | .pwrOkHigh | .perstNDeassert | .railFault | .powerDown | .thermalHold | .thermalTrip | .thermalEvent
  | .svbNak | .voltageSettled | .frequencyStepEnd | .ident | .stateCode | .tmax | .pwr | .pwrRefresh
  | .clmask | .alertReg | .smbUnknownCode | .portEnable | .portDisable | .portModeSet | .portTrained
  | .dataFlitReceive | .ackFlitReceive | .replayRequest | .ackTimer | .retrainDone | .streamFlitReceive
  | .streamEntryWrite | .bootVerify | .configRequest | .rcvgo | .getVersion | .getCapabilities
  | .negotiateAlgorithms | .getDigests | .getCertificate | .challenge | .getMeasurements
  | .spdmUnsupportedRequest | .create | .modify | .start | .stop | .partitionStopped | .delete | .setwin
  | .query | .mailboxUnknownCmd | .getInfo | .setRoot | .setTrapHart | .setWbase | .getBlkacc
  | .sbiUnknownFunction | .bar4Read | .bar4Write | .registerWrite | .w1cClear | .queueEnable | .queueDisable
  | .doorbell | .launchRecordConsume | .gridEnd | .dispatchDecision | .indexOrderEviction | .restoreComplete
  | .taskSplit | .preempt | .releaseHeld | .preemptEstimate | .drainDeadline | .saveComplete | .opclsWrite
  | .poolReassign | .boostRefill | .runStart | .longLatencyResult | .trapRecord | .senioritySave | .frost
  | .thaw | .barometerTick | .stallSample | .draftTick | .draftStop | .draftAbandon | .draftRelease
  | .copyLanding | .multicastDelivery | .remoteAccess | .cpavCommit | .tlbWalk | .atomicExecute
  | .sideLogRetry | .atomicTokenPass | .sfaLoadRun | .sfaClampRun | .sfaSeedRun | .sfaColourStep
  | .sfaReadRun | .depositArrival | .depositLanded | .slotDeadline | .softError | .ckpt0Go | .trapRingSet
  | .dbgselGo | .traceArm | .samplingEnable | .sampleRecord | .hangCheck | .icacheFill | .runendExpiry
  | .matrixEngineExec | .macroOp | .nzsRun | .collFlitArrival | .collStepTimeout | .collResultTimeout
  | .qpushSlotWrite | .qpopEntryCopy | .thermalHoldEnd => none

/-- R291, R292: the offending common field of a word. -/
def Instr.hdrOffence (i : Instr) : Option Nat :=
  match i.hdr with
  | none => none
  | some h => if i.handlerOnly then none else h.offence i.laneGuard i.isLong

/-- The bit a reserved-field trap of the word's own bits reports; `rsv` is the lowest set bit of the layout's
reserved bits, which join the first tier. -/
def Instr.offence (rsv : Option Nat) (i : Instr) : Option Nat :=
  match i.hdrOffence with
  | some b => some b
  | none =>
    match i.tiers with
    | [] => if i.handlerOnly then none else rsv
    | t :: ts => ((rsv :: t) :: ts).findSome? minBit

/-- R375, R435: the same with a bit that the format of a slot makes offend: it joins the last row, which judges values. -/
def Instr.offenceWith (rsv slot : Option Nat) (i : Instr) : Option Nat :=
  match i.hdrOffence, i.tiers with
  | some b, _ => some b
  | none, [] => slot
  | none, [t] => minBit (rsv :: slot :: t)
  | none, t :: u :: ts => ((rsv :: t) :: (slot :: u) :: ts).findSome? minBit

end Sys2Proof
end

