-- ==== Sys2Proof/WellFormed.lean ====
section
/-! DEFINITION. Which instructions are well formed: words whose own bits no rule refuses (R291 to R313), and steps
of the device, which have no bits. -/

namespace Sys2Proof

/-- R297, R307, R312: the half-codes of a pair word and the grammar of a tree. -/
def Instr.shaped : Instr → Bool
  | .pair _ f => !(f.sop == 0 && f.vop == 0) && f.sop.toNat ≤ 0x0B && f.vop.toNat ≤ 0x0E
  | .tree _ f => f.badWord.isNone && f.absentZero
  | _ => true

/-- Well-formedness of an instruction. -/
def Instr.wellFormed (i : Instr) : Bool := (i.offence none).isNone && i.shaped

end Sys2Proof
end

