-- ==== Sys2Proof/Decode.lean ====
section
/-! DEFINITION. The decoder of R284 to R322, total on any bytes, and after it the encoder: both from the spec's
layouts. A decode answers an instruction and its length, or the reason a stream that issues it traps. -/

namespace Sys2Proof

/-- Why bytes are no instruction: what a stream that issues them traps with (R270). -/
inductive DecodeError
  /-- R285, R290, R322: cause 0x01; the detail is the first byte. -/
  | undefinedEncoding (first : Byte)
  /-- R293: cause 0x02; the detail is the lowest offending bit. -/
  | reservedField (bit : Nat)
  /-- R312: cause 0x04; the detail is the word's index. -/
  | treeGrammar (word : Nat)
  /-- Fewer bytes were given than the first byte calls for: a caller's mistake, not a fate of the machine. -/
  | tooShort
  deriving DecidableEq, Repr

/-- R284, R285: the length that the first byte fixes; reserved prefixes and the fill pad count one byte. -/
def instrLen (b : Byte) : Nat :=
  if b.toNat < 0x80 then 4
  else if b.toNat < 0xC0 then 6
  else if b.toNat < 0xE0 then 8
  else if b == 0xE0 then 13
  else if b == 0xF1 then 25
  else if b == 0xF2 then 37
  else if b == 0xF3 then 49
  else 1

/-- R284: bytes as one number, the first byte most significant. -/
def beNat (bs : List Byte) : Nat := bs.foldl (fun n b => n * 256 + b.toNat) 0

/-- R284: the n bytes of a number, most significant first. -/
def beBytes : Nat → Nat → List Byte
  | 0, _ => []
  | n + 1, v => BitVec.ofNat 8 (v / 256 ^ n) :: beBytes n v

/-- Bits [lo + n - 1 : lo] of a word. -/
def IWord.field (w : IWord) (lo n : Nat) : BitVec n := w.extractLsb' lo n

/-- A field of one bit. -/
def IWord.flag (w : IWord) (lo : Nat) : Bool := w.getLsbD lo

/-- R289: the common fields around a payload. -/
def mkWord (fmt : BitVec 4) (op : BitVec 10) (h : Hdr) (p : BitVec 71) : IWord :=
  fmt ++ BitVec.ofBool h.bnd ++ h.la ++ BitVec.ofBool h.gn ++ h.grd ++ op ++ p

/-- R289: the common fields of a word. -/
def parseHdr (w : IWord) : Hdr :=
  { bnd := w.flag 91, la := w.field 87 4, gn := w.flag 86, grd := w.field 81 5 }

/-- R294. -/
def packV3 (f : V3) : BitVec 71 :=
  f.vd ++ f.va ++ f.vb ++ f.vc ++ f.ty ++ f.rm ++ BitVec.ofBool f.sat ++ BitVec.ofBool f.ftz ++ f.pd ++
    BitVec.ofBool f.bs ++ f.ty2 ++ f.slot ++ BitVec.ofBool f.usl ++ f.imm8 ++ 0#7

/-- R294. -/
def parseV3 (w : IWord) : V3 :=
  { vd := w.field 63 8, va := w.field 55 8, vb := w.field 47 8, vc := w.field 39 8, ty := w.field 34 5,
    rm := w.field 31 3, sat := w.flag 30, ftz := w.flag 29, pd := w.field 25 4, bs := w.flag 24,
    ty2 := w.field 19 5, slot := w.field 16 3, usl := w.flag 15, imm8 := w.field 7 8 }

/-- R295. -/
def packVI (f : VI) : BitVec 71 :=
  f.vd ++ f.va ++ f.ty ++ f.rm ++ BitVec.ofBool f.sat ++ BitVec.ofBool f.ftz ++ f.pd ++ 0#9 ++ f.imm

/-- R295. -/
def parseVI (w : IWord) : VI :=
  { vd := w.field 63 8, va := w.field 55 8, ty := w.field 50 5, rm := w.field 47 3, sat := w.flag 46,
    ftz := w.flag 45, pd := w.field 41 4, imm := w.field 0 32 }

/-- R296. -/
def packS (f : SF) : BitVec 71 :=
  f.sd ++ f.sa ++ f.sb ++ f.qd ++ BitVec.ofBool f.w ++ BitVec.ofBool f.sg ++ BitVec.ofBool f.is ++ f.pos ++
    f.len ++ f.cmp ++ f.imm

/-- R296. -/
def parseS (w : IWord) : SF :=
  { sd := w.field 65 6, sa := w.field 59 6, sb := w.field 53 6, qd := w.field 50 3, w := w.flag 49,
    sg := w.flag 48, is := w.flag 47, pos := w.field 41 6, len := w.field 35 6, cmp := w.field 32 3,
    imm := w.field 0 32 }

/-- R297. -/
def packPR (f : PR) : BitVec 71 :=
  f.sd ++ f.sa ++ f.sb ++ BitVec.ofBool f.is ++ f.imm ++ f.vd ++ f.va ++ f.vb ++ f.vc ++ f.typ ++
    BitVec.ofBool f.sat ++ BitVec.ofBool f.bs

/-- R297. -/
def parsePR (w : IWord) : PR :=
  { sop := w.field 76 5, vop := w.field 71 5, sd := w.field 65 6, sa := w.field 59 6, sb := w.field 53 6,
    is := w.flag 52, imm := w.field 36 16, vd := w.field 28 8, va := w.field 20 8, vb := w.field 12 8,
    vc := w.field 4 8, typ := w.field 2 2, sat := w.flag 1, bs := w.flag 0 }

/-- R298. -/
def packM (f : MF) : BitVec 71 :=
  f.vd ++ f.va ++ f.sb ++ f.spc ++ f.rk ++ BitVec.ofBool f.rki ++ f.sz ++ BitVec.ofBool f.sx ++
    BitVec.ofBool f.av ++ f.scp ++ f.ord ++ BitVec.ofBool f.rmt ++ 0#3 ++ f.tw ++ f.off

/-- R298. -/
def parseM (w : IWord) : MF :=
  { vd := w.field 63 8, va := w.field 55 8, sb := w.field 49 6, spc := w.field 47 2, rk := w.field 41 6,
    rki := w.flag 40, sz := w.field 37 3, sx := w.flag 36, av := w.flag 35, scp := w.field 32 3,
    ord := w.field 30 2, rmt := w.flag 29, tw := w.field 18 8, off := w.field 0 18 }

/-- R299. -/
def packCP (f : CP) : BitVec 71 :=
  f.vsrc ++ f.vdst ++ f.sdst ++ f.ssrc ++ f.se ++ f.sz ++ f.tq ++ 0#3 ++ f.tk ++ f.tw ++ f.off

/-- R299. -/
def parseCP (w : IWord) : CP :=
  { vsrc := w.field 63 8, vdst := w.field 55 8, sdst := w.field 49 6, ssrc := w.field 43 6, se := w.field 37 6,
    sz := w.field 34 3, tq := w.field 32 2, tk := w.field 26 3, tw := w.field 18 8, off := w.field 0 18 }

/-- R300. -/
def packC (f : CF) : BitVec 71 :=
  f.va ++ 0#15 ++ f.sx ++ f.sa ++ BitVec.ofBool f.qn ++ f.qc ++ f.disp

/-- R300. -/
def parseC (w : IWord) : CF :=
  { va := w.field 63 8, sx := w.field 42 6, sa := w.field 36 6, qn := w.flag 35, qc := w.field 32 3,
    disp := w.field 0 32 }

/-- R301. -/
def packX (f : XF) : BitVec 71 :=
  f.acd ++ f.aca ++ f.sa ++ f.sb ++ f.sc ++ f.shp ++ f.fsa ++ f.fsb ++ BitVec.ofBool f.nega ++
    BitVec.ofBool f.negb ++ BitVec.ofBool f.acz ++ BitVec.ofBool f.spa ++ BitVec.ofBool f.lcb ++
    BitVec.ofBool f.afa ++ f.tk ++ f.tw ++ f.rm ++ BitVec.ofBool f.sat ++ 0#7 ++ f.imm8

/-- R301. -/
def parseX (w : IWord) : XF :=
  { acd := w.field 67 4, aca := w.field 63 4, sa := w.field 57 6, sb := w.field 51 6, sc := w.field 45 6,
    shp := w.field 42 3, fsa := w.field 39 3, fsb := w.field 36 3, nega := w.flag 35, negb := w.flag 34,
    acz := w.flag 33, spa := w.flag 32, lcb := w.flag 31, afa := w.flag 30, tk := w.field 27 3,
    tw := w.field 19 8, rm := w.field 16 3, sat := w.flag 15, imm8 := w.field 0 8 }

/-- R302. -/
def packY (f : YF) : BitVec 71 := f.sd ++ f.sa ++ f.creg ++ 0#11 ++ f.imm

/-- R302. -/
def parseY (w : IWord) : YF :=
  { sd := w.field 65 6, sa := w.field 59 6, creg := w.field 43 16, imm := w.field 0 32 }

/-- R314: the opcodes in ascending order. -/
def v3Ops : List (Hdr → V3 → Instr) :=
  [.vadd, .vsub, .vmul, .vmulh, .vmulhu, .vmad, .vand, .vor, .vxor, .vnot, .vshl, .vshr, .vsar, .vmin,
   .vminu, .vmax, .vmaxu, .vabs, .vneg, .vmov, .vsel, .vcmp, .vpopc, .vclz, .vfadd, .vfsub, .vfmul,
   .vfma, .vfmin, .vfmax, .vfneg, .vfabs, .vfcmp, .vfclass, .vfrnd, .vfdiv, .vexp2, .vlog2, .vrcp,
   .vrsq, .vsqrt, .vsinpi, .vcospi, .vtanh, .vsigm, .vcvt, .vshuf, .vbcast, .vlaneid, .vballot, .vany,
   .vall, .vred, .vscan, .vfred, .vfscan, .vcvtbsPack, .vcvtbsUnpack]

/-- R315, integer: the opcodes in ascending order. -/
def viIntOps : List (Hdr → VI → Instr) :=
  [.vaddImm, .vmulImm, .vandImm, .vorImm, .vxorImm, .vshlImm, .vshrImm, .vsarImm, .vminImm, .vminuImm,
   .vmaxImm, .vmaxuImm, .vcmpImm, .vmovImm]

/-- R315, float, from 0x040: the opcodes in ascending order. -/
def viFloatOps : List (Hdr → VI → Instr) :=
  [.vfaddImm, .vfmulImm, .vfminImm, .vfmaxImm, .vfcmpImm, .vmovFloatImm]

/-- R316: the opcodes in ascending order. -/
def sOps : List (Hdr → SF → Instr) :=
  [.sadd, .ssub, .smul, .smulh, .smulhu, .sdiv, .sdivu, .srem, .sremu, .sand, .sor, .sxor, .snot, .sshl,
   .sshr, .ssar, .smin, .sminu, .smax, .smaxu, .scmp, .ssel, .smov, .smovlo, .smovhi, .sbfx, .sbfi,
   .sclz, .spopc, .slea, .srd]

/-- R316, from 0x080: the opcodes in ascending order. -/
def sTeamOps : List (Hdr → SF → Instr) :=
  [.reggrow, .regshrink, .batget, .batpass, .tskget, .prog, .yieldt]

/-- R317, access layout: the opcodes in ascending order. -/
def mOps : List (Hdr → MF → Instr) :=
  [.ld, .st, .sld, .sst, .atomAdd, .atomMin, .atomMinu, .atomMax, .atomMaxu, .atomAnd, .atomOr,
   .atomXor, .atomExch, .atomCas, .atomFadd, .atomFmin, .atomFmax, .ctradd, .ctrwait, .ctrrd, .qpush,
   .qpop, .waitk, .pf, .fence]

/-- R317, copy layout, from 0x080: the opcodes in ascending order. -/
def mCopyOps : List (Hdr → CP → Instr) :=
  [.cpaG2S, .cpaS2G, .cpaG2G, .cpaS2S, .cpavGlobal, .cpavScratchpad, .cptG2S, .cptS2G, .cpmGlobal,
   .cpmScratchpad]

/-- R318: the opcodes in ascending order. -/
def cOps : List (Hdr → CF → Instr) :=
  [.nop, .bra, .brq, .jmp, .jmpv, .call, .calli, .ret, .exitWord, .trapWord, .syscall, .bkpt, .runend]

/-- R320: the opcodes in ascending order. -/
def xOps : List (Hdr → XF → Instr) :=
  [.mma, .maccld, .maccst, .mcvt, .shpset, .smooth, .ttq, .ttwait, .nzscan, .coll, .collw]

/-- R320, from 0x010: the opcodes in ascending order. -/
def xCarafeOps : List (Hdr → XF → Instr) :=
  [.crfcfg, .crfroute, .crfdep, .crfstat, .crfdrop]

/-- R320, from 0x018: the opcodes in ascending order. -/
def xFieldOps : List (Hdr → XF → Instr) :=
  [.sfaload, .sfaclamp, .sfaseed, .sfasweep, .sfaread, .sfastat]

/-- R321: the opcodes in ascending order. -/
def yOps : List (Hdr → YF → Instr) :=
  [.trapret, .ctlrd, .ctlwr, .sigrd, .smpctl, .tlbinv, .tlbinvall, .cwb, .cinv, .halt, .strict]

/-- The instruction at place `op - base` of an opcode list. -/
def pick {α : Type} (l : List (Hdr → α → Instr)) (op base : Nat) (h : Hdr) (f : α) : Option Instr :=
  if op < base then none else (l[op - base]?).map fun k => k h f

/-- The first of two candidate instructions. -/
def orElse (a b : Option Instr) : Option Instr :=
  match a with
  | some i => some i
  | none => b

/-- R290, R314 to R322: the instruction whose opcode a word holds; `none` for an unused point. -/
def wordInstr (w : IWord) : Option Instr :=
  let h := parseHdr w
  let op := (w.field 71 10).toNat
  match (w.field 92 4).toNat with
  | 0 => pick v3Ops op 0 h (parseV3 w)
  | 1 => orElse (pick viIntOps op 0 h (parseVI w)) (pick viFloatOps op 0x40 h (parseVI w))
  | 2 => orElse (pick sOps op 0 h (parseS w)) (pick sTeamOps op 0x80 h (parseS w))
  | 3 =>
    let f := parsePR w
    if (f.sop == 0 && f.vop == 0) || 0x0B < f.sop.toNat || 0x0E < f.vop.toNat then none else some (.pair h f)
  | 4 => orElse (pick mOps op 0 h (parseM w)) (pick mCopyOps op 0x80 h (parseCP w))
  | 5 => pick cOps op 0 h (parseC w)
  | 8 => orElse (pick xOps op 0 h (parseX w))
      (orElse (pick xCarafeOps op 0x10 h (parseX w)) (pick xFieldOps op 0x18 h (parseX w)))
  | 9 => pick yOps op 0 h (parseY w)
  | _ => none

/-- R293 to R302: the lowest set bit among the reserved bits of a word's layout. -/
def reservedBits (w : IWord) : Option Nat :=
  match (w.field 92 4).toNat with
  | 0 => mbz 0 (w.field 0 7)
  | 1 => mbz 32 (w.field 32 9)
  | 4 => if (w.field 71 10).toNat < 0x80 then mbz 26 (w.field 26 3) else mbz 29 (w.field 29 3)
  | 5 => mbz 48 (w.field 48 15)
  | 8 => mbz 8 (w.field 8 7)
  | 9 => mbz 32 (w.field 32 11)
  | _ => none

/-- R289 to R322: one internal word, no tree; `first` is the first byte of its instruction. -/
def decodeWord (first : Byte) (w : IWord) : Except DecodeError Instr :=
  match wordInstr w with
  | none => .error (.undefinedEncoding first)
  | some i =>
    match i.offence (reservedBits w) with
    | some b => .error (.reservedField b)
    | none => .ok i

/-- R303, R304: the V3 word of a compact form: OP = CO, VC := VD. -/
def compactV3 (bnd gn : Bool) (grd : BitVec 5) (la : BitVec 4) (co : BitVec 10) (vd va vb : BitVec 8) : IWord :=
  mkWord 0 co { bnd := bnd, la := la, gn := gn, grd := grd }
    (packV3 { vd := vd, va := va, vb := vb, vc := vd, ty := 0, rm := 0, sat := false, ftz := false, pd := 0,
              bs := false, ty2 := 0, slot := 0, usl := false, imm8 := 0 })

/-- R303: the word of the 4-byte form. -/
def expand4 (n : BitVec 32) : IWord :=
  compactV3 (n.getLsbD 30) false 0 0 ((n.extractLsb' 24 6).setWidth 10) (n.extractLsb' 16 8) (n.extractLsb' 8 8)
    (n.extractLsb' 0 8)

/-- R304: the word of the 6-byte form; `none` when its must-be-zero bits are not zero. -/
def expand6 (n : BitVec 48) : Option IWord :=
  if n.getLsbD 45 then
    let co := n.extractLsb' 37 7
    let imm16 := n.extractLsb' 0 16
    some (mkWord 1 (co.setWidth 10) { bnd := n.getLsbD 44, la := 0, gn := false, grd := n.extractLsb' 16 5 }
      (packVI { vd := n.extractLsb' 29 8, va := n.extractLsb' 21 8, ty := 0, rm := 0, sat := false, ftz := false,
                pd := 0, imm := if co.toNat < 0x40 then imm16.signExtend 32 else imm16 ++ 0#16 }))
  else if n.extractLsb' 24 3 == 0 then
    some (compactV3 (n.getLsbD 44) (n.getLsbD 43) (n.extractLsb' 38 5) (n.extractLsb' 34 4)
      ((n.extractLsb' 27 7).setWidth 10) (n.extractLsb' 16 8) (n.extractLsb' 8 8) (n.extractLsb' 0 8))
  else none

/-- R305: the word of the 8-byte form; `none` for KD = 3 and nonzero must-be-zero bits. -/
def expand8 (n : BitVec 64) : Option IWord :=
  match (n.extractLsb' 59 2).toNat with
  | 0 =>
    if n.getLsbD 32 then none
    else some (mkWord 2 ((n.extractLsb' 45 7).setWidth 10)
      { bnd := n.getLsbD 58, la := 0, gn := n.getLsbD 52, grd := n.extractLsb' 53 5 }
      (packS { sd := n.extractLsb' 39 6, sa := n.extractLsb' 33 6, sb := 0, qd := 0, w := false, sg := false,
               is := true, pos := 0, len := 0, cmp := 0, imm := n.extractLsb' 0 32 }))
  | 1 =>
    some (mkWord 4 ((n.extractLsb' 41 7).setWidth 10)
      { bnd := n.getLsbD 58, la := n.extractLsb' 48 4, gn := n.getLsbD 57, grd := n.extractLsb' 52 5 }
      (packM { vd := n.extractLsb' 28 8, va := n.extractLsb' 20 8, sb := n.extractLsb' 14 6,
               spc := n.extractLsb' 39 2, rk := 0, rki := true, sz := n.extractLsb' 36 3, sx := false, av := true,
               scp := 0, ord := 0, rmt := false, tw := 0, off := (n.extractLsb' 0 14).signExtend 18 }))
  | 2 =>
    if n.extractLsb' 32 3 == 0 then
      some (mkWord 5 ((n.extractLsb' 45 7).setWidth 10)
        { bnd := n.getLsbD 58, la := 0, gn := n.getLsbD 57, grd := n.extractLsb' 52 5 }
        (packC { va := 0, sx := n.extractLsb' 39 6, sa := 0, qn := n.getLsbD 35, qc := n.extractLsb' 36 3,
                 disp := n.extractLsb' 0 32 }))
    else none
  | _ => none

/-- R308: a test of 31 bits. -/
def parseTest (t : BitVec 31) : Test :=
  { kind := t.extractLsb' 29 2, rel := t.extractLsb' 26 3, typ := t.extractLsb' 24 2, va := t.extractLsb' 16 8,
    b := t.extractLsb' 0 16 }
/-- R308. -/
def packTest (t : Test) : BitVec 31 := t.kind ++ t.rel ++ t.typ ++ t.va ++ t.b
/-- R309: an arc slot of 30 bits. -/
def parseArc (a : BitVec 30) : Arc :=
  { aop := a.extractLsb' 24 6, vd := a.extractLsb' 16 8, va := a.extractLsb' 8 8, b := a.extractLsb' 0 8 }
/-- R309. -/
def packArc (a : Arc) : BitVec 30 := a.aop ++ a.vd ++ a.va ++ a.b

/-- R307: the parts of a tree from its T0 word and its T1 words (zero where absent). -/
def parseTree (c : Nat) (w0 w1 w2 w3 : IWord) : TF :=
  { c := BitVec.ofNat 2 c, shape := w0.field 69 2,
    t0 := parseTest (w0.field 38 31), t1 := parseTest (w0.field 7 31), t2 := parseTest (w1.field 61 31),
    l0 := w1.field 46 15, l1 := w1.field 31 15, l2 := w1.field 16 15, l3 := w1.field 1 15,
    a0 := parseArc (w2.field 62 30), a1 := parseArc (w2.field 32 30), a2 := parseArc (w2.field 2 30),
    a3 := parseArc (w3.field 62 30), a4 := parseArc (w3.field 32 30), a5 := parseArc (w3.field 2 30) }

/-- R312 cases 1 and 3: the format, opcode and reserved bits of tree word k. -/
def treeWordOk (k : Nat) (w : IWord) : Bool :=
  match k with
  | 0 => w.field 92 4 == 6 && w.field 71 10 == 0 && w.field 0 7 == 0
  | 1 => w.field 92 4 == 7 && !w.flag 0
  | _ => w.field 92 4 == 7 && w.field 0 2 == 0

/-- R312: the index of the first word that fails the check. -/
def treeBad (c : Nat) (w0 w1 w2 w3 : IWord) : Option Nat :=
  let f := parseTree c w0 w1 w2 w3
  minBit [f.badWord, adm 0 (treeWordOk 0 w0), adm 1 (treeWordOk 1 w1),
    if c < 2 then none else adm 2 (treeWordOk 2 w2), if c < 3 then none else adm 3 (treeWordOk 3 w3)]

/-- R307 to R313: a tree of c T1 words. -/
def decodeTree (c : Nat) (w0 w1 w2 w3 : IWord) : Except DecodeError Instr :=
  match treeBad c w0 w1 w2 w3 with
  | some k => .error (.treeGrammar k)
  | none =>
    let i := Instr.tree (parseHdr w0) (parseTree c w0 w1 w2 w3)
    match i.offence none with
    | some b => .error (.reservedField b)
    | none => .ok i

/-- A number as a word. -/
def toIWord (n : Nat) : IWord := BitVec.ofNat 96 n

/-- The k-th 12-byte word after the prefix byte of a tree. -/
def treeWord (bs : List Byte) (k : Nat) : IWord := toIWord (beNat ((bs.drop (1 + 12 * k)).take 12))

/-- R284 to R322: the instruction at the head of some bytes, with its length. Total on any bytes. -/
def decode (bs : List Byte) : Except DecodeError (Instr × Nat) :=
  match bs with
  | [] => .error .tooShort
  | first :: _ =>
    let n := instrLen first
    if bs.length < n then .error .tooShort
    else
      let v := beNat (bs.take n)
      let r : Except DecodeError Instr :=
        match n with
        | 4 => decodeWord first (expand4 (BitVec.ofNat 32 v))
        | 6 =>
          match expand6 (BitVec.ofNat 48 v) with
          | none => .error (.undefinedEncoding first)
          | some w => decodeWord first w
        | 8 =>
          match expand8 (BitVec.ofNat 64 v) with
          | none => .error (.undefinedEncoding first)
          | some w => decodeWord first w
        | 13 => decodeWord first (toIWord v)
        | 25 => decodeTree 1 (treeWord bs 0) (treeWord bs 1) 0 0
        | 37 => decodeTree 2 (treeWord bs 0) (treeWord bs 1) (treeWord bs 2) 0
        | 49 => decodeTree 3 (treeWord bs 0) (treeWord bs 1) (treeWord bs 2) (treeWord bs 3)
        | _ => .error (.undefinedEncoding first)
      match r with
      | .error e => .error e
      | .ok i => .ok (i, n)

/-- R289, R303 to R305: the internal word of an instruction that is one word. -/
def oneWord (bs : List Byte) : Option IWord :=
  let n := instrLen (bs.getD 0 0)
  let v := beNat (bs.take n)
  match n with
  | 4 => some (expand4 (BitVec.ofNat 32 v))
  | 6 => expand6 (BitVec.ofNat 48 v)
  | 8 => expand8 (BitVec.ofNat 64 v)
  | 13 => some (toIWord v)
  | _ => none

/-- R289, R303 to R307: the common fields of an instruction's first internal word. -/
def hdrOf (bs : List Byte) : Hdr :=
  let n := instrLen (bs.getD 0 0)
  let v := beNat (bs.take n)
  match n with
  | 4 => parseHdr (expand4 (BitVec.ofNat 32 v))
  | 6 => parseHdr ((expand6 (BitVec.ofNat 48 v)).getD 0)
  | 8 => parseHdr ((expand8 (BitVec.ofNat 64 v)).getD 0)
  | _ => parseHdr (treeWord bs 0)

/-! ### The encoder -/

/-- R294 to R322: the internal word of an instruction; `none` for trees and for steps of the device. -/
def encodeWord : Instr → Option IWord
  | .vadd h f => some (mkWord 0 0x000 h (packV3 f))
  | .vsub h f => some (mkWord 0 0x001 h (packV3 f))
  | .vmul h f => some (mkWord 0 0x002 h (packV3 f))
  | .vmulh h f => some (mkWord 0 0x003 h (packV3 f))
  | .vmulhu h f => some (mkWord 0 0x004 h (packV3 f))
  | .vmad h f => some (mkWord 0 0x005 h (packV3 f))
  | .vand h f => some (mkWord 0 0x006 h (packV3 f))
  | .vor h f => some (mkWord 0 0x007 h (packV3 f))
  | .vxor h f => some (mkWord 0 0x008 h (packV3 f))
  | .vnot h f => some (mkWord 0 0x009 h (packV3 f))
  | .vshl h f => some (mkWord 0 0x00A h (packV3 f))
  | .vshr h f => some (mkWord 0 0x00B h (packV3 f))
  | .vsar h f => some (mkWord 0 0x00C h (packV3 f))
  | .vmin h f => some (mkWord 0 0x00D h (packV3 f))
  | .vminu h f => some (mkWord 0 0x00E h (packV3 f))
  | .vmax h f => some (mkWord 0 0x00F h (packV3 f))
  | .vmaxu h f => some (mkWord 0 0x010 h (packV3 f))
  | .vabs h f => some (mkWord 0 0x011 h (packV3 f))
  | .vneg h f => some (mkWord 0 0x012 h (packV3 f))
  | .vmov h f => some (mkWord 0 0x013 h (packV3 f))
  | .vsel h f => some (mkWord 0 0x014 h (packV3 f))
  | .vcmp h f => some (mkWord 0 0x015 h (packV3 f))
  | .vpopc h f => some (mkWord 0 0x016 h (packV3 f))
  | .vclz h f => some (mkWord 0 0x017 h (packV3 f))
  | .vfadd h f => some (mkWord 0 0x018 h (packV3 f))
  | .vfsub h f => some (mkWord 0 0x019 h (packV3 f))
  | .vfmul h f => some (mkWord 0 0x01A h (packV3 f))
  | .vfma h f => some (mkWord 0 0x01B h (packV3 f))
  | .vfmin h f => some (mkWord 0 0x01C h (packV3 f))
  | .vfmax h f => some (mkWord 0 0x01D h (packV3 f))
  | .vfneg h f => some (mkWord 0 0x01E h (packV3 f))
  | .vfabs h f => some (mkWord 0 0x01F h (packV3 f))
  | .vfcmp h f => some (mkWord 0 0x020 h (packV3 f))
  | .vfclass h f => some (mkWord 0 0x021 h (packV3 f))
  | .vfrnd h f => some (mkWord 0 0x022 h (packV3 f))
  | .vfdiv h f => some (mkWord 0 0x023 h (packV3 f))
  | .vexp2 h f => some (mkWord 0 0x024 h (packV3 f))
  | .vlog2 h f => some (mkWord 0 0x025 h (packV3 f))
  | .vrcp h f => some (mkWord 0 0x026 h (packV3 f))
  | .vrsq h f => some (mkWord 0 0x027 h (packV3 f))
  | .vsqrt h f => some (mkWord 0 0x028 h (packV3 f))
  | .vsinpi h f => some (mkWord 0 0x029 h (packV3 f))
  | .vcospi h f => some (mkWord 0 0x02A h (packV3 f))
  | .vtanh h f => some (mkWord 0 0x02B h (packV3 f))
  | .vsigm h f => some (mkWord 0 0x02C h (packV3 f))
  | .vcvt h f => some (mkWord 0 0x02D h (packV3 f))
  | .vshuf h f => some (mkWord 0 0x02E h (packV3 f))
  | .vbcast h f => some (mkWord 0 0x02F h (packV3 f))
  | .vlaneid h f => some (mkWord 0 0x030 h (packV3 f))
  | .vballot h f => some (mkWord 0 0x031 h (packV3 f))
  | .vany h f => some (mkWord 0 0x032 h (packV3 f))
  | .vall h f => some (mkWord 0 0x033 h (packV3 f))
  | .vred h f => some (mkWord 0 0x034 h (packV3 f))
  | .vscan h f => some (mkWord 0 0x035 h (packV3 f))
  | .vfred h f => some (mkWord 0 0x036 h (packV3 f))
  | .vfscan h f => some (mkWord 0 0x037 h (packV3 f))
  | .vcvtbsPack h f => some (mkWord 0 0x038 h (packV3 f))
  | .vcvtbsUnpack h f => some (mkWord 0 0x039 h (packV3 f))
  | .vaddImm h f => some (mkWord 1 0x000 h (packVI f))
  | .vmulImm h f => some (mkWord 1 0x001 h (packVI f))
  | .vandImm h f => some (mkWord 1 0x002 h (packVI f))
  | .vorImm h f => some (mkWord 1 0x003 h (packVI f))
  | .vxorImm h f => some (mkWord 1 0x004 h (packVI f))
  | .vshlImm h f => some (mkWord 1 0x005 h (packVI f))
  | .vshrImm h f => some (mkWord 1 0x006 h (packVI f))
  | .vsarImm h f => some (mkWord 1 0x007 h (packVI f))
  | .vminImm h f => some (mkWord 1 0x008 h (packVI f))
  | .vminuImm h f => some (mkWord 1 0x009 h (packVI f))
  | .vmaxImm h f => some (mkWord 1 0x00A h (packVI f))
  | .vmaxuImm h f => some (mkWord 1 0x00B h (packVI f))
  | .vcmpImm h f => some (mkWord 1 0x00C h (packVI f))
  | .vmovImm h f => some (mkWord 1 0x00D h (packVI f))
  | .vfaddImm h f => some (mkWord 1 0x040 h (packVI f))
  | .vfmulImm h f => some (mkWord 1 0x041 h (packVI f))
  | .vfminImm h f => some (mkWord 1 0x042 h (packVI f))
  | .vfmaxImm h f => some (mkWord 1 0x043 h (packVI f))
  | .vfcmpImm h f => some (mkWord 1 0x044 h (packVI f))
  | .vmovFloatImm h f => some (mkWord 1 0x045 h (packVI f))
  | .sadd h f => some (mkWord 2 0x000 h (packS f))
  | .ssub h f => some (mkWord 2 0x001 h (packS f))
  | .smul h f => some (mkWord 2 0x002 h (packS f))
  | .smulh h f => some (mkWord 2 0x003 h (packS f))
  | .smulhu h f => some (mkWord 2 0x004 h (packS f))
  | .sdiv h f => some (mkWord 2 0x005 h (packS f))
  | .sdivu h f => some (mkWord 2 0x006 h (packS f))
  | .srem h f => some (mkWord 2 0x007 h (packS f))
  | .sremu h f => some (mkWord 2 0x008 h (packS f))
  | .sand h f => some (mkWord 2 0x009 h (packS f))
  | .sor h f => some (mkWord 2 0x00A h (packS f))
  | .sxor h f => some (mkWord 2 0x00B h (packS f))
  | .snot h f => some (mkWord 2 0x00C h (packS f))
  | .sshl h f => some (mkWord 2 0x00D h (packS f))
  | .sshr h f => some (mkWord 2 0x00E h (packS f))
  | .ssar h f => some (mkWord 2 0x00F h (packS f))
  | .smin h f => some (mkWord 2 0x010 h (packS f))
  | .sminu h f => some (mkWord 2 0x011 h (packS f))
  | .smax h f => some (mkWord 2 0x012 h (packS f))
  | .smaxu h f => some (mkWord 2 0x013 h (packS f))
  | .scmp h f => some (mkWord 2 0x014 h (packS f))
  | .ssel h f => some (mkWord 2 0x015 h (packS f))
  | .smov h f => some (mkWord 2 0x016 h (packS f))
  | .smovlo h f => some (mkWord 2 0x017 h (packS f))
  | .smovhi h f => some (mkWord 2 0x018 h (packS f))
  | .sbfx h f => some (mkWord 2 0x019 h (packS f))
  | .sbfi h f => some (mkWord 2 0x01A h (packS f))
  | .sclz h f => some (mkWord 2 0x01B h (packS f))
  | .spopc h f => some (mkWord 2 0x01C h (packS f))
  | .slea h f => some (mkWord 2 0x01D h (packS f))
  | .srd h f => some (mkWord 2 0x01E h (packS f))
  | .reggrow h f => some (mkWord 2 0x080 h (packS f))
  | .regshrink h f => some (mkWord 2 0x081 h (packS f))
  | .batget h f => some (mkWord 2 0x082 h (packS f))
  | .batpass h f => some (mkWord 2 0x083 h (packS f))
  | .tskget h f => some (mkWord 2 0x084 h (packS f))
  | .prog h f => some (mkWord 2 0x085 h (packS f))
  | .yieldt h f => some (mkWord 2 0x086 h (packS f))
  | .pair h f => some (mkWord 3 (f.sop ++ f.vop) h (packPR f))
  | .ld h f => some (mkWord 4 0x000 h (packM f))
  | .st h f => some (mkWord 4 0x001 h (packM f))
  | .sld h f => some (mkWord 4 0x002 h (packM f))
  | .sst h f => some (mkWord 4 0x003 h (packM f))
  | .atomAdd h f => some (mkWord 4 0x004 h (packM f))
  | .atomMin h f => some (mkWord 4 0x005 h (packM f))
  | .atomMinu h f => some (mkWord 4 0x006 h (packM f))
  | .atomMax h f => some (mkWord 4 0x007 h (packM f))
  | .atomMaxu h f => some (mkWord 4 0x008 h (packM f))
  | .atomAnd h f => some (mkWord 4 0x009 h (packM f))
  | .atomOr h f => some (mkWord 4 0x00A h (packM f))
  | .atomXor h f => some (mkWord 4 0x00B h (packM f))
  | .atomExch h f => some (mkWord 4 0x00C h (packM f))
  | .atomCas h f => some (mkWord 4 0x00D h (packM f))
  | .atomFadd h f => some (mkWord 4 0x00E h (packM f))
  | .atomFmin h f => some (mkWord 4 0x00F h (packM f))
  | .atomFmax h f => some (mkWord 4 0x010 h (packM f))
  | .ctradd h f => some (mkWord 4 0x011 h (packM f))
  | .ctrwait h f => some (mkWord 4 0x012 h (packM f))
  | .ctrrd h f => some (mkWord 4 0x013 h (packM f))
  | .qpush h f => some (mkWord 4 0x014 h (packM f))
  | .qpop h f => some (mkWord 4 0x015 h (packM f))
  | .waitk h f => some (mkWord 4 0x016 h (packM f))
  | .pf h f => some (mkWord 4 0x017 h (packM f))
  | .fence h f => some (mkWord 4 0x018 h (packM f))
  | .cpaG2S h f => some (mkWord 4 0x080 h (packCP f))
  | .cpaS2G h f => some (mkWord 4 0x081 h (packCP f))
  | .cpaG2G h f => some (mkWord 4 0x082 h (packCP f))
  | .cpaS2S h f => some (mkWord 4 0x083 h (packCP f))
  | .cpavGlobal h f => some (mkWord 4 0x084 h (packCP f))
  | .cpavScratchpad h f => some (mkWord 4 0x085 h (packCP f))
  | .cptG2S h f => some (mkWord 4 0x086 h (packCP f))
  | .cptS2G h f => some (mkWord 4 0x087 h (packCP f))
  | .cpmGlobal h f => some (mkWord 4 0x088 h (packCP f))
  | .cpmScratchpad h f => some (mkWord 4 0x089 h (packCP f))
  | .nop h f => some (mkWord 5 0x000 h (packC f))
  | .bra h f => some (mkWord 5 0x001 h (packC f))
  | .brq h f => some (mkWord 5 0x002 h (packC f))
  | .jmp h f => some (mkWord 5 0x003 h (packC f))
  | .jmpv h f => some (mkWord 5 0x004 h (packC f))
  | .call h f => some (mkWord 5 0x005 h (packC f))
  | .calli h f => some (mkWord 5 0x006 h (packC f))
  | .ret h f => some (mkWord 5 0x007 h (packC f))
  | .exitWord h f => some (mkWord 5 0x008 h (packC f))
  | .trapWord h f => some (mkWord 5 0x009 h (packC f))
  | .syscall h f => some (mkWord 5 0x00A h (packC f))
  | .bkpt h f => some (mkWord 5 0x00B h (packC f))
  | .runend h f => some (mkWord 5 0x00C h (packC f))
  | .tree _ _ => none
  | .mma h f => some (mkWord 8 0x000 h (packX f))
  | .maccld h f => some (mkWord 8 0x001 h (packX f))
  | .maccst h f => some (mkWord 8 0x002 h (packX f))
  | .mcvt h f => some (mkWord 8 0x003 h (packX f))
  | .shpset h f => some (mkWord 8 0x004 h (packX f))
  | .smooth h f => some (mkWord 8 0x005 h (packX f))
  | .ttq h f => some (mkWord 8 0x006 h (packX f))
  | .ttwait h f => some (mkWord 8 0x007 h (packX f))
  | .nzscan h f => some (mkWord 8 0x008 h (packX f))
  | .coll h f => some (mkWord 8 0x009 h (packX f))
  | .collw h f => some (mkWord 8 0x00A h (packX f))
  | .crfcfg h f => some (mkWord 8 0x010 h (packX f))
  | .crfroute h f => some (mkWord 8 0x011 h (packX f))
  | .crfdep h f => some (mkWord 8 0x012 h (packX f))
  | .crfstat h f => some (mkWord 8 0x013 h (packX f))
  | .crfdrop h f => some (mkWord 8 0x014 h (packX f))
  | .sfaload h f => some (mkWord 8 0x018 h (packX f))
  | .sfaclamp h f => some (mkWord 8 0x019 h (packX f))
  | .sfaseed h f => some (mkWord 8 0x01A h (packX f))
  | .sfasweep h f => some (mkWord 8 0x01B h (packX f))
  | .sfaread h f => some (mkWord 8 0x01C h (packX f))
  | .sfastat h f => some (mkWord 8 0x01D h (packX f))
  | .trapret h f => some (mkWord 9 0x000 h (packY f))
  | .ctlrd h f => some (mkWord 9 0x001 h (packY f))
  | .ctlwr h f => some (mkWord 9 0x002 h (packY f))
  | .sigrd h f => some (mkWord 9 0x003 h (packY f))
  | .smpctl h f => some (mkWord 9 0x004 h (packY f))
  | .tlbinv h f => some (mkWord 9 0x005 h (packY f))
  | .tlbinvall h f => some (mkWord 9 0x006 h (packY f))
  | .cwb h f => some (mkWord 9 0x007 h (packY f))
  | .cinv h f => some (mkWord 9 0x008 h (packY f))
  | .halt h f => some (mkWord 9 0x009 h (packY f))
  | .strict h f => some (mkWord 9 0x00A h (packY f))
  | .pwrOkHigh | .perstNDeassert | .railFault | .powerDown | .thermalHold | .thermalTrip | .thermalEvent
  | .svbNak | .voltageSettled | .frequencyStepEnd | .ident | .stateCode | .tmax | .pwr | .pwrRefresh
  | .clmask | .alertReg | .smbUnknownCode | .portEnable | .portDisable | .portModeSet | .portTrained
  | .dataFlitReceive | .ackFlitReceive | .replayRequest | .ackTimer | .retrainDone | .streamFlitReceive
  | .streamEntryWrite | .bootVerify | .configRequest | .rcvgo | .getVersion | .getCapabilities
  | .negotiateAlgorithms | .getDigests | .getCertificate | .challenge | .getMeasurements
  | .spdmUnsupportedRequest | .create | .modify | .start | .stop | .partitionStopped | .delete | .setwin
  | .query | .mailboxUnknownCmd | .getInfo | .setRoot | .setTrapHart | .setWbase | .getBlkacc
  | .sbiUnknownFunction | .bar4Read | .bar4Write | .registerWrite | .w1cClear | .queueEnable | .queueDisable
  | .doorbell | .launchRecordConsume | .gridEnd | .dispatchDecision | .indexOrderEviction | .restoreComplete
  | .taskSplit | .preempt | .releaseHeld | .preemptEstimate | .drainDeadline | .saveComplete | .opclsWrite
  | .poolReassign | .boostRefill | .runStart | .longLatencyResult | .trapRecord | .senioritySave | .frost
  | .thaw | .barometerTick | .stallSample | .draftTick | .draftStop | .draftAbandon | .draftRelease
  | .copyLanding | .multicastDelivery | .remoteAccess | .cpavCommit | .tlbWalk | .atomicExecute
  | .sideLogRetry | .atomicTokenPass | .sfaLoadRun | .sfaClampRun | .sfaSeedRun | .sfaColourStep
  | .sfaReadRun | .depositArrival | .depositLanded | .slotDeadline | .softError | .ckpt0Go | .trapRingSet
  | .dbgselGo | .traceArm | .samplingEnable | .sampleRecord | .hangCheck | .icacheFill | .runendExpiry
  | .matrixEngineExec | .macroOp | .nzsRun | .collFlitArrival | .collStepTimeout | .collResultTimeout
  | .qpushSlotWrite | .qpopEntryCopy | .thermalHoldEnd => none

/-- R307: the words of a tree. -/
def encodeTree (h : Hdr) (f : TF) : List IWord :=
  let t1 := fun (p : BitVec 92) => (7#4 ++ p : IWord)
  [mkWord 6 0 h (f.shape ++ packTest f.t0 ++ packTest f.t1 ++ 0#7),
   t1 (packTest f.t2 ++ f.l0 ++ f.l1 ++ f.l2 ++ f.l3 ++ 0#1),
   t1 (packArc f.a0 ++ packArc f.a1 ++ packArc f.a2 ++ 0#2),
   t1 (packArc f.a3 ++ packArc f.a4 ++ packArc f.a5 ++ 0#2)].take (1 + f.c.toNat)

/-- R306, R307: the verbatim or tree form of an instruction; nothing for a step of the device. -/
def encode (i : Instr) : List Byte :=
  match i with
  | .tree h f => BitVec.ofNat 8 (0xF0 + f.c.toNat) :: (encodeTree h f).flatMap fun w => beBytes 12 w.toNat
  | i =>
    match encodeWord i with
    | none => []
    | some w => 0xE0 :: beBytes 12 w.toNat

/-- The instruction the decoder reads from `w`, an instruction of `nbits` bits as one number of whole bytes, most
significant byte first as R284 says, followed by zero bytes up to the longest instruction. -/
def decodeTableWord (nbits w : Nat) : Option Instr :=
  match decode (beBytes (nbits / 8) w ++ List.replicate 49 0) with
  | .ok (i, _) => some i
  | .error _ => none

end Sys2Proof
end

