-- ==== Sys2Proof/Config.lean ====
section
/-! DEFINITION. What one implementation fixes and the spec does not state: uninterpreted functions with no
body, so that no proof can rest on a value of theirs (notes/assumptions 7 and 11). -/

namespace Sys2Proof.Config

/-- R37, R40: the SHA-384 digest of a byte string, uninterpreted. -/
opaque sha384 : List Nat → BitVec 384
/-- R37, R40: the digest of the boot ROM. -/
opaque romDigest : BitVec 384
/-- R37: the ECDSA P-384 signature of an image (its bytes by offset) verifies against the fused key hash. -/
opaque imageSigned : List (Nat × Byte) → Bool
/-- R39: the staged image is well formed (RCVST 3 when it is not). -/
opaque imageFormed : List (Nat × Byte) → Bool
/-- R37: the security version an image carries. -/
opaque imageVersion : List (Nat × Byte) → Nat
/-- R37 phase 1: the boot ROM's integrity check of itself passes. -/
opaque romIntact : Bool
/-- R40: the contents of an SPDM answer beyond its kind (certificates, signatures, capabilities). -/
opaque spdmBody : Nat → Nat → List Byte
/-- R204: the bits that a physical-mode cell draws, by the array's cluster and the draw number. -/
opaque cellDraw : Nat → Nat → BitVec 16
/-- R213: the update lane that makes a draw, by the array's cluster and the draw number. -/
opaque cellLane : Nat → Nat → Nat
/-- R195: the contents of a field array after ownership ends, by the free-value counter. -/
opaque sfaLeft : Nat → Nat → BitVec 16
/-- R451: a tile word that a matrix word and a tile task both used, by the free-value counter and element. -/
opaque tileMix : Nat → Nat → W32
/-- R451, R253: the INT32 accumulator that a tile task of integer slots takes from an FP32 pattern that is no INT32 integer. -/
opaque jobAcc : W32 → W32
/-- R29: flits that a port's receive buffer holds beside one. -/
opaque rxMore : Nat
/-- R29: flits that a port's receive buffer holds: one at least, for a link that delivers (DEDUCED, log 11). -/
def rxRoom : Nat := rxMore + 1
/-- Every other value that the spec leaves open, by the free-value counter (log 11). -/
opaque freeWord : Nat → W64

end Sys2Proof.Config
end

