-- ==== Sys2Proof/Machine/Float.lean ====
section
/-! DEFINITION. Numbers and formats (R230 to R253): a format's code read as an exact number, exact arithmetic, and
one rounding at the end. -/

namespace Sys2Proof

/-- A value: NaN, an infinity, or ±m·2^e exactly (m = 0 is a signed zero). -/
inductive FVal
  | nan
  | inf (neg : Bool)
  | fin (neg : Bool) (m : Nat) (e : Int)
  deriving DecidableEq, Repr

/-- A zero of a sign. -/
def FVal.zero (neg : Bool) : FVal := .fin neg 0 0

/-- 2^k for a shift known to be nonnegative. -/
def shl (m : Nat) (k : Int) : Nat := m * pow2 k.toNat

/-- The sign of a value, of a NaN positive. -/
def FVal.sign : FVal → Bool
  | .nan => false
  | .inf n => n
  | .fin n _ _ => n

def FVal.isNan : FVal → Bool
  | .nan => true
  | _ => false

def FVal.isInf : FVal → Bool
  | .inf _ => true
  | _ => false

def FVal.isFin : FVal → Bool
  | .fin _ _ _ => true
  | _ => false

def FVal.isZero : FVal → Bool
  | .fin _ m _ => m == 0
  | _ => false

/-- The magnitude. -/
def FVal.abs : FVal → FVal
  | .nan => .nan
  | .inf _ => .inf false
  | .fin _ m e => .fin false m e

/-- The negation; NaN stays NaN. -/
def FVal.neg : FVal → FVal
  | .nan => .nan
  | .inf n => .inf (!n)
  | .fin n m e => .fin (!n) m e

/-- ±m as an integer. -/
def sInt (neg : Bool) (m : Nat) : Int := if neg then -(m : Int) else m

/-- An integer as a value; zero is +0. -/
def FVal.ofInt (i : Int) : FVal := .fin (i < 0) i.natAbs 0

/-- R385: exact a + b; the sign of an exact zero sum follows IEEE 754 for the rounding mode. -/
def FVal.add (rm : Nat) (a b : FVal) : FVal :=
  match a, b with
  | .nan, _ => .nan
  | _, .nan => .nan
  | .inf x, .inf y => if x == y then .inf x else .nan
  | .inf x, .fin _ _ _ => .inf x
  | .fin _ _ _, .inf y => .inf y
  | .fin na ma ea, .fin nb mb eb =>
    let e := min ea eb
    let v := sInt na (shl ma (ea - e)) + sInt nb (shl mb (eb - e))
    if v == 0 then .zero (if na == nb then na else rm == 3) else .fin (v < 0) v.natAbs e

/-- Exact a × b. -/
def FVal.mul (a b : FVal) : FVal :=
  match a, b with
  | .nan, _ => .nan
  | _, .nan => .nan
  | .inf x, .inf y => .inf (x != y)
  | .inf x, .fin n m _ => if m == 0 then .nan else .inf (x != n)
  | .fin n m _, .inf y => if m == 0 then .nan else .inf (n != y)
  | .fin na ma ea, .fin nb mb eb => .fin (na != nb) (ma * mb) (ea + eb)

/-- A value with a mark that the exact value lies a little further from zero than m·2^e says. -/
structure Approx where
  val : FVal
  more : Bool := false
  deriving DecidableEq, Repr

/-- How many bits below the leading one a quotient is carried to before its remainder becomes the mark. -/
def quotBits : Nat := 320

/-- R389: a ÷ b. -/
def FVal.div (a b : FVal) : Approx :=
  match a, b with
  | .nan, _ => { val := .nan }
  | _, .nan => { val := .nan }
  | .inf _, .inf _ => { val := .nan }
  | .inf x, .fin n _ _ => { val := .inf (x != n) }
  | .fin n _ _, .inf y => { val := .zero (n != y) }
  | .fin na ma ea, .fin nb mb eb =>
    if mb == 0 then (if ma == 0 then { val := .nan } else { val := .inf (na != nb) })
    else if ma == 0 then { val := .zero (na != nb) }
    else
      let n := ma * pow2 quotBits
      { val := .fin (na != nb) (n / mb) (ea - eb - quotBits), more := n % mb != 0 }

/-- a < b for values that are not NaN (−0 equals +0). -/
def FVal.lt (a b : FVal) : Bool :=
  match a, b with
  | .nan, _ => false
  | _, .nan => false
  | .inf x, .inf y => x && !y
  | .inf x, .fin _ _ _ => x
  | .fin _ _ _, .inf y => !y
  | .fin na ma ea, .fin nb mb eb =>
    let e := min ea eb
    sInt na (shl ma (ea - e)) < sInt nb (shl mb (eb - e))

/-- a = b for values that are not NaN (−0 equals +0). -/
def FVal.eq (a b : FVal) : Bool := !a.isNan && !b.isNan && !a.lt b && !b.lt a

/-- R161: IEEE 754 minimum: −0 below +0, a NaN operand gives NaN. -/
def FVal.minimum (a b : FVal) : FVal :=
  if a.isNan || b.isNan then .nan
  else if a.lt b then a
  else if b.lt a then b
  else if a.sign then a else b

/-- R161: IEEE 754 maximum. -/
def FVal.maximum (a b : FVal) : FVal :=
  if a.isNan || b.isNan then .nan
  else if a.lt b then b
  else if b.lt a then a
  else if a.sign then b else a

/-- R378, R386: the relation codes; with a NaN operand only ne holds. -/
def FVal.rel (r : Nat) (a b : FVal) : Bool :=
  if a.isNan || b.isNan then r == 1
  else
    match r with
    | 0 => a.eq b
    | 1 => !a.eq b
    | 2 => a.lt b
    | 3 => !b.lt a
    | 4 => b.lt a
    | _ => !a.lt b

/-! ### Formats -/

/-- R230, R232, R233: exponent and fraction widths of a float format. -/
def fmtWidths (ty : Nat) : Nat × Nat :=
  match ty with
  | 0 => (8, 23)
  | 1 => (5, 10)
  | 2 => (8, 7)
  | 3 => (4, 3)
  | 4 => (5, 2)
  | 5 => (3, 2)
  | _ => (2, 1)

/-- R232, R233: the bias. -/
def fmtBias (ty : Nat) : Int := (pow2 ((fmtWidths ty).1 - 1) : Int) - 1

/-- FP32, FP16 and BF16 have infinities and NaNs; the narrow formats have none. -/
def isWide (ty : Nat) : Bool := ty ≤ 2
/-- A float format. -/
def isFloatFmt (ty : Nat) : Bool := ty ≤ 6
/-- An integer format. -/
def isIntFmt (ty : Nat) : Bool := 8 ≤ ty && ty ≤ 11

/-- R230: bits of an element; a CB2 index has 16. -/
def fmtBits (ty : Nat) : Nat :=
  match ty with
  | 0 => 32
  | 1 => 16
  | 2 => 16
  | 3 => 8
  | 4 => 8
  | 5 => 6
  | 6 => 4
  | 8 => 8
  | 9 => 4
  | 10 => 32
  | 11 => 32
  | _ => 16

/-- R230: E_fmt. -/
def fmtE (ty : Nat) : Int :=
  match ty with
  | 3 => 8
  | 4 => 16
  | 5 => 4
  | 6 => 2
  | 8 => 6
  | 9 => 2
  | _ => 0

/-- The exponent of the smallest step of a float format. -/
def fmtMinExp (ty : Nat) : Int := 1 - fmtBias ty - (fmtWidths ty).2

/-- R232 to R235: the value of a float code. -/
def decodeFloat (ty code : Nat) : FVal :=
  let (eb, fb) := fmtWidths ty
  let neg := code / pow2 (eb + fb) % 2 == 1
  let e := code / pow2 fb % pow2 eb
  let m := code % pow2 fb
  if isWide ty && e + 1 == pow2 eb then (if m == 0 then .inf neg else .nan)
  else if e == 0 then .fin neg m (fmtMinExp ty)
  else .fin neg (m + pow2 fb) (fmtMinExp ty + (e - 1))

/-- R236: the value of an integer code; UINT32 is read unsigned. -/
def decodeInt (ty code : Nat) : FVal :=
  let b := fmtBits ty
  let v := code % pow2 b
  if ty == 11 then .fin false v 0
  else FVal.ofInt (if v < pow2 (b - 1) then (v : Int) else (v : Int) - pow2 b)

/-- R230 to R236: the value of an element of a format other than CB2. -/
def decodeElem (ty code : Nat) : FVal := if isFloatFmt ty then decodeFloat ty code else decodeInt ty code

/-- R240: component i of a CB2 index, as a value. -/
def cb2Comp (c i : Nat) : FVal :=
  let b := fun k => c / pow2 k % 2
  let m := if b (8 + i) == 1 then (if b 0 == 0 then 3 else 5) else 1
  let negs := (List.range 7).foldl (fun n k => n + b (k + 1)) 0
  .fin ((if i == 0 then negs % 2 else b i) == 1) m (-1)

/-- R247: with `.ftz`, a subnormal of a wide format is read as a zero of its sign. -/
def flushIn (ty : Nat) (ftz : Bool) (v : FVal) : FVal :=
  match v with
  | .fin n m e =>
    if ftz && isWide ty && m != 0 && e == fmtMinExp ty && m < pow2 (fmtWidths ty).2 then .zero n else v
  | v => v

/-! ### Rounding -/

/-- R249: what stochastic rounding draws: the upper 16 bits of the mixer of R204. -/
def mix16 (seed step i : BitVec 32) : Nat :=
  let z := seed ^^^ (step * 0x9E3779B9#32) ^^^ (i * 0x85EBCA6B#32)
  let z := z ^^^ (z >>> 16)
  let z := z * 0x7FEB352D#32
  let z := z ^^^ (z >>> 15)
  let z := z * 0x846CA68B#32
  let z := z ^^^ (z >>> 16)
  (z >>> 16).toNat

/-- R244, R249: the integer that m·2^(−k) rounds to; `more` says the exact value lies a little above; `u` is the
stochastic draw of RM 4. -/
def roundShift (rm : Nat) (neg : Bool) (m : Nat) (more : Bool) (k : Int) (u : Nat) : Nat :=
  if k ≤ 0 then shl m (-k)
  else
    let d := pow2 k.toNat
    let n := m / d
    let r := m % d
    let inexact := r != 0 || more
    let up :=
      match rm with
      | 0 => d < 2 * r || (2 * r == d && (more || n % 2 == 1))
      | 1 => false
      | 2 => !neg && inexact
      | 3 => neg && inexact
      | _ => u < 65536 * r / d
    if up then n + 1 else n

/-- The exponent of the last place of a float format for a magnitude m·2^e, m ≠ 0. -/
def quantum (ty m : Nat) (e : Int) : Int :=
  max ((flog2 m : Int) + e - (fmtWidths ty).2) (fmtMinExp ty)

/-- The magnitude code (no sign) that m·2^e rounds to, before any overflow is judged. -/
def roundMag (ty rm : Nat) (neg : Bool) (m : Nat) (more : Bool) (e : Int) (u : Nat) : Nat :=
  if m == 0 then (if more && ((rm == 2 && !neg) || (rm == 3 && neg)) then 1 else 0)
  else
    let q := quantum ty m e
    let n := roundShift rm neg m more (q - e) u
    (q - fmtMinExp ty).toNat * pow2 (fmtWidths ty).2 + n

/-- The magnitude code of infinity in a wide format. -/
def infCode (ty : Nat) : Nat := (pow2 (fmtWidths ty).1 - 1) * pow2 (fmtWidths ty).2
/-- The sign bit of a format. -/
def signBit (ty : Nat) (neg : Bool) : Nat := if neg then pow2 ((fmtWidths ty).1 + (fmtWidths ty).2) else 0
/-- R232: the default NaN. -/
def nanCode (ty : Nat) : Nat := infCode ty + pow2 ((fmtWidths ty).2 - 1)

/-- R245 to R247: a result in FP32, FP16 or BF16. `exactInf` says that an infinite result comes from an infinite
operand, which `.sat` leaves alone. -/
def encodeWide (ty rm : Nat) (sat ftz exactInf : Bool) (a : Approx) : Nat :=
  match a.val with
  | .nan => nanCode ty
  | .inf n => signBit ty n + (if sat && !exactInf then infCode ty - 1 else infCode ty)
  | .fin n m e =>
    let c := roundMag ty rm n m a.more e 0
    if infCode ty ≤ c then
      signBit ty n +
        (if sat then infCode ty - 1
         else
           match rm with
           | 0 => infCode ty
           | 1 => infCode ty - 1
           | 2 => if n then infCode ty - 1 else infCode ty
           | _ => if n then infCode ty else infCode ty - 1)
    else if ftz && c < pow2 (fmtWidths ty).2 then signBit ty n
    else signBit ty n + c

/-- R233, R246, R248: a result in a narrow float format: it saturates; NaN gives code 0. -/
def encodeNarrow (ty rm u : Nat) (v : FVal) : Nat :=
  let top := pow2 ((fmtWidths ty).1 + (fmtWidths ty).2) - 1
  match v with
  | .nan => 0
  | .inf n => signBit ty n + top
  | .fin n m e => signBit ty n + min top (roundMag ty rm n m false e u)

/-- R246, R248: a result in an integer format: it saturates; NaN gives 0. -/
def encodeInt (ty rm u : Nat) (v : FVal) : Nat :=
  let b := fmtBits ty
  let hi := if ty == 11 then pow2 b - 1 else pow2 (b - 1) - 1
  let lo := if ty == 11 then 0 else pow2 (b - 1)
  let neg := fun m => (pow2 b - min m lo) % pow2 b
  match v with
  | .nan => 0
  | .inf n => if n then neg lo else hi
  | .fin n m e =>
    let k := roundShift rm n m false (-e) u
    if n then neg k else min k hi

/-- R249: the draw for element j of lane L: seed in [31:0] of sx, step in [63:32]. -/
def stochDraw (sx : W64) (lane j : Nat) : Nat := mix16 sx.lo sx.hi (BitVec.ofNat 32 (32 * lane + j))

/-- R394: CONVERT of a value to a format. -/
def convert (ty rm : Nat) (sat ftz : Bool) (u : Nat) (v : FVal) : Nat :=
  if isWide ty then encodeWide ty rm sat ftz v.isInf { val := v }
  else if isFloatFmt ty then encodeNarrow ty rm u v
  else encodeInt ty rm u v

/-! ### FP32 operations used by the tree, the atomics and the engines -/

/-- An FP32 pattern as a value. -/
def f32 (x : W32) : FVal := decodeFloat 0 x.toNat
/-- RNE32: a value rounded to FP32, subnormals kept. -/
def rne32 (v : FVal) : W32 := w32 (encodeWide 0 0 false false v.isInf { val := v })
/-- RNE32(a + b). -/
def add32 (a b : W32) : W32 := rne32 (FVal.add 0 (f32 a) (f32 b))
/-- R161: minimum and maximum on FP32 patterns. -/
def min32 (a b : W32) : W32 := rne32 ((f32 a).minimum (f32 b))
def max32 (a b : W32) : W32 := rne32 ((f32 a).maximum (f32 b))

/-! ### The canonical tree -/

/-- R250: T over a list by the split at the largest power of two below its length; `fuel` bounds the depth. -/
def canonTree {α : Type} (node : α → α → α) (unit : α) : Nat → List α → α
  | 0, _ => unit
  | fuel + 1, l =>
    match l with
    | [] => unit
    | [x] => x
    | l =>
      let m := pow2 (flog2 (l.length - 1))
      node (canonTree node unit fuel (l.take m)) (canonTree node unit fuel (l.drop m))

/-- The canonical tree over at most 2^20 operands. -/
def canon {α : Type} (node : α → α → α) (unit : α) (l : List α) : α := canonTree node unit 21 l

/-! ### Block scales and packing -/

/-- R237: the value of a block scale other than 0xFF. -/
def scaleExp (e : Nat) : Int := (e : Int) - 127

/-- A value times 2^k, exactly. -/
def FVal.scale (v : FVal) (k : Int) : FVal :=
  match v with
  | .fin n m e => .fin n m (e + k)
  | v => v

/-- ⌊log₂ v⌋ of a positive finite value. -/
def FVal.log2 : FVal → Int
  | .fin _ m e => (flog2 m : Int) + e
  | _ => 0

/-- R238: the block scale of some FP32 values for a format. -/
def blockScale (ty : Nat) (xs : List FVal) : Nat :=
  if xs.any FVal.isNan then 0xFF
  else
    let amax := xs.foldl (fun (a x : FVal) => a.maximum x.abs) (FVal.zero false)
    if amax.isZero then 127
    else if amax.isInf then 254
    else (min 254 (max 0 (amax.log2 - fmtE ty + 127))).toNat

/-- R238: ROUND_fmt of a scaled value: a narrow float or integer code. -/
def roundCode (ty rm u : Nat) (v : FVal) : Nat :=
  if isFloatFmt ty then encodeNarrow ty rm u v else encodeInt ty rm u v

/-- R238: the code of one value under a chosen scale. -/
def blockCode (ty rm e u : Nat) (v : FVal) : Nat :=
  if e == 0xFF then 0 else roundCode ty rm u (v.scale (-(scaleExp e)))

/-- R231: the bytes of a row of codes; a partial unit is completed with zero codes. -/
def packCodes (ty : Nat) (codes : List Nat) : List Byte :=
  let b := fmtBits ty
  let bits := roundUp (codes.length * b) (if b == 6 then 24 else 8)
  let n := codes.foldr (fun c acc => c % pow2 b + acc * pow2 b) 0
  leBytes (bits / 8) n

/-- R231: code i of a packed row. -/
def codeAt (ty : Nat) (bs : List Byte) (i : Nat) : Nat :=
  let b := fmtBits ty
  leNat ((bs.drop (i * b / 8)).take 5) / pow2 (i * b % 8) % pow2 b

end Sys2Proof
end

