-- ==== Sys2Proof/Machine/State.lean ====
section
/-! DEFINITION. The state of the device: every piece that the spec names, as plain data. Sparse maps (`SMap`) list
only the keys whose value is not the default, so that equal machines are equal data. Units are keyed by number:
core k of cluster c is 6c + k, quadrant d of that core is 4(6c + k) + d, team t of grid g is g·2^20 + t and group n
of that team is (g·2^20 + t)·32 + n. -/

namespace Sys2Proof.Machine

/-! ### Groups -/

/-- The registers of a group that a word reads: the part of the group that a cycle's two words both see as it stood
when the cycle began (R371). -/
structure Regs where
  /-- v0 to v255: 128 lanes of 32 bits each; an unlisted register reads zero in every lane. -/
  v : SMap (List W32) := []
  /-- R262: the poison marks of v registers, bit L for lane L. -/
  vPois : SMap Mask := []
  /-- s1 to s63; s0 reads zero and is never listed. -/
  s : SMap W64 := []
  /-- R262: the poison marks of s registers, one for each 32-bit half. -/
  sPois : SMap (BitVec 2) := []
  /-- p1 to p15, bit L for lane L; p0 reads true and is never listed. -/
  p : SMap Mask := []
  /-- q0 to q6; q7 reads true. -/
  q : BitVec 7 := 0
  deriving DecidableEq, Repr

/-- A register write that a long-latency word makes when its data is there (R107). -/
inductive RegWr
  /-- v[r] in the lanes of `m`: the values and poison marks. -/
  | vec (r : Nat) (m : Mask) (vals : List W32) (pois : Mask)
  /-- The same for a load's result, which lanes that have exited no longer take (R351). -/
  | loaded (r : Nat) (m : Mask) (vals : List W32) (pois : Mask)
  /-- s[r] and its poison marks. -/
  | scal (r : Nat) (val : W64) (pois : BitVec 2)
  /-- p[r] in the lanes of `m`. -/
  | pred (r : Nat) (m vals : Mask)
  deriving DecidableEq, Repr

/-- R107: a long-latency result not yet written. -/
structure Due where
  id : Nat
  /-- The byte address of the long-latency word. -/
  pc : Nat
  /-- Its lookahead. -/
  la : Nat
  /-- The lanes that issued it. -/
  mask : Mask
  /-- For each of those lanes, the instructions it has issued since; unlisted lanes have issued none. -/
  count : SMap Nat := []
  /-- The registers of the result: 0 and a v register, 1 and an s register, 2 and a predicate. -/
  dst : List (Nat × Nat) := []
  /-- What is written when the last lane's data is there. -/
  writes : List RegWr := []
  /-- Parts of the result still outstanding elsewhere (a remote access, an atomic, a unit's answer). -/
  left : Nat := 0
  deriving DecidableEq, Repr

/-- R282: where a counter lies: a global virtual address, or an offset in a team's scratchpad. -/
inductive Loc
  | glob (va : Nat)
  | spad (g t off : Nat)
  deriving DecidableEq, Repr

/-- R117: why a group is parked, with what the waking event needs. -/
inductive Park
  /-- R410: until the counter reaches `want`; the acquire of the word follows. -/
  | counter (loc : Loc) (want : W64) (scp : Nat) (rmt : Bool)
  /-- R413, R414: a claim that waits; `status` is the register of the result, `place` the entry's place. -/
  | queue (q : Nat) (pop : Bool) (index : Nat) (status : Nat) (loc : Loc)
  /-- R137: until every listed line of the team's scratchpad is present. -/
  | line (lines : List Nat)
  /-- R114: until rows for `n` registers are granted; the result goes to s[sd]. -/
  | reggrow (n sd : Nat)
  /-- R116: `get` for `batget`, which then holds the baton; else a matrix word that issues again. -/
  | baton (get : Bool)
  /-- R79, R429: until a chunk is handed over into s[sd] and s[sd+1]. -/
  | task (sd : Nat)
  /-- R218: until `need` slots of the cluster's carafe are free. -/
  | carafe (need : Nat)
  /-- R156, R157: on room for `need` entries and `recs` lane records, or on replay (`need` = 0). -/
  | sideLog (need recs : Nat)
  /-- R268. -/
  | trap
  /-- R415: until the tokens of the mask are complete. -/
  | token (mask : BitVec 8)
  /-- R452: as token; the L1 sectors of the covered jobs' write footprints are then invalidated. -/
  | tileWait (mask : BitVec 8)
  /-- R459: until the collective ends; its status goes to s[sc]. -/
  | coll (handle sc : Nat)
  /-- R364. -/
  | halt
  /-- R431: until the save that `yieldt` asked for has been and the team is restored; s[sd] then reads 1. -/
  | yield (sd : Nat)
  deriving DecidableEq, Repr

/-- A group of 128 lanes (R97 to R117). -/
structure Group where
  /-- The quadrant and slot it holds while its team is resident. -/
  quad : Nat := 0
  slot : Nat := 0
  regs : Regs := {}
  /-- R99, R349: for each lane target, as the full 64-bit value, the lanes that stand there. Bits [56:0] are the PC;
  a lane whose upper bits are not all zero has the out-of-range mark. -/
  pcs : SMap Mask := []
  /-- R99: lanes that have exited. -/
  exited : Mask := 0
  /-- R111: lanes held at their PC with a recorded fault. -/
  held : Mask := 0
  /-- R145: pending counts and statuses of k0 to k7. -/
  kCount : SMap Nat := []
  kStat : SMap Nat := []
  /-- R437: word w of shape record n at key 6n + w. -/
  shp : SMap W64 := []
  /-- R263, R439: the marks of its halves, under the same keys, as `shpset` copied them. -/
  shpPois : SMap (BitVec 2) := []
  /-- R439: the scratchpad offset of the bound smoothing vector. -/
  smooth : Option W32 := none
  /-- R114: the current register budget, in registers. -/
  budget : Nat := 0
  /-- R273: step bit and strict controls. -/
  step : Bool := false
  sla : Bool := false
  srun : Bool := false
  /-- R364, R366. -/
  halted : Bool := false
  excluded : Bool := false
  forced : Bool := false
  /-- R276: the path signature. -/
  sig : W64 := 0
  park : Option Park := none
  due : List Due := []
  /-- R273: DBGSEL bits (SRUN, SLA, STEP) that wait for `trapret` or the next run start. -/
  dbgPend : Option (BitVec 3) := none
  /-- R369: strict controls that wait for the next run start. -/
  strictPend : Option (BitVec 2) := none
  /-- R352: cycles during which the group is not ready, in 1/40 cycle. -/
  runendLeft : Nat := 0
  /-- R109: a step trap taken when the park ends, with the parking word's address and its lanes. -/
  stepPend : Option (Nat × Mask) := none
  /-- R274: the run that follows `trapret` from a breakpoint does not match its first word. -/
  bkptPass : Bool := false
  /-- R159: the submission that stalls for PLT room has been counted; R422: the tile copy whose operations are entering
  the channels. -/
  pltWait : Bool := false
  entering : Option Nat := none
  /-- R280: how often the group's next memory word was looked up again after a fault or a park. -/
  replays : Nat := 0
  /-- R268: the cause of the trap the group is parked for. -/
  trapCause : Option Nat := none
  /-- R116: it held the baton when its team was saved, and has yet to be granted it again. -/
  batonDue : Bool := false
  deriving DecidableEq, Repr

/-! ### Teams and grids -/

/-- R129: the states of a team. -/
inductive TeamSt
  | pending
  | resident
  | moving
  | saving
  | saved
  | restoring
  | exited
  deriving DecidableEq, Repr

/-- R87: what the estimator chose for a team of the request in progress. -/
inductive Choice
  | drain
  | discard
  | save
  deriving DecidableEq, Repr

/-- Why a team is being saved or drained (R86 to R88, R115, R70, R431). -/
inductive SaveCause
  | preempt
  | drain
  | seniority
  | eviction
  | yieldt (grp : Nat)
  deriving DecidableEq, Repr

/-- R449 to R451: a tile task. -/
structure TileJob where
  g : Nat
  t : Nat
  grp : Nat
  tk : Nat
  addr : Nat
  /-- The 24 qwords of the card. -/
  card : List W64
  smooth : Option W32
  i : Nat
  j : Nat
  c : Nat
  /-- 0 LOAD, 1 STEP, 2 STORE. -/
  phase : Nat
  /-- R449: the pages pinned: virtual page, physical page, memory type. -/
  pages : List (Nat × Nat × Nat)
  /-- R175: numbers of the jobs that must end before this one starts. -/
  edges : List Nat
  id : Nat
  /-- R451: a matrix word used its tile: its C is unpredictable. -/
  mixed : Bool := false
  deriving DecidableEq, Repr

/-- R258: an entry of the float-atomic buffer. -/
structure FloatEntry where
  g : Nat
  t : Nat
  grp : Nat
  addr : Nat
  op : Nat
  operand : W32
  /-- R262: the mark of the operand. -/
  pois : Bool := false
  /-- When it entered: the number of the next operation then; the lane and the word that sent it. -/
  id : Nat := 0
  lane : Nat := 0
  pc : Nat := 0
  deriving DecidableEq, Repr

/-- R480: a lane record of the side log. -/
structure LogRec where
  addr : Nat
  data : List Byte
  /-- The compare value of an `atom.cas` without return. -/
  cmp : List Byte
  /-- R262: the mark of the data. -/
  pois : Bool := false
  deriving DecidableEq, Repr

/-- R156, R480: a side-log entry. -/
structure LogEntry where
  g : Nat
  t : Nat
  grp : Nat
  page : Nat
  op : Nat
  sz : Nat
  seq : Nat
  lanes : Mask
  recs : List LogRec
  /-- R167: the number of the next operation when the entry was made: earlier operations of its group come before it. -/
  id : Nat := 0
  /-- R169, R171: the store of a release of device scope or wider. -/
  wide : Bool := false
  deriving DecidableEq, Repr

/-- R452: the write footprints of an ended job that a token counted and no `ttwait` has covered. -/
structure DoneJob where
  grpKey : Nat
  tk : Nat
  /-- R175, R176: the bounding ranges and the bytes named, as ranges of physical addresses: first byte and length. -/
  ranges : List (Nat × Nat)
  bytes : List (Nat × Nat)
  deriving DecidableEq, Repr

/-- A team (R129 to R137), with its TLT entry (R150) while it has one. -/
structure Team where
  st : TeamSt := .pending
  held : Bool := false
  /-- R81: has opened a task or received a split. -/
  taskUser : Bool := false
  /-- R61: it has been placed before; the core that holds it, or held it last. -/
  placed : Bool := false
  cl : Nat := 0
  co : Nat := 0
  /-- R87: resident time in nanoseconds, and progress. -/
  elapsed : W64 := 0
  progress : W64 := 0
  /-- R124: placed, and its first word has not issued. -/
  placing : Bool := false
  /-- R133: allocation generation, and deliveries addressed to the team that are outstanding. -/
  gen : BitVec 16 := 0
  deliveries : Nat := 0
  cause : Option SaveCause := none
  /-- R86: the pre-emption to carry out when the move or save in progress has ended; the drain's deadline. -/
  wanted : Bool := false
  drainAt : Option Nat := none
  /-- R87: the action chosen when the request reached the cluster; it stands until it has been carried out. -/
  choice : Option Choice := none
  /-- R134: bytes of the scratchpad; poison per 32-bit word; lines whose fresh bit is clear; landing counts. -/
  spad : SMap Byte := []
  spadPois : SMap Bool := []
  used : SMap Bool := []
  landing : SMap Nat := []
  /-- R132: element (r, c) of tile n at key 1024n + 32r + c, with poison. -/
  tiles : SMap W32 := []
  tilePois : SMap Bool := []
  /-- R480: which group held the baton when the team was saved. -/
  batonSaved : Option Nat := none
  /-- R479: the pages pinned for the save area: virtual page, physical page, memory type. -/
  pinned : List (Nat × Nat × Nat) := []
  /-- R464, R480: the tile tasks of a saved team. -/
  jobs : List TileJob := []
  /-- R480: of a saved team, what the image's entries do not name: the group, lanes and operation numbers of the side-log
  entries, and the group, number, lane and word of the float-atomic buffer's. R167: they are still to be performed. -/
  savedLog : List LogEntry := []
  savedFloat : List FloatEntry := []
  /-- R452: its ended jobs that no `ttwait` has covered, while it is saved. -/
  savedDone : List DoneJob := []
  deriving DecidableEq, Repr

/-- A grid in the launch table (R54 to R58). -/
structure Grid where
  part : Nat := 0
  queue : Nat := 0
  /-- R55: the launch record's qwords Q0 to Q15. -/
  record : List W64 := []
  /-- R59: Q13 of the root grid's record. -/
  root13 : W64 := 0
  /-- R58: the order of acceptance. -/
  order : Nat := 0
  /-- R76: the grid whose group pushed the record. -/
  parent : Option Nat := none
  /-- R57: with SER = 1, the previous grid of its queue. -/
  after : Option Nat := none
  /-- R69: the head that is waiting, its pass-over count and forced drain; R70: how long it has waited. -/
  head : Option Nat := none
  passed : Nat := 0
  draining : Bool := false
  headWait : Nat := 0
  /-- R257: the team that holds the float-atomic token. -/
  token : Nat := 0
  /-- R281: the hang count; did a group of the grid issue since the last check; was the grid at work then; and the instant
  of that check. -/
  hang : Nat := 0
  issued : Bool := false
  hangBusy : Bool := false
  hangAt : Option Nat := none
  /-- R265, R267: the recovery point: generation, log entries, overflow, and its registers when declared. -/
  gen : BitVec 32 := 0
  nlog : Nat := 0
  ovfl : Bool := false
  reca : Option Nat := none
  loga : Nat := 0
  log2n : Nat := 0
  ckptPages : List Nat := []
  /-- R266: the grid is being relaunched or aborted. -/
  ending : Bool := false
  /-- R282: the team of the grid that last added to each counter location, by its code. -/
  lastAdd : SMap Nat := []
  /-- R79: the grid's last running task has ended, and none was opened since. -/
  tasksOver : Bool := false
  /-- R278: the grid is traced. -/
  traced : Bool := false
  /-- R58: pages pinned at acceptance. -/
  pages : List Nat := []
  deriving DecidableEq, Repr

/-! ### Cores -/

/-- R101, R102: one of the two streams of a run. -/
structure Stream where
  /-- The 64-bit target at which the stream stands. -/
  pc : Nat
  lanes : Mask
  /-- Internal words it has issued in this run. -/
  words : Nat := 0
  deriving DecidableEq, Repr

/-- R101 to R106: the run that holds a quadrant's slot. -/
structure Run where
  /-- The key of its group. -/
  grp : Nat
  prim : Stream
  sec : Option Stream
  /-- The next word of the cycle is the secondary stream's. -/
  secTurn : Bool := false
  /-- R371: the registers when the cycle began, while the secondary word is to issue. -/
  snap : Option Regs := none
  /-- R104: the secondary word waits this cycle for the primary's memory word. -/
  hold : Bool := false
  /-- R372, R399: the number of the first result that the cycle's primary word may leave due. -/
  first : Nat := 0
  /-- The run ends when the cycle ends. -/
  ending : Bool := false
  /-- R274: the first word of each stream is not matched by a breakpoint register. -/
  pass : Bool := false
  deriving DecidableEq, Repr

/-- A quadrant (R97). -/
structure Quad where
  /-- R108: the slot of the last winner. -/
  last : Nat := 23
  /-- The group in each occupied slot. -/
  slots : SMap Nat := []
  run : Option Run := none
  /-- R372, R399: for a cycle whose secondary word wrote an s register: the group, the first and the next number of the results
  that the primary word left due, and the register, which they no longer write. -/
  skips : List (Nat × Nat × Nat × Nat) := []
  deriving DecidableEq, Repr

/-- R139: a 32-byte sector of an L1, keyed by physical address over 32: its bytes, which of them are valid, which are
dirty, and its poison mark. -/
structure Sector where
  data : List Byte := List.replicate 32 0
  valid : BitVec 32 := 0
  dirty : BitVec 32 := 0
  pois : Bool := false
  deriving DecidableEq, Repr

/-- R286: a word held by an instruction-cache line: the address of its instruction, the instruction's bytes as they
were ground, and a mark pending for the stream that issues it (R287): cause and detail. -/
structure IWordRec where
  va : Nat
  bytes : List Byte
  mark : Option (Nat × W64)
  deriving DecidableEq, Repr

/-- R286: an instruction-cache line, tagged by partition, 128-byte block and first offset. -/
structure ILine where
  part : Nat
  block : Nat
  first : Nat
  insns : List IWordRec
  deriving DecidableEq, Repr

/-- R153: a TLB entry over a block of 32 pages. -/
structure TlbEntry where
  part : Nat
  /-- VA[56:21]. -/
  block : Nat
  valid : BitVec 32
  r : Bool
  w : Bool
  x : Bool
  mt : Nat
  /-- PPN₀: the physical page that page 0 of the block would map to, which may lie below page 0. -/
  ppn0 : Int
  /-- R152: pages whose A and D bits this entry has set. -/
  aSet : BitVec 32
  dSet : BitVec 32
  deriving DecidableEq, Repr

/-- R436: a matrix word in the engine queue, with what it read at issue. -/
structure EngWord where
  g : Nat
  t : Nat
  grp : Nat
  word : Instr
  /-- The snapshot of its shape record, W0 to W5, and of the smoothing binding. -/
  shape : List W64
  smooth : Option W32
  /-- The scalar operands read at issue. -/
  sa : W64
  sb : W64
  sc : W64
  /-- The token it counts. -/
  tk : Option Nat
  /-- R448: the lines whose landing count it raised, with the team's generation. -/
  lines : List Nat
  gen : BitVec 16
  /-- R448: its number among the operations issued. -/
  id : Nat := 0
  deriving DecidableEq, Repr

/-- R453, R454: a queued non-zero scan. -/
structure ScanCmd where
  g : Nat
  t : Nat
  grp : Nat
  tk : Nat
  src : Nat
  dst : Nat
  n : Nat
  size : Nat
  float : Bool
  bitmap : Bool
  lines : List Nat
  gen : BitVec 16
  /-- R454: its number among the operations issued. -/
  id : Nat := 0
  deriving DecidableEq, Repr

/-- R279, R280: a sampled instruction whose record waits. -/
structure Sample where
  ident : List Byte
  pc : Nat
  active : Nat
  replays : Nat
  sectors : Nat
  store : Bool
  issued : W64
  grpKey : Nat
  /-- The numbers that its results due and its operations took: `first` up to `last`, not included. -/
  first : Nat
  last : Nat
  deriving DecidableEq, Repr

/-- A core (R97). -/
structure Core where
  /-- R63: its partition word. -/
  pword : Option (BitVec 16) := none
  /-- R20, R118. -/
  frost : Bool := true
  /-- R119: an event that thaws the core has come. -/
  woken : Bool := false
  /-- R345: island clock edges counted, in 1/40 of an edge (25 MHz over one nanosecond). -/
  edges40 : Nat := 0
  /-- R139: the L1. -/
  l1 : SMap Sector := []
  /-- R125: write-through during a draft swap. -/
  writeThrough : Bool := false
  /-- R286: most recently used first. -/
  icache : List ILine := []
  /-- R153: most recently used first. -/
  tlb : List TlbEntry := []
  /-- R156: in the order logged. -/
  sideLog : List LogEntry := []
  logSeq : Nat := 0
  /-- R258: in the order entered. -/
  fbuf : List FloatEntry := []
  /-- R144: the copy channel last used. -/
  copyLast : Nat := 7
  /-- R116: the group that holds the baton, and the groups parked for it, first come first. -/
  baton : Option Nat := none
  batonWait : List Nat := []
  /-- R436. -/
  engq : List EngWord := []
  /-- R449: jobs in submission order; R451: the job that has the next macro-op turn; a macro-op may run. -/
  tts : List TileJob := []
  ttsTurn : Nat := 0
  macroTurn : Bool := false
  doneJobs : List DoneJob := []
  /-- R454. -/
  nzsq : List ScanCmd := []
  /-- R279: memory instructions since the last sample; records that wait. -/
  sampCount : Nat := 0
  samples : List Sample := []
  deriving DecidableEq, Repr

/-! ### Cluster units -/

/-- R78: a range task in a cluster's splitter, or kept by its group alone. -/
structure Task where
  entry : Nat
  lo : Nat
  cur : Nat
  hi : Nat
  chunk : Nat
  g : Nat
  owner : Nat
  /-- R78: kept in the group alone when the splitter was full. -/
  alone : Bool := false
  deriving DecidableEq, Repr

/-- R196: a command of the field array, queued or running. -/
structure SfaCmd where
  g : Nat
  t : Nat
  grp : Nat
  /-- R480: the X opcode minus 0x018. -/
  op : Nat
  tk : Option Nat
  /-- Operands read at issue. -/
  a : W64
  b : W64
  imm : BitVec 8
  /-- R198: the card of a load, as read at issue, and is it poisoned. -/
  card : List W64 := []
  cardPois : Bool := false
  /-- R481: the N that sizes the command's arrays. -/
  n : Option Nat := none
  /-- R197: pages pinned at issue: virtual page, physical page, memory type. -/
  pages : List (Nat × Nat × Nat) := []
  /-- R174, R137: lines whose landing count a read raised, with the team's generation. -/
  lines : List Nat := []
  gen : BitVec 16 := 0
  /-- Its number among the operations issued. -/
  id : Nat := 0
  /-- A sweep's progress: sweeps done and the next colour. -/
  done : Nat := 0
  colour : Nat := 0
  deriving DecidableEq, Repr

/-- R213: the health monitor of one probabilistic cell: draws and ones of its window, its last bit, and how often that bit
came in a row. -/
structure Cell where
  draws : Nat := 0
  ones : Nat := 0
  last : Bool := false
  run : Nat := 0
  deriving DecidableEq, Repr

/-- The stochastic field array of a cluster (07). -/
structure Sfa where
  owner : Option Nat := none
  /-- R199: a configuration is loaded. -/
  cfg : Bool := false
  nvar : Nat := 0
  deg : Nat := 0
  ncol : Nat := 0
  /-- R198: slot d of variable i at key 32i + d: the neighbour's number, and the coupling; an empty slot is unlisted. -/
  nbr : SMap Nat := []
  coup : SMap (BitVec 8) := []
  bias : SMap (BitVec 16) := []
  colourOf : SMap Nat := []
  /-- R194: states, counters and clamps. -/
  st : SMap Bool := []
  count : SMap Nat := []
  clamp : SMap Bool := []
  sweep : BitVec 32 := 0
  ncnt : Nat := 0
  csat : Bool := false
  pois : Bool := false
  phys : Bool := true
  seed : BitVec 32 := 0
  code : Nat := 0
  queue : List SfaCmd := []
  /-- R213: variables whose row holds an uncorrectable error, until the sweep ends. -/
  bad : SMap Bool := []
  /-- R206: draws made in the physical mode; R213: the monitor of cell c of lane n at key 16n + c. -/
  draws : Nat := 0
  cells : SMap Cell := []
  deriving DecidableEq, Repr

/-- R217 to R226: a carafe slot. -/
structure CrfSlot where
  /-- The token index routed. -/
  tok : Nat
  k : Nat
  ids : List Nat
  gates : List W32
  gatePois : Bool
  /-- R221: the arrival bitmap. -/
  have_ : BitVec 8 := 0
  /-- R222: poison marks of landed elements: element e of position j at key 16384j + e. -/
  dataPois : SMap Bool := []
  deadline : Option Nat
  /-- R224: closed, and waiting for its turn to be released, with its status: 0 complete, 1 substituted, 2 dropped. -/
  closed : Option Nat := none
  /-- R222: the row formed when it closed: codes in OFMT, with marks. -/
  row : List (W32 × Bool) := []
  /-- Which claim of the slot this is. -/
  stamp : Nat
  deriving DecidableEq, Repr

/-- R215: a carafe configuration, as the record's qwords give it. -/
structure CrfCfg where
  grid : Nat
  record : List W64
  /-- R215: pages pinned: virtual page, physical page, memory type. -/
  pages : List (Nat × Nat × Nat)
  deriving DecidableEq, Repr

/-- The carafe of a cluster (08). -/
structure Carafe where
  cfg : Option CrfCfg := none
  slots : SMap CrfSlot := []
  next : Nat := 0
  rcnt : Nat := 0
  code : Nat := 0
  deriving DecidableEq, Repr

/-- R124, R125: a draft swap in progress. -/
structure Swap where
  hot : Nat
  cool : Nat
  /-- The elapsed time of the decision. -/
  decided : Nat := 0
  /-- The pause has begun, and when. -/
  pausing : Bool
  paused : Nat := 0
  deriving DecidableEq, Repr

/-- A cluster (R2): its island, its status block and its shared units. -/
structure Cluster where
  /-- R93: the pool it is in, the pool it is joining, and how long it has been free (ns). -/
  pool : Option Nat := none
  joining : Option Nat := none
  freeFor : Nat := 0
  /-- R20, R94: rail code, frequency code, the codes it is moving to, and when its relock in progress began. -/
  volt : BitVec 8 := 0x96
  freq : BitVec 8 := 0x18
  voltTo : BitVec 8 := 0x96
  freqTo : BitVec 8 := 0x18
  relock : Option Nat := none
  voltMoving : Bool := false
  /-- R91, R94: the class point in effect since the island entered its pool: FBASE and FBOOST. -/
  fbase : BitVec 8 := 0x18
  fboost : BitVec 8 := 0x18
  /-- R95. -/
  boosted : Bool := false
  dwell : Nat := 20000
  /-- R345: nanoseconds since device reset. -/
  elapsed : Nat := 0
  /-- R122. -/
  iest : BitVec 16 := 0
  thold : Bool := false
  budget : Nat := 8
  stall : List (BitVec 16) := [0, 0, 0, 0]
  swaps : BitVec 32 := 0
  skips : BitVec 16 := 0
  lastPause : BitVec 8 := 0
  /-- R22, R122: the six core readings in 0.25 °C. -/
  temps : List Int := [0, 0, 0, 0, 0, 0]
  /-- R124: the pair of the previous tick, and the swap in progress. -/
  lastPair : Option (Nat × Nat) := none
  swap : Option Swap := none
  /-- R124: the interval in effect. -/
  interval : Nat := 500
  /-- The instants of the last ticks taken, so that one instant is not taken twice. -/
  baroAt : Option Nat := none
  stallAt : Option Nat := none
  draftAt : Option Nat := none
  /-- R153: the cluster's TLB level. -/
  tlb2 : List TlbEntry := []
  /-- R78. -/
  tasks : List Task := []
  sfa : Sfa := {}
  carafe : Carafe := {}
  /-- R164, R213, R229, R261: the counters of the status block, keyed by offset. -/
  counters : SMap W64 := []
  deriving DecidableEq, Repr

/-! ### Operations in flight -/

/-- A byte's home: a physical address of device memory, a byte of host memory (memory type 1), or a byte of a team's
scratchpad, which is resolved through the TLT when it is reached (R150). A byte of host memory keeps its virtual address, which
the leaked-write log names (R267). -/
inductive Place
  | dev (pa : Nat)
  | host (pa va : Nat)
  | spad (g t off : Nat)
  deriving DecidableEq, Repr

/-- R160, R480: the operation an executing unit applies to one lane's location. -/
structure RmwLane where
  lane : Nat
  /-- The operand bytes, and the compare bytes of a cas. -/
  data : List Byte
  cmp : List Byte
  /-- R262: the mark of the operand. -/
  pois : Bool := false
  deriving DecidableEq, Repr

/-- What an operation in flight does when its turn comes. -/
inductive Body
  /-- R143, R144: one transfer operation: runs of bytes from source to destination, its channel, and the generation of
  its team. -/
  | copy (runs : List (Place × Place × Nat)) (channel : Nat) (gen : BitVec 16)
  /-- R146: the whole of a `cpav`: runs, version word, expected value and its mark, in-page flag, the channel of each of its
  operations. -/
  | cpav (runs : List (Place × Place × Nat)) (ver : Place) (want : W64) (pois inPage : Bool) (channels : List Nat)
  /-- R149: a delivery to a team: generation, runs from source to destination offset; the bytes once they are read, each
  with its mark; has it raised the landing counts; the channel of each transfer operation of its command; how many
  destination offsets lie beyond the allocation (R134). -/
  | mcast (t : Nat) (gen : BitVec 16) (runs : List (Place × Nat × Nat)) (data : Option (List (Nat × List (Byte × Bool))))
      (raised : Bool) (channels : List Nat) (beyond : Nat)
  /-- R138, R150: a remote load: target, size, and each lane's offset; the result goes to a due entry. -/
  | remLoad (t : Nat) (size : Nat) (offs : List (Nat × Nat)) (due vd : Nat) (scalar sx : Bool)
  /-- R138, R150: a remote store: each run of bytes in lane order, each byte with its mark. -/
  | remStore (t : Nat) (runs : List (Nat × List (Byte × Bool)))
  /-- R160, R407: a remote atomic on one offset. -/
  | remRmw (t : Nat) (off : Nat) (op sz : Nat) (lanes : List RmwLane) (due : Option Nat) (vd : Nat)
  /-- R160, R407: an atomic on one global location: its lanes in ascending order. -/
  | rmw (place : Place) (va : Nat) (op sz : Nat) (lanes : List RmwLane) (due : Option Nat) (vd : Nat)
  /-- R411: a counter read into a due scalar. -/
  | ctrRead (loc : Loc) (place : Place) (due sd : Nat)
  /-- R219, R221: a deposit to a carafe of this device: cluster, token, position, HID and format at issue, its source
  elements, and, once accepted, the claim it goes to and its data. -/
  | deposit (cl tok pos hid fmt : Nat) (src : List (Place × Nat)) (data : Option (Nat × List (W32 × Bool)))
  /-- R220, R462: a deposit to a peer: port, device id, cluster, token, position, address of the source; have
  its flits been sent. -/
  | peerSend (port dst cl tok pos at_ : Nat) (src : List (Place × Nat)) (sent : Bool)
  /-- R220: a deposit that a port receives: its chunks as they arrive; once judged, the claim it goes to or its drop. -/
  | peerDeposit (port src cl tok pos count : Nat) (chunks : SMap (List Byte)) (judged : Option (Option Nat))
  /-- R413: a claim of a push with its entry, each byte with its mark, and the register of its status; R414: a claim of a pop with the entry's
  place, the lines whose landing counts it raised, and the due status. -/
  | push (q index : Nat) (entry : List (Byte × Bool)) (status : Nat)
  | pop (q index : Nat) (dst : Place) (lines : List Nat) (status due : Nat)
  /-- R412, R217, R449: a unit's answer to a due result. -/
  | answer (due : Nat)
  /-- R452, R459, R464: a token that falls when a unit's command ends. -/
  | job
  deriving DecidableEq, Repr

/-- An operation issued and not yet performed. -/
structure Flight where
  id : Nat
  g : Nat := 0
  t : Nat := 0
  grp : Nat := 0
  /-- The core that submitted it. -/
  core : Nat := 0
  /-- R145: the token that falls when the last flight of the same command has landed. -/
  tk : Option Nat := none
  /-- The command it belongs to: flights of one command share this number. -/
  cmd : Nat := 0
  /-- R143, R159: pages pinned until the command's last flight that uses them has landed. -/
  pages : List Nat := []
  /-- R169: an acquire that completes when the flight is performed: its scope, and promotion (R171). -/
  acq : Option (Nat × Bool) := none
  body : Body
  deriving DecidableEq, Repr

/-- R455 to R458: a collective. -/
structure Coll where
  part : Nat
  g : Nat
  t : Nat
  grp : Nat
  tk : Nat
  /-- The eight qwords of the descriptor. -/
  desc : List W64
  /-- The ranks' entries of PEERS. -/
  peers : List (BitVec 32)
  /-- R434: pages pinned: virtual page, physical page, memory type. -/
  pages : List (Nat × Nat × Nat)
  /-- R456: at key 256·step + rank, the flits of that rank's contribution that this home holds. -/
  have_ : SMap (SMap (List Byte)) := []
  /-- At key step, the flits of the result that have come, and its mark: 0 whole, else 1 + the missing rank. -/
  got : SMap (SMap (List Byte)) := []
  mark : SMap Nat := []
  /-- Steps that this rank has ended, and steps closed here as home. -/
  ended : SMap Bool := []
  closed : SMap Bool := []
  /-- R458: when each step's first flit arrived, and when this rank started, on the CLE's elapsed count. -/
  firstAt : SMap Nat := []
  started : Nat := 0
  /-- R458: steps closed partial, and the missing rank of the first. -/
  psteps : Nat := 0
  miss : Nat := 0
  /-- R464: its team was discarded: handle and token are dropped. -/
  orphan : Bool := false
  /-- R457: the status qword once it has ended. -/
  status : Option W64 := none
  deriving DecidableEq, Repr

/-! ### Ports, queues, partitions -/

/-- R28: a data flit as the device sends it. -/
structure OutFlit where
  port : Nat
  ftype : Nat
  seq : BitVec 8
  ackseq : BitVec 8
  ackv : Bool
  vc : Nat
  dst : BitVec 12
  src : BitVec 12
  len : BitVec 8
  tag : BitVec 16
  payload : List Byte
  /-- R28: the CRC-32 of bytes 0 to 251. -/
  crc : BitVec 32 := 0
  deriving DecidableEq, Repr

/-- R32, R33: a stream entry on its way to L2. -/
structure StreamEntry where
  /-- R32: the queue that the port named when the flit was accepted. -/
  queue : Nat
  bytes : List Byte
  /-- R32: nanoseconds until it is visible: 1,435 port cycles are 410 ns. -/
  left : Nat
  deriving DecidableEq, Repr

/-- A fabric port (R27 to R34). -/
structure Port where
  queue : BitVec 16 := 0
  retrain : BitVec 4 := 0
  width : BitVec 2 := 0
  err : Bool := false
  up : Bool := false
  stream : Bool := false
  en : Bool := false
  /-- R159: EN was written while the page-lock table had no room: the enable waits for it. -/
  enWait : Bool := false
  fecCorr : W64 := 0
  fecUnc : W64 := 0
  replay : W64 := 0
  accept : W64 := 0
  dropBad : W64 := 0
  dropFull : W64 := 0
  /-- R29: next SEQ to send, next expected, the retry buffer, flits received and not yet acknowledged. -/
  txSeq : BitVec 8 := 0
  rxSeq : BitVec 8 := 0
  retry : List OutFlit := []
  unacked : Nat := 0
  /-- R29: how often the head of the retry buffer was replayed in a row; retraining in progress. -/
  replays : Nat := 0
  replaySeq : BitVec 8 := 0
  retraining : Bool := false
  /-- R28: flits sent since power-up, in order. -/
  sent : List OutFlit := []
  /-- Flits that wait for room in the retry buffer. -/
  backlog : List OutFlit := []
  /-- R33: port cycles since enable, in 1/2 cycle of 3.50 GHz (7 per ns), and entries in flight. -/
  cycles2 : Nat := 0
  entries : List StreamEntry := []
  /-- Flits delivered to the device in order, not yet taken by their unit. -/
  rx : List Flit := []
  /-- R32: pages pinned while enabled. -/
  pages : List Nat := []
  deriving DecidableEq, Repr

/-- R50: a device-visible queue's descriptor. -/
structure Queue where
  base : W64 := 0
  log2n : BitVec 8 := 0
  esz : BitVec 4 := 0
  cons : BitVec 4 := 0
  prod : BitVec 4 := 0
  en : Bool := false
  heada : W64 := 0
  taila : W64 := 0
  rej : BitVec 16 := 0
  lastRej : BitVec 8 := 0
  owner : BitVec 4 := 0
  ownv : Bool := false
  drop : Bool := false
  ovf : Bool := false
  /-- R53: stopped by an overflow since it was enabled. -/
  halted : Bool := false
  err : Bool := false
  claim : W64 := 0
  pop : W64 := 0
  /-- R76, R59: the grid whose group pushed the record at an index, and Q13 of that grid's root. -/
  pushers : SMap (Nat × W64) := []
  /-- R55: the last grid accepted from the queue. -/
  lastGrid : Option Nat := none
  /-- R51: pages pinned while the queue is enabled. -/
  pages : List Nat := []
  deriving DecidableEq, Repr

/-- R268 to R270: a record that waits for the trap ring. -/
structure TrapRec where
  g : Nat
  t : Nat
  grp : Nat
  /-- R59: the joint identity, 16 bytes. -/
  ident : List Byte
  cause : Nat
  kind : Nat
  flags : Nat
  pc : W64
  mask : Mask
  cycles : W64
  elapsed : W64
  detail : W64
  detail2 : W64
  /-- One address for each lane of the mask. -/
  addrs : List (Nat × W64)
  /-- R282: hang records. -/
  hang : List Byte
  deriving DecidableEq, Repr

/-- The registers of a partition's page (R82 and the rules it names). -/
structure Page where
  pmreq0 : W64 := 0
  deadline : BitVec 32 := 0
  force : BitVec 2 := 0
  op : BitVec 2 := 0
  ndrain : Nat := 0
  ndisc : Nat := 0
  nsave : Nat := 0
  nlate : Nat := 0
  pmErr : Bool := false
  pmDone : Bool := false
  pmBusy : Bool := false
  /-- R86: named teams of the request that have not reached their result, and those to be judged late. -/
  pmLeft : List Nat := []
  pmAt : SMap Nat := []
  ckptGrid : BitVec 24 := 0
  ckpt1 : W64 := 0
  ckpt2 : W64 := 0
  ckptErr : Bool := false
  trapb : W64 := 0
  dropn : Nat := 0
  trapt : W64 := 0
  traph : W64 := 0
  /-- R483: the ring setting took effect; its pinned pages. -/
  ringOk : Bool := false
  ringPages : List Nat := []
  trapq : List TrapRec := []
  dbgsel : W64 := 0
  /-- R273: bits for groups of teams not yet placed, by group key. -/
  dbgPend : SMap (BitVec 4) := []
  bkpt : SMap W64 := []
  sampc : W64 := 0
  sampb : W64 := 0
  sampn : W64 := 0
  sampPages : List Nat := []
  trca : W64 := 0
  trcb : W64 := 0
  trcn : W64 := 0
  trcPages : List Nat := []
  hsel : W64 := 0
  hcreg : BitVec 16 := 0
  hop : BitVec 10 := 0
  herr : Bool := false
  hbusy : Bool := false
  himm : BitVec 32 := 0
  hdata : W64 := 0
  /-- R360: reserved bits of the last write of HCMD and HIMM that were not zero. -/
  hrsv : Bool := false
  deriving DecidableEq, Repr

/-- A partition (R41 to R45). -/
structure Part where
  exists_ : Bool := false
  running : Bool := false
  stopping : Bool := false
  clusters : BitVec 32 := 0
  harts : BitVec 16 := 0
  base : Nat := 0
  size : Nat := 0
  qfirst : Nat := 0
  qcount : Nat := 0
  ports : BitVec 48 := 0
  clsok : BitVec 4 := 0
  weight : BitVec 8 := 0
  /-- R95: boost tokens in 1/256. -/
  bucket : Nat := 0
  wbase : W64 := 0
  w4miss : W64 := 0
  blkacc : W64 := 0
  root : Option Nat := none
  /-- R36, R43: the trap hart that an image has named. -/
  trapHart : Option Nat := none
  qnext : Nat := 0
  page : Page := {}
  /-- R93: the instant of the last pool interval taken. -/
  poolAt : Option Nat := none
  deriving DecidableEq, Repr

/-- R35: the privilege levels that the spec gives a use: the monitor's, an image's, its user processes'. -/
inductive Priv
  | hs
  | vs
  | vu
  deriving DecidableEq, Repr

/-- R35: a register of a hart, as RVA23 with the hypervisor extension has them: the pc, x, f and v registers (a v register
by its 64-bit parts, its length not being stated) and the control and status registers. -/
inductive HartReg
  | pc
  | x (n : Nat)
  | f (n : Nat)
  | v (n part : Nat)
  | csr (n : Nat)
  deriving DecidableEq, Repr

/-- A Thiyn hart (R35 to R37); what its own instructions do, which the spec gives by RVA23's name alone, comes from
outside (log 14). -/
structure Hart where
  /-- R37: hart 0 runs from power-on, harts 1 to 15 from their release. -/
  released : Bool := false
  /-- It runs the monitor, or the image of `part`. -/
  running : Bool := false
  mode : Priv := .hs
  part : Option Nat := none
  pc : W64 := 0
  /-- The RISC-V registers x1 to x31; x0 reads zero and is never listed. a0 is x10, a1 is x11. -/
  x : SMap W64 := []
  /-- f0 to f31; part i of v register n at key 1024n + i; the control and status registers by number. -/
  f : SMap W64 := []
  v : SMap W64 := []
  csr : SMap W64 := []
  /-- R36: an MSI of the device is pending in the guest interrupt file of its IMSIC. -/
  guestIrq : Bool := false
  deriving DecidableEq, Repr

/-! ### The device -/

/-- The part's fuses (R1 to R3, R13, R37, R482). -/
structure Fuses where
  grade28 : Bool := false
  rGrade : Bool := false
  enabled : BitVec 32 := 0xFFFFFFFF
  minVer : Nat := 0
  /-- R482: byte f − 24 for frequency code f. -/
  vmin : List Byte := List.replicate 39 110
  deriving DecidableEq, Repr

/-- Power, reset and the sideband (R16 to R26). -/
structure Power where
  pwrOk : Bool := false
  perstOff : Bool := false
  pcieUp : Bool := false
  faultN : Bool := true
  thermTripN : Bool := true
  clocksOn : Bool := false
  /-- R24, R26: the SMB_ADDR pins. -/
  smbAddr : BitVec 2 := 0
  /-- R26: the packet error code that follows the last answer on the sideband. -/
  pec : Byte := 0
  /-- R26: the STATE code. -/
  state : BitVec 8 := 0
  alert : BitVec 3 := 0
  watts : BitVec 16 := 0
  /-- R18, R19: regulators that have received the off command; the last command on each bus. -/
  regOff : BitVec 32 := 0
  svb : SMap (BitVec 16) := []
  /-- R22: sensors of L2 slices and HBM stacks, in 0.25 °C. -/
  l2Temp : SMap Int := []
  hbmTemp : SMap Int := []
  /-- R23: thermal events reported, how long the spread has lasted (ns), and has this spread been reported. -/
  thermEvents : Nat := 0
  spreadFor : Nat := 0
  spreadTold : Bool := false
  deriving DecidableEq, Repr

/-- Boot, recovery and attestation (R37 to R40). -/
structure Boot where
  phase : Nat := 0
  recovery : Bool := false
  slot : List (Nat × Byte) := []
  staged : List (Nat × Byte) := []
  rcvst : W64 := 0
  /-- R40: the measurement blocks. -/
  meas : SMap (List Byte) := []
  deriving DecidableEq, Repr

/-- The mailbox (R42). -/
structure Mailbox where
  cmd : Byte := 0
  part : BitVec 3 := 0
  busy : Bool := false
  /-- The command in progress: its code and partition, and was a reserved bit of MBCMD set. -/
  runs : Byte := 0
  runsPart : Nat := 0
  rsv : Bool := false
  result : Byte := 0
  done : Bool := false
  args : SMap W64 := []
  res : SMap W64 := []
  deriving DecidableEq, Repr

/-- An operating class (R91). -/
structure OpClass where
  volt : BitVec 8
  fboost : BitVec 8
  fbase : BitVec 8
  stat : BitVec 4
  deriving DecidableEq, Repr

/-- R40: the algorithms that an SPDM negotiation may select. -/
inductive SpdmSign
  | ecdsaP384
  deriving DecidableEq, Repr
inductive SpdmHash
  | sha384
  deriving DecidableEq, Repr

/-- The answer that a party outside last got from the device. -/
inductive Reply
  | none
  | bytes (b : List Byte)
  | value (v : W64)
  | nak
  | retry
  | unsupported
  | sbi (err : Int) (v : W64)
  /-- R40: the answers to GET_VERSION and NEGOTIATE_ALGORITHMS, with what the spec does not state of them. -/
  | spdmVersion (major minor : Nat) (rest : List Byte)
  | spdmAlgorithms (sign : SpdmSign) (hash : SpdmHash) (rest : List Byte)
  deriving DecidableEq, Repr

/-- A message sent out (R36, R42). -/
inductive Msg
  | msix0
  | hart (h : Nat)
  | pcieWrite (pa : Nat) (b : Byte)
  deriving DecidableEq, Repr

/-- R361: the context of the word that is issuing: who issues it and from where. -/
structure Cur where
  cl : Nat := 0
  co : Nat := 0
  qd : Nat := 0
  g : Nat := 0
  t : Nat := 0
  grp : Nat := 0
  /-- The issuing lanes and the word's 64-bit address. -/
  lanes : Mask := 0
  pc : Nat := 0
  len : Nat := 0
  /-- The word issues in the secondary stream. -/
  sec : Bool := false
  /-- R360: the partition whose handler acts, when no group issues. -/
  handler : Option Nat := none
  /-- The run's internal words this instruction takes. -/
  words : Nat := 1
  deriving DecidableEq, Repr

/-- One turn of the agenda: what moves next (log 1). -/
inductive Turn
  /-- A quadrant's issue unit issues the next word. -/
  | issue (cl co qd : Nat)
  /-- A step of the device outside a word. -/
  | event (i : Instr) (x : Ev)
  /-- The command that a partition's handler interface holds (R360). -/
  | handler (p : Nat)
  /-- Time passes, in nanoseconds. -/
  | tick (ns : Nat)
  /-- A sensor reading changes. -/
  | sense (k : Sensor) (reading : Int)
  /-- An L1 gives up a sector (R139). -/
  | evict (cl co sector : Nat)
  /-- A hart stores bytes to device memory. -/
  | hartWrite (pa : Nat) (data : List Byte)
  /-- R42: an image's hart starts another hart of its partition, or stops, through SBI HSM. -/
  | hsmStart (caller target : Nat) (pc a1 : W64)
  | hsmStop (h : Nat)
  /-- R35: an image's hart enters VU-mode to run a user process, or comes back to VS-mode. -/
  | hartMode (h : Nat) (user : Bool)
  /-- R36: a hart takes the interrupt pending in its guest interrupt file. -/
  | hartClaim (h : Nat)
  /-- R35: an instruction of a hart writes one of its registers. -/
  | hartReg (h : Nat) (r : HartReg) (v : W64)
  /-- R35: a hart takes a trap, to its image in VS-mode or to the monitor in HS-mode, or returns from one with `sret`. -/
  | hartTrap (h : Nat) (vs : Bool) (cause tval : W64)
  | hartSret (h : Nat)
  /-- R35: a hart loads n bytes of device memory into x[rd]. -/
  | hartLoad (h rd pa n : Nat) (signed : Bool)
  /-- R13: a hart reads the mask of enabled clusters into x[rd]. -/
  | hartMask (h rd : Nat)
  /-- R59: a debugger stops a hart, in a system call made for a group or in another place. -/
  | hartStop (h : Nat) (subject : Option (Nat × Nat × Nat)) (pid tid : BitVec 32)
  /-- Software reads a register. -/
  | read (x : Ev)
  deriving DecidableEq, Repr

/-- The whole machine. -/
structure State where
  fuses : Fuses
  power : Power
  boot : Boot
  mb : Mailbox
  /-- R47, R48: the physical function's BAR4 window. -/
  pfWbase : W64
  pfW4miss : W64
  harts : SMap Hart
  parts : SMap Part
  queues : SMap Queue
  ports : SMap Port
  /-- R91 to R95, R123: the device page. -/
  opcls : SMap OpClass
  boostRate : BitVec 8
  draftThresh : BitVec 8
  draftInterval : BitVec 14
  draftEn : Bool
  /-- R95: the last microsecond refilled. -/
  boostAt : Option Nat
  /-- R261, R459: the device's counters, keyed by offset in the identity block. -/
  devCounters : SMap W64
  /-- R58: the next grid number, the count of grids accepted, and the launch table. -/
  gridNext : BitVec 24
  accepted : Nat
  grids : SMap Grid
  teams : SMap Team
  groups : SMap Group
  clusters : SMap Cluster
  cores : SMap Core
  quads : SMap Quad
  /-- Device memory (R141) by physical address, and its poison by 32-byte sector. -/
  mem : List Host.Cell
  memPois : SMap Bool
  /-- Host memory behind memory type 1 (R152). -/
  hostMem : List Host.Cell
  /-- R159: pin counts by physical page. -/
  plt : SMap Nat
  flights : List Flight
  /-- R455: handle h of partition p at key 16p + h. -/
  colls : SMap Coll
  /-- R458: the CLE's elapsed count, in nanoseconds. -/
  cleElapsed : Nat
  reply : Reply
  msgs : List Msg
  /-- The model's own: the next flight or due number, the free-value counter, the agenda, the issuing word's
  context and the input latch (logs 1, 11). -/
  nextId : Nat
  free : Nat
  agenda : List Turn
  cur : Cur
  ev : Ev
  deriving DecidableEq, Repr

/-- Why a step stops the model with a fault. -/
inductive Fault
  /-- Raised by a hart's store or load (a `hartWrite` or `hartLoad` turn) at a physical address beyond device memory (R141: 0x0 to
  0x9F_FFFF_FFFF exist). Safe: the run stops where the spec gives no meaning. -/
  | noSuchAddress (pa : Nat)
  deriving DecidableEq, Repr

/-- Why a step gives no meaning. -/
inductive Refusal
  /-- Raised by an arm of exec whose instruction has no meaning yet; safe: the run stops. -/
  | notModelled (mnemonic : String)
  deriving DecidableEq, Repr

/-- The reset values of OPCLS0 to OPCLS3 (R91). -/
def OpClass.reset : Nat → OpClass
  | 0 => { volt := 0x9B, fboost := 0x3E, fbase := 0x34, stat := 0 }
  | 1 => { volt := 0x82, fboost := 0x30, fbase := 0x28, stat := 0 }
  | 2 => { volt := 0x96, fboost := 0x34, fbase := 0x34, stat := 0 }
  | _ => { volt := 0x6E, fboost := 0x18, fbase := 0x18, stat := 0 }

/-- The machine with power applied and PWR_OK still low (R20): every field at the value the spec gives for reset, or
at the value that logs 2, 3 and 4 name. -/
def State.reset : State :=
  { fuses := {}, power := {}, boot := {}, mb := {}, pfWbase := 0, pfW4miss := 0, harts := [], parts := [],
    queues := [], ports := [], opcls := [], boostRate := 0, draftThresh := 0x18, draftInterval := 0x1F4,
    draftEn := true, boostAt := none, devCounters := [], gridNext := 0, accepted := 0, grids := [], teams := [],
    groups := [], clusters := [], cores := [], quads := [], mem := [], memPois := [], hostMem := [], plt := [],
    flights := [], colls := [], cleElapsed := 0, reply := .none, msgs := [], nextId := 0, free := 0,
    agenda := [], cur := {}, ev := {} }

end Sys2Proof.Machine
end

