-- ==== Sys2Proof/Machine/Access.lean ====
section
/-! DEFINITION. Accessors: every unit of the device by its number, the fields of a launch record (R55, R56), and the
registers of a group as a word reads and writes them (R100, R338). -/

namespace Sys2Proof.Machine

/-- The key of core `co` of cluster `cl`. -/
def coreKey (cl co : Nat) : Nat := 6 * cl + co
/-- The key of quadrant `qd` of a core. -/
def quadKey (cl co qd : Nat) : Nat := 4 * coreKey cl co + qd
/-- The key of team `t` of grid `g`. -/
def teamKey (g t : Nat) : Nat := g * 1048576 + t
/-- The key of group `n` of a team. -/
def grpKey (g t n : Nat) : Nat := teamKey g t * 32 + n
/-- The parts of a group's key. -/
def grpKeyGrid (k : Nat) : Nat := k / 32 / 1048576
def grpKeyTeam (k : Nat) : Nat := k / 32 % 1048576
def grpKeyIdx (k : Nat) : Nat := k % 32

/-- A hart's register: x0 reads zero. -/
def Hart.xget (x : Hart) (n : Nat) : W64 := if n == 0 then 0 else x.x.get n 0
def Hart.xset (x : Hart) (n : Nat) (v : W64) : Hart := if n == 0 then x else { x with x := x.x.set 0 n v }

namespace State

def cluster (s : State) (cl : Nat) : Cluster := s.clusters.get cl {}
def modCluster (s : State) (cl : Nat) (f : Cluster → Cluster) : State :=
  { s with clusters := s.clusters.modify cl {} f }
def core (s : State) (k : Nat) : Core := s.cores.get k {}
def modCore (s : State) (k : Nat) (f : Core → Core) : State := { s with cores := s.cores.modify k {} f }
def quad (s : State) (k : Nat) : Quad := s.quads.get k {}
def modQuad (s : State) (k : Nat) (f : Quad → Quad) : State := { s with quads := s.quads.modify k {} f }
def team (s : State) (k : Nat) : Team := s.teams.get k {}
def modTeam (s : State) (k : Nat) (f : Team → Team) : State := { s with teams := s.teams.modify k {} f }
def group (s : State) (k : Nat) : Group := s.groups.get k {}
def modGroup (s : State) (k : Nat) (f : Group → Group) : State := { s with groups := s.groups.modify k {} f }
def grid (s : State) (g : Nat) : Grid := s.grids.get g {}
def modGrid (s : State) (g : Nat) (f : Grid → Grid) : State := { s with grids := s.grids.modify g {} f }
def part (s : State) (p : Nat) : Part := s.parts.get p {}
def modPart (s : State) (p : Nat) (f : Part → Part) : State := { s with parts := s.parts.modify p {} f }
def page (s : State) (p : Nat) : Page := (s.part p).page
def modPage (s : State) (p : Nat) (f : Page → Page) : State := s.modPart p fun x => { x with page := f x.page }
def hart (s : State) (h : Nat) : Hart := s.harts.get h {}
def modHart (s : State) (h : Nat) (f : Hart → Hart) : State := { s with harts := s.harts.modify h {} f }
def port (s : State) (n : Nat) : Port := s.ports.get n {}
def modPort (s : State) (n : Nat) (f : Port → Port) : State := { s with ports := s.ports.modify n {} f }
def queue (s : State) (q : Nat) : Queue := s.queues.get q {}
def modQueue (s : State) (q : Nat) (f : Queue → Queue) : State := { s with queues := s.queues.modify q {} f }
def opClass (s : State) (n : Nat) : OpClass := s.opcls.get n (OpClass.reset n)

/-- R164, R229, R261: a counter of a cluster's status block rises. -/
def count (s : State) (cl off n : Nat) : State :=
  s.modCluster cl fun c => { c with counters := c.counters.set 0 off (satAdd64 (c.counters.get off 0) n) }
/-- R261: a counter of corrected and uncorrected errors of a cluster rises. -/
def countPair (s : State) (cl off hi lo : Nat) : State :=
  s.modCluster cl fun c => { c with counters := c.counters.set 0 off (addPair (c.counters.get off 0) hi lo) }
/-- R261, R459: a counter of the device's identity block rises. -/
def devCount (s : State) (off n : Nat) : State :=
  { s with devCounters := s.devCounters.set 0 off (satAdd64 (s.devCounters.get off 0) n) }
def devCountPair (s : State) (off hi lo : Nat) : State :=
  { s with devCounters := s.devCounters.set 0 off (addPair (s.devCounters.get off 0) hi lo) }

/-- The next number for an operation in flight, a result due or a command. -/
def fresh (s : State) : Nat × State := (s.nextId, { s with nextId := s.nextId + 1 })

/-- A free value's index (log 11): each is used once. -/
def freeIdx (s : State) : Nat × State := (s.free, { s with free := s.free + 1 })

/-- A message goes out (R36, R42); an MSI to a hart is pending in its guest interrupt file. -/
def send (s : State) (m : Msg) : State :=
  { s with
    msgs := s.msgs ++ [m]
    harts := match m with
      | .hart h => s.harts.modify h {} fun x => { x with guestIrq := true }
      | _ => s.harts }

/-- The lowest hart of a mask. -/
def lowHart (m : BitVec 16) : Nat := ((List.range 16).find? fun h => m.getLsbD h).getD 0

/-- R36: a partition's trap hart: the one its image has named, else its lowest. -/
def trapHartOf (s : State) (p : Nat) : Nat := (s.part p).trapHart.getD (lowHart (s.part p).harts)

/-- A party outside gets an answer. -/
def answer (s : State) (r : Reply) : State := { s with reply := r }

end State

/-! ### The launch record -/

namespace Grid

def q (r : Grid) (i : Nat) : W64 := r.record.getD i 0
def det (r : Grid) : Bool := (r.q 0).getLsbD 51
def rstrt (r : Grid) : Bool := (r.q 0).getLsbD 50
def ser (r : Grid) : Bool := (r.q 0).getLsbD 49
def opcls (r : Grid) : Nat := (r.q 0).bits 47 46
/-- R61: the cohort size S. -/
def coh (r : Grid) : Nat := (r.q 0).bits 45 42 + 1
/-- T. -/
def nteams (r : Grid) : Nat := (r.q 0).bits 39 20
def entry (r : Grid) : Nat := (r.q 1).bits 56 0
def args (r : Grid) : Nat := (r.q 2).bits 56 0
def g0 (r : Grid) : Nat := (r.q 3).bits 63 59
def b0 (r : Grid) : Nat := (r.q 3).bits 58 53
def c0 (r : Grid) : Nat := (r.q 3).bits 52 47
def g1 (r : Grid) : Nat := (r.q 3).bits 46 42
def b1 (r : Grid) : Nat := (r.q 3).bits 41 36
def c1 (r : Grid) : Nat := (r.q 3).bits 35 30
def pword (r : Grid) : BitVec 16 := (r.q 4).extractLsb' 48 16
/-- SMEM in KiB. -/
def smem (r : Grid) : Nat := (r.q 4).bits 43 32
def acct (r : Grid) : Nat := (r.q 4).bits 31 27
def progTot (r : Grid) : Nat := (r.q 5).toNat
def donea (r : Grid) : Nat := (r.q 6).bits 56 3 * 8
def donev (r : Grid) : W64 := r.q 7
def sigbuf (r : Grid) : Nat := (r.q 8).bits 56 0
def savea (r : Grid) : Nat := (r.q 9).bits 56 16 * 65536
def savest (r : Grid) : Nat := (r.q 10).bits 15 0
def age (r : Grid) : Nat := let a := (r.q 14).bits 7 0; if a == 0 then 16 else a
def hangx (r : Grid) : Nat := let a := (r.q 14).bits 12 8; if a == 0 then 24 else a
/-- Groups of a team. -/
def ngroups (r : Grid) : Nat := r.g0 + r.g1
/-- R62: the role of group n. -/
def role (r : Grid) (n : Nat) : Nat := if n < r.g0 then 0 else 1
/-- R114: the launch budget and the ceiling of group n, in registers. -/
def budget (r : Grid) (n : Nat) : Nat := 8 * (if n < r.g0 then r.b0 else r.b1)
def ceiling (r : Grid) (n : Nat) : Nat := 8 * (if n < r.g0 then r.c0 else r.c1)
/-- R133: the scratchpad allocation A in bytes. -/
def alloc (r : Grid) : Nat := roundUp r.smem 4 * 1024
/-- R56: format slot n. -/
def slot (r : Grid) (n : Nat) : BitVec 16 := (r.q (11 + n / 4)).extractLsb' (16 * (n % 4)) 16
/-- R61: the cohort of team t, its rank, and the team of a rank in a cohort. -/
def cohort (r : Grid) (t : Nat) : Nat := t / r.coh
def rank (r : Grid) (t : Nat) : Nat := t % r.coh

end Grid

/-- R56: the fields of a format slot. -/
def slotBound (f : BitVec 16) : Bool := f.getLsbD 15
def slotFmt (f : BitVec 16) : Nat := (f.extractLsb' 10 5).toNat
def slotScl (f : BitVec 16) : Nat := (f.extractLsb' 8 2).toNat
def slotSmth (f : BitVec 16) : Bool := f.getLsbD 7
/-- R238, R239: has the slot a block scale, a channel scale. -/
def slotBlock (f : BitVec 16) : Bool := slotScl f % 2 == 1
def slotChan (f : BitVec 16) : Bool := 2 ≤ slotScl f

/-- R440: the formats of an A slot. -/
def aSlotFmt (ty : Nat) : Bool := (1 ≤ ty && ty ≤ 6) || ty == 8 || ty == 9
/-- R440: the formats of a B slot. -/
def bSlotFmt (ty : Nat) : Bool := aSlotFmt ty || ty == 0x10
/-- R396, R397: the formats a block conversion admits. -/
def packFmt (ty : Nat) : Bool := (3 ≤ ty && ty ≤ 6) || ty == 8 || ty == 9

/-! ### Registers -/

/-- A register whose every lane is zero. -/
def zeroLanes : List W32 := List.replicate 128 0

namespace Regs

/-- R338: s0 reads zero. -/
def sget (r : Regs) (n : Nat) : W64 := if n == 0 then 0 else r.s.get n 0
/-- R262: the marks of an s register. -/
def sgetPois (r : Regs) (n : Nat) : BitVec 2 := if n == 0 then 0 else r.sPois.get n 0
def vget (r : Regs) (n : Nat) : List W32 := r.v.get n zeroLanes
def vgetPois (r : Regs) (n : Nat) : Mask := r.vPois.get n 0
def lane (r : Regs) (n l : Nat) : W32 := (r.vget n).getD l 0
/-- R100: p0 reads true. -/
def pget (r : Regs) (n : Nat) : Mask := if n == 0 then Mask.full else r.p.get n 0
/-- R100: q7 reads true. -/
def qget (r : Regs) (n : Nat) : Bool := n == 7 || r.q.getLsbD n

/-- R338: a write to s0 is discarded. -/
def sset (r : Regs) (n : Nat) (v : W64) (pois : BitVec 2) : Regs :=
  if n == 0 then r else { r with s := r.s.set 0 n v, sPois := r.sPois.set 0 n pois }

/-- A write of the lanes of a mask; every other lane keeps its value. -/
def vset (r : Regs) (n : Nat) (m : Mask) (vals : List W32) (pois : Mask) : Regs :=
  let old := r.vget n
  { r with
    v := r.v.set zeroLanes n ((List.range 128).map fun l => if m.getLsbD l then vals.getD l 0 else old.getD l 0)
    vPois := r.vPois.set 0 n ((r.vgetPois n &&& ~~~m) ||| (pois &&& m)) }

/-- R100: no instruction writes p0. -/
def pset (r : Regs) (n : Nat) (m vals : Mask) : Regs :=
  if n == 0 then r else { r with p := r.p.set 0 n ((r.pget n &&& ~~~m) ||| (vals &&& m)) }

/-- R100: no instruction writes q7. -/
def qset (r : Regs) (n : Nat) (b : Bool) : Regs :=
  if 7 ≤ n then r
  else { r with q := (r.q &&& ~~~(BitVec.ofNat 7 (pow2 n))) ||| (if b then BitVec.ofNat 7 (pow2 n) else 0) }

/-- R107: a long-latency result written. -/
def write (r : Regs) : RegWr → Regs
  | .vec n m vals pois => r.vset n m vals pois
  | .loaded n m vals pois => r.vset n m vals pois
  | .scal n v pois => r.sset n v pois
  | .pred n m vals => r.pset n m vals

end Regs

/-! ### Lanes -/

namespace Group

/-- R99: the 64-bit target at which a lane stands. -/
def pcOf (x : Group) (l : Nat) : Nat := ((x.pcs.find? fun e => e.2.getLsbD l).map Prod.fst).getD 0

/-- The lanes of a mask move to a target. -/
def setPc (x : Group) (m : Mask) (target : Nat) : Group :=
  let others := (x.pcs.map fun e => (e.1, e.2 &&& ~~~m)).filter fun e => e.2 != 0
  if m == 0 then x else { x with pcs := SMap.put others target (SMap.get others target 0 ||| m) }

/-- R99: the lanes that may issue. -/
def runnable (x : Group) : Mask := ~~~(x.exited ||| x.held)

/-- R99: every lane has exited. -/
def gone (x : Group) : Bool := x.exited == Mask.full

/-- R145: the pending count and status of token n. -/
def kc (x : Group) (n : Nat) : Nat := x.kCount.get n 0
def ks (x : Group) (n : Nat) : Nat := x.kStat.get n 0

/-- R145: are the tokens of a mask complete. -/
def tokensDone (x : Group) (m : BitVec 8) : Bool := (List.range 8).all fun n => !m.getLsbD n || x.kc n == 0

end Group

/-! ### The issuing word's context -/

namespace State

/-- The keys of the issuing word's team, group, core and quadrant. -/
def curTeam (s : State) : Nat := teamKey s.cur.g s.cur.t
def curGrp (s : State) : Nat := grpKey s.cur.g s.cur.t s.cur.grp
def curCore (s : State) : Nat := coreKey s.cur.cl s.cur.co
def curQuad (s : State) : Nat := quadKey s.cur.cl s.cur.co s.cur.qd
def curGrid (s : State) : Grid := s.grid s.cur.g
def grp (s : State) : Group := s.group s.curGrp
def modGrp (s : State) (f : Group → Group) : State := s.modGroup s.curGrp f
def modRegs (s : State) (f : Regs → Regs) : State := s.modGrp fun x => { x with regs := f x.regs }
/-- The partition of the issuing word. -/
def curPart (s : State) : Nat := s.curGrid.part

/-- R371: what a word's sources read: the committed registers, for a secondary word those that stood when the cycle
began. -/
def src (s : State) : Regs :=
  if s.cur.sec then
    match (s.quad s.curQuad).run with
    | some r => r.snap.getD s.grp.regs
    | none => s.grp.regs
  else s.grp.regs

def sreg (s : State) (n : BitVec 6) : W64 := s.src.sget n.toNat
def setS (s : State) (n : BitVec 6) (v : W64) (pois : BitVec 2) : State := s.modRegs fun r => r.sset n.toNat v pois
def setV (s : State) (n : BitVec 8) (m : Mask) (vals : List W32) (pois : Mask) : State :=
  s.modRegs fun r => r.vset n.toNat m vals pois
def setP (s : State) (n : Nat) (m vals : Mask) : State := s.modRegs fun r => r.pset n m vals
def setQ (s : State) (n : Nat) (b : Bool) : State := s.modRegs fun r => r.qset n b

/-- R59: the joint identity of a group (`side` 1 for a hart), as 16 little-endian bytes. -/
def identity (s : State) (g t n : Nat) (side : Nat) : List Byte :=
  let r := s.grid g
  leBytes 16 (r.part * pow2 125 + r.root13.toNat / pow2 32 * pow2 93 + r.root13.toNat % pow2 32 * pow2 61 +
    g * pow2 37 + t * pow2 17 + n * pow2 10 + side)

/-- R59: the joint identity of a stop on a hart: of the group in whose system call it stops, or with the compute fields all
ones. PART of a hart that runs no partition's image is 0: the model's choice (log 35, DESIGN CHOICE). -/
def hartIdentity (s : State) (h : Nat) (subject : Option (Nat × Nat × Nat)) (pid tid : BitVec 32) : List Byte :=
  match subject with
  | some (g, t, n) => s.identity g t n 1
  | none =>
    leBytes 16 (((s.hart h).part.getD 0) * pow2 125 + pid.toNat * pow2 93 + tid.toNat * pow2 61 +
      0xFFFFFF * pow2 37 + 0xFFFFF * pow2 17 + 0x7F * pow2 10 + 1)

/-- R345: tm.cycles of a core and tm.elapsed of a cluster. -/
def cyclesOf (s : State) (k : Nat) : W64 := w64 ((s.core k).edges40 / 40)
def elapsedOf (s : State) (cl : Nat) : W64 := w64 (s.cluster cl).elapsed

end State

end Sys2Proof.Machine
end

