-- ==== Sys2Proof/Machine/Mem.lean ====
section
/-! DEFINITION. Memory: device and host memory, the L1 (R139), translation (R151 to R154), the scratchpad (R133 to R137)
and a saved team's image (R150, R283). -/

namespace Sys2Proof.Machine

/-- A number that is no grid's (grid numbers have 24 bits): the flight of a received deposit belongs to none (R220), and neither does
the destination of a discarded team's pop (R464). -/
def noGrid : Nat := 16777216

/-- Bytes of device memory (R141). -/
def devBytes : Nat := 0xA000000000

/-- The 32-byte sectors that n bytes from `a` touch, ascending. -/
def sectorsOf (a n : Nat) : List Nat :=
  if n == 0 then [] else (List.range ((a + n - 1) / 32 - a / 32 + 1)).map fun i => a / 32 + i

/-- The 128-byte lines that n bytes from `a` touch. -/
def linesOf (a n : Nat) : List Nat :=
  if n == 0 then [] else (List.range ((a + n - 1) / 128 - a / 128 + 1)).map fun i => a / 128 + i

/-- The 64 KiB pages that n bytes from `a` touch. -/
def pagesOf (a n : Nat) : List Nat :=
  if n == 0 then [] else (List.range ((a + n - 1) / 65536 - a / 65536 + 1)).map fun i => a / 65536 + i

/-- The bytes of sector `sec` that n bytes from `a` cover. -/
def coverMask (sec a n : Nat) : BitVec 32 :=
  BitVec.ofNat 32 ((List.range 32).foldl
    (fun m i => if a ≤ 32 * sec + i && 32 * sec + i < a + n then m + pow2 i else m) 0)

/-- R141: the HBM stack of a physical address, by its 4 KiB granule. -/
def homeStack (pa : Nat) : Nat := ((bitsOf pa 14 12 ^^^ bitsOf pa 17 15) ^^^ bitsOf pa 20 18) % 8
/-- R141: the home L2 slice of a physical address: 8 × (stack mod 4) and the line's hash, plus 32 on die 1, which holds
stacks 4 to 7 (R2). -/
def homeSlice (pa : Nat) : Nat :=
  8 * (homeStack pa % 4) + (bitsOf pa 9 7 ^^^ bitsOf pa 23 21) % 8 + (if 4 ≤ homeStack pa then 32 else 0)

/-- A byte of data with its poison mark. -/
abbrev PByte := Byte × Bool
/-- R262: is some byte poisoned. -/
def anyPois (bs : List PByte) : Bool := bs.any Prod.snd

/-- The parts of `bs`, which begin at `a`, in each 32-byte sector that they touch, with where each begins. -/
def bySector {α : Type} (a : Nat) (bs : List α) : List (Nat × List α) :=
  (sectorsOf a bs.length).map fun sec =>
    let lo := Nat.max a (32 * sec)
    (lo, (bs.drop (lo - a)).take (32 * sec + 32 - lo))

/-- R262: the sectors that the writes of one instruction, or of one transfer operation, cover whole, each with the mark of
what they write. -/
def wholeSectors (ws : List (Nat × List PByte)) : List (Nat × Bool) :=
  let ws := ws.flatMap fun w => bySector w.1 w.2
  (distinct (ws.flatMap fun w => sectorsOf w.1 w.2.length)).filterMap fun sec =>
    let mine := ws.filter fun w => w.1 / 32 == sec
    if mine.foldl (fun m w => m ||| coverMask sec w.1 w.2.length) 0 == BitVec.allOnes 32 then
      some (sec, mine.any fun w => anyPois w.2)
    else none

/-- Pages pinned: virtual page, physical page and memory type. -/
abbrev Pinned := List (Nat × Nat × Nat)

/-- The place of a virtual address in pinned pages. -/
def pinnedPlace (m : Pinned) (va : Nat) : Option Place :=
  (m.find? fun e => e.1 == va / 65536).map fun e =>
    let pa := e.2.1 * 65536 + va % 65536
    if e.2.2 == 1 then .host pa va else .dev pa

/-- R159: how the page-lock table names a physical page: a page of host memory (memory type 1) is another page than the device
page of the same number. -/
def pltKey (ppn mt : Nat) : Nat := if mt == 1 then ppn + pow2 40 else ppn

/-- The physical pages to pin. -/
def physPages (m : Pinned) : List Nat := m.map fun e => pltKey e.2.1 e.2.2

namespace State

/-! ### Device and host memory -/

/-- Bytes at the home slices. -/
def devRead (s : State) (pa n : Nat) : List Byte := Memory.bytes s.mem pa n
/-- A 64-bit word of device memory. -/
def devQ (s : State) (pa : Nat) : W64 := w64 (leNat (s.devRead pa 8))
/-- R262: is some sector of the range poisoned. -/
def devPois (s : State) (pa n : Nat) : Bool := (sectorsOf pa n).any fun k => s.memPois.get k false
/-- R262: a write sets the mark of the sectors it covers whole and leaves or raises the mark of the others. -/
def devWrite (s : State) (pa : Nat) (bs : List Byte) (pois : Bool) : State :=
  { s with
    mem := Memory.setBytes s.mem pa bs
    memPois := (sectorsOf pa bs.length).foldl
      (fun m k => SMap.set m false k
        (if coverMask k pa bs.length == BitVec.allOnes 32 then pois else SMap.get m k false || pois)) s.memPois }

/-- R262: bytes with the marks of their sectors. -/
def devReadP (s : State) (pa n : Nat) : List PByte :=
  (List.range n).map fun i => (Memory.byte s.mem (pa + i), s.memPois.get ((pa + i) / 32) false)
/-- R262: bytes written, each sector's mark from the bytes that it takes. -/
def devWriteP (s : State) (pa : Nat) (bs : List PByte) : State :=
  (bySector pa bs).foldl (fun s c => s.devWrite c.1 (c.2.map Prod.fst) (anyPois c.2)) s

def hostRead (s : State) (pa n : Nat) : List Byte := Memory.bytes s.hostMem pa n
def hostWrite (s : State) (pa : Nat) (bs : List Byte) : State :=
  { s with hostMem := Memory.setBytes s.hostMem pa bs }

/-- One byte of a place in global memory. -/
def placeByte (s : State) : Place → PByte
  | .dev pa => (Memory.byte s.mem pa, s.memPois.get (pa / 32) false)
  | .host pa _ => (Memory.byte s.hostMem pa, false)
  | .spad _ _ _ => (0, false)

/-- Bytes at a virtual address in pinned pages. -/
def pinnedRead (s : State) (m : Pinned) (va n : Nat) : List PByte :=
  (List.range n).map fun i => match pinnedPlace m (va + i) with
    | some p => s.placeByte p
    | none => (0, false)

/-! ### The L1 -/

/-- The bytes of a sector that a mask selects, from `new`, else from `old`. -/
def mergeBytes (m : BitVec 32) (new old : List Byte) : List Byte :=
  (List.range 32).map fun i => if m.getLsbD i then new.getD i 0 else old.getD i 0

/-- R139: a sector written back: its dirty bytes reach the home slice; it stays, clean. -/
def wbSector (s : State) (k sec : Nat) : State :=
  match (s.core k).l1.find sec with
  | none => s
  | some x =>
    if x.dirty == 0 then s
    else
      let old := s.devRead (32 * sec) 32
      let s := { s with
        mem := Memory.setBytes s.mem (32 * sec) (mergeBytes x.dirty x.data old)
        memPois := SMap.set s.memPois false sec
          (if x.dirty == BitVec.allOnes 32 then x.pois else s.memPois.get sec false || x.pois) }
      s.modCore k fun c => { c with l1 := c.l1.put sec { x with dirty := 0 } }

/-- R139, R171: every dirty sector of a core written back. -/
def wbCore (s : State) (k : Nat) : State := (s.core k).l1.keys.foldl (fun s sec => s.wbSector k sec) s

/-- R139: the clean sectors of a core invalidated by an acquire, which begins and ends with its read (log 8); of a dirty
sector only the dirty bytes stay valid. -/
def invalClean (s : State) (k : Nat) : State :=
  s.modCore k fun c =>
    { c with l1 := (c.l1.filter fun e => e.2.dirty != 0).map fun e => (e.1, { e.2 with valid := e.2.dirty }) }

/-- R88, R125, R368: every dirty sector written back and every line invalidated. -/
def flushCore (s : State) (k : Nat) : State := (s.wbCore k).modCore k fun c => { c with l1 := [] }

/-- R139: a sector given up: written back, then invalid. -/
def dropSector (s : State) (k sec : Nat) : State :=
  (s.wbSector k sec).modCore k fun c => { c with l1 := c.l1.erase sec }

/-- R139: a bypassing access acts on each matching sector of the core's L1 first. -/
def dropRange (s : State) (k pa n : Nat) : State := (sectorsOf pa n).foldl (fun s sec => s.dropSector k sec) s

/-- R174, R176: the dirty sectors of a range written back. -/
def wbRange (s : State) (k pa n : Nat) : State := (sectorsOf pa n).foldl (fun s sec => s.wbSector k sec) s

/-- R4, R139: the 128-byte lines that a core's L1 holds. -/
def l1Lines (c : Core) : List Nat := distinct (c.l1.map fun e => e.1 / 4)

/-- R4: room in the 2,048 lines of a core's L1 for the line of a sector; of a full L1 some line is given up (log 8). -/
def l1Room (s : State) (k sec : Nat) : State :=
  let ls := l1Lines (s.core k)
  if ls.length < 2048 || ls.contains (sec / 4) then s
  else
    let v := ls.getD ((Config.freeWord s.free).toNat % ls.length) 0
    (List.range 4).foldl (fun s i => s.dropSector k (4 * v + i)) { s with free := s.free + 1 }

/-- R139: a load fills the sectors it touches. -/
def fillSector (s : State) (k sec : Nat) : State :=
  let s := s.l1Room k sec
  let x := (s.core k).l1.get sec {}
  if x.valid == BitVec.allOnes 32 then s
  else
    let x' : Sector :=
      { x with data := mergeBytes x.valid x.data (s.devRead (32 * sec) 32)
               valid := BitVec.allOnes 32
               pois := x.pois || s.memPois.get sec false }
    s.modCore k fun c => { c with l1 := c.l1.put sec x' }

/-- One byte of an L1's valid sector. -/
def l1Byte (s : State) (k a : Nat) : Byte := ((s.core k).l1.get (a / 32) {}).data.getD (a % 32) 0

/-- R139: a cached store, sector by sector; write-through during a draft swap (R125). -/
def storeSector (s : State) (k pa : Nat) (bs : List Byte) (pois : Bool) (sec : Nat) : State :=
  let s := s.l1Room k sec
  let x := (s.core k).l1.get sec {}
  let m := coverMask sec pa bs.length
  let new := (List.range 32).map fun i => bs.getD (32 * sec + i - pa) 0
  let x' : Sector :=
    { data := mergeBytes m new x.data, valid := x.valid ||| m, dirty := x.dirty ||| m
      pois := if m == BitVec.allOnes 32 then pois else x.pois || pois }
  let s := s.modCore k fun c => { c with l1 := c.l1.put sec x' }
  if (s.core k).writeThrough then s.wbSector k sec else s

/-- R262: the marks of the sectors that one instruction has written whole, in the L1 that holds them or in memory. -/
def settleMarks (s : State) (k : Nat) (ws : List (Nat × List PByte)) : State :=
  (wholeSectors ws).foldl (fun s e =>
    let home := fun (s : State) => { s with memPois := SMap.set s.memPois false e.1 e.2 }
    match (s.core k).l1.find e.1 with
    | some x =>
      let s := s.modCore k fun c => { c with l1 := c.l1.put e.1 { x with pois := e.2 } }
      if x.dirty == 0 then home s else s
    | none => home s) s

/-- R262: the marks in memory of the sectors that one transfer past the L1s has written whole. -/
def settleHome (s : State) (ws : List (Nat × List PByte)) : State :=
  { s with memPois := (wholeSectors ws).foldl (fun m e => SMap.set m false e.1 e.2) s.memPois }

/-- R261: how many poisoned words some bytes that a core writes make, and their count at its cluster. -/
def poisonedWords (ds : List (List PByte)) : Nat :=
  (ds.map fun d => ((List.range (ceilDiv d.length 4)).filter fun i => anyPois ((d.drop (4 * i)).take 4)).length).foldl (· + ·) 0
def countWritten (s : State) (cl : Nat) (ds : List (List PByte)) : State :=
  let n := poisonedWords ds
  if n == 0 then s else s.count cl 0x3A0 n

/-- A load by core k at a physical address of memory type `mt`: the L1 filled, the bytes, and poison. -/
def glLoad (s : State) (k pa mt n : Nat) : State × List Byte × Bool :=
  if mt == 1 then (s, s.hostRead pa n, false)
  else if mt == 2 then
    let s := s.dropRange k pa n
    (s, s.devRead pa n, s.devPois pa n)
  else
    let s := (sectorsOf pa n).foldl (fun s sec => s.fillSector k sec) s
    (s, (List.range n).map fun i => s.l1Byte k (pa + i),
      (sectorsOf pa n).any fun sec => ((s.core k).l1.get sec {}).pois)

/-- R139, R262: what a load by core k at a physical address of memory type `mt` reads in one byte, with its mark, as memory and
the L1 stand. -/
def loadByte (s : State) (k pa mt : Nat) : PByte :=
  if mt == 1 then (Memory.byte s.hostMem pa, false)
  else
    let x := (s.core k).l1.get (pa / 32) {}
    let held := if mt == 2 then x.dirty else x.valid
    (if held.getLsbD (pa % 32) then x.data.getD (pa % 32) 0 else Memory.byte s.mem pa,
     (held != 0 && x.pois) || (held != BitVec.allOnes 32 && s.memPois.get (pa / 32) false))

/-- R262: the bytes of a load with the marks of their sectors, from what `glLoad` answered. -/
def loadMarks (k pa mt : Nat) (r : State × List Byte × Bool) : List PByte :=
  (List.range r.2.1.length).map fun i => (r.2.1.getD i 0,
    if mt == 1 then false
    else if mt == 2 then r.1.memPois.get ((pa + i) / 32) false
    else ((r.1.core k).l1.get ((pa + i) / 32) {}).pois)

/-- A store by core k. -/
def glStore (s : State) (k pa mt : Nat) (bs : List Byte) (pois : Bool) : State :=
  if mt == 1 then s.hostWrite pa bs
  else if mt == 2 then (s.dropRange k pa bs.length).devWrite pa bs pois
  else (sectorsOf pa bs.length).foldl (fun s sec => s.storeSector k pa bs pois sec) s

/-! ### Translation -/

/-- R151, R152: what a leaf entry gives: the physical page, memory type and permissions. -/
structure Leaf where
  ppn : Nat
  mt : Nat
  r : Bool
  w : Bool
  x : Bool
  /-- Where the entry lies. -/
  at_ : Nat
  deriving DecidableEq, Repr

/-- R152: does [a, a + n) lie in the partition's HBM range. -/
def inHbm (s : State) (p a n : Nat) : Bool :=
  let x := s.part p
  x.base ≤ a && a + n ≤ x.base + x.size

/-- R152: the next table of a valid table entry. -/
def tableEntry (s : State) (p a : Nat) : Option Nat :=
  let e := s.devQ a
  let next := e.bits 51 13 * 8192
  if e.getLsbD 0 && e.bits 63 52 == 0 && e.bits 12 1 == 0 && s.inHbm p next 8192 then some next else none

/-- R152: a valid leaf entry. -/
def leafEntry (s : State) (p a : Nat) : Option Leaf :=
  let e := s.devQ a
  let mt := e.bits 7 6
  let ppn := e.bits 51 16
  if e.getLsbD 0 && e.bits 63 52 == 0 && e.bits 15 8 == 0 && (e.getLsbD 1 || !e.getLsbD 2) && mt != 3 &&
      (mt == 1 || s.inHbm p (ppn * 65536) 65536)
  then some { ppn := ppn, mt := mt, r := e.getLsbD 1, w := e.getLsbD 2, x := e.getLsbD 3, at_ := a } else none

/-- R151: the walk of a partition's tables to the leaf table of a virtual address. -/
def leafTable (s : State) (p va : Nat) : Option Nat :=
  match (s.part p).root with
  | none => none
  | some root =>
    match s.tableEntry p (root + 8 * bitsOf va 56 46) with
    | none => none
    | some t2 =>
      match s.tableEntry p (t2 + 8 * bitsOf va 45 36) with
      | none => none
      | some t1 => s.tableEntry p (t1 + 8 * bitsOf va 35 26)

/-- R151: the leaf that maps a virtual address. -/
def walk (s : State) (p va : Nat) : Option Leaf :=
  if pow2 57 ≤ va then none
  else
    match s.leafTable p va with
    | none => none
    | some t0 => s.leafEntry p (t0 + 8 * bitsOf va 25 16)

/-- R153: the TLB entry of the 32 pages around a virtual address. -/
def walkBlock (s : State) (p va : Nat) : Option TlbEntry :=
  match s.leafTable p va, s.walk p va with
  | some t0, some need =>
    let i0 := bitsOf va 20 16
    let first := t0 + 8 * (bitsOf va 25 21 * 32)
    let ppn0 := (need.ppn : Int) - i0
    let same := fun i =>
      match s.leafEntry p (first + 8 * i) with
      | none => false
      | some l => l.r == need.r && l.w == need.w && l.x == need.x && l.mt == need.mt && (l.ppn : Int) == ppn0 + i
    some { part := p, block := va / 2097152
           valid := BitVec.ofNat 32 ((List.range 32).foldl (fun m i => if same i then m + pow2 i else m) 0)
           r := need.r, w := need.w, x := need.x, mt := need.mt, ppn0 := ppn0, aSet := 0, dSet := 0 }
  | _, _ => none

/-- Does a TLB entry hold the translation of a virtual address. -/
def tlbHolds (e : TlbEntry) (p va : Nat) : Bool :=
  e.part == p && e.block == va / 2097152 && e.valid.getLsbD (bitsOf va 20 16)

/-- The physical page that an entry gives a virtual address. -/
def tlbPage (e : TlbEntry) (va : Nat) : Nat := (e.ppn0 + bitsOf va 20 16).toNat

/-- R153: the entry that a core's lookup finds: its own, the cluster's, or one that a walk forms. -/
def tlbLookup (s : State) (k p va : Nat) : Option TlbEntry :=
  if pow2 57 ≤ va then none
  else
    match (s.core k).tlb.find? fun e => tlbHolds e p va with
    | some e => some e
    | none =>
      match (s.cluster (k / 6)).tlb2.find? fun e => tlbHolds e p va with
      | some e => some e
      | none => s.walkBlock p va

/-- R153: an entry becomes the most recently used of the core's 128 and of the cluster's 2,048 (log 9). -/
def tlbTouch (s : State) (k : Nat) (e : TlbEntry) (va : Nat) : State :=
  let upd := fun (l : List TlbEntry) (n : Nat) =>
    (e :: l.filter fun x => !(x.part == e.part && x.block == e.block && x.valid.getLsbD (bitsOf va 20 16))).take n
  let s := s.modCore k fun c => { c with tlb := upd c.tlb 128 }
  s.modCluster (k / 6) fun c => { c with tlb2 := upd c.tlb2 2048 }

/-- R152: A (and D for a write) set in the leaf of a virtual address with an atomic OR. -/
def setAD (s : State) (p va : Nat) (write : Bool) : State :=
  match s.walk p va with
  | none => s
  | some l =>
    let b := Memory.byte s.mem l.at_
    { s with mem := Memory.setByte s.mem l.at_ (b ||| 0x10#8 ||| (if write then 0x20#8 else 0)) }

/-- R157: does the core hold a logged store to the page of a virtual address of the partition. -/
def pageLogged (s : State) (k p va : Nat) : Bool :=
  (s.core k).sideLog.any fun e => e.page == va / 65536 && (s.grid e.g).part == p

/-- What an access needs of a page. -/
inductive Acc
  | load
  | store
  | fetch
  deriving DecidableEq, Repr

/-- R152: does an entry grant an access. -/
def grants (e : TlbEntry) : Acc → Bool
  | .load => e.r
  | .store => e.w
  | .fetch => e.x

/-- R151 to R157: the physical address and memory type of a virtual address for an access by core k; `none` when
translation fails. -/
def xlat (s : State) (k p va : Nat) (a : Acc) : Option (Nat × Nat) :=
  if s.pageLogged k p va then none
  else
    match s.tlbLookup k p va with
    | none => none
    | some e => if grants e a then some (tlbPage e va * 65536 + va % 65536, e.mt) else none

/-- R152, R153: what a lookup that succeeded leaves: the entry most recently used, A and D set. -/
def xlatTouch (s : State) (k p va : Nat) (a : Acc) : State :=
  match s.tlbLookup k p va with
  | none => s
  | some e =>
    let i := bitsOf va 20 16
    let one := BitVec.ofNat 32 (pow2 i)
    let wr := a == .store
    let need := !e.aSet.getLsbD i || (wr && !e.dSet.getLsbD i)
    let e' := { e with aSet := e.aSet ||| one, dSet := if wr then e.dSet ||| one else e.dSet }
    let s := s.tlbTouch k e' va
    if need then s.setAD p va wr else s

/-- A translation by the walker alone, for units that read the partition's tables themselves (R483, R479). -/
def walkFor (s : State) (p va : Nat) (write : Bool) : Option (Nat × Nat) :=
  match s.walk p va with
  | none => none
  | some l => if l.r && (!write || l.w) then some (l.ppn * 65536 + va % 65536, l.mt) else none

/-- Bytes at a virtual address through the walker; unmapped bytes read zero. -/
def vaRead (s : State) (p va n : Nat) : List Byte :=
  (List.range n).map fun i =>
    match s.walkFor p (va + i) false with
    | some (pa, mt) => if mt == 1 then Memory.byte s.hostMem pa else Memory.byte s.mem pa
    | none => 0
def vaQ (s : State) (p va : Nat) : W64 := w64 (leNat (s.vaRead p va 8))
/-- R152: an access by a unit of the device to n bytes at a virtual address sets A, and D for a write, in the leaves that map
them. -/
def vaTouch (s : State) (p va n : Nat) (write : Bool) : State :=
  (pagesOf va n).foldl (fun s g => if (s.walkFor p (g * 65536) write).isSome then s.setAD p (g * 65536) write else s) s
/-- Bytes written by a unit at a virtual address through the walker, sector by sector; unmapped bytes are not written. R262: a
sector that the bytes cover whole is no longer poisoned. -/
def vaWrite (s : State) (p va : Nat) (bs : List Byte) : State :=
  (bySector va bs).foldl (fun s c =>
    match s.walkFor p c.1 true with
    | some (pa, mt) => if mt == 1 then s.hostWrite pa c.2 else s.devWrite pa c.2 false
    | none => s) (s.vaTouch p va bs.length true)
/-- R169: an add with release at device scope or wider to a counter by a unit of the device. -/
def vaAdd (s : State) (p va : Nat) (n : W64) : State := s.vaWrite p va (leBytes 8 (s.vaQ p va + n).toNat)
/-- Is every byte of [va, va + n) mapped, and writable where asked. -/
def vaOk (s : State) (p va n : Nat) (write : Bool) : Bool :=
  (pagesOf va n).all fun g => (s.walkFor p (g * 65536) write).isSome

/-! ### The page-lock table -/

/-- R159: is there room in the page-lock table for one more pin for each occurrence of a page in a list: an entry for each page
that has none, and counts of at most 65,535. -/
def pltRoom (s : State) (pages : List Nat) : Bool :=
  let new := ((distinct pages).filter fun g => s.plt.get g 0 == 0).length
  s.plt.length + new ≤ 4096 && pages.all fun g => s.plt.get g 0 + pages.count g ≤ 65535
def pin (s : State) (pages : List Nat) : State :=
  { s with plt := pages.foldl (fun m g => SMap.set m 0 g (SMap.get m g 0 + 1)) s.plt }
def unpin (s : State) (pages : List Nat) : State :=
  { s with plt := pages.foldl (fun m g => SMap.set m 0 g (SMap.get m g 0 - 1)) s.plt }

/-! ### Scratchpads -/

/-- R134: an offset reduced against an allocation; `none` beyond it. -/
def spReduce (a o : Nat) : Option Nat :=
  if a == 0 then none
  else
    let r := o % ceilPow2 a
    if r < a then some r else none

/-- R137: is a line of a resident team's scratchpad present. -/
def linePresent (x : Team) (line : Nat) : Bool := x.landing.get line 0 == 0

/-- Bytes of a resident team's scratchpad. -/
def spBytes (x : Team) (off n : Nat) : List Byte := Memory.bytes x.spad off n
/-- R262: is some word of the range poisoned. -/
def spPois (x : Team) (off n : Nat) : Bool :=
  (List.range ((off + n - 1) / 4 - off / 4 + 1)).any fun i => x.spadPois.get (off / 4 + i) false
/-- R136: a write clears the fresh bit of its lines; R262: it sets the marks of the words it covers whole. -/
def spPut (x : Team) (off : Nat) (bs : List Byte) (pois : Bool) : Team :=
  let n := bs.length
  { x with
    spad := Memory.setBytes x.spad off bs
    used := (linesOf off n).foldl (fun m l => SMap.set m false l true) x.used
    spadPois := (List.range ((off + n - 1) / 4 - off / 4 + 1)).foldl (fun m i =>
      let w := off / 4 + i
      SMap.set m false w (if off ≤ 4 * w && 4 * w + 4 ≤ off + n then pois else SMap.get m w false || pois))
      x.spadPois }

/-- R89: where a team's save area begins. -/
def imageBase (r : Grid) (t : Nat) : Nat := r.savea + t * r.savest * 65536
/-- R283: the bytes of a team's v registers in its image, and the offset in it of the scratchpad. -/
def imageRegs (r : Grid) : Nat := r.g0 * r.c0 * 4096 + r.g1 * r.c1 * 4096
def imageSpad (r : Grid) : Nat := 0x20000 + imageRegs r

/-- R479: bytes of a team's image from an offset, in the pages that its save pinned. -/
def imgReadP (s : State) (tk off n : Nat) : List PByte :=
  s.pinnedRead (s.team tk).pinned (imageBase (s.grid (tk / 1048576)) (tk % 1048576) + off) n
def imgRead (s : State) (tk off n : Nat) : List Byte := (s.imgReadP tk off n).map Prod.fst
/-- R479: bytes of a team's image written at an offset, in the pages that its save pinned, each sector with the mark of what
it takes (R262). -/
def imgWriteP (s : State) (tk off : Nat) (bs : List PByte) : State :=
  (bySector (imageBase (s.grid (tk / 1048576)) (tk % 1048576) + off) bs).foldl (fun s c =>
    match pinnedPlace (s.team tk).pinned c.1 with
    | some (.dev pa) => s.devWrite pa (c.2.map Prod.fst) (anyPois c.2)
    | some (.host pa _) => s.hostWrite pa (c.2.map Prod.fst)
    | _ => s) s
def imgWrite (s : State) (tk off : Nat) (bs : List Byte) : State := s.imgWriteP tk off (bs.map (·, false))

/-- R150: does the team's scratchpad live in its save image. -/
def inImage (x : Team) : Bool := x.st == .saved

/-- R480: does the state of a team's groups lie in its image, which a restore in progress still reads. -/
def atImage (x : Team) : Bool := x.st == .saved || x.st == .restoring

/-- R150: bytes of a team's scratchpad, wherever it is. -/
def spadRead (s : State) (g t off n : Nat) : List Byte :=
  let x := s.team (teamKey g t)
  if inImage x then s.imgRead (teamKey g t) (imageSpad (s.grid g) + off) n else spBytes x off n
def spadReadPois (s : State) (g t off n : Nat) : Bool :=
  let x := s.team (teamKey g t)
  if inImage x then anyPois (s.imgReadP (teamKey g t) (imageSpad (s.grid g) + off) n) else spPois x off n
/-- R150: bytes written to the scratchpad of a saved team, whose lines' fresh bits clear (R283). -/
def imgSpadWrite (s : State) (g t off : Nat) (bs : List PByte) : State :=
  let tk := teamKey g t
  (linesOf off bs.length).foldl (fun s l => s.imgWrite tk (0xD000 + l) ((s.imgRead tk (0xD000 + l) 1).map fun b => b &&& 0x7F#8))
    (s.imgWriteP tk (imageSpad (s.grid g) + off) bs)
/-- R262, R479: where in device memory a byte of a saved team's scratchpad lies. -/
def imgSpadAt (s : State) (g t off : Nat) : Option Nat :=
  let x := s.team (teamKey g t)
  if !inImage x then none
  else match pinnedPlace x.pinned (imageBase (s.grid g) t + imageSpad (s.grid g) + off) with
    | some (.dev pa) => some pa
    | _ => none
/-- R150: bytes written to a team's scratchpad, wherever it is. -/
def spadWrite (s : State) (g t off : Nat) (bs : List Byte) (pois : Bool) : State :=
  let x := s.team (teamKey g t)
  if inImage x then s.imgSpadWrite g t off (bs.map (·, pois)) else s.modTeam (teamKey g t) fun x => spPut x off bs pois

/-- R262: bytes of a team's scratchpad with the marks of their words. -/
def spadReadP (s : State) (g t off n : Nat) : List PByte :=
  (List.range n).map fun i => ((s.spadRead g t (off + i) 1).getD 0 0, s.spadReadPois g t (off + i) 1)
/-- R262: bytes written to a team's scratchpad from the start of a word or within one, word by word, so that each word takes
its own mark; in a saved team's image the marks are those of sectors. -/
def spadWriteP (s : State) (g t off : Nat) (bs : List PByte) : State :=
  if inImage (s.team (teamKey g t)) then s.imgSpadWrite g t off bs
  else (List.range (ceilDiv bs.length 4)).foldl (fun s i =>
    let c := (bs.drop (4 * i)).take 4
    s.spadWrite g t (off + 4 * i) (c.map Prod.fst) (anyPois c)) s

/-- R137: the landing count of a line, wherever the team is. -/
def landCount (s : State) (g t line : Nat) : Nat :=
  let x := s.team (teamKey g t)
  if inImage x then leNat (s.imgRead (teamKey g t) (0xD000 + line) 1) % 8
  else x.landing.get line 0

/-- R137: the landing count of a line rises or falls, wherever the team is. -/
def landing (s : State) (g t line : Nat) (d : Int) : State :=
  let x := s.team (teamKey g t)
  if inImage x then
    let b := leNat (s.imgRead (teamKey g t) (0xD000 + line) 1)
    let n := ((b % 8 : Nat) + d).toNat
    s.imgWrite (teamKey g t) (0xD000 + line) (leBytes 1 (b / 128 * 128 + (if n == 0 then 64 else 0) + n % 8))
  else s.modTeam (teamKey g t) fun x => { x with landing := x.landing.set 0 line ((x.landing.get line 0 + d).toNat) }

/-- R61: the home cluster of a cohort: of its teams that have been placed, until the last team of the cohort has exited. -/
def homeOf (s : State) (g c : Nat) : Option Nat :=
  let r := s.grid g
  let mine := s.teams.filter fun e => e.1 / 1048576 == g && r.cohort (e.1 % 1048576) == c && e.2.placed
  let gone := (mine.filter fun e => e.2.st == .exited).length == Nat.min (c * r.coh + r.coh) r.nteams - c * r.coh
  if gone then none else (mine.head?).map fun e => e.2.cl

/-- R148, R138: the cluster at which a message to a team is dropped: the cohort's home, else where the team was last. -/
def homeCl (s : State) (g t : Nat) : Nat :=
  (s.homeOf g ((s.grid g).cohort t)).getD (s.team (teamKey g t)).cl

/-- R138: the team that a rank names to team t of grid g, when the access is not dropped. -/
def rankTeam (s : State) (g t r : Nat) : Option Nat :=
  let x := s.grid g
  let u := x.cohort t * x.coh + r
  if x.coh ≤ r || x.nteams ≤ u then none
  else
    match (s.team (teamKey g u)).st with
    | .pending => none
    | .exited => none
    | _ => some u

/-- R134: an access beyond an allocation is counted at the core's cluster. -/
def spovr (s : State) (cl : Nat) : State := s.count cl 0x100 1

end State

end Sys2Proof.Machine
end

