-- ==== Sys2Proof/Machine/Ops.lean ====
section
/-! DEFINITION. The shared operations over groups: taking a trap (R268) and waking, tokens (R145), and the one way in which
a word issues: waits, guards, checks, its effect, and what the issue leaves (R102 to R113, R271). -/

namespace Sys2Proof.Machine

/-! ### Traps -/

/-- What a trap reports (R269, R270): its cause, the lanes that caused it, the details, and their addresses. -/
structure Trap where
  cause : Nat
  mask : Mask
  detail : W64 := 0
  addrs : List (Nat × W64) := []
  deriving DecidableEq, Repr

/-- A trap whose address slots all hold one scalar address (R434). -/
def Trap.scalar (cause : Nat) (m : Mask) (detail : W64) (a : W64) : Trap :=
  { cause := cause, mask := m, detail := detail, addrs := m.lanes.map fun l => (l, a) }

/-- 0x05: the register or tile and the budget it passes (R270). -/
def Trap.budget (m : Mask) (r b : Nat) : Trap := { cause := 0x05, mask := m, detail := w64 (r % 65536 + b % 65536 * 65536) }

/-- 0x02: a reserved field, with its bit (R270). -/
def Trap.reserved (m : Mask) (b : Nat) : Trap := { cause := 0x02, mask := m, detail := w64 b }

namespace State

/-- The core on which a group's team is. -/
def coreOfGrp (s : State) (gk : Nat) : Nat := let x := s.team (gk / 32); coreKey x.cl x.co

/-- R109, R361: is a group in a run. -/
def inRun (s : State) (gk : Nat) : Bool :=
  (s.quad (4 * s.coreOfGrp gk + (s.group gk).quad)).run.any fun r => r.grp == gk

/-- R117, R364: is a group parked; one that a halt has stopped is parked with reason halt once its run has ended. -/
def parked (s : State) (gk : Nat) : Bool :=
  (s.group gk).park.isSome || ((s.group gk).halted && !s.inRun gk)

/-- R268: a trap of a group taken: its record waits for the ring, and the group parks with reason trap. The trapping
word's address is `pc`; `sec` marks the secondary stream's. Poison-use and misaligned-access traps are counted (R261, R164). -/
def trapGroup (s : State) (gk pc : Nat) (sec : Bool) (t : Trap) : State :=
  let g := grpKeyGrid gk
  let tm := grpKeyTeam gk
  let n := grpKeyIdx gk
  let x := s.group gk
  let k := s.coreOfGrp gk
  let r : TrapRec :=
    { g := g, t := tm, grp := n, ident := s.identity g tm n 0, cause := t.cause, kind := 0
      flags := bit sec + 2 * bit x.step, pc := w64 (pc % pow2 57), mask := t.mask, cycles := s.cyclesOf k
      elapsed := s.elapsedOf (k / 6), detail := t.detail, detail2 := 0, addrs := t.addrs, hang := [] }
  let s := s.modPage (s.grid g).part fun y => { y with trapq := y.trapq ++ [r] }
  let s := s.modGroup gk fun y => { y with park := some .trap, trapCause := some t.cause }
  if t.cause == 0x0B then s.count (k / 6) 0x3A8 1 else if t.cause == 0x09 then s.count (k / 6) 0x130 1 else s

/-- R268: is the ring of a partition set so that it can be written. -/
def ringUsable (s : State) (p : Nat) : Bool := (s.page p).ringOk

/-- R268: base, entries, tail counter and head counter of a ring. -/
def ringBase (x : Page) : Nat := x.trapb.bits 56 16 * 65536
def ringSize (x : Page) : Nat := pow2 (x.trapb.bits 3 0)
def ringTail (x : Page) : Nat := x.trapt.bits 56 3 * 8
def ringHead (x : Page) : Nat := x.traph.bits 56 3 * 8

/-- R268: entries of a ring that are free. -/
def ringFree (s : State) (p : Nat) : Nat :=
  let x := s.page p
  if s.ringUsable p then ringSize x - (s.vaQ p (ringTail x) - s.vaQ p (ringHead x)).toNat else 0

/-- R152: the device reads the counters of a ring that is set. -/
def ringRead (s : State) (p : Nat) : State :=
  let x := s.page p
  if s.ringUsable p then (s.vaTouch p (ringTail x) 8 false).vaTouch p (ringHead x) 8 false else s

/-- R268: a notice (kinds 1 and 3) is posted, or dropped and counted when the ring has no room for it. -/
def notice (s : State) (p : Nat) (r : TrapRec) : State :=
  if (s.page p).trapq.length < s.ringFree p then (s.ringRead p).modPage p fun y => { y with trapq := y.trapq ++ [r] }
  else (s.ringRead p).modPage p fun y => { y with dropn := Nat.min 255 (y.dropn + 1) }

/-- R264, R269, R59: an error event about a grid, or about a team or group of it: the array's code and its page. -/
def errorEvent (s : State) (g code : Nat) (page : W64) (t grp : Nat := 0) : State :=
  s.notice (s.grid g).part
    { g := g, t := t, grp := grp, ident := s.identity g t grp 0, cause := 0, kind := 3, flags := 0, pc := 0, mask := 0
      cycles := 0, elapsed := 0, detail := page, detail2 := w64 code, addrs := [], hang := [] }

/-! ### Parks and wakes -/

/-- R119: an event that thaws a core in frost has come. -/
def rouse (s : State) (k : Nat) : State := s.modCore k fun c => { c with woken := c.frost || c.woken }

/-- R116: where a group goes when its park ends: on, or to the baton that it held when its team was saved. -/
def afterPark (x : Group) : Option Park := if x.batonDue then some (.baton true) else none

/-- R117: a waking event: the group is ready, or traps with cause step when that trap was put off (R109). -/
def wake (s : State) (gk : Nat) : State :=
  let x := s.group gk
  let s := s.rouse (s.coreOfGrp gk)
  match x.stepPend with
  | none => s.modGroup gk fun y => { y with park := afterPark y }
  | some (pc, lanes) =>
    (s.modGroup gk fun y => { y with park := none, stepPend := none }).trapGroup gk pc false { cause := 0x0D, mask := lanes }

/-- The groups of a core's resident teams: the slots of its four quadrants. -/
def groupsOfCore (s : State) (k : Nat) : List Nat :=
  (List.range 4).flatMap fun d => (s.quad (4 * k + d)).slots.map Prod.snd

/-- The groups of every core, by quadrant and slot. -/
def allSlotGroups (s : State) : List Nat := s.quads.flatMap fun e => e.2.slots.map Prod.snd

/-- Groups for which a park meets a test are woken. -/
def wakeWhere (s : State) (gs : List Nat) (f : Park → Bool) : State :=
  gs.foldl (fun s gk => match (s.group gk).park with
    | some w => if f w then s.wake gk else s
    | none => s) s

/-! ### Tokens -/

/-- R145: a token's count rises; from 0, its status is first set to 0. -/
def tokenUp (s : State) (gk k : Nat) : State :=
  s.modGroup gk fun x =>
    let st := if x.kc k == 0 then SMap.set x.kStat 0 k 0 else x.kStat
    { x with kCount := SMap.set x.kCount 0 k (x.kc k + 1), kStat := st }

/-- R145: may a token's count rise. -/
def tokenRoom (s : State) (gk k : Nat) : Bool := (s.group gk).kc k < 255

/-- R176, R452: the sectors of an L1 within n bytes from `pa` invalidated; dirty bytes that none of `ws` names, the job not
having written them, stay. -/
def killRange (s : State) (k pa n : Nat) (ws : List (Nat × Nat)) : State :=
  s.modCore k fun c => { c with l1 := (sectorsOf pa n).foldl (fun m sec =>
    match m.find sec with
    | none => m
    | some x =>
      let left := ws.foldl (fun d w => d &&& ~~~(coverMask sec w.1 w.2)) x.dirty
      if left == 0 then m.erase sec else m.put sec { x with valid := left, dirty := left }) c.l1 }

/-- R176, R452: the L1 sectors within the write footprints of the ended jobs that a token counted are invalidated. -/
def dropJobSectors (s : State) (gk : Nat) (m : BitVec 8) : State :=
  let k := s.coreOfGrp gk
  let mine := fun (j : DoneJob) => j.grpKey == gk && m.getLsbD j.tk
  let s := ((s.core k).doneJobs.filter mine).foldl
    (fun s j => j.ranges.foldl (fun s r => s.killRange k r.1 r.2 j.bytes) s) s
  s.modCore k fun c => { c with doneJobs := c.doneJobs.filter fun j => !mine j }

/-- R283, R480: where a saved group's record lies in its team's image. -/
def imageGroup (gk : Nat) : Nat := 0x1000 + 0x800 * grpKeyIdx gk

/-- R480: an s register of a group written by a unit, wherever the group's state lies. -/
def unitScalar (s : State) (gk n : Nat) (v : W64) : State :=
  if n == 0 then s
  else if atImage (s.team (gk / 32)) then
    s.imgWrite (gk / 32) (imageGroup gk + 8 * n) (leBytes 8 v.toNat)
  else s.modGroup gk fun x => { x with regs := x.regs.sset n v 0 }

/-- R145: a token's count falls by 1 and its status rises to `st`; at 0 the groups that wait for it wake. A saved
team's token lies in its image (R480). -/
def tokenDown (s : State) (gk k st : Nat) : State :=
  if (s.groups.find gk).isNone then s
  else if atImage (s.team (gk / 32)) then
    let tk := gk / 32
    let a := imageGroup gk
    let n := leNat (s.imgRead tk (a + 0x700 + k) 1) - 1
    let all := leNat (s.imgRead tk (a + 0x708) 2)
    let old := all / pow2 (2 * k) % 4
    let s := s.imgWrite tk (a + 0x700 + k) (leBytes 1 n)
    s.imgWrite tk (a + 0x708) (leBytes 2 (all - old * pow2 (2 * k) + Nat.max old st * pow2 (2 * k)))
  else
    let s := s.modGroup gk fun x =>
      { x with kCount := SMap.set x.kCount 0 k (x.kc k - 1), kStat := SMap.set x.kStat 0 k (Nat.max (x.ks k) st) }
    let x := s.group gk
    match x.park with
    | some (.token m) => if x.tokensDone m then s.wake gk else s
    | some (.tileWait m) => if x.tokensDone m then (s.dropJobSectors gk m).wake gk else s
    | _ => s

/-- A flight of the list is taken out. -/
def dropFlight (s : State) (id : Nat) : State := { s with flights := s.flights.filter fun f => f.id != id }
/-- A flight of the list is replaced. -/
def setFlight (s : State) (f : Flight) : State :=
  { s with flights := s.flights.map fun x => if x.id == f.id then f else x }
def flight (s : State) (id : Nat) : Option Flight := s.flights.find? fun f => f.id == id

/-- R145: a token's status rises while its count stands. -/
def tokenStatus (s : State) (gk k st : Nat) : State :=
  if (s.groups.find gk).isNone then s
  else if atImage (s.team (gk / 32)) then
    let a := imageGroup gk + 0x708
    let all := leNat (s.imgRead (gk / 32) a 2)
    let old := all / pow2 (2 * k) % 4
    s.imgWrite (gk / 32) a (leBytes 2 (all - old * pow2 (2 * k) + Nat.max old st * pow2 (2 * k)))
  else s.modGroup gk fun x => { x with kStat := SMap.set x.kStat 0 k (Nat.max (x.ks k) st) }

/-- R143, R145, R159: a flight has landed: the pages that no other flight of its command uses are unpinned, and with the last
one the token falls. -/
def landed (s : State) (f : Flight) (st : Nat) : State :=
  let s := s.dropFlight f.id
  let gk := grpKey f.g f.t f.grp
  let rest := s.flights.filter fun x => x.cmd == f.cmd
  let more := !rest.isEmpty
  let s := s.unpin (f.pages.filter fun g => !rest.any fun x => x.pages.contains g)
  match f.tk with
  | some k => if more then s.tokenStatus gk k st else s.tokenDown gk k st
  | none => s

/-! ### Results due -/

/-- R107: one part of a due result has arrived, with the writes it makes. -/
def duePart (s : State) (gk id : Nat) (w : List RegWr) : State :=
  if (s.groups.find gk).isNone then s
  else s.modGroup gk fun x =>
    { x with due := x.due.map fun d => if d.id == id then { d with writes := d.writes ++ w, left := d.left - 1 } else d }

end State

/-! ### How a word issues -/

/-- What a word names in the registers and stores that issue checks (R98, R132, R243, R375). -/
structure Uses where
  /-- v registers read, and written. -/
  vr : List Nat := []
  vw : List Nat := []
  /-- s registers and predicates read. -/
  sr : List Nat := []
  pr : List Nat := []
  /-- Accumulator tiles. -/
  tiles : List Nat := []
  /-- R426: a count of registers asked for beyond the ceiling, with it. -/
  beyond : List (Nat × Nat) := []
  /-- R243, R375: a slot, or smoothing vector, that is not bound. -/
  unbound : Option Nat := none
  /-- R293, R402: the token-wait mask of the formats M and X. -/
  tw : BitVec 8 := 0
  /-- Reserved-field conditions that read the state (R422, R433, R437). -/
  dyn : Option Nat := none

/-- How a word's effect ended. -/
inductive Fate
  /-- It took effect. -/
  | done
  /-- It waits in place and issues in a later cycle (R106); the state may record the wait. -/
  | stall
  /-- It took effect and parked its group (R117). -/
  | park (w : Park)
  /-- Nothing took effect; the group parks, and the word issues again (R137, R156). -/
  | retry (w : Park)
  /-- It took no effect and trapped. -/
  | trap (t : Trap)
  /-- It took effect and then trapped (R350). -/
  | after (t : Trap)
  deriving DecidableEq, Repr

/-- The state that a word's effect leaves, how it ended, the lanes whose PC it set itself, and does the run end. -/
structure Eff where
  s : State
  fate : Fate := .done
  moved : Mask := 0
  ends : Bool := false

namespace State

/-- R291, R172: the scalar guard of a header, as read. -/
def scalarGuard (s : State) (h : Hdr) : Bool :=
  let g := h.grd.toNat
  if 16 ≤ g then s.src.qget (g - 16) != h.gn else true

/-- R291: the issuing lanes that a header's lane guard leaves active. -/
def activeLanes (s : State) (h : Hdr) : Mask :=
  let g := h.grd.toNat
  if g == 0 || 16 ≤ g then s.cur.lanes
  else s.cur.lanes &&& (if h.gn then ~~~(s.src.pget g) else s.src.pget g)

/-- R107: does a due result keep a lane of the mask from issuing. -/
def laBlocks (x : Group) (m : Mask) : Bool :=
  x.due.any fun d => m.lanes.any fun l => d.mask.getLsbD l && d.la ≤ d.count.get l 0

/-- Does a due result write one of some registers; s0 and p0 are never written (R338, R100). -/
def dueWrites (d : Due) (v s p : List Nat) : Bool :=
  d.dst.any fun w => match w with
    | (0, r) => v.contains r
    | (1, r) => r != 0 && s.contains r
    | (_, r) => r != 0 && p.contains r

/-- R375: a register read that is still due, under strict lookahead: the long-latency word's address. -/
def strictHit (x : Group) (u : Uses) (g : Nat) : Option Nat :=
  let pr := if 1 ≤ g && g < 16 then g :: u.pr else u.pr
  if x.sla then (x.due.find? fun d => dueWrites d u.vr u.sr pr).map Due.pc else none

/-- R98, R132: the registers and tiles at or above the budget, with the budget. -/
def overBudget (s : State) (u : Uses) : List (Nat × Nat) :=
  let b := s.grp.budget
  let a := s.curGrid.acct
  ((u.vw ++ u.vr).filter (b ≤ ·)).map (·, b) ++ (u.tiles.filter (a ≤ ·)).map (·, a) ++ u.beyond

/-- R271, items 5 to 8, on what the word reads: the trap of the first condition that holds. Where several registers pass
the budget, which one the detail names is open (log 11). -/
def issueCheck (s : State) (h : Hdr) (u : Uses) (m : Mask) : Option Trap :=
  match u.dyn with
  | some b => some (Trap.reserved m b)
  | none =>
    match u.unbound with
    | some n => some { cause := 0x07, mask := m, detail := w64 n }
    | none =>
      match s.overBudget u with
      | x :: l =>
        let all := x :: l
        let p := all.getD ((Config.freeWord s.free).toNat % all.length) x
        some (Trap.budget m p.1 p.2)
      | [] => (strictHit s.grp u h.grd.toNat).map fun pc => { cause := 0x08, mask := m, detail := w64 pc }

/-- R59, R281: a word of a grid issued. -/
def markIssued (s : State) : State :=
  let s := s.modGrid s.cur.g fun r => { r with issued := true }
  if (s.team s.curTeam).placing then s.modTeam s.curTeam fun x => { x with placing := false } else s

/-- R107: each lane that issued a due result before this word counts the word. -/
def countLa (x : Group) (before : Nat) (m : Mask) : Group :=
  { x with due := x.due.map fun d =>
      if d.id < before then
        { d with count := (d.mask &&& m).lanes.foldl (fun c l => SMap.set c 0 l (SMap.get c l 0 + 1)) d.count }
      else d }

/-- The run of the issuing quadrant after a word: its stream's words counted, and the stream cut to the lanes that stay in
sequence at the next word. -/
def advanceStream (x : Stream) (words : Nat) (lanes : Mask) (pc : Nat) : Stream :=
  { pc := pc, lanes := lanes, words := x.words + words }

/-- R102 to R104: the bookkeeping of the run after a word. `fin` ends the stream's run; `all` ends the whole run. -/
def runAfter (r : Run) (sec : Bool) (words : Nat) (lanes : Mask) (pc : Nat) (fin all : Bool) (before : Regs) :
    Option Run :=
  if sec then
    match r.sec with
    | none => if r.ending then none else some { r with secTurn := false, snap := none }
    | some x =>
      if all || r.ending then none
      else
        some { r with secTurn := false, snap := none
                      sec := if fin then none else some (advanceStream x words lanes pc) }
  else
    let p := advanceStream r.prim words lanes pc
    match r.sec with
    | none => if fin || all then none else some { r with prim := p }
    | some _ =>
      if r.hold then if fin || all then none else some { r with prim := p, hold := false }
      else some { r with prim := p, secTurn := true, snap := some before, ending := fin || all }

/-- What an issue leaves (R102, R107, R109, R113, R117): `e` is the word's effect from state `s`. A trap of the causes
0x06 and 0x0D reports the lanes that the word's lane guard left active (R269). -/
def finish (s : State) (h : Hdr) (e : Eff) : State :=
  let c := s.cur
  let before := s.grp.regs
  let next := (c.pc + c.len) % pow2 64
  let qk := s.curQuad
  let blocked := c.sec && s.grp.park.isSome
  let cut := fun (s : State) => s.modQuad qk fun q =>
    { q with run := q.run.bind fun r => runAfter r c.sec 0 c.lanes c.pc true true before }
  match e.fate with
  | .stall => e.s
  | .retry w => if blocked then cut s else (cut e.s).modGrp fun x => { x with park := some w }
  | .trap t =>
    -- R113: beside a primary word that trapped, the secondary's lanes are held
    if blocked then (cut s).modGrp fun x => if x.park == some .trap then { x with held := x.held ||| t.mask } else x
    else (cut e.s.markIssued).trapGroup s.curGrp c.pc c.sec t
  | f =>
    let parks := match f with | .park _ => true | _ => false
    let traps := match f with | .after _ => true | _ => false
    -- R113: a tree beside a primary word that trapped commits, and its faulting lanes are held
    if blocked && (parks || (traps && s.grp.park != some .trap)) then cut s
    else
    let s1 := e.s.markIssued.modGrp fun x =>
      countLa (x.setPc (c.lanes &&& ~~~e.moved &&& ~~~x.exited) next) s.nextId c.lanes
    let x := s1.grp
    let on := c.lanes &&& ~~~e.moved &&& x.runnable
    let count := match (s.quad qk).run with
      | some r => (if c.sec then (r.sec.map Stream.words).getD 0 else r.prim.words) + c.words
      | none => c.words
    let strict := x.srun && 24 ≤ count && !h.bnd && !parks && !traps
    let stepT := x.step && !parks && !traps && !x.gone
    let fin := h.bnd || 24 ≤ count || e.ends || on == 0
    let s2 := s1.modQuad qk fun q =>
      { q with run := q.run.bind fun r => runAfter r c.sec c.words on next fin (parks || traps || strict || stepT) before }
    match f with
    | .park w =>
      s2.modGrp fun x => { x with park := some w, stepPend := if x.step then some (c.pc, s.activeLanes h) else none }
    | .after t => if blocked then s2 else s2.trapGroup s.curGrp c.pc c.sec t
    | _ =>
      if strict && !blocked then s2.trapGroup s.curGrp c.pc c.sec { cause := 0x06, mask := s.activeLanes h }
      else if stepT && !blocked then s2.trapGroup s.curGrp c.pc c.sec { cause := 0x0D, mask := s.activeLanes h }
      else s2

/-- R106, R107: does the word wait in place before it is looked at. The two words of one cycle were looked at together
when the cycle began (R104). -/
def mustWait (s : State) (u : Uses) : Bool :=
  !s.cur.sec && (laBlocks s.grp s.cur.lanes || !s.grp.tokensDone u.tw)

/-- How every word of a group issues: it waits under R107 or on a token; a false scalar guard suppresses it (R172), so that
it reads no register, slot or tile, and raises none of the conditions that need one (R271); else its conditions are judged
in the order of R271, and its effect acts for its active lanes. -/
def issueWord (s : State) (h : Hdr) (u : Uses) (eff : Mask → State → Eff) : State :=
  if !s.cur.sec && laBlocks s.grp s.cur.lanes then s
  else if !s.scalarGuard h then s.finish h { s := s }
  else if s.mustWait u then s
  else
    match s.issueCheck h u (s.activeLanes h) with
    | some t => s.finish h { s := s, fate := .trap t }
    | none => s.finish h (eff (s.activeLanes h) s)

end State

end Sys2Proof.Machine
end

