-- ==== Sys2Proof/Machine/Issue.lean ====
section
/-! DEFINITION. Fetch and the grind (R286 to R288), the choice of a run's streams (R101, R108), and what happens before a
word's own meaning: the fetch causes, breakpoints and decoding (R271, items 1 to 5). -/

namespace Sys2Proof

/-- R293, R402, R434: the token-wait mask of a word of the formats M and X, never reserved; `waitk` and `ttwait` park on theirs
(R415, R452). -/
def Instr.twMask : Instr → BitVec 8
  | .ld _ f | .st _ f | .sld _ f | .sst _ f | .atomAdd _ f | .atomMin _ f | .atomMinu _ f | .atomMax _ f
  | .atomMaxu _ f | .atomAnd _ f | .atomOr _ f | .atomXor _ f | .atomExch _ f | .atomCas _ f | .atomFadd _ f
  | .atomFmin _ f | .atomFmax _ f | .ctradd _ f | .ctrwait _ f | .ctrrd _ f | .qpush _ f | .qpop _ f
  | .pf _ f | .fence _ f => f.tw
  | .cpaG2S _ f | .cpaS2G _ f | .cpaG2G _ f | .cpaS2S _ f | .cpavGlobal _ f | .cpavScratchpad _ f | .cptG2S _ f
  | .cptS2G _ f | .cpmGlobal _ f | .cpmScratchpad _ f => f.tw
  | .mma _ f | .maccld _ f | .maccst _ f | .mcvt _ f | .shpset _ f | .smooth _ f | .ttq _ f | .nzscan _ f | .coll _ f
  | .collw _ f | .crfcfg _ f | .crfroute _ f | .crfdep _ f | .crfstat _ f | .crfdrop _ f | .sfaload _ f
  | .sfaclamp _ f | .sfaseed _ f | .sfasweep _ f | .sfaread _ f | .sfastat _ f => f.tw
  | _ => 0

/-- R104: a tree with a memory arc. -/
def Instr.memoryTree : Instr → Bool
  | .tree _ f => f.arcs.any Arc.isMem
  | _ => false

/-- R104: is the word at these bytes of format M, does it decode or not. -/
def formatM (bs : List Byte) : Bool :=
  match bs with
  | [] => false
  | b :: l =>
    if 0xC0 ≤ b.toNat && b.toNat < 0xE0 then
      (match expand8 (BitVec.ofNat 64 (beNat bs)) with | some w => w.field 92 4 == 4 | none => false)
    else b == 0xE0 && (l.getD 0 0).toNat / 16 == 4

/-- R104: is the word at these bytes of the formats V3, VI, M or T0, which a secondary stream may issue. -/
def secondaryKind (bs : List Byte) : Bool :=
  match bs with
  | [] => false
  | b :: l =>
    if b.toNat < 0xC0 then true
    else if formatM bs then true
    else if b == 0xE0 then (l.getD 0 0).toNat / 16 ≤ 1
    else b == 0xF1 || b == 0xF2 || b == 0xF3

end Sys2Proof

namespace Sys2Proof.Machine
namespace State

/-! ### The instruction cache -/

/-- R287: the translation of an instruction byte's page: the physical address of the byte and the memory type, or the
detail bits of the failure. -/
def fetchPage (s : State) (k p va : Nat) : Except Nat (Nat × Nat) :=
  if s.pageLogged k p va then .error 1
  else
    match s.tlbLookup k p va with
    | none => .error 1
    | some e => if e.x then .ok (tlbPage e va * 65536 + va % 65536, e.mt) else .error 3

/-- Instruction bytes of one page, and their poison. -/
def fetchBytes (s : State) (pa mt n : Nat) : List Byte × Bool :=
  if mt == 1 then (s.hostRead pa n, false) else (s.devRead pa n, s.devPois pa n)

/-- R286, R287: one instruction as the grind reads it, with the mark it bears. -/
def grindOne (s : State) (k p va : Nat) : IWordRec :=
  match s.fetchPage k p va with
  | .error d => { va := va, bytes := [], mark := some (0x0A, w64 d) }
  | .ok (pa, mt) =>
    let one := s.fetchBytes pa mt 1
    let n := instrLen (one.1.getD 0 0)
    let n1 := Nat.min n (65536 - va % 65536)
    let a := s.fetchBytes pa mt n1
    let pm := fun b => if b then some (0x0B, w64 0) else none
    if n1 == n then { va := va, bytes := a.1, mark := pm a.2 }
    else
      match s.fetchPage k p (va + n1) with
      | .error _ => { va := va, bytes := [], mark := some (0x03, w64 (va + n1)) }
      | .ok (pa2, mt2) =>
        let b := s.fetchBytes pa2 mt2 (n - n1)
        { va := va, bytes := a.1 ++ b.1, mark := pm (a.2 || b.2) }

/-- The internal words of an instruction, by its first byte (R284). -/
def wordsOf (bs : List Byte) : Nat :=
  match bs with
  | b :: _ => if b == 0xF1 then 2 else if b == 0xF2 then 3 else if b == 0xF3 then 4 else 1
  | [] => 1

/-- R286: does the grind stop after a word. -/
def grindStops (r : IWordRec) : Bool :=
  r.bytes.isEmpty || (match decode r.bytes with | .error (.undefinedEncoding _) => true | _ => false)

/-- R286: the instructions of a line from `va` to the end of its block, at most `room` words. -/
def grind (s : State) (k p block : Nat) : Nat → Nat → Nat → List IWordRec
  | 0, _, _ => []
  | fuel + 1, va, room =>
    if va / 128 != block then []
    else
      let r := s.grindOne k p va
      if room < wordsOf r.bytes then []
      else if grindStops r then [r]
      else r :: s.grind k p block fuel (va + r.bytes.length) (room - wordsOf r.bytes)

/-- R286: a line filled from a PC: the least recently used line goes. The pages of the first instruction count as
accessed; those of the others are speculative (R158). -/
def fillLine (s : State) (k p va : Nat) : State :=
  let insns := s.grind k p (va / 128) 32 va 32
  let s := s.xlatTouch k p va .fetch
  let n := ((insns.map fun r => r.bytes.length).getD 0 0)
  let s := if n != 0 && (va + n - 1) / 65536 != va / 65536 then s.xlatTouch k p (va + n - 1) .fetch else s
  let lost := (insns.drop 1).filter fun r => r.mark.any fun m => m.1 == 0x03 || m.1 == 0x0A
  let s := s.count (k / 6) 0x118 lost.length
  s.modCore k fun c => { c with icache := ({ part := p, block := va / 128, first := va % 128, insns := insns } :: c.icache).take 256 }

/-- Does a line record an instruction start. -/
def lineHolds (l : ILine) (p va : Nat) : Bool := l.part == p && l.block == va / 128 && l.insns.any fun r => r.va == va

/-- R286: the line that records a PC becomes the most recently used; a line is filled when none does. -/
def fetchLine (s : State) (k p va : Nat) : State :=
  match (s.core k).icache.find? fun l => lineHolds l p va with
  | some l =>
    s.modCore k fun c => { c with icache := l :: c.icache.eraseP fun l => lineHolds l p va }
  | none => s.fillLine k p va

/-- The ground instruction at a PC, after `fetchLine`. -/
def ground (s : State) (k p va : Nat) : IWordRec :=
  match (s.core k).icache.find? fun l => lineHolds l p va with
  | some l => (l.insns.find? fun r => r.va == va).getD { va := va, bytes := [], mark := some (0x0A, 1) }
  | none => { va := va, bytes := [], mark := some (0x0A, 1) }

/-- R287: the lines that hold a marked word are discarded. -/
def discardLine (s : State) (k p va : Nat) : State :=
  s.modCore k fun c => { c with icache := c.icache.filter fun l => !lineHolds l p va }

/-! ### Streams -/

/-- R101, R349: the lanes of a group by PC and out-of-range mark; a marked PC is numbered from 2^57. -/
def byPc (x : Group) : SMap Mask :=
  x.pcs.foldl (fun m e =>
    let key := if e.1 < pow2 57 then e.1 else pow2 57 + e.1 % pow2 57
    let l := e.2 &&& x.runnable
    if l == 0 then m else SMap.put m key (SMap.get m key 0 ||| l)) []

/-- R101: does a PC rank before another: more lanes, then the lower PC. -/
def ranksBefore (a b : Nat × Mask) : Bool :=
  b.2.count < a.2.count ||
    (a.2.count == b.2.count && (a.1 % pow2 57 < b.1 % pow2 57 || (a.1 % pow2 57 == b.1 % pow2 57 && a.1 < b.1)))

/-- The first of a list by a ranking. -/
def best : List (Nat × Mask) → Option (Nat × Mask)
  | [] => none
  | a :: l =>
    match best l with
    | none => some a
    | some b => if ranksBefore b a then some b else some a

/-- R101: the primary and the secondary stream. -/
def streamsOf (x : Group) : Option (Stream × Option Stream) :=
  let l := byPc x
  match best l with
  | none => none
  | some a =>
    some ({ pc := a.1, lanes := a.2 },
      if x.step then none
      else (best (l.filter fun e => e.1 != a.1)).map fun b => { pc := b.1, lanes := b.2 })

/-- The instruction at which a stream stands, when its bytes can be had and decode. -/
def peek (s : State) (k p pc : Nat) : Option (Instr × Nat) :=
  if pow2 57 ≤ pc then none
  else
    let r := (s.fetchLine k p pc).ground k p pc
    match r.mark with
    | some _ => none
    | none => (decode r.bytes).toOption

/-- The bytes at which a stream stands. -/
def peekBytes (s : State) (k p pc : Nat) : List Byte :=
  if pow2 57 ≤ pc then [] else ((s.fetchLine k p pc).ground k p pc).bytes

/-! ### Runs -/

/-- R106, R107, R172: does the word at which a stream stands wait. -/
def streamWaits (s : State) (gk k p : Nat) (x : Stream) : Bool :=
  let y := s.group gk
  laBlocks y x.lanes ||
    match s.peek k p x.pc with
    | none => false
    | some (i, _) =>
      match i.hdr with
      | none => false
      | some h =>
        let g := h.grd.toNat
        (g < 16 || y.regs.qget (g - 16) != h.gn) && !y.tokensDone i.twMask

/-- R108: is a group ready. -/
def ready (s : State) (k gk : Nat) : Bool :=
  let x := s.group gk
  let t := s.team (gk / 32)
  let p := (s.grid (grpKeyGrid gk)).part
  x.park.isNone && !x.halted && !x.gone && x.runendLeft == 0 && t.st == .resident &&
    !(s.grid (grpKeyGrid gk)).ending && !(s.part p).stopping && t.choice != some .discard &&
    !(s.core k).frost && !((s.cluster (k / 6)).swap.any fun w => w.hot == k % 6 || w.cool == k % 6) &&
    match streamsOf x with
    | none => false
    | some (a, _) => !s.streamWaits gk k p a

/-- R108: the slots of a quadrant in round-robin order after the last winner's. -/
def slotOrder (last : Nat) : List Nat := (List.range 24).map fun i => (last + 1 + i) % 24

/-- R108: the slot and the group that win a quadrant. -/
def winner (s : State) (k d : Nat) : Option (Nat × Nat) :=
  let q := s.quad (4 * k + d)
  (slotOrder q.last).findSome? fun n =>
    match q.slots.find n with
    | none => none
    | some gk => if s.ready k gk then some (n, gk) else none

/-- R273, R369: the control bits that a run start brings into effect. -/
def takeControls (x : Group) : Group :=
  let x := match x.strictPend with
    | none => x
    | some b => { x with sla := b.getLsbD 0, srun := b.getLsbD 1, strictPend := none }
  match x.dbgPend with
  | none => x
  | some b => { x with step := b.getLsbD 0, sla := b.getLsbD 1, srun := b.getLsbD 2, dbgPend := none }

/-- R101, R108: a free quadrant's slot goes to the next ready group, and its streams are chosen. -/
def startRun (s : State) (k d : Nat) : State :=
  match (s.quad (4 * k + d)).run with
  | some _ => s
  | none =>
    match s.winner k d with
    | none => s
    | some (n, gk) =>
      let s := s.modGroup gk takeControls
      match streamsOf (s.group gk) with
      | none => s
      | some (a, b) =>
        let pass := (s.group gk).bkptPass
        (s.modGroup gk fun x => { x with bkptPass := false }).modQuad (4 * k + d) fun q =>
          { q with last := n, run := some { grp := gk, prim := a, sec := b, pass := pass } }

/-- R102, R104: at a cycle's start, a secondary stream whose next word it may not issue ends its run. -/
def trimSecondary (s : State) (k p : Nat) (r : Run) : Run :=
  match r.sec with
  | none => r
  | some x =>
    let bs := s.peekBytes k p x.pc
    if secondaryKind bs && x.words + wordsOf bs ≤ 24 then r else { r with sec := none }

/-- R104: a secondary word of format M, or a tree with a memory arc, waits a cycle beside a primary word of format M. -/
def memoryRule (s : State) (k p : Nat) (r : Run) : Bool :=
  match r.sec with
  | none => false
  | some x =>
    formatM (s.peekBytes k p r.prim.pc) &&
      (formatM (s.peekBytes k p x.pc) || (s.peek k p x.pc).any fun j => j.1.memoryTree)

/-- R274: the breakpoint register that matches an address. -/
def bkptHit (s : State) (p pc : Nat) : Option Nat :=
  (List.range 4).find? fun n =>
    let b := (s.page p).bkpt.get n 0
    b.getLsbD 63 && b.bits 56 0 == pc

/-- R59: the context of a word that a stream of a run issues. -/
def setCur (s : State) (k d : Nat) (r : Run) (x : Stream) (sec : Bool) (len words : Nat) : State :=
  { s with cur := { cl := k / 6, co := k % 6, qd := d, g := grpKeyGrid r.grp, t := grpKeyTeam r.grp
                    grp := grpKeyIdx r.grp, lanes := x.lanes, pc := x.pc % pow2 57, len := len, sec := sec
                    handler := none, words := words } }

/-- R56: the slot that a conversion or matrix word names. -/
def fslot (s : State) (n : BitVec 3) : BitVec 16 := s.curGrid.slot n.toNat

/-- R398, R435: the lowest bit that the formats of the slots it names make offend in a word; a slot that is not bound imposes
nothing. -/
def slotRow (s : State) : Instr → Option Nat
  | .vcvtbsPack _ f =>
    let x := s.fslot f.slot
    if !f.usl || !slotBound x then none
    else minBit [adm 16 (packFmt (slotFmt x)), if slotSmth x then none else mbz 7 f.imm8]
  | .vcvtbsUnpack _ f =>
    let x := s.fslot f.slot
    if !f.usl || !slotBound x then none else adm 16 (packFmt (slotFmt x) || slotFmt x == 0x10)
  | .mma _ f =>
    let a := s.fslot f.fsa
    let b := s.fslot f.fsb
    minBit [adm 39 (!slotBound a || aSlotFmt (slotFmt a)), adm 36 (!slotBound b || bSlotFmt (slotFmt b))]
  | .mcvt _ f =>
    let x := s.fslot f.fsa
    let ty := slotFmt x
    if !slotBound x then none
    else minBit [adm 39 (aSlotFmt ty && !slotSmth x), adm 15 (!f.sat || ty == 1 || ty == 2),
                 if slotBlock x then none else mbz 45 f.sc]
  | _ => none

/-- R271, R375, R435: the bit that a reserved-field trap reports where the decoder has found bit `b`: with what the formats of
the word's slots add to the row that judges its values; a word whose scalar guard is false reads no slot. -/
def reservedBit (s : State) (bs : List Byte) (b : Nat) : Nat :=
  match oneWord bs with
  | none => b
  | some w =>
    if !s.scalarGuard (hdrOf bs) then b
    else ((wordInstr w).bind fun i => i.offenceWith (reservedBits w) (s.slotRow i)).getD b

/-- The header of a word that traps before it is known. -/
def noHdr : Hdr := { bnd := false, la := 0, gn := false, grd := 0 }

/-- R271, items 1 to 5: a stream's next word fetched; the trap of the first cause that holds, or the instruction, with
the context set for its meaning. A reserved field reports the lanes that an admitted lane guard leaves active (R269,
R291). R274 does not match the first word of the run after `trapret` from a breakpoint again: that the first words of both
streams of that run pass, also of one that had not trapped, is the model's choice (log 24, DESIGN CHOICE). -/
def fetchWord (s : State) (k d p : Nat) (r : Run) (x : Stream) (sec : Bool) : State × Option Instr :=
  let pc := x.pc % pow2 57
  let trapped := fun (s : State) (t : Trap) => (s.finish noHdr { s := s, fate := .trap t }, none)
  if pow2 57 ≤ x.pc then
    let s := s.setCur k d r x sec 1 1
    let y := s.group r.grp
    trapped s { cause := 0x0A, mask := x.lanes, detail := 1, addrs := x.lanes.lanes.map fun l => (l, w64 (y.pcOf l)) }
  else
    let s := s.fetchLine k p pc
    let rec_ := s.ground k p pc
    let s := s.setCur k d r x sec rec_.bytes.length (wordsOf rec_.bytes)
    match rec_.mark with
    | some (c, dt) =>
      let a := if c == 0x03 then dt else w64 pc
      trapped (s.discardLine k p pc) { cause := c, mask := x.lanes, detail := dt, addrs := x.lanes.lanes.map (·, a) }
    | none =>
      match if r.pass && x.words == 0 then none else s.bkptHit p pc with
      | some n => trapped s { cause := 0x0E, mask := x.lanes, detail := w64 (n + 1) }
      | none =>
        match decode rec_.bytes with
        | .error (.undefinedEncoding b) => trapped (s.discardLine k p pc) { cause := 0x01, mask := x.lanes, detail := w64 b.toNat }
        | .error .tooShort => trapped (s.discardLine k p pc) { cause := 0x01, mask := x.lanes, detail := w64 ((rec_.bytes.getD 0 0).toNat) }
        | .error (.treeGrammar n) => trapped (s.discardLine k p pc) { cause := 0x04, mask := x.lanes, detail := w64 n }
        | .error (.reservedField b) =>
          trapped s (Trap.reserved (if b == 81 || b == 86 then x.lanes else s.activeLanes (hdrOf rec_.bytes)) (s.reservedBit rec_.bytes b))
        | .ok (i, _) =>
          if i.handlerOnly then
            trapped s { cause := 0x01, mask := x.lanes, detail := w64 ((rec_.bytes.getD 0 0).toNat) }
          else (s, some i)

/-- R102 to R106: the next word of a quadrant: the one to be given its meaning, or none when the quadrant stays idle,
stalls, ends a run or takes a trap. -/
def nextWord (s : State) (cl co d : Nat) : State × Option Instr :=
  let k := coreKey cl co
  let s := s.startRun k d
  match (s.quad (4 * k + d)).run with
  | none => (s, none)
  | some r =>
    let p := (s.grid (grpKeyGrid r.grp)).part
    if r.secTurn then
      match r.sec with
      | none => (s.modQuad (4 * k + d) fun q => { q with run := none }, none)
      | some x => s.fetchWord k d p r x true
    else
      let r := s.trimSecondary k p r
      if 24 < r.prim.words + wordsOf (s.peekBytes k p r.prim.pc) then
        (s.modQuad (4 * k + d) fun q => { q with run := none }, none)
      else if s.streamWaits r.grp k p r.prim || (r.sec.any fun x => s.streamWaits r.grp k p x) then
        (s.modQuad (4 * k + d) fun q => { q with run := some r }, none)
      else
        let r := { r with hold := s.memoryRule k p r, first := s.nextId }
        let s := s.modQuad (4 * k + d) fun q => { q with run := some r }
        s.fetchWord k d p r r.prim false

end State
end Sys2Proof.Machine
end

