-- ==== Sys2Proof/Machine/Operands.lean ====
section
/-! DEFINITION. The operand forms of vector and scalar words, and the two ways in which a word writes its result: at once,
or as a result due (R107, R371, R373). -/

namespace Sys2Proof.Machine

/-- One value in every lane. -/
def splat (x : W32) : List W32 := List.replicate 128 x

/-- A vector operand: its lanes and their poison marks. -/
structure VArg where
  vals : List W32
  pois : Mask := 0

/-- Lane L of an operand. -/
def VArg.at (x : VArg) (l : Nat) : W32 := x.vals.getD l 0

/-- A v register as an operand. -/
def Regs.varg (r : Regs) (n : BitVec 8) : VArg := { vals := r.vget n.toNat, pois := r.vgetPois n.toNat }

/-- R294: the low word of an s register in every lane. -/
def Regs.bcast (r : Regs) (n : Nat) : VArg :=
  { vals := splat (r.sget n).lo, pois := if (r.sgetPois n).getLsbD 0 then Mask.full else 0 }

/-- An immediate in every lane. -/
def immArg (x : W32) : VArg := { vals := splat x }

end Sys2Proof.Machine

namespace Sys2Proof

open Machine

/-- R294: the second source of a V3 word. -/
def V3.argB (f : V3) (r : Regs) : VArg :=
  if f.bs then r.bcast (f.vb.toNat % 64) else r.varg f.vb

/-- The registers of a V3 word that reads `va`, `vb`, `vc` and writes `vd` where asked. -/
def V3.uses (f : V3) (vb vc vd : Bool) : Uses :=
  { vr := [f.va.toNat] ++ (if vb && !f.bs then [f.vb.toNat] else []) ++ (if vc then [f.vc.toNat] else [])
    vw := if vd then [f.vd.toNat] else []
    sr := if vb && f.bs then [f.vb.toNat % 64] else [] }

/-- The registers of a VI word. -/
def VI.uses (f : VI) (va vd : Bool) : Uses :=
  { vr := if va then [f.va.toNat] else [], vw := if vd then [f.vd.toNat] else [] }

end Sys2Proof

namespace Sys2Proof.Machine

namespace State

/-- R262: poisoned result words are counted. -/
def countPois (s : State) (m : Mask) : State := if m == 0 then s else s.count s.cur.cl 0x3A0 m.count

/-- R371: a result written to the active lanes of a v register. -/
def putV (s : State) (vd : BitVec 8) (act : Mask) (x : VArg) : State :=
  (s.setV vd act x.vals x.pois).countPois (act &&& x.pois)

/-- A predicate result in the active lanes; tests decided on poison are counted (R262). -/
def putP (s : State) (pd : BitVec 4) (act vals pois : Mask) : State :=
  (s.setP pd.toNat act vals).countPois (act &&& pois)

/-- R372, R399: the secondary word of a cycle writes s registers: what the primary word of the cycle still has due to them is
not written. -/
def overPrimary (s : State) (rs : List Nat) : State :=
  if s.cur.sec && !rs.isEmpty then
    s.modQuad s.curQuad fun q =>
      { q with skips := q.skips ++ rs.map fun r => (s.curGrp, (q.run.map Run.first).getD s.nextId, s.nextId, r) }
  else s

/-- R107: a result that is written later: `left` parts are still outstanding. -/
def addDue (s : State) (la : Nat) (dst : List (Nat × Nat)) (ws : List RegWr) (left : Nat) : State :=
  let d : Due := { id := s.nextId, pc := s.cur.pc, la := la, mask := s.cur.lanes, dst := dst, writes := ws, left := left }
  let s := s.overPrimary ((dst.filter fun w => w.1 == 1).map Prod.snd)
  { s with nextId := s.nextId + 1 }.modGrp fun x => { x with due := x.due ++ [d] }

/-- R373: a long-latency vector result. -/
def dueV (s : State) (h : Hdr) (vd : BitVec 8) (act : Mask) (x : VArg) : State :=
  (s.addDue h.la.toNat [(0, vd.toNat)] [.vec vd.toNat act x.vals x.pois] 0).countPois (act &&& x.pois)

/-- A scalar result; a poisoned operand word poisons both halves. -/
def putS (s : State) (sd : Nat) (v : W64) (pois : Bool) : State :=
  let s := (s.overPrimary [sd]).modRegs fun r => r.sset sd v (if pois then 3 else 0)
  if pois && sd != 0 then s.count s.cur.cl 0x3A0 2 else s

end State

/-! ### Lane-wise words -/

/-- A one-source operation on each lane. -/
def lanes1 (op : W32 → W32) (a : VArg) : VArg := { vals := (List.range 128).map fun l => op (a.at l), pois := a.pois }
/-- A two-source operation on each lane. -/
def lanes2 (op : W32 → W32 → W32) (a b : VArg) : VArg :=
  { vals := (List.range 128).map fun l => op (a.at l) (b.at l), pois := a.pois ||| b.pois }
/-- A three-source operation on each lane. -/
def lanes3 (op : W32 → W32 → W32 → W32) (a b c : VArg) : VArg :=
  { vals := (List.range 128).map fun l => op (a.at l) (b.at l) (c.at l), pois := a.pois ||| b.pois ||| c.pois }
/-- A relation on each lane, as a mask. -/
def lanesRel (op : W32 → W32 → Bool) (a b : VArg) : Mask := maskOf fun l => op (a.at l) (b.at l)

/-- A V3 word with one source that writes VD. -/
def v3One (h : Hdr) (f : V3) (op : W32 → W32) (s : State) : State :=
  s.issueWord h (f.uses false false true) fun act s => { s := s.putV f.vd act (lanes1 op (s.src.varg f.va)) }

/-- A V3 word with two sources. -/
def v3Two (h : Hdr) (f : V3) (op : W32 → W32 → W32) (s : State) : State :=
  s.issueWord h (f.uses true false true) fun act s =>
    { s := s.putV f.vd act (lanes2 op (s.src.varg f.va) (f.argB s.src)) }

/-- A V3 word with three sources. -/
def v3Three (h : Hdr) (f : V3) (op : W32 → W32 → W32 → W32) (s : State) : State :=
  s.issueWord h (f.uses true true true) fun act s =>
    { s := s.putV f.vd act (lanes3 op (s.src.varg f.va) (f.argB s.src) (s.src.varg f.vc)) }

/-- A V3 compare. -/
def v3Rel (h : Hdr) (f : V3) (op : W32 → W32 → Bool) (s : State) : State :=
  s.issueWord h (f.uses true false false) fun act s =>
    let a := s.src.varg f.va
    let b := f.argB s.src
    { s := s.putP f.pd act (lanesRel op a b) (a.pois ||| b.pois) }

/-- A long-latency V3 word with one source. -/
def v3OneLong (h : Hdr) (f : V3) (op : W32 → W32) (s : State) : State :=
  s.issueWord h (f.uses false false true) fun act s => { s := s.dueV h f.vd act (lanes1 op (s.src.varg f.va)) }

/-- A long-latency V3 word with two sources. -/
def v3TwoLong (h : Hdr) (f : V3) (op : W32 → W32 → W32) (s : State) : State :=
  s.issueWord h (f.uses true false true) fun act s =>
    { s := s.dueV h f.vd act (lanes2 op (s.src.varg f.va) (f.argB s.src)) }

/-- A VI word with a source and an immediate. -/
def viTwo (h : Hdr) (f : VI) (op : W32 → W32 → W32) (s : State) : State :=
  s.issueWord h (f.uses true true) fun act s => { s := s.putV f.vd act (lanes2 op (s.src.varg f.va) (immArg f.imm)) }

/-- A VI word that writes its immediate. -/
def viMov (h : Hdr) (f : VI) (s : State) : State :=
  s.issueWord h (f.uses false true) fun act s => { s := s.putV f.vd act (immArg f.imm) }

/-- A VI compare. -/
def viRel (h : Hdr) (f : VI) (op : W32 → W32 → Bool) (s : State) : State :=
  s.issueWord h (f.uses true false) fun act s =>
    let a := s.src.varg f.va
    { s := s.putP f.pd act (lanesRel op a (immArg f.imm)) a.pois }

end Sys2Proof.Machine
end

