-- ==== Sys2Proof/Machine/Sync.lean ====
section
/-! DEFINITION. Scopes, releases and acquires (R165 to R172), counters and their waits (R173, R410). -/

namespace Sys2Proof.Machine
namespace State

/-! ### Releases and acquires -/

/-- R165: cohort, device and system scope. -/
def wideScope (scp : Nat) : Bool := 3 ≤ scp
/-- R165: team scope or wider. -/
def teamScope (scp : Nat) : Bool := 2 ≤ scp

/-- The cores that hold a resident or moving team of a grid, or one that is still being saved, other than team `t`. -/
def coresOfGrid (s : State) (g t : Nat) : List Nat :=
  distinct ((s.teams.filter fun e =>
    e.1 / 1048576 == g && e.1 % 1048576 != t &&
      (e.2.st == .resident || e.2.st == .moving || e.2.st == .saving)).map fun e =>
      coreKey e.2.cl e.2.co)

/-- R171: promotion: every core with another team of the grid writes back every dirty sector. -/
def promote (s : State) (g t : Nat) : State := (s.coresOfGrid g t).foldl wbCore s

/-- R171: the promotion that an acquire with `.rmt` makes before it is performed. -/
def promoteFor (s : State) (gk : Nat) (rmt : Bool) : State :=
  if rmt then s.promote (grpKeyGrid gk) (grpKeyTeam gk) else s

/-- R139, R169: what an acquire by a group does to its core's L1 when its read is performed. -/
def acquireEnds (s : State) (gk scp : Nat) : State := if wideScope scp then s.invalClean (s.coreOfGrp gk) else s

/-- R139, R169: what an acquire by a group that is performed at once does to caches. -/
def acquireBy (s : State) (gk scp : Nat) (rmt : Bool) : State := (s.promoteFor gk rmt).acquireEnds gk scp

/-- R139: what a release by a group does to caches. -/
def releaseBy (s : State) (gk scp : Nat) : State := if wideScope scp then s.wbCore (s.coreOfGrp gk) else s

/-- R157: has the team of a group entries in its core's side log. -/
def teamLogged (s : State) (gk : Nat) : Bool :=
  (s.core (s.coreOfGrp gk)).sideLog.any fun e => teamKey e.g e.t == gk / 32

/-- Is the flight a load, store or atomic of a group that is not yet performed. -/
def isAccess (b : Body) : Bool :=
  match b with
  | .remLoad .. | .remStore .. | .remRmw .. | .rmw .. | .ctrRead .. => true
  | _ => false

/-- R169: are accesses of a group still to be performed: in flight, or in the float-atomic buffer. -/
def accessesOut (s : State) (gk : Nat) : Bool :=
  (s.flights.any fun f => isAccess f.body && grpKey f.g f.t f.grp == gk) ||
    (s.core (s.coreOfGrp gk)).fbuf.any fun e => grpKey e.g e.t e.grp == gk

/-- R169: an acquire of a group is still to be performed, so that no later access of it may be. -/
def acquireOut (s : State) (gk : Nat) : Bool :=
  s.flights.any fun f => f.acq.isSome && grpKey f.g f.t f.grp == gk

/-! ### Counters -/

/-- R410, R138: the value of a counter as the counter-wait unit reads it, and is the location reached. A read beyond an
allocation, or of a team that is not there, is dropped and gives zero; a message held by the TLT (R150) gives none. -/
def counterValue (s : State) (p : Nat) (l : Loc) : Option W64 :=
  match l with
  | .glob va =>
    match s.walkFor p va false with
    | some (pa, mt) => some (w64 (leNat (if mt == 1 then s.hostRead pa 8 else s.devRead pa 8)))
    | none => none
  | .spad g t off =>
    match spReduce (s.grid g).alloc off with
    | none => some 0
    | some o =>
      match (s.team (teamKey g t)).st with
      | .resident | .saved => some (w64 (leNat (s.spadRead g t o 8)))
      | .pending | .exited => some 0
      | _ => none

/-- R137: does a counter lie on an absent line of a resident team's scratchpad. A remote access waits at the bank until the line
is present. R137 names loads, stores and atomics of the own team: that the counter-wait unit's read of an own counter waits at
the bank too, with the group parked for the counter, is the model's choice (log 49, DESIGN CHOICE). -/
def counterAbsent (s : State) (l : Loc) : Bool :=
  match l with
  | .glob _ => false
  | .spad g t off =>
    (s.team (teamKey g t)).st == .resident && match spReduce (s.grid g).alloc off with
      | some o => !linePresent (s.team (teamKey g t)) (o / 128)
      | none => false

/-- R262: is a counter's word poisoned. -/
def counterPois (s : State) (p : Nat) (l : Loc) : Bool :=
  match l with
  | .glob va => match s.walkFor p va false with
    | some (pa, mt) => mt != 1 && s.devPois pa 8
    | none => false
  | .spad g t off => match spReduce (s.grid g).alloc off with
    | some o => s.spadReadPois g t o 8
    | none => false

/-- R134, R138: is a counter read dropped, and by which count. -/
def counterDrop (s : State) (l : Loc) : Option Nat :=
  match l with
  | .glob _ => none
  | .spad g t off =>
    match (s.team (teamKey g t)).st with
    | .pending | .exited => some 0x110
    | _ => if (spReduce (s.grid g).alloc off).isNone then some 0x100 else none

/-- Does an operation in flight go to a team's scratchpad by its rank. -/
def toRank (t : Nat) : Body → Bool
  | .remLoad u .. => u == t
  | .remStore u .. => u == t
  | .remRmw u .. => u == t
  | _ => false

/-- R168: has a group an access on its way to the team whose scratchpad holds a counter. -/
def rankHeld (s : State) (gk : Nat) (l : Loc) : Bool :=
  match l with
  | .glob _ => false
  | .spad _ t _ => s.flights.any fun f => toRank t f.body && grpKey f.g f.t f.grp == gk

/-- R139: the sector of the group's own L1 that holds a counter, brought into step before the counter is read. -/
def counterStep (s : State) (gk : Nat) (l : Loc) : State :=
  match l with
  | .glob va =>
    match s.walkFor (s.grid (grpKeyGrid gk)).part va false with
    | some (pa, mt) => if mt == 1 then s else s.dropRange (s.coreOfGrp gk) pa 8
    | none => s
  | _ => s

/-- R410: must the read of a group's counter wait: its team is not on a core, R168: accesses of the group to the same rank come
first, or R137: the line is absent. -/
def counterHeld (s : State) (gk : Nat) (l : Loc) : Bool :=
  (s.team (gk / 32)).st != .resident || s.rankHeld gk l || s.counterAbsent l

/-- R410: a parked group's counter read, its own L1's sector brought into step first (R139); at the awaited value its acquire
is performed and it wakes. R171: with `.rmt`, what that read sees has been promoted first. -/
def recheck (s : State) (gk : Nat) : State :=
  match (s.group gk).park with
  | some (.counter l want scp rmt) =>
    if s.counterHeld gk l then s
    else
      let y := s.counterStep gk l
      let x := y.promoteFor gk rmt
      match x.counterValue (x.grid (grpKeyGrid gk)).part l with
      | some w =>
        if want.toNat ≤ w.toNat then
          -- R261: the test that ends the wait counts when it is decided on a poisoned counter
          let x := if x.counterPois (x.grid (grpKeyGrid gk)).part l then x.count (x.coreOfGrp gk / 6) 0x3A0 1 else x
          (x.acquireEnds gk scp).wake gk
        else y
      | none => y
  | _ => s

/-- R134, R138: where a dropped counter read is counted: at the group's cluster, or at the home of the rank's cohort. -/
def dropCl (s : State) (gk : Nat) (l : Loc) : Nat :=
  match l with
  | .glob _ => s.coreOfGrp gk / 6
  | .spad g t _ => if t < (s.grid g).nteams then s.homeCl g t else s.coreOfGrp gk / 6

/-- R410: a parked group's counter read at the park, or after a move or restore of the group; a dropped read is
counted. -/
def readCounter (s : State) (gk : Nat) : State :=
  match (s.group gk).park with
  | some (.counter l ..) =>
    if s.counterHeld gk l then s
    else
      (match s.counterDrop l with
        | some off => s.count (s.dropCl gk l) off 1
        | none => s).recheck gk
  | _ => s

/-- R410: when a team is placed or restored, the counters in its scratchpad that groups of other teams wait for are read again, and
a read that is dropped is counted. -/
def recheckTeam (s : State) (tk : Nat) : State :=
  s.allSlotGroups.foldl (fun s gk => match (s.group gk).park with
    | some (.counter (.spad g t _) ..) => if teamKey g t == tk && gk / 32 != tk then s.readCounter gk else s
    | _ => s) s

/-- R173: counters that groups wait for are read again. -/
def recheckAll (s : State) : State := s.allSlotGroups.foldl recheck s

/-- R169: a counter add by the device itself, at a virtual address of a partition, with release. -/
def deviceAdd (s : State) (p va : Nat) (n : W64) : State := (s.vaAdd p va n).recheckAll

/-- R282: the team that last added to a counter. -/
def noteAdder (s : State) (g t : Nat) (l : Loc) : State :=
  let code := match l with
    | .glob va => va
    | .spad _ u off => pow2 63 + u * pow2 40 + off
  s.modGrid g fun r => { r with lastAdd := r.lastAdd.put code t }

/-! ### The leaked-write log -/

/-- R267: the bits of an entry. -/
def leakEntry (gen : BitVec 32) (dev len kind addr : Nat) : List Byte :=
  leBytes 16 (addr % pow2 57 + kind * pow2 60 + len * pow2 64 + dev * pow2 84 + gen.toNat * pow2 96)

/-- R267: a write of a grid with a recovery point that may be visible outside the device: the last entry is extended, or
a new one is written while the log has room. -/
def logLeak (s : State) (g kind addr len dev : Nat) : State :=
  let r := s.grid g
  if r.reca.isNone || r.ovfl then s
  else
    let at_ := fun i => r.loga + 16 * i
    let last := leNat (s.vaRead r.part (at_ (r.nlog - 1)) 16)
    let n := bitsOf last 83 64
    if r.nlog != 0 && bitsOf last 127 96 == r.gen.toNat && bitsOf last 95 84 == dev && bitsOf last 63 60 == kind &&
        bitsOf last 56 0 + n == addr % pow2 57 && n + len ≤ 1048575 then
      s.vaWrite r.part (at_ (r.nlog - 1)) (leakEntry r.gen dev (n + len) kind (bitsOf last 56 0))
    else if r.nlog < pow2 r.log2n then
      (s.vaWrite r.part (at_ r.nlog) (leakEntry r.gen dev len kind addr)).modGrid g fun r => { r with nlog := r.nlog + 1 }
    else s.modGrid g fun r => { r with ovfl := true }

/-- R267: a counter add by a unit for a grid: one to host memory is logged. -/
def gridAdd (s : State) (g p va : Nat) (n : W64) : State :=
  let s := s.deviceAdd p va n
  match s.walkFor p va true with
  | some (_, 1) => s.logLeak g 0 va 8 0
  | _ => s

end State
end Sys2Proof.Machine
end

