-- ==== Sys2Proof/Machine/Teams.lean ====
section
/-! DEFINITION. Teams on cores: register rows and the baton (R114, R116), exit (R99, R351), start (R62, R74), save, restore
and discard (R88, R479), and the save image (R283, R480). -/

namespace Sys2Proof.Machine
namespace State

/-! ### Rows, slots and pools -/

/-- R55, R64: bytes of a quadrant's quarter of the register file, of the accumulator store and of the scratchpad. -/
def rfQuarter (w : BitVec 16) : Nat := 65536 * (w.extractLsb' 12 4).toNat
def accShare (w : BitVec 16) : Nat := 262144 * (w.extractLsb' 9 3).toNat
def spadShare (w : BitVec 16) : Nat := 4194304 - 4 * rfQuarter w - accShare w

/-- R98: bytes of the rows that the groups of a quadrant hold. -/
def rowsUsed (s : State) (qk : Nat) : Nat := ((s.quad qk).slots.map fun e => 512 * (s.group e.2).budget).foldl (· + ·) 0

/-- R114: bytes of rows that are free in a quadrant. -/
def rowsFree (s : State) (qk : Nat) : Nat :=
  match (s.core (qk / 4)).pword with
  | some w => rfQuarter w - s.rowsUsed qk
  | none => 0

/-- R115: the order of seniority: the grid's acceptance, then team, then group. -/
def senior (s : State) (a b : Nat) : Bool :=
  let oa := (s.grid (grpKeyGrid a)).order
  let ob := (s.grid (grpKeyGrid b)).order
  oa < ob || (oa == ob && a < b)

/-- The senior-most of some groups. -/
def seniorMost (s : State) : List Nat → Option Nat
  | [] => none
  | a :: l =>
    match s.seniorMost l with
    | none => some a
    | some b => if s.senior b a then some b else some a

/-- The groups of a quadrant that wait for rows. -/
def rowWaiters (s : State) (qk : Nat) : List Nat :=
  ((s.quad qk).slots.map Prod.snd).filter fun gk =>
    (s.team (gk / 32)).st == .resident && match (s.group gk).park with
      | some (.reggrow _ _) => true
      | _ => false

/-- R114, R426: free rows go to the senior-most waiter, in full; then to the next. -/
def grantRows (s : State) (qk : Nat) : Nat → State
  | 0 => s
  | fuel + 1 =>
    match s.seniorMost (s.rowWaiters qk) with
    | none => s
    | some gk =>
      match (s.group gk).park with
      | some (.reggrow n sd) =>
        if 512 * (n - (s.group gk).budget) ≤ s.rowsFree qk then
          let s := s.modGroup gk fun x => { x with budget := n, regs := x.regs.sset sd 0 0 }
          (s.wake gk).grantRows qk fuel
        else s
      | _ => s

/-- Is a team of the core resident, moving, being saved or being restored. -/
def coreTeams (s : State) (k : Nat) : List Nat :=
  (s.teams.filter fun e => coreKey e.2.cl e.2.co == k && (e.2.st == .resident || e.2.st == .moving ||
    e.2.st == .saving || e.2.st == .restoring)).map Prod.fst

/-- R118: has a core no word in its engines' queues and no tile job. -/
def enginesIdle (c : Core) : Bool := c.engq.isEmpty && c.nzsq.isEmpty && c.tts.isEmpty

/-- R63, R118: a core without teams has no partition word; it is in frost once its engines have ended what exited teams left
them. -/
def settleCore (s : State) (k : Nat) : State :=
  if (s.coreTeams k).isEmpty then
    s.modCore k fun c => { c with pword := none, frost := c.frost || enginesIdle c, woken := false }
  else s

/-! ### The baton -/

/-- R116: a free baton: parked requests in order; matrix words go on, and the first `batget` holds the baton. -/
def passBaton (s : State) (k : Nat) : Nat → State
  | 0 => s
  | fuel + 1 =>
    if (s.core k).baton.isSome then s
    else
      match (s.core k).batonWait with
      | [] => s
      | gk :: rest =>
        let s := s.modCore k fun c => { c with batonWait := rest }
        match (s.group gk).park with
        | some (.baton true) =>
          ((s.modCore k fun c => { c with baton := some gk }).modGroup gk fun x => { x with batonDue := false }).wake gk
        | some (.baton false) => (s.wake gk).passBaton k fuel
        | _ =>
          -- R116: parked for another reason since its team came back
          if (s.group gk).batonDue then
            (s.modCore k fun c => { c with baton := some gk }).modGroup gk fun x => { x with batonDue := false }
          else s.passBaton k fuel

/-- R116: the baton of a core freed by a group, and its request withdrawn. -/
def dropBaton (s : State) (k gk : Nat) : State :=
  let s := s.modCore k fun c => { c with batonWait := c.batonWait.filter fun x => x != gk }
  if (s.core k).baton == some gk then (s.modCore k fun c => { c with baton := none }).passBaton k 200 else s

/-! ### Leaving a core -/

/-- A group gives up its slot, rows and baton. -/
def leaveSlot (s : State) (k gk : Nat) : State :=
  let x := s.group gk
  let qk := 4 * k + x.quad
  let s := s.modQuad qk fun q =>
    { q with slots := q.slots.filter fun e => e.2 != gk
             run := q.run.bind fun r => if r.grp == gk then none else some r }
  (s.dropBaton k gk).grantRows qk 24

/-- The groups of a team. -/
def groupsOf (s : State) (tk : Nat) : List Nat :=
  (List.range (s.grid (tk / 1048576)).ngroups).map fun n => tk * 32 + n

/-- R116: the groups of a team give up their slots, rows and baton, all its requests for the baton withdrawn first, so that a
freed baton goes to another team and a group of this one stays parked for it. -/
def leaveSlots (s : State) (k tk : Nat) : State :=
  (s.groupsOf tk).foldl (fun s gk => s.leaveSlot k gk)
    (s.modCore k fun c => { c with batonWait := c.batonWait.filter fun x => x / 32 != tk })

/-- R283: lane records that one lane takes. -/
def recsPerLane (op sz : Nat) : Nat := if op == 10 && sz == 4 then 2 else 1

/-- R156, R283: has the core's side log room. -/
def logRoom (s : State) (k entries recs : Nat) : Bool :=
  let l := (s.core k).sideLog
  l.length + entries ≤ 64 &&
    (l.map fun e => e.recs.length * recsPerLane e.op e.sz).foldl (· + ·) 0 + recs ≤ 1024

/-- R165, R171: a team leaves its core: slots, rows and baton are freed and the core's dirty sectors written back. -/
def leaveCore (s : State) (tk : Nat) : State :=
  let x := s.team tk
  let k := coreKey x.cl x.co
  ((s.leaveSlots k tk).wbCore k).modCore k fun c =>
    { c with doneJobs := c.doneJobs.filter fun j => j.grpKey / 32 != tk }

/-- R85: a named team of the partition's request has reached its result. -/
def pmReached (s : State) (tk : Nat) : State :=
  let p := (s.grid (tk / 1048576)).part
  let x := s.page p
  if x.pmLeft.contains tk then
    let left := x.pmLeft.filter fun t => t != tk
    let s := s.modPage p fun y => { y with pmLeft := left }
    if left.isEmpty then
      (s.modPage p fun y => { y with pmDone := true, pmBusy := false }).send (.hart (s.trapHartOf p))
    else s
  else s

/-- R85: a team of the request is off its core; it is late after its deadline. -/
def pmLate (s : State) (tk : Nat) : State :=
  let x := s.team tk
  match x.drainAt with
  | some d =>
    if d < (s.cluster x.cl).elapsed then
      s.modPage (s.grid (tk / 1048576)).part fun y => { y with nlate := Nat.min 255 (y.nlate + 1) }
    else s
  | none => s

/-- R85: the count of a team's result. -/
def pmCount (s : State) (tk : Nat) (f : Page → Page) : State := s.modPage (s.grid (tk / 1048576)).part f

/-! ### Exit -/

/-- R277: a group's signature goes to the signature buffer. -/
def writeSig (s : State) (gk : Nat) : State :=
  let r := s.grid (grpKeyGrid gk)
  if r.sigbuf == 0 then s
  else s.vaWrite r.part (r.sigbuf + 8 * (24 * grpKeyTeam gk + grpKeyIdx gk)) (leBytes 8 (s.group gk).sig.toNat)

/-- R451: have the tile jobs of a team all ended. -/
def jobsOver (s : State) (tk : Nat) : Bool :=
  let x := s.team tk
  !(s.core (coreKey x.cl x.co)).tts.any fun j => teamKey j.g j.t == tk

/-- R99, R129: a team whose groups have all exited has exited; the pages of a save that had begun are unpinned (R479). Its
tiles and scratchpad last until its tile jobs, which read them, have ended (R451). -/
def teamExit (s : State) (tk : Nat) : State :=
  if (s.groupsOf tk).all fun gk => (s.group gk).gone then
    let x := s.team tk
    let s := (s.leaveCore tk).unpin (physPages x.pinned)
    let done := s.jobsOver tk
    let s := s.modTeam tk fun y => { y with st := .exited, pinned := [], choice := none, used := [], landing := []
                                            spad := if done then [] else y.spad
                                            spadPois := if done then [] else y.spadPois
                                            tiles := if done then [] else y.tiles
                                            tilePois := if done then [] else y.tilePois }
    let s := s.settleCore (coreKey x.cl x.co)
    match x.cause with
    | some .drain =>
      ((s.pmCount tk fun y => { y with ndrain := Nat.min 65535 (y.ndrain + 1) }).pmLate tk).pmReached tk
    | _ => (s.pmLate tk).pmReached tk
  else s

/-- R99, R351: a group all of whose lanes have exited: its results due are discarded, its signature is written, its
slot, rows and baton are freed, and with the last group the team exits. -/
def groupExit (s : State) (gk : Nat) : State :=
  if (s.group gk).gone then
    let k := s.coreOfGrp gk
    let s := s.modGroup gk fun x => { x with due := [], park := none, stepPend := none }
    ((s.writeSig gk).leaveSlot k gk).teamExit (gk / 32)
  else s

/-! ### Start -/

/-- R62: the quadrant with the most free slots; the lowest number wins a tie. -/
def startQuad (s : State) (k : Nat) : Nat :=
  let n := fun d => (s.quad (4 * k + d)).slots.length
  (List.range 4).foldl (fun b d => if n d < n b then d else b) 0

/-- The lowest free slot of a quadrant. -/
def freeSlot (s : State) (qk : Nat) : Nat :=
  ((List.range 24).find? fun n => ((s.quad qk).slots.find n).isNone).getD 0

/-- A group takes a slot of its quadrant. -/
def takeSlot (s : State) (k d gk : Nat) : State :=
  let n := s.freeSlot (4 * k + d)
  (s.modQuad (4 * k + d) fun q => { q with slots := q.slots.put n gk }).modGroup gk fun x => { x with quad := d, slot := n }

/-- R74: a group at its start. -/
def freshGroup (r : Grid) (n : Nat) (dbg : Option (BitVec 3)) : Group :=
  let b := dbg.getD 0
  { regs := { s := if r.args == 0 then [] else [(1, w64 r.args)] }
    pcs := [(r.entry, Mask.full)]
    budget := r.budget n
    step := b.getLsbD 0, sla := b.getLsbD 1, srun := b.getLsbD 2 }

/-- R62, R63, R74, R133: a team placed on a core. -/
def placeTeam (s : State) (g t cl co : Nat) : State :=
  let tk := teamKey g t
  let r := s.grid g
  let k := coreKey cl co
  let old := s.team tk
  let new : Team :=
    { st := .resident, placed := true, cl := cl, co := co, placing := true, gen := old.gen, deliveries := old.deliveries }
  let s := { s with teams := s.teams.put tk new }
  let s := (s.modCore k fun c => { c with pword := some r.pword }).rouse k
  let b := s.startQuad k
  let s := (List.range r.ngroups).foldl (fun s n =>
    let gk := grpKey g t n
    let dbg := (s.page r.part).dbgPend.find gk
    let s := s.modPage r.part fun y => { y with dbgPend := y.dbgPend.erase gk }
    let was := s.group gk
    let new := { freshGroup r n (dbg.map fun (x : BitVec 4) => BitVec.setWidth 3 x) with
      excluded := was.excluded, forced := was.forced }
    let s := { s with groups := s.groups.put gk new }
    s.takeSlot k ((b + n) % 4) gk) s
  s

/-! ### The save image -/

/-- Bytes at an offset, as a sparse map. -/
def sparse (off : Nat) : List Byte → SMap Byte
  | [] => []
  | b :: l => if b == 0 then sparse (off + 1) l else (off, b) :: sparse (off + 1) l

/-- The entries of a sparse map in [lo, lo + n), from 0. -/
def cutMap (m : SMap Byte) (lo n : Nat) : SMap Byte :=
  (m.filter fun e => lo ≤ e.1 && e.1 < lo + n).map fun e => (e.1 - lo, e.2)

/-- A range of a sparse map replaced by the bytes of another, numbered from 0. -/
def pasteMap (m : SMap Byte) (lo n : Nat) (x : SMap Byte) : SMap Byte :=
  (m.filter fun e => e.1 < lo) ++
    ((List.range n).filterMap fun i => if Memory.byte x i = Memory.fresh then none else some (lo + i, Memory.byte x i)) ++
    m.filter fun e => lo + n ≤ e.1

/-- R283: PARK as ctl.gstat codes it (R361). -/
def parkCode (x : Group) : Nat :=
  match x.park with
  | none => if x.halted then 11 else 0
  | some w =>
    match w with
    | .counter .. => 1
    | .queue .. => 2
    | .line _ => 3
    | .reggrow .. => 4
    | .baton _ => 5
    | .task _ => 6
    | .carafe _ => 7
    | .sideLog .. => 8
    | .trap => 9
    | .token _ => 10
    | .tileWait _ => 10
    | .coll .. => 10
    | .halt => 11
    | .yield _ => 0

/-- R282: a counter's location, coded. -/
def locCode : Loc → Nat
  | .glob va => va
  | .spad _ t off => pow2 63 + t * pow2 40 + off % pow2 32

/-- R283: a lane PC as the group record and ctl.pcL hold it. -/
def lanePc (x : Group) (l : Nat) : Nat :=
  let t := x.pcOf l
  t % pow2 57 + pow2 61 * bit (pow2 57 ≤ t) + pow2 62 * bit (x.held.getLsbD l) + pow2 63 * bit (x.exited.getLsbD l)

/-- R283: a group record, 2 KiB. -/
def groupRecord (x : Group) : List Byte :=
  let reg := match x.park with
    | some (.counter l v ..) => leBytes 8 (locCode l) ++ leBytes 8 v.toNat
    | _ => leBytes 16 0
  let claim := match x.park with
    | some (.queue q pop i _ _) => leBytes 8 i ++ leBytes 2 q ++ leBytes 6 (1 + 2 * bit pop)
    | _ => leBytes 16 0
  let pend := (match x.dbgPend with | some b => 8 + b.toNat | none => 0) + 256 * (ceilDiv x.runendLeft 40 % 256) +
    65536 * bit x.stepPend.isSome
  ((List.range 64).flatMap fun n => leBytes 8 (x.regs.sget n).toNat) ++
  ((List.range 128).flatMap fun l => leBytes 8 (lanePc x l)) ++
  ((List.range 15).flatMap fun n => leBytes 16 (x.regs.pget (n + 1)).toNat) ++
  leBytes 8 x.sig.toNat ++ leBytes 1 x.regs.q.toNat ++ leBytes 1 (parkCode x) ++
  leBytes 1 (bit x.step + 2 * bit x.sla + 4 * bit x.srun + 8 * bit x.halted + 16 * bit x.excluded) ++
  leBytes 1 (x.budget / 8) ++ leBytes 4 0 ++
  ((List.range 8).flatMap fun k => leBytes 1 (x.kc k)) ++
  leBytes 2 ((List.range 8).foldl (fun n k => n + pow2 (2 * k) * x.ks k) 0) ++ leBytes 6 0 ++
  reg ++ claim ++ leBytes 8 pend

/-- R480: the control block of a team. -/
def teamBlock (s : State) (tk : Nat) : List Byte :=
  let g := tk / 1048576
  let t := tk % 1048576
  let r := s.grid g
  let x := s.team tk
  let k := coreKey x.cl x.co
  let held := bit x.held + 2 * bit x.taskUser + 4 * bit (r.det && r.token == t) +
    (match x.batonSaved with | some n => 8 + 16 * n | none => 0) + 65536 * x.gen.toNat
  let all := (s.cluster x.cl).sfa.queue
  let sfa := (all.filter fun c => c.g == g && c.t == t).take 16
  let paused := fun (c : SfaCmd) => c.op == 3 && all.head? == some c
  let ent := fun (c : SfaCmd) =>
    leBytes 8 (c.grp + 32 * c.tk.getD 0 + 256 * (c.op % 16) + 32768 + 65536 * bit (paused c))
  let cfg := leBytes 8 0
  let jobs := ((s.core k).tts.filter fun j => j.g == g && j.t == t).take 32
  let job := fun (j : TileJob) => leBytes 8 (j.addr + pow2 63) ++ leBytes 2 j.i ++ leBytes 2 j.j ++ leBytes 2 j.c ++
    leBytes 1 j.phase ++ leBytes 1 (j.grp + 32 * j.tk) ++ leBytes 16 0
  leBytes 8 (t + g * pow2 20) ++ leBytes 8 held ++ leBytes 8 x.progress.toNat ++ leBytes 8 x.elapsed.toNat ++
  leBytes 8 (r.alloc + r.acct * pow2 32) ++
  leBytes 8 (r.b0 + 256 * r.c0 + 65536 * r.b1 + 16777216 * r.c1 + r.g0 * pow2 32 + r.g1 * pow2 40) ++ leBytes 16 0 ++
  ((sfa.flatMap ent ++ leBytes 128 0).take 128) ++ cfg ++ leBytes 56 0 ++
  ((jobs.flatMap job ++ leBytes 1024 0).take 1024)

/-- R283: one byte for each scratchpad line. -/
def lineBytes (r : Grid) (x : Team) : List Byte :=
  (List.range (ceilDiv r.alloc 128)).map fun l =>
    let n := x.landing.get l 0
    BitVec.ofNat 8 (128 * bit (!x.used.get l false) + 64 * bit (n == 0) + n % 8)

/-- The lane records of a logged lane (R480): two for a 16-byte cas. -/
def laneRecords (e : LogEntry) (r : LogRec) : List (List Byte) :=
  let rec1 := fun (d : List Byte) => leBytes 8 r.addr ++ (d ++ leBytes 16 0).take 16
  if e.op == 10 then (if e.sz == 4 then [rec1 r.cmp, rec1 r.data] else [rec1 (r.cmp ++ r.data)]) else [rec1 r.data]

/-- R480: the headers and the lane records of a team's side-log entries. -/
def logBytes (es : List LogEntry) : List Byte × List Byte :=
  let st := es.foldl (fun (st : Nat × List Byte × List Byte) e =>
    let rs := e.recs.flatMap (laneRecords e)
    let hd := leBytes 8 (e.page * 65536 + st.1 + pow2 63) ++ leBytes 1 e.recs.length ++ leBytes 1 e.op ++ leBytes 1 e.sz ++
      leBytes 1 0 ++ leBytes 2 e.seq ++ leBytes 2 0
    (st.1 + rs.length, st.2.1 ++ hd, st.2.2 ++ rs.flatten)) (0, [], [])
  (st.2.1, st.2.2)

/-- R480: the float-atomic buffer entries of a team. -/
def floatBytes (es : List FloatEntry) : List Byte :=
  es.flatMap fun e => leBytes 8 (e.addr + e.op * pow2 57 + pow2 63) ++ leBytes 4 e.operand.toNat ++ leBytes 4 0

/-- R283: the shape records and the smoothing binding of a group, 512 bytes. -/
def shapeBytes (x : Group) : List Byte :=
  ((List.range 48).flatMap fun w => leBytes 8 (x.shp.get w 0).toNat) ++
  leBytes 8 (match x.smooth with | some o => o.toNat + pow2 32 | none => 0)

/-- R283: where the registers of group n begin. -/
def regsAt (r : Grid) (n : Nat) : Nat :=
  0x20000 + (if n < r.g0 then n * r.c0 * 4096 else r.g0 * r.c0 * 4096 + (n - r.g0) * r.c1 * 4096)

/-- The v registers of a group, as image bytes from an offset. -/
def regBytes (x : Group) (off : Nat) : SMap Byte :=
  x.regs.v.flatMap fun e => sparse (off + 512 * e.1) (e.2.flatMap fun w => leBytes 4 w.toNat)

/-- The tiles of a team, from an offset. -/
def tileBytes (x : Team) (off : Nat) : SMap Byte := x.tiles.flatMap fun e => sparse (off + 4 * e.1) (leBytes 4 e.2.toNat)

/-- R89: the footprint before rounding. -/
def footprint (r : Grid) : Nat := 0x20000 + imageRegs r + r.alloc + r.acct * 4096

/-- R283: a team's image, by offset. -/
def teamImage (s : State) (tk : Nat) : SMap Byte :=
  let g := tk / 1048576
  let t := tk % 1048576
  let r := s.grid g
  let x := s.team tk
  let k := coreKey x.cl x.co
  let ns := List.range r.ngroups
  let lg := logBytes ((s.core k).sideLog.filter fun e => e.g == g && e.t == t)
  let sp := 0x20000 + imageRegs r
  sparse 0 (s.teamBlock tk) ++
  (ns.flatMap fun n => sparse (0x1000 + 0x800 * n) (groupRecord (s.group (tk * 32 + n)))) ++
  sparse 0xD000 (lineBytes r x) ++ sparse 0x14000 lg.1 ++ sparse 0x14400 lg.2 ++
  sparse 0x1A400 (floatBytes ((s.core k).fbuf.filter fun e => e.g == g && e.t == t)) ++
  (ns.flatMap fun n => sparse (0x1B400 + 0x200 * n) (shapeBytes (s.group (tk * 32 + n)))) ++
  (ns.flatMap fun n => regBytes (s.group (tk * 32 + n)) (regsAt r n)) ++
  (x.spad.map fun e => (sp + e.1, e.2)) ++ tileBytes x (sp + r.alloc)

/-- R283: the sectors of the image that hold a poisoned word of the side log or of the float-atomic buffer. -/
def poisRecs (c : Core) (g t : Nat) : List Nat :=
  let recs := (c.sideLog.filter fun e => e.g == g && e.t == t).flatMap fun e =>
    e.recs.flatMap fun r => (laneRecords e r).map fun _ => r.pois
  let ents := c.fbuf.filter fun e => e.g == g && e.t == t
  ((List.range recs.length).filter fun i => recs.getD i false).flatMap (fun i =>
    let a := 0x14400 + 24 * i + 8
    [a / 32, (a + 15) / 32]) ++
  ((List.range ents.length).filter fun i => (ents.map FloatEntry.pois).getD i false).map fun i => (0x1A400 + 16 * i + 8) / 32

/-- R283: the sectors of the image that hold a poisoned word. -/
def imagePois (s : State) (tk : Nat) : List Nat :=
  let r := s.grid (tk / 1048576)
  let x := s.team tk
  let sp := 0x20000 + imageRegs r
  ((List.range r.ngroups).flatMap fun n =>
    let y := s.group (tk * 32 + n)
    (y.regs.vPois.flatMap fun e => e.2.lanes.map fun l => (regsAt r n + 512 * e.1 + 4 * l) / 32) ++
    (y.regs.sPois.map fun e => (0x1000 + 0x800 * n + 8 * e.1) / 32) ++
    y.shpPois.map fun e => (0x1B400 + 0x200 * n + 8 * e.1) / 32) ++
  poisRecs (s.core (coreKey x.cl x.co)) (tk / 1048576) (tk % 1048576) ++
  (x.spadPois.map fun e => (sp + 4 * e.1) / 32) ++ x.tilePois.map fun e => (sp + r.alloc + 4 * e.1) / 32

/-- R479: n bytes from a page's start, in pinned pages, replaced by sparse bytes, page by page; `pois` are poisoned sectors of
the range. -/
def putRange (s : State) (pins : Pinned) (va n : Nat) (m : SMap Byte) (pois : List Nat) : State :=
  (List.range (ceilDiv n 65536)).foldl (fun s i =>
    let len := Nat.min 65536 (n - 65536 * i)
    let x := cutMap m (65536 * i) len
    match pinnedPlace pins (va + 65536 * i) with
    | some (.host pa _) => { s with hostMem := pasteMap s.hostMem pa len x }
    | some (.dev pa) =>
      let mine := (pois.filter fun k => 2048 * i ≤ k && k < 2048 * (i + 1)).map fun k => pa / 32 + (k - 2048 * i)
      { s with
        mem := pasteMap s.mem pa len x
        memPois := mine.foldl (fun q k => SMap.put q k true)
          (s.memPois.filter fun e => !(pa / 32 ≤ e.1 && e.1 < (pa + len) / 32)) }
    | _ => s) s

/-- R479: n bytes from a page's start, in pinned pages, as sparse bytes, with their poisoned sectors. -/
def getRange (s : State) (pins : Pinned) (va n : Nat) : SMap Byte × List Nat :=
  (List.range (ceilDiv n 65536)).foldl (fun x i =>
    let len := Nat.min 65536 (n - 65536 * i)
    match pinnedPlace pins (va + 65536 * i) with
    | some (.host pa _) => (x.1 ++ (cutMap s.hostMem pa len).map (fun e => (65536 * i + e.1, e.2)), x.2)
    | some (.dev pa) =>
      (x.1 ++ (cutMap s.mem pa len).map (fun e => (65536 * i + e.1, e.2)),
       x.2 ++ (s.memPois.filter fun e => pa / 32 ≤ e.1 && e.1 < (pa + len) / 32).map fun e => e.1 - pa / 32 + 2048 * i)
    | _ => x) ([], [])

/-! ### Save -/

/-- R479: the pages of a team's save footprint, translated, or the first page that fails. -/
def savePages (s : State) (tk : Nat) : Except Nat Pinned :=
  let r := s.grid (tk / 1048576)
  let va := imageBase r (tk % 1048576)
  (List.range (ceilDiv (footprint r) 65536)).foldl (fun x i =>
    match x with
    | .error e => .error e
    | .ok l =>
      match s.walkFor r.part (va + 65536 * i) true with
      | some (pa, mt) => .ok (l ++ [((va + 65536 * i) / 65536, pa / 65536, mt)])
      | none => .error (va + 65536 * i)) (.ok [])

/-- R479: a save begins, for a cause; the answer tells whether it did. Its pages are translated once, which sets A and D in
their leaves (R152), and stay pinned until the restore. When a page fails, an error event is posted and the
team stays resident. R86: a team that the request in progress names and another cause saves is held when saved; R85: it is
late after the deadline, counted from the request's arrival at the cluster. -/
def beginSave (s : State) (tk : Nat) (c : SaveCause) : State × Bool :=
  let y := s.page (s.grid (tk / 1048576)).part
  let other := y.pmLeft.contains tk && c != .preempt && c != .drain
  match s.savePages tk with
  | .error va => (s.errorEvent (tk / 1048576) 5 (w64 va) (tk % 1048576), false)
  | .ok pages =>
    let r := s.grid (tk / 1048576)
    if s.pltRoom (physPages pages) then
      (((s.vaTouch r.part (imageBase r (tk % 1048576)) (footprint r) true).pin (physPages pages)).modTeam tk fun x =>
        { x with st := .saving, cause := some c, pinned := pages, wanted := other
                 drainAt := if other then (y.pmAt.find x.cl).map (· + y.deadline.toNat) else x.drainAt }, true)
    else (s.count (s.team tk).cl 0x138 1, false)

/-- R414, R432: does an operation in flight belong to the claim for which its group is parked. -/
def claimParked (s : State) (f : Flight) : Bool :=
  match (s.group (grpKey f.g f.t f.grp)).park, f.body with
  | some (.queue q pop i _ _), .push q' i' _ _ => !pop && q == q' && i == i'
  | some (.queue q pop i _ _), .pop q' i' _ _ _ _ => pop && q == q' && i == i'
  | _, _ => false

/-- R107: does a group await a result, other than the status of the claim it is parked for (R432). -/
def awaits (s : State) (gk : Nat) : Bool :=
  (s.group gk).due.any fun d => !s.flights.any fun f => (match f.body with
    | .pop _ _ _ _ _ due => due == d.id
    | _ => false) && s.claimParked f

/-- R88, R464: has a team stopped: no run of its groups, no result due, no word of it in the engine queue or the scan
queue, no task command past its boundary. -/
def stopped (s : State) (tk : Nat) : Bool :=
  let x := s.team tk
  let k := coreKey x.cl x.co
  let mine := fun (g t : Nat) => teamKey g t == tk
  ((List.range 4).all fun d => match (s.quad (4 * k + d)).run with
    | some r => r.grp / 32 != tk
    | none => true) &&
  ((s.groupsOf tk).all fun gk => !s.awaits gk) &&
  ((s.core k).engq.all fun w => !mine w.g w.t) && (s.core k).nzsq.all fun w => !mine w.g w.t

/-- What of a saved group stays outside the image: the particulars of its park, with the status due of a claim that it is
parked for, and of a pending step trap. -/
def shelved (x : Group) : Group :=
  { park := x.park, stepPend := x.stepPend, strictPend := x.strictPend, bkptPass := x.bkptPass,
    trapCause := x.trapCause, forced := x.forced, exited := x.exited, halted := x.halted, due := x.due }

/-- R88, R129, R480: the image is complete: the team leaves its core and is saved; it is held after a pre-emption. -/
def completeSave (s : State) (tk : Nat) : State :=
  let g := tk / 1048576
  let t := tk % 1048576
  let r := s.grid g
  let x := s.team tk
  let k := coreKey x.cl x.co
  -- R116: the holder, or the group that held the baton at an earlier save and has not been granted it since
  let bat := (((s.core k).baton.filter fun gk => gk / 32 == tk).or
    ((s.groupsOf tk).find? fun gk => (s.group gk).batonDue)).map (· % 32)
  let held := x.held || x.wanted || x.cause == some .preempt || x.cause == some .drain
  let ofTeam := fun (a b : Nat) => a == g && b == t
  let logs := (s.core k).sideLog.filter fun e => ofTeam e.g e.t
  let floats := (s.core k).fbuf.filter fun e => ofTeam e.g e.t
  let s := s.modTeam tk fun y =>
    { y with batonSaved := bat, held := held, choice := none
             savedLog := logs, savedFloat := floats }
  let s := s.putRange x.pinned (imageBase r t) (footprint r) (s.teamImage tk) (s.imagePois tk)
  let jobs := (s.core k).tts.filter fun j => j.g == g && j.t == t
  let ended := (s.core k).doneJobs.filter fun j => j.grpKey / 32 == tk
  let s := s.modCore k fun c =>
    { c with sideLog := c.sideLog.filter fun e => !(e.g == g && e.t == t)
             fbuf := c.fbuf.filter fun e => !(e.g == g && e.t == t)
             tts := c.tts.filter fun j => !(j.g == g && j.t == t) }
  let s := s.leaveSlots k tk
  let s := (s.groupsOf tk).foldl (fun s gk => s.modGroup gk shelved) s
  let s := (s.wbCore k).modCore k fun c => { c with doneJobs := c.doneJobs.filter fun j => j.grpKey / 32 != tk }
  let s := s.modTeam tk fun y => { y with st := .saved, spad := [], spadPois := [], used := [], landing := [],
                                          tiles := [], tilePois := [], jobs := jobs, savedDone := ended }
  -- R150, R173: the counter reads that the save held are performed
  let s := (s.settleCore k).recheckAll
  match x.cause with
  | some .preempt =>
    ((s.pmCount tk fun y => { y with nsave := Nat.min 65535 (y.nsave + 1) }).pmLate tk).pmReached tk
  | some .drain =>
    ((s.pmCount tk fun y => { y with ndrain := Nat.min 65535 (y.ndrain + 1), nlate := Nat.min 255 (y.nlate + 1) })).pmReached tk
  | _ => if x.wanted then (s.pmLate tk).pmReached tk else s

/-! ### Range tasks -/

/-- R78: a group's running task. -/
def ownTask (s : State) (gk : Nat) : Option Task :=
  (s.cluster (s.coreOfGrp gk / 6)).tasks.find? fun t => t.owner == gk && t.cur < t.hi

/-- R429: the result of `tskget`, written. -/
def putTask (s : State) (gk sd lo hi entry : Nat) : State :=
  s.modGroup gk fun x => { x with regs := (x.regs.sset sd (w64 (lo + hi * pow2 32)) 0).sset (sd + 1) (w64 entry) 0 }

/-- R79: has the grid a running task in some cluster. -/
def gridTasks (s : State) (g : Nat) : Bool := s.clusters.any fun c => c.2.tasks.any fun t => t.g == g && t.cur < t.hi

/-- R79: the end of the grid's last running task: its parked groups get the empty interval. -/
def tasksEnd (s : State) (g : Nat) : State :=
  if s.gridTasks g then s
  else
    let s := s.modGrid g fun r => { r with tasksOver := true }
    s.allSlotGroups.foldl (fun s gk =>
      if grpKeyGrid gk == g && (s.team (gk / 32)).st == .resident then
        match (s.group gk).park with
        | some (.task sd) => (s.putTask gk sd 0 0 0).wake gk
        | _ => s
      else s) s

/-- R78: the next chunk of a group's task; with its last chunk the task leaves the splitter. -/
def nextChunk (s : State) (gk sd : Nat) (t : Task) : State :=
  let e := Nat.min (t.cur + t.chunk) t.hi
  let s := s.putTask gk sd t.cur e t.entry
  let s := s.modCluster (s.coreOfGrp gk / 6) fun c =>
    { c with tasks := (c.tasks.map fun x => if x == t then { x with cur := e } else x).filter fun x => x.cur < x.hi }
  s.tasksEnd t.g

/-- R429: the fetch form: a chunk, the empty interval, or none when the group is to park. -/
def fetchTask (s : State) (gk sd : Nat) : Option State :=
  match s.ownTask gk with
  | some t => some (s.nextChunk gk sd t)
  | none =>
    let r := s.grid (grpKeyGrid gk)
    if r.det || r.tasksOver then some (s.putTask gk sd 0 0 0) else none

/-! ### Restore -/

/-- The sparse bytes of the image at an offset, as a number of n bytes. -/
def imgNat (m : SMap Byte) (off n : Nat) : Nat := leNat (Memory.bytes m off n)

/-- R283: a group read back from its record and shape record; what stayed outside the image is kept. -/
def groupFrom (old : Group) (m : SMap Byte) (pois : List Nat) (r : Grid) (n : Nat) : Group :=
  let a := 0x1000 + 0x800 * n
  let lane := fun l => imgNat m (a + 0x200 + 8 * l) 8
  let code := imgNat m (a + 0x6F9) 1
  let flags := imgNat m (a + 0x6FA) 1
  let pend := imgNat m (a + 0x730) 8
  let budget := 8 * imgNat m (a + 0x6FB) 1
  let v := (List.range budget).foldl (fun (acc : SMap (List W32)) i =>
    let c := cutMap m (regsAt r n + 512 * i) 512
    if c.isEmpty then acc else acc ++ [(i, (List.range 128).map fun l => w32 (imgNat c (4 * l) 4))]) []
  let vp := (List.range budget).foldl (fun (acc : SMap Mask) i =>
    let base := (regsAt r n + 512 * i) / 32
    let mk := maskOf fun l => pois.contains (base + l / 8)
    if mk == 0 then acc else acc ++ [(i, mk)]) []
  let sv := (List.range 64).foldl (fun (acc : SMap W64) i =>
    let x := imgNat m (a + 8 * i) 8
    if x == 0 || i == 0 then acc else acc ++ [(i, w64 x)]) []
  let sp := (List.range 64).foldl (fun (acc : SMap (BitVec 2)) i =>
    if i != 0 && pois.contains ((a + 8 * i) / 32) then acc ++ [(i, 3)] else acc) []
  let pv := (List.range 15).foldl (fun (acc : SMap Mask) i =>
    let x := imgNat m (a + 0x600 + 16 * i) 16
    if x == 0 then acc else acc ++ [(i + 1, BitVec.ofNat 128 x)]) []
  let pcs := (List.range 128).foldl (fun (acc : SMap Mask) l =>
    let x := lane l
    let t := x % pow2 57 + pow2 57 * (x / pow2 61 % 2)
    SMap.put acc t (SMap.get acc t 0 ||| Mask.one l)) []
  let st := imgNat m (a + 0x708) 2
  let b := 0x1B400 + 0x200 * n
  let sm := imgNat m (b + 0x180) 8
  { old with
    regs := { v := v, vPois := vp, s := sv, sPois := sp, p := pv, q := BitVec.ofNat 7 (imgNat m (a + 0x6F8) 1) }
    pcs := pcs
    exited := maskOf fun l => lane l / pow2 63 == 1
    held := maskOf fun l => lane l / pow2 62 % 2 == 1
    sig := w64 (imgNat m (a + 0x6F0) 8)
    park := match old.park with
      | some (.yield sd) => some (.yield sd)
      | p => if code == 0 || code == 11 then none else p
    trapCause := if code == 9 || old.park == some .trap then old.trapCause else none
    step := flags % 2 == 1, sla := flags / 2 % 2 == 1, srun := flags / 4 % 2 == 1
    halted := flags / 8 % 2 == 1, excluded := flags / 16 % 2 == 1
    budget := budget
    kCount := (List.range 8).foldl (fun c k => SMap.set c 0 k (imgNat m (a + 0x700 + k) 1)) []
    kStat := (List.range 8).foldl (fun c k => SMap.set c 0 k (st / pow2 (2 * k) % 4)) []
    dbgPend := if pend / 8 % 2 == 1 then some (BitVec.ofNat 3 pend) else none
    runendLeft := 40 * (pend / 256 % 256)
    stepPend := if pend / 65536 % 2 == 1 then old.stepPend else none
    shp := (List.range 48).foldl (fun c w => SMap.set c 0 w (w64 (imgNat m (b + 8 * w) 8))) []
    shpPois := (List.range 48).foldl (fun c w => if pois.contains ((b + 8 * w) / 32) then SMap.set c 0 w 3 else c) []
    smooth := if sm / pow2 32 % 2 == 1 then some (w32 sm) else none }

/-- R480: the side-log entries of an image; what it does not name is as in `who`. -/
def logFrom (m : SMap Byte) (pois : List Nat) (g t : Nat) (who : List LogEntry) : List LogEntry :=
  (List.range 64).flatMap fun i =>
    let a := 0x14000 + 16 * i
    let w := imgNat m a 8
    if w / pow2 63 == 0 then []
    else
      let op := imgNat m (a + 9) 1
      let sz := imgNat m (a + 10) 1
      let n := pow2 sz
      let two := op == 10 && sz == 4
      let recAt := fun j => 0x14400 + 24 * (w % 1024 + j)
      let one := fun j =>
        let p := recAt (if two then 2 * j else j)
        let d := Memory.bytes m (p + 8) 16
        let q := pois.contains ((p + 8) / 32) || pois.contains ((p + 23) / 32)
        if two then ({ addr := imgNat m p 8, data := Memory.bytes m (p + 32) 16, cmp := d, pois := q } : LogRec)
        else if op == 10 then { addr := imgNat m p 8, data := (d.drop n).take n, cmp := d.take n, pois := q }
        else { addr := imgNat m p 8, data := d.take n, cmp := [], pois := q }
      let x := who.getD i { g := g, t := t, grp := 0, page := 0, op := 0, sz := 0, seq := 0, lanes := 0, recs := [] }
      [{ x with
         page := w / 65536 % pow2 41, op := op, sz := sz, seq := imgNat m (a + 12) 2
         recs := (List.range (imgNat m (a + 8) 1)).map one }]

/-- R480: the float-atomic buffer entries of an image; what it does not name is as in `who`. -/
def floatFrom (m : SMap Byte) (pois : List Nat) (g t : Nat) (who : List FloatEntry) : List FloatEntry :=
  (List.range 256).flatMap fun i =>
    let w := imgNat m (0x1A400 + 16 * i) 8
    if w / pow2 63 == 0 then []
    else
      let x := who.getD i { g := g, t := t, grp := 0, addr := 0, op := 0, operand := 0 }
      [{ x with
         addr := w % pow2 57, op := w / pow2 57 % 4, operand := w32 (imgNat m (0x1A408 + 16 * i) 4)
         pois := pois.contains ((0x1A408 + 16 * i) / 32) }]

/-- A restore begins: the team takes slots and rows of a core, with its current budgets (R66). -/
def beginRestore (s : State) (tk cl co : Nat) : State :=
  let r := s.grid (tk / 1048576)
  let k := coreKey cl co
  let b := s.startQuad k
  let s := s.modTeam tk fun x =>
    { x with st := .restoring, cl := cl, co := co }
  let s := s.modCore k fun c => { c with pword := some r.pword }
  (List.range r.ngroups).foldl (fun s n =>
    let gk := tk * 32 + n
    if (s.group gk).gone then s
    else
      let s := s.modGroup gk fun x => { x with budget := 8 * leNat (s.imgRead tk (imageGroup gk + 0x6FB) 1) }
      s.takeSlot k ((b + n) % 4) gk) s

/-- R432: a park's condition looked at again after a restore or a move, before the group is marked ready. -/
def reexamine (s : State) (gk : Nat) : State :=
  let k := s.coreOfGrp gk
  let y := s.group gk
  match y.park with
  | some (.counter ..) => s.readCounter gk
  | some (.token msk) => if y.tokensDone msk then s.wake gk else s
  | some (.tileWait msk) => if y.tokensDone msk then (s.dropJobSectors gk msk).wake gk else s
  | some (.line ls) => if ls.all fun l => linePresent (s.team (gk / 32)) l then s.wake gk else s
  | some (.reggrow ..) => s.grantRows (4 * k + y.quad) 24
  | some (.baton _) =>
    if (s.core k).batonWait.contains gk then s
    else (s.modCore k fun c => { c with batonWait := c.batonWait ++ [gk] }).passBaton k 200
  | some (.task sd) =>
    match s.fetchTask gk sd with
    | some s => s.wake gk
    | none => s
  | some (.coll hd sc) =>
    match (s.colls.find (16 * (s.grid (grpKeyGrid gk)).part + hd)).bind Coll.status with
    | some v => (s.modGroup gk fun z => { z with regs := z.regs.sset sc v 0 }).wake gk
    | none => s
  | some (.carafe _) => s.wake gk
  | some (.sideLog need recs) =>
    if if need == 0 then !s.teamLogged gk else s.logRoom k need recs then s.wake gk else s
  | some (.yield sd) => (s.modGroup gk fun z => { z with regs := z.regs.sset sd 1 0 }).wake gk
  | _ => s

/-- R88, R129, R432: the image is read: the groups return to their recorded states on the new core, whose L1 has been
written back and invalidated, and each park's condition is looked at again. -/
def completeRestore (s : State) (tk : Nat) : State :=
  let g := tk / 1048576
  let t := tk % 1048576
  let r := s.grid g
  let x := s.team tk
  let k := coreKey x.cl x.co
  let img := s.getRange x.pinned (imageBase r t) (footprint r)
  let m := img.1
  let sp := 0x20000 + imageRegs r
  let s := s.flushCore k
  let lines := List.range (ceilDiv r.alloc 128)
  let lb := fun l => imgNat m (0xD000 + l) 1
  let fresh := fun l => 128 ≤ lb l
  let spad := (cutMap m sp r.alloc).filter fun e => !fresh (e.1 / 128)
  let s := (List.range r.ngroups).foldl (fun s n =>
    s.modGroup (tk * 32 + n) fun y => groupFrom y m img.2 r n) s
  let ctl := imgNat m 8 8
  let s := s.modTeam tk fun y =>
    { y with
      st := .resident, cause := none, drainAt := none, wanted := false, held := false, savedLog := [], savedFloat := []
      taskUser := ctl / 2 % 2 == 1, gen := BitVec.ofNat 16 (ctl / 65536)
      progress := w64 (imgNat m 16 8), elapsed := w64 (imgNat m 24 8)
      spad := spad
      spadPois := (List.range (r.alloc / 4)).foldl (fun q w =>
        if img.2.contains ((sp + 4 * w) / 32) then SMap.set q false w true else q) []
      used := lines.foldl (fun q l => if fresh l then q else q ++ [(l, true)]) []
      landing := lines.foldl (fun q l => if lb l % 8 == 0 then q else q ++ [(l, lb l % 8)]) []
      tiles := (List.range (1024 * r.acct)).foldl (fun q e =>
        let v := imgNat m (sp + r.alloc + 4 * e) 4
        if v == 0 then q else q ++ [(e, w32 v)]) []
      tilePois := (List.range (1024 * r.acct)).foldl (fun q e =>
        if img.2.contains ((sp + r.alloc + 4 * e) / 32) then q ++ [(e, true)] else q) []
      pinned := [], jobs := [], savedDone := [] }
  let s := s.modCore k fun c =>
    { c with sideLog := c.sideLog ++ logFrom m img.2 g t x.savedLog, fbuf := c.fbuf ++ floatFrom m img.2 g t x.savedFloat
             tts := c.tts ++ x.jobs, doneJobs := c.doneJobs ++ x.savedDone }
  let s := (s.unpin (physPages x.pinned)).rouse k
  -- R116: the recorded holder parks until the baton is granted again
  let s := match x.batonSaved with
    | some n =>
      let gk := tk * 32 + n
      let s := s.modTeam tk fun y => { y with batonSaved := none }
      let s := s.modGroup gk fun y =>
        { y with park := y.park.or (some (.baton true)), batonDue := y.park.isSome && y.park != some (Park.baton true) }
      (s.modCore k fun c => { c with batonWait := c.batonWait ++ [gk] }).passBaton k 200
    | none => s
  (((s.groupsOf tk).foldl reexamine s).recheckTeam tk).recheckAll

/-! ### Discard -/

/-- R45, R88, R464: a team's logged stores, buffered atomics and engine work dropped, and the pages of that work unpinned. -/
def dropWork (s : State) (tk : Nat) : State :=
  let x := s.team tk
  let k := coreKey x.cl x.co
  let mine := fun (a b : Nat) => a == tk / 1048576 && b == tk % 1048576
  let jobs := x.jobs ++ (s.core k).tts.filter fun j => mine j.g j.t
  let cmds := (s.cluster x.cl).sfa.queue.filter fun q => mine q.g q.t
  let held := jobs.flatMap (fun j => j.pages) ++ cmds.flatMap fun q => q.pages
  let s := (s.unpin (physPages held)).modCore k fun c =>
    { c with sideLog := c.sideLog.filter fun e => !mine e.g e.t
             fbuf := c.fbuf.filter fun e => !mine e.g e.t
             engq := c.engq.filter fun w => !mine w.g w.t
             tts := c.tts.filter fun j => !mine j.g j.t }
  -- R213: a variable held by an error is held through its own sweep alone
  s.modCluster x.cl fun c =>
    { c with sfa := { c.sfa with
        queue := c.sfa.queue.filter fun q => !mine q.g q.t
        bad := if c.sfa.queue.head?.any fun q => mine q.g q.t && q.op == 3 then [] else c.sfa.bad } }

/-- R88, R133, R464: a team discarded: its state and its work are dropped, its generation moves on, and it is pending
again. -/
def discardTeam (s : State) (tk : Nat) : State :=
  let x := s.team tk
  let on := x.st == .resident || x.st == .saving || x.st == .restoring || x.st == .moving
  let s := if on then s.leaveCore tk else s
  let s := (s.unpin (physPages x.pinned)).dropWork tk
  let s := (s.groupsOf tk).foldl (fun s gk => { s with groups := s.groups.erase gk }) s
  let s := s.modTeam tk fun y =>
    { st := .pending, placed := y.placed, held := y.held, cl := y.cl, co := y.co, gen := y.gen + 1, deliveries := y.deliveries }
  s.settleCore (coreKey x.cl x.co)

end State
end Sys2Proof.Machine
end

