-- ==== Sys2Proof/Machine/Lanes.lean ====
section
/-! DEFINITION. What the words of the access layout share (R399 to R402): addresses, translation of a word's lanes (R154 to
R156), the side log, scratchpad and global bytes with their poison marks (R262), and sampling (R279). -/

namespace Sys2Proof

/-- R400: bytes of an access. -/
def MF.size (f : MF) : Nat := pow2 f.sz.toNat
/-- R400: the registers of a lane word's data. -/
def MF.dataRegs (f : MF) : List Nat := (List.range (Nat.max 1 (f.size / 4))).map fun i => f.vd.toNat + i
/-- The lane offset register, when it takes part. -/
def MF.addrRegs (f : MF) : List Nat := if f.av then [f.va.toNat] else []
/-- The scalars of the address and the rank. -/
def MF.addrScalars (f : MF) : List Nat := f.sb.toNat :: (if f.spc == 2 && !f.rki then [f.rk.toNat] else [])
/-- R401: is the word a release, an acquire. -/
def MF.isRel (f : MF) : Bool := f.ord.getLsbD 1
def MF.isAcq (f : MF) : Bool := f.ord.getLsbD 0

end Sys2Proof

namespace Sys2Proof.Machine

/-- One access of one lane that is made at once: the lane, the index of its first byte in the lane's data, its address
or offset sum, and its bytes. -/
structure Piece where
  lane : Nat
  idx : Nat
  at_ : Nat
  n : Nat
  deriving DecidableEq, Repr

/-- A piece with its translation. -/
structure GPiece where
  p : Piece
  pa : Nat
  mt : Nat
  deriving DecidableEq, Repr

/-- R163: a lane's access: whole when aligned, else byte by byte in ascending order. -/
def pieces (lane a n : Nat) : List Piece :=
  if a % n == 0 then [{ lane := lane, idx := 0, at_ := a, n := n }]
  else (List.range n).map fun i => { lane := lane, idx := i, at_ := (a + i) % pow2 64, n := 1 }

/-- Where a word's accesses go. -/
inductive Target
  | glob
  | own
  | rem (u : Nat)
  | gone
  deriving DecidableEq, Repr

/-- The bytes of a lane's data registers, lowest register first. -/
def laneData (r : Regs) (regs : List Nat) (n l : Nat) : List PByte :=
  (regs.flatMap fun v => (leBytes 4 (r.lane v l).toNat).map fun b => (b, (r.vgetPois v).getLsbD l)).take n

/-- R400: the register words that a lane's loaded bytes make. -/
def loadWords (sx : Bool) (bs : List PByte) : List (W32 × Bool) :=
  let n := bs.length
  if n < 4 then
    let v := leNat (bs.map Prod.fst)
    let neg := sx && pow2 (8 * n - 1) ≤ v
    [(w32 (if neg then v + pow2 32 - pow2 (8 * n) else v), anyPois bs)]
  else (List.range (n / 4)).map fun i =>
    let c := (bs.drop (4 * i)).take 4
    (w32 (leNat (c.map Prod.fst)), anyPois c)

/-- R400: the scalar that loaded bytes make, with its marks. -/
def loadScalar (sx : Bool) (bs : List PByte) : W64 × BitVec 2 :=
  let n := bs.length
  let v := leNat (bs.map Prod.fst)
  let neg := sx && n < 8 && pow2 (8 * n - 1) ≤ v
  let lo := anyPois (bs.take 4)
  let hi := anyPois (bs.drop 4) || (sx && lo)
  (w64 (if neg then v + pow2 64 - pow2 (8 * n) else v), BitVec.ofNat 2 (bit lo + 2 * bit hi))

/-- The register writes of the lanes of a mask: word i of each lane goes to register vd + i. -/
def vecWrites (vd n : Nat) (m : Mask) (res : SMap (List (W32 × Bool))) : List RegWr :=
  (List.range n).map fun i =>
    let w := fun l => (SMap.get res l []).getD i (0, false)
    .loaded (vd + i) m ((List.range 128).map fun l => (w l).1) (maskOf fun l => (w l).2)

/-- R160, R161, R406: the value that an operation leaves, by its code of R480, on n bytes. -/
def rmwNew (op n : Nat) (old data cmp : List Byte) : List Byte :=
  let m := pow2 (8 * n)
  let a := leNat old
  let b := leNat data
  let sgn := fun (x : Nat) => if m ≤ 2 * x then (x : Int) - m else x
  let v := match op with
    | 1 => (a + b) % m
    | 2 => if sgn b < sgn a then b else a
    | 3 => Nat.min a b
    | 4 => if sgn a < sgn b then b else a
    | 5 => Nat.max a b
    | 6 => a &&& b
    | 7 => a ||| b
    | 8 => a ^^^ b
    | 10 => if a == leNat cmp then b else a
    | 11 => (add32 (w32 a) (w32 b)).toNat
    | 12 => (min32 (w32 a) (w32 b)).toNat
    | 13 => (max32 (w32 a) (w32 b)).toNat
    | 14 => (a + b) % m
    | _ => b
  leBytes n v

/-- R262: is the word that an operation leaves poisoned: an exchange reads its operand alone. -/
def rmwPois (op : Nat) (old data : Bool) : Bool := data || (old && op != 9 && op != 0)

namespace State

/-! ### Addresses -/

/-- R399: the sum that forms a lane's address or offset. -/
def mSum (s : State) (f : MF) (l : Nat) : Nat :=
  (s.src.sget f.sb.toNat + (if f.av then sx64 (s.src.lane f.va.toNat l) else 0) + f.off.signExtend 64).toNat

/-- R298: the rank that a word names. -/
def mRank (s : State) (f : MF) : Nat :=
  if f.rki then f.rk.toNat % 16 else (s.src.sget f.rk.toNat).toNat % 16

/-- R263: the lanes whose address or rank would be formed from a poisoned word. -/
def mPois (s : State) (f : MF) (act : Mask) : Mask :=
  if s.src.sgetPois f.sb.toNat != 0 || (f.spc == 2 && !f.rki && (s.src.sgetPois f.rk.toNat).getLsbD 0) then act
  else if f.av then act &&& s.src.vgetPois f.va.toNat else 0

/-- R138: where a word's accesses go. -/
def mTarget (s : State) (f : MF) : Target :=
  match f.spc.toNat with
  | 0 => .glob
  | 1 => .own
  | _ =>
    let r := s.curGrid
    let u := r.cohort s.cur.t * r.coh + s.mRank f
    if r.coh ≤ s.mRank f || r.nteams ≤ u then .gone else if u == s.cur.t then .own else .rem u

/-- The pieces of the active lanes of a lane word, in ascending lane order. -/
def mPieces (s : State) (f : MF) (act : Mask) : List Piece := act.lanes.flatMap fun l => pieces l (s.mSum f l) f.size

/-! ### Translation of a word's lanes -/

/-- R154: each piece looked up: those that translate, and those that fail. -/
def lookup (s : State) (a : Acc) (ps : List Piece) : List GPiece × List Piece :=
  ps.foldr (fun p x => match s.xlat s.curCore s.curPart p.at_ a with
    | some (pa, mt) => ({ p := p, pa := pa, mt := mt } :: x.1, x.2)
    | none => (x.1, p :: x.2)) ([], [])

/-- R152, R153: the pages of accesses that succeed are touched once each. -/
def touchPages (s : State) (a : Acc) (ps : List GPiece) : State :=
  (distinct (ps.map fun q => q.p.at_ / 65536)).foldl (fun s g => s.xlatTouch s.curCore s.curPart (g * 65536) a) s

/-- R155: the trap of a load whose pieces fail: the lanes, each with its first failing byte. -/
def loadFault (ps : List Piece) : Trap :=
  let ls := distinct (ps.map Piece.lane)
  { cause := 0x0A, mask := maskOf fun l => ls.contains l
    addrs := ls.map fun l => (l, w64 (((ps.find? fun p => p.lane == l).map Piece.at_).getD 0)) }

/-- The lanes of pieces, as a mask. -/
def lanesOf (ps : List Piece) : Mask := let ls := ps.map Piece.lane; maskOf fun l => ls.contains l

/-! ### Operations of the group that are still to be performed -/

/-- The place that an operation in flight will touch. -/
def flightPlace : Body → Option (Place × Nat)
  | .rmw pl _ _ sz _ _ _ => some (pl, pow2 sz)
  | .ctrRead _ pl _ _ => some (pl, 8)
  | _ => none

/-- Do two ranges of bytes meet. -/
def placesMeet (a b : Place × Nat) : Bool :=
  match a.1, b.1 with
  | .dev x, .dev y => x < y + b.2 && y < x + a.2
  | .host x _, .host y _ => x < y + b.2 && y < x + a.2
  | _, _ => false

/-- The physical place of a piece. -/
def GPiece.place (q : GPiece) : Place := if q.mt == 1 then .host q.pa q.p.at_ else .dev q.pa

/-- R167: has the group float atomics in its core's buffer at the virtual addresses of some pieces: a later store or atomic there
waits until they are drained, also where its own page fails. -/
def bufferHeld (s : State) (ps : List Piece) : Bool :=
  (s.core s.curCore).fbuf.any fun e => grpKey e.g e.t e.grp == s.curGrp && ps.any fun p => e.addr < p.at_ + p.n && p.at_ < e.addr + 4

/-- R167: an earlier operation of the group at one of these places is still to be performed. R177: a read need not wait for
the group's buffered float atomics. -/
def orderHeld (s : State) (a : Acc) (qs : List GPiece) : Bool :=
  (s.flights.any fun f => grpKey f.g f.t f.grp == s.curGrp && match flightPlace f.body with
    | some x => qs.any fun q => placesMeet x (GPiece.place q, q.p.n)
    | none => false) ||
  a == .store && s.bufferHeld (qs.map GPiece.p)

/-- R169, R157: what a release waits for: an answer when the word cannot issue yet. -/
def releaseWait (s : State) (scp : Nat) : Option Fate :=
  if teamScope scp && s.teamLogged s.curGrp then some (.retry (.sideLog 0 0))
  else if s.accessesOut s.curGrp then some .stall
  else none

/-- R169 to R171: the modifiers of a word that takes effect, with the locations of a release, one for each active lane of a lane
word (R267). -/
def releaseNow (s : State) (f : MF) (locs : List Nat) : State :=
  if f.isRel then
    let s := s.releaseBy s.curGrp f.scp.toNat
    if f.scp == 5 then locs.foldl (fun s a => s.logLeak s.cur.g 2 a f.size 0) s else s
  else s
def acquireNow (s : State) (f : MF) : State := if f.isAcq then s.acquireBy s.curGrp f.scp.toNat f.rmt else s

/-- R169: how a word of the access layout issues: after an acquire still to be performed, and, as a release of scope
`rel`, after what it waits for; a park on the side log is counted (R164). -/
def accessWord (s : State) (h : Hdr) (u : Uses) (rel : Option Nat) (eff : Mask → State → Eff) : State :=
  s.issueWord h u fun act s =>
    if s.acquireOut s.curGrp then { s := s, fate := .stall }
    else
      match rel.bind fun x => s.releaseWait x with
      | some (.retry w) => { s := s.count s.cur.cl 0x128 1, fate := .retry w }
      | some w => { s := s, fate := w }
      | none => eff act s

/-- As `accessWord`, for a word whose ORD says whether it is a release. -/
def memWord (s : State) (h : Hdr) (f : MF) (u : Uses) (eff : Mask → State → Eff) : State :=
  s.accessWord h u (if f.isRel then some f.scp.toNat else none) eff

/-! ### Sampling -/

/-- R279: a memory instruction of a group has issued: it is sampled when the period, or `smpctl`, says so. `s0` is the
state before it. -/
def sampleIssue (s0 s : State) (act : Mask) (sectors : Nat) (store : Bool) : State :=
  let y := s.page s.curPart
  let x := s.grp
  let s := s.modGrp fun x => { x with replays := 0, forced := false }
  if !y.sampc.getLsbD 0 || x.excluded then s
  else
    let k := s.curCore
    let n := (s.core k).sampCount + 1
    let due := pow2 (8 + y.sampc.bits 7 4) ≤ n
    let s := s.modCore k fun c => { c with sampCount := if due then 0 else n }
    if due || x.forced then
      let r : Sample :=
        { ident := s.identity s.cur.g s.cur.t s.cur.grp 0, pc := s.cur.pc, active := act.count, replays := x.replays,
          sectors := sectors, store := store, issued := s.elapsedOf s.cur.cl, grpKey := s.curGrp, first := s0.nextId,
          last := s.nextId }
      s.modCore k fun c => { c with samples := c.samples ++ [r] }
    else s

/-- R280: a word that will be looked up again. -/
def replayed (s : State) : State := s.modGrp fun x => { x with replays := x.replays + 1 }

/-- R280: sectors that global pieces touch, and words that scratchpad pieces touch. -/
def sectorCount (ps : List Piece) : Nat := (distinct (ps.flatMap fun p => sectorsOf p.at_ p.n)).length
def wordCount (ps : List Piece) : Nat :=
  (distinct (ps.flatMap fun p => (List.range ((p.at_ + p.n - 1) / 4 - p.at_ / 4 + 1)).map fun i => p.at_ / 4 + i)).length

/-- R163, R164: misaligned accesses that reached the monitor's routine; the trap comes before any later one of the word. -/
def countMisal (s : State) (mis : Bool) : State := if mis then s.count s.cur.cl 0x130 1 else s

/-! ### The side log -/

/-- R156: the pages of failing pieces, one entry each; each page's lanes. -/
def logNeeds (ps : List Piece) : List (Nat × List Nat) :=
  (distinct (ps.map fun p => p.at_ / 65536)).map fun g =>
    (g, distinct ((ps.filter fun p => p.at_ / 65536 == g).map Piece.lane))

/-- R156: the notice of a page newly entered. -/
def logNotice (s : State) (g t n k page pc : Nat) (addrs : List (Nat × Nat)) : State :=
  s.notice (s.grid g).part
    { g := g, t := t, grp := n, ident := s.identity g t n 0, cause := 0x0A, kind := 1
      flags := 2 * bit (s.group (grpKey g t n)).step, pc := w64 pc
      mask := maskOf fun l => addrs.any fun a => a.1 == l
      cycles := s.cyclesOf k, elapsed := s.elapsedOf (k / 6), detail := 0, detail2 := w64 (page * 65536)
      addrs := addrs.map fun a => (a.1, w64 a.2), hang := [] }

/-- R156: an entry made in the side log of core k by the word at `pc`, and the notice of a page that had none: `all` are the
lanes and addresses that the word enters for the page (R269). `id` tells which operations come before it (R167), `wide` that
its word is a release of device scope or wider. -/
def logEntry (s : State) (k g t n page op sz pc id : Nat) (lanes : List Nat) (recs : List LogRec) (all : List (Nat × Nat))
    (wide : Bool := false) : State :=
  let new := !(s.core k).sideLog.any fun e => e.page == page && (s.grid e.g).part == (s.grid g).part
  let e : LogEntry :=
    { g := g, t := t, grp := n, page := page, op := op, sz := sz, seq := (s.core k).logSeq
      lanes := maskOf fun l => lanes.contains l, recs := recs, id := id, wide := wide }
  let s := s.modCore k fun c => { c with sideLog := c.sideLog ++ [e], logSeq := (c.logSeq + 1) % 65536 }
  let s := s.count (k / 6) 0x120 1
  if new then s.logNotice g t n k page pc all else s

/-- R156, R480: the failing pieces of a store or reduction of the issuing group entered in the side log: for each page one
record for each lane, the lane's whole access, of which the bytes in the page are logged. `more` are pieces of another size
that the same word enters after these (R269); `wide` is as for `logEntry`. -/
def logPieces (s : State) (op sz : Nat) (ps : List Piece) (rec_ : Nat → LogRec) (more : List Piece := [])
    (wide : Bool := false) : State :=
  let all := fun (g : Nat) => (((logNeeds (ps ++ more)).find? fun e => e.1 == g).map Prod.snd).getD []
  (logNeeds ps).foldl (fun s e => s.logEntry s.curCore s.cur.g s.cur.t s.cur.grp e.1 op sz s.cur.pc s.nextId e.2 (e.2.map rec_)
    ((all e.1).map fun l => (l, (rec_ l).addr)) wide) s

/-- R156: the entries and the lane records that failing pieces of one operation and size take. -/
def logCost (op sz : Nat) (ps : List Piece) : Nat × Nat :=
  ((logNeeds ps).length, ((logNeeds ps).map fun e => e.2.length).foldl (· + ·) 0 * recsPerLane op sz)

/-- R156: room for failing pieces, or the park that waits for it. -/
def logWait (s : State) (op sz : Nat) (ps : List Piece) : Option Park :=
  let (need, recs) := logCost op sz ps
  if s.logRoom s.curCore need recs then none else some (.sideLog need recs)

/-! ### Bytes -/

/-- Bytes of a piece, from a lane's data. -/
def pieceData (d : List PByte) (p : Piece) : List PByte := (d.drop p.idx).take p.n

/-- R154: the lanes' bytes of a global load, and what it leaves in the L1. R166: the lanes read as one, before any of them fills
the L1, so that no two lanes see two values of one location. -/
def readGlobs (s : State) (qs : List GPiece) : State × SMap (List PByte) :=
  (qs.foldl (fun s q => (s.glLoad s.curCore q.pa q.mt q.p.n).1) s,
   qs.foldl (fun m q => SMap.modify m q.p.lane [] fun l =>
      l ++ (List.range q.p.n).map fun i => s.loadByte s.curCore (q.pa + i) q.mt) [])

/-- A global piece written; a write to host memory is logged as visible outside (R267). -/
def writeGlob (s : State) (q : GPiece) (bs : List PByte) : State :=
  let s := s.glStore s.curCore q.pa q.mt (bs.map Prod.fst) (anyPois bs)
  if q.mt == 1 then s.logLeak s.cur.g 0 q.p.at_ q.p.n 0 else s

/-- R134, R137: the lines that pieces of the team's own scratchpad touch, and those that are absent. -/
def touchedLines (s : State) (ps : List Piece) : List Nat :=
  distinct (ps.flatMap fun p => match spReduce s.curGrid.alloc p.at_ with
    | some o => linesOf o p.n
    | none => [])
def absentLines (s : State) (ps : List Piece) : List Nat :=
  (s.touchedLines ps).filter fun l => !linePresent (s.team s.curTeam) l

/-- R134: pieces beyond the allocation are counted. -/
def countOver (s : State) (ps : List Piece) : State :=
  let n := (ps.filter fun p => (spReduce s.curGrid.alloc p.at_).isNone).length
  if n == 0 then s else s.count s.cur.cl 0x100 n

/-- Bytes of a present scratchpad range, with the marks of their words. -/
def spadPBytes (x : Team) (off n : Nat) : List PByte :=
  (List.range n).map fun i => (Memory.byte x.spad (off + i), x.spadPois.get ((off + i) / 4) false)

/-- R134: the lanes' bytes of a scratchpad load; zero beyond the allocation. -/
def readSpads (s : State) (ps : List Piece) : SMap (List PByte) :=
  let x := s.team s.curTeam
  ps.foldl (fun m p =>
    let bs := match spReduce s.curGrid.alloc p.at_ with
      | some o => spadPBytes x o p.n
      | none => List.replicate p.n (0, false)
    SMap.modify m p.lane [] fun l => l ++ bs) []

/-- Bytes put into a scratchpad, word by word, so that each word takes its own mark. -/
def spPutP (x : Team) (off : Nat) : Nat → List PByte → Team
  | 0, _ => x
  | fuel + 1, bs =>
    if bs.isEmpty then x
    else
      let c := bs.take 4
      spPutP (spPut x off (c.map Prod.fst) (anyPois c)) (off + 4) fuel (bs.drop 4)

/-- R134: a scratchpad piece written, or dropped beyond the allocation. -/
def writeSpad (s : State) (p : Piece) (bs : List PByte) : State :=
  match spReduce s.curGrid.alloc p.at_ with
  | some o => s.modTeam s.curTeam fun x => spPutP x o bs.length bs
  | none => s

/-- R262: poisoned words that a store writes are counted. -/
def countStored (s : State) (ds : List (List PByte)) : State := s.countWritten s.cur.cl ds

/-! ### Operations sent out -/

/-- A flight of the issuing group; its number. -/
def launch (s : State) (b : Body) (acq : Option (Nat × Bool)) : Nat × State :=
  let id := s.nextId
  let f : Flight := { id := id, g := s.cur.g, t := s.cur.t, grp := s.cur.grp, core := s.curCore, cmd := id, acq := acq, body := b }
  (id, { s with nextId := id + 1, flights := s.flights ++ [f] })

/-! ### Landing counts -/

/-- R137: lines whose landing counts fall; the groups that wait for present lines and now have them all wake, and counter reads
that waited for them are made. -/
def landLines (s : State) (g t : Nat) (lines : List Nat) : State :=
  if lines.isEmpty then s
  else
    let s := lines.foldl (fun s l => s.landing g t l (-1)) s
    let x := s.team (teamKey g t)
    if x.st == .resident then
      (s.wakeWhere (s.groupsOf (teamKey g t)) fun w => match w with
        | .line ls => ls.all fun l => linePresent x l
        | _ => false).recheckAll
    else s

/-- R137: may the landing counts of some lines of the own team rise by 1. -/
def landRoom (s : State) (lines : List Nat) : Bool :=
  let x := s.team s.curTeam
  lines.all fun l => x.landing.get l 0 < 7

/-- R137: the landing counts of lines rise. -/
def raiseLines (s : State) (g t : Nat) (lines : List Nat) : State := lines.foldl (fun s l => s.landing g t l 1) s

end State
end Sys2Proof.Machine
end

