-- ==== Sys2Proof/Machine/MemWords.lean ====
section
/-! DEFINITION. Loads and stores (R403, R404), counters (R409 to R411), token waits, prefetches and fences (R415 to R417),
and the arrival of remote accesses (R150). -/

namespace Sys2Proof.Machine
namespace State

/-! ### Lane loads and stores -/

/-- R107: a load's registers, due at once. -/
def loadDue (s0 s : State) (h : Hdr) (f : MF) (act : Mask) (res : SMap (List PByte)) (sectors : Nat) : Eff :=
  if act == 0 then { s := s0.sampleIssue s act sectors false }
  else
    let regs := f.dataRegs
    let ws := vecWrites f.vd.toNat regs.length act (res.map fun e => (e.1, loadWords f.sx e.2))
    { s := s0.sampleIssue (s.addDue h.la.toNat (regs.map fun r => (0, r)) ws 0) act sectors false }

/-- R263, R269: the poison-use trap of a lane word: its lanes, each with the address it would have used. -/
def lanePoison (s : State) (f : MF) (m : Mask) (export_ : Nat) : Trap :=
  { cause := 0x0B, mask := m, detail := w64 export_, addrs := m.lanes.map fun l => (l, w64 (s.mSum f l)) }

/-- R403: the effect of `ld`. -/
def effLd (h : Hdr) (f : MF) (act : Mask) (s : State) : Eff :=
  let ps := s.mPieces f act
  let mis := ps.any fun p => p.n != f.size
  let bad := s.mPois f act
  let poison : Eff := { s := s.countMisal mis, fate := .trap (s.lanePoison f bad 0) }
  match s.mTarget f with
  | .glob =>
    let r := s.lookup .load ps
    if !r.2.isEmpty then { s := (s.countMisal mis).replayed, fate := .trap (loadFault r.2) }
    else if bad != 0 then poison
    else if s.orderHeld .load r.1 then { s := s, fate := .stall }
    else
      let x := (((s.countMisal mis).acquireNow f).touchPages .load r.1).readGlobs r.1
      s.loadDue x.1 h f act x.2 (sectorCount ps)
  | .own =>
    let absent := s.absentLines ps
    if bad != 0 then poison
    else if !absent.isEmpty then { s := s.replayed, fate := .retry (.line (s.touchedLines ps)) }
    else
      let s1 := ((s.countMisal mis).acquireNow f).countOver ps
      s.loadDue s1 h f act (s1.readSpads ps) (wordCount ps)
  | .rem u =>
    if bad != 0 then poison
    else if act == 0 then { s := s.sampleIssue (s.acquireNow f) act 0 false }
    else
      let due := s.nextId
      let s1 := (s.countMisal mis).addDue h.la.toNat (f.dataRegs.map fun r => (0, r)) [] 1
      let offs := act.lanes.map fun l => (l, s.mSum f l)
      let acq := if f.isAcq then some (f.scp.toNat, f.rmt) else none
      let s1 := (s1.launch (.remLoad u f.size offs due f.vd.toNat false f.sx) acq).2
      { s := s.sampleIssue s1 act (wordCount ps) false }
  | .gone =>
    if bad != 0 then poison
    else
      let s1 := ((s.countMisal mis).acquireNow f).count s.cur.cl 0x110 ps.length
      s.loadDue s1 h f act (act.lanes.map fun l => (l, List.replicate f.size (0, false))) (wordCount ps)

/-- R403: the effect of `st`. -/
def effSt (f : MF) (act : Mask) (s : State) : Eff :=
  let ps := s.mPieces f act
  let mis := ps.any fun p => p.n != f.size
  let bad := s.mPois f act
  let data := fun l => laneData s.src f.dataRegs f.size l
  let stored := fun (s : State) => s.countStored (act.lanes.map data)
  let rel := fun (s : State) => (s.countMisal mis).releaseNow f (act.lanes.map (s.mSum f))
  match s.mTarget f with
  | .glob =>
    let r := s.lookup .store ps
    let leak := lanesOf ((r.1.filter fun q => q.mt == 1 && anyPois (pieceData (data q.p.lane) q.p)).map GPiece.p)
    if bad ||| leak != 0 then
      { s := s.countMisal mis, fate := .trap (s.lanePoison f (bad ||| leak) (bit (bad == 0))) }
    else if s.orderHeld .store r.1 || s.bufferHeld r.2 then { s := s, fate := .stall }
    else
      match if r.2.isEmpty then none else s.logWait 0 f.sz.toNat r.2 with
      | some w => { s := (s.count s.cur.cl 0x128 1).replayed, fate := .retry w }
      | none =>
        let s1 := (stored (rel s)).touchPages .store r.1
        let s1 := r.1.foldl (fun s q => s.writeGlob q (pieceData (data q.p.lane) q.p)) s1
        let s1 := if f.isRel && wideScope f.scp.toNat then
          r.1.foldl (fun s q => if q.mt == 1 then s else s.wbRange s.curCore q.pa q.p.n) s1 else s1
        let s1 := s1.settleMarks s.curCore ((r.1.filter fun q => q.mt != 1).map fun q => (q.pa, pieceData (data q.p.lane) q.p))
        let s1 := s1.logPieces 0 f.sz.toNat r.2 (fun l =>
          { addr := s.mSum f l, data := (data l).map Prod.fst, cmp := [], pois := anyPois (data l) })
          (wide := f.isRel && wideScope f.scp.toNat)
        { s := s.sampleIssue s1 act (sectorCount ps) true }
  | .own =>
    let absent := s.absentLines ps
    if bad != 0 then { s := s.countMisal mis, fate := .trap (s.lanePoison f bad 0) }
    else if !absent.isEmpty then { s := s.replayed, fate := .retry (.line (s.touchedLines ps)) }
    else
      let s1 := (stored (rel s)).countOver ps
      let s1 := ps.foldl (fun s p => s.writeSpad p (pieceData (data p.lane) p)) s1
      { s := s.sampleIssue s1 act (wordCount ps) true }
  | .rem u =>
    if bad != 0 then { s := s.countMisal mis, fate := .trap (s.lanePoison f bad 0) }
    else
      let s1 := stored (rel s)
      let runs := ps.map fun p => (p.at_, pieceData (data p.lane) p)
      let s1 := if runs.isEmpty then s1 else (s1.launch (.remStore u runs) none).2
      { s := s.sampleIssue s1 act (wordCount ps) true }
  | .gone =>
    if bad != 0 then { s := s.countMisal mis, fate := .trap (s.lanePoison f bad 0) }
    else { s := s.sampleIssue ((rel s).count s.cur.cl 0x110 ps.length) act (wordCount ps) true }

/-! ### Scalar accesses -/

/-- The pieces of a scalar word: one access, charged to the lowest active lane. -/
def scalarPieces (s : State) (f : MF) (act : Mask) (n : Nat) : List Piece :=
  pieces ((act.lanes).getD 0 0) (s.mSum f 0) n

/-- R404: the effect of `sld` for a word with an active lane; `ctrrd` (R411) reads past the L1. -/
def effSld (h : Hdr) (f : MF) (sd n : Nat) (ctr : Bool) (act : Mask) (s : State) : Eff :=
  let a := s.mSum f 0
  let ps := s.scalarPieces f act n
  let mis := a % n != 0
  let bad := s.mPois f act != 0
  let poison : Eff := { s := s.countMisal mis, fate := .trap (Trap.scalar 0x0B act 0 (w64 a)) }
  let put := fun (s1 : State) (bs : List PByte) (k : Nat) =>
    let v := loadScalar f.sx bs
    ({ s := s.sampleIssue (s1.addDue h.la.toNat [(1, sd)] [.scal sd v.1 v.2] 0) act k false } : Eff)
  if ctr && mis then { s := s, fate := .trap (Trap.scalar 0x09 act 0 (w64 a)) }
  else
  match s.mTarget f with
  | .glob =>
    let r := s.lookup .load ps
    if !r.2.isEmpty then
      { s := (s.countMisal mis).replayed
        fate := .trap (Trap.scalar 0x0A act 0 (w64 ((r.2.map Piece.at_).getD 0 a))) }
    else if bad then poison
    else if ctr then
      match r.1 with
      | q :: _ =>
        let due := s.nextId
        let s1 := (s.touchPages .load r.1).addDue h.la.toNat [(1, sd)] [] 1
        let acq := if f.isAcq then some (f.scp.toNat, f.rmt) else none
        let s1 := (s1.launch (.ctrRead (.glob a) (GPiece.place q) due sd) acq).2
        { s := s.sampleIssue s1 act (sectorCount ps) false }
      | [] => { s := s }
    else if s.orderHeld .load r.1 then { s := s, fate := .stall }
    else
      let x := (((s.countMisal mis).acquireNow f).touchPages .load r.1).readGlobs r.1
      put x.1 ((x.2.map Prod.snd).getD 0 []) (sectorCount ps)
  | .own =>
    let absent := s.absentLines ps
    if bad then poison
    else if !absent.isEmpty then { s := s.replayed, fate := .retry (.line (s.touchedLines ps)) }
    else
      let s1 := ((s.countMisal mis).acquireNow f).countOver ps
      put s1 (((s1.readSpads ps).map Prod.snd).getD 0 []) (wordCount ps)
  | .rem u =>
    if bad then poison
    else
      let due := s.nextId
      let s1 := (s.countMisal mis).addDue h.la.toNat [(1, sd)] [] 1
      let acq := if f.isAcq then some (f.scp.toNat, f.rmt) else none
      let s1 := (s1.launch (.remLoad u n [(0, a)] due sd true f.sx) acq).2
      { s := s.sampleIssue s1 act (wordCount ps) false }
  | .gone =>
    if bad then poison
    else put (((s.countMisal mis).acquireNow f).count s.cur.cl 0x110 ps.length) (List.replicate n (0, false)) (wordCount ps)

/-- The bytes of an s register with their marks. -/
def scalarData (r : Regs) (n size : Nat) : List PByte :=
  let v := r.sget n
  let m := r.sgetPois n
  ((List.range 8).map fun i => ((leBytes 8 v.toNat).getD i 0, m.getLsbD (i / 4))).take size

/-- R404: the effect of `sst`. -/
def effSst (f : MF) (act : Mask) (s : State) : Eff :=
  let a := s.mSum f 0
  let ps := s.scalarPieces f act f.size
  let mis := a % f.size != 0
  let bad := s.mPois f act != 0
  let data := scalarData s.src (f.vd.toNat % 64) f.size
  let ready := fun (s : State) => ((s.countMisal mis).releaseNow f [a]).countStored [data]
  match s.mTarget f with
  | .glob =>
    let r := s.lookup .store ps
    let leak := r.1.any fun q => q.mt == 1 && anyPois (pieceData data q.p)
    if bad || leak then { s := s.countMisal mis, fate := .trap (Trap.scalar 0x0B act (w64 (bit (!bad))) (w64 a)) }
    else if s.orderHeld .store r.1 || s.bufferHeld r.2 then { s := s, fate := .stall }
    else
      match if r.2.isEmpty then none else s.logWait 0 f.sz.toNat r.2 with
      | some w => { s := (s.count s.cur.cl 0x128 1).replayed, fate := .retry w }
      | none =>
        let s1 := (ready s).touchPages .store r.1
        let s1 := r.1.foldl (fun s q => s.writeGlob q (pieceData data q.p)) s1
        let s1 := if f.isRel && wideScope f.scp.toNat then
          r.1.foldl (fun s q => if q.mt == 1 then s else s.wbRange s.curCore q.pa q.p.n) s1 else s1
        let s1 := s1.logPieces 0 f.sz.toNat r.2
          (fun _ => { addr := a, data := data.map Prod.fst, cmp := [], pois := anyPois data })
          (wide := f.isRel && wideScope f.scp.toNat)
        { s := s.sampleIssue s1 act (sectorCount ps) true }
  | .own =>
    let absent := s.absentLines ps
    if bad then { s := s.countMisal mis, fate := .trap (Trap.scalar 0x0B act 0 (w64 a)) }
    else if !absent.isEmpty then { s := s.replayed, fate := .retry (.line (s.touchedLines ps)) }
    else
      let s1 := (ready s).countOver ps
      let s1 := ps.foldl (fun s p => s.writeSpad p (pieceData data p)) s1
      { s := s.sampleIssue s1 act (wordCount ps) true }
  | .rem u =>
    if bad then { s := s.countMisal mis, fate := .trap (Trap.scalar 0x0B act 0 (w64 a)) }
    else
      let runs := ps.map fun p => (p.at_, pieceData data p)
      { s := s.sampleIssue ((ready s).launch (.remStore u runs) none).2 act (wordCount ps) true }
  | .gone =>
    if bad then { s := s.countMisal mis, fate := .trap (Trap.scalar 0x0B act 0 (w64 a)) }
    else { s := s.sampleIssue ((ready s).count s.cur.cl 0x110 ps.length) act (wordCount ps) true }

/-! ### Counters -/

/-- R409: the amount of an add or the awaited value, with its mark. -/
def ctrOperand (s : State) (f : MF) : W64 × Bool :=
  if f.vd.getLsbD 7 then (w64 (f.vd.toNat % 128), false)
  else (s.src.sget (f.vd.toNat % 64), s.src.sgetPois (f.vd.toNat % 64) != 0)

/-- R282, R410: where a word's counter lies. -/
def ctrLoc (s : State) (f : MF) : Loc :=
  match s.mTarget f with
  | .glob => .glob (s.mSum f 0)
  | .own => .spad s.cur.g s.cur.t (s.mSum f 0)
  | .rem u => .spad s.cur.g u (s.mSum f 0)
  | .gone => .spad s.cur.g s.curGrid.nteams (s.mSum f 0)

/-- R409: the effect of `ctradd`: an add at the executing unit. -/
def effCtradd (f : MF) (act : Mask) (s : State) : Eff :=
  let a := s.mSum f 0
  let ps := s.scalarPieces f act 8
  let bad := s.mPois f act != 0
  let v := s.ctrOperand f
  let lane : RmwLane := { lane := 0, data := leBytes 8 v.1.toNat, cmp := [], pois := v.2 }
  let ready := fun (s : State) => (s.releaseNow f [a]).noteAdder s.cur.g s.cur.t (s.ctrLoc f)
  let poison : Eff := { s := s, fate := .trap (Trap.scalar 0x0B act 0 (w64 a)) }
  if a % 8 != 0 then { s := s, fate := .trap (Trap.scalar 0x09 act 0 (w64 a)) }
  else
  match s.mTarget f with
  | .glob =>
    let r := s.lookup .store ps
    let leak := v.2 && r.1.any fun q => q.mt == 1
    if bad || leak then { s := s, fate := .trap (Trap.scalar 0x0B act (w64 (bit (!bad))) (w64 a)) }
    else if s.bufferHeld r.2 then { s := s, fate := .stall }
    else
      match if r.2.isEmpty then none else s.logWait 14 3 r.2 with
      | some w => { s := (s.count s.cur.cl 0x128 1).replayed, fate := .retry w }
      | none =>
        let s1 := (ready s).touchPages .store r.1
        let s1 := r.1.foldl (fun s q => (s.launch (.rmw (GPiece.place q) a 14 3 [lane] none 0) none).2) s1
        let s1 := s1.logPieces 14 3 r.2 fun _ => { addr := a, data := lane.data, cmp := [], pois := v.2 }
        { s := s.sampleIssue s1 act (sectorCount ps) true }
  | .own =>
    let absent := s.absentLines ps
    if bad then poison
    else if !absent.isEmpty then { s := s.replayed, fate := .retry (.line (s.touchedLines ps)) }
    else
      let s1 := (ready s).countOver ps
      let s1 := match spReduce s.curGrid.alloc a with
        | some o =>
          let old := spadPBytes (s1.team s1.curTeam) o 8
          let new := rmwNew 14 8 (old.map Prod.fst) lane.data []
          let m := v.2 || anyPois old
          ((s1.modTeam s1.curTeam fun x => spPutP x o 8 (new.map fun b => (b, m))).countStored [new.map fun b => (b, m)]).recheckAll
        | none => s1
      { s := s.sampleIssue s1 act (wordCount ps) true }
  | .rem u =>
    if bad then poison
    else
      let s1 := ((ready s).launch (.remRmw u a 14 3 [lane] none 0) none).2
      { s := s.sampleIssue s1 act (wordCount ps) true }
  | .gone =>
    if bad then poison
    else { s := s.sampleIssue ((ready s).count s.cur.cl 0x110 1) act (wordCount ps) true }

/-- R410: the effect of `ctrwait`. R261, R262: a wait for a poisoned value counts. -/
def effCtrwait (f : MF) (act : Mask) (s : State) : Eff :=
  let a := s.mSum f 0
  let bad := s.mPois f act != 0
  let v := s.ctrOperand f
  let w := Park.counter (s.ctrLoc f) v.1 f.scp.toNat f.rmt
  let poison : Eff := { s := s, fate := .trap (Trap.scalar 0x0B act 0 (w64 a)) }
  let tests := fun (s : State) => if v.2 then s.count s.cur.cl 0x3A0 1 else s
  if a % 8 != 0 then { s := s, fate := .trap (Trap.scalar 0x09 act 0 (w64 a)) }
  else
    match s.mTarget f with
    | .glob =>
      let r := s.lookup .load (s.scalarPieces f act 8)
      if !r.2.isEmpty then { s := s.replayed, fate := .trap (Trap.scalar 0x0A act 0 (w64 a)) }
      else if bad then poison
      else if s.orderHeld .load r.1 then { s := s, fate := .stall }
      else { s := s.sampleIssue (tests (s.touchPages .load r.1)) act 1 false, fate := .park w }
    | _ => if bad then poison else { s := s.sampleIssue (tests s) act 2 false, fate := .park w }

/-! ### Remote accesses -/

/-- R168: is the operation the oldest of its group to the same team. -/
def remFirst (s : State) (f : Flight) (t : Nat) : Bool :=
  (s.flights.find? fun x => toRank t x.body && x.g == f.g && x.t == f.t && x.grp == f.grp).all fun x => x.id == f.id

/-- R137, R150: is a line of a resident team's scratchpad within n bytes from each offset absent. R150 leaves a line that is absent
in a saved team's image open: an access by rank, or a copy's read, to it is applied at once (log 49, DESIGN CHOICE). -/
def remAbsent (s : State) (g t : Nat) (os : List (Nat × Nat)) : Bool :=
  let x := s.team (teamKey g t)
  x.st == .resident && (os.flatMap fun o => pieces 0 o.1 o.2).any fun p => match spReduce (s.grid g).alloc p.at_ with
    | some r => (linesOf r p.n).any fun l => !linePresent x l
    | none => false

/-- R150: can a message to a team be applied now; `none` when it is dropped. -/
def reachable (s : State) (g t : Nat) : Option Bool :=
  match (s.team (teamKey g t)).st with
  | .resident | .saved => some true
  | .pending | .exited => none
  | _ => some false

/-- A range of a team's scratchpad, byte by byte from an offset sum: the bytes in reach, with marks; beyond the
allocation zero. -/
def remBytes (s : State) (g t a n : Nat) : List PByte :=
  (List.range n).map fun i => match spReduce (s.grid g).alloc ((a + i) % pow2 64) with
    | some o => ((s.spadRead g t o 1).getD 0 0, s.spadReadPois g t o 1)
    | none => (0, false)

/-- Bytes written to a team's scratchpad from an offset sum. -/
def remWrite (s : State) (g t a : Nat) (bs : List PByte) : State :=
  match spReduce (s.grid g).alloc a with
  | some o => s.spadWriteP g t o bs
  | none => s

/-- R134: how many of some offset sums lie beyond the allocation. -/
def remOver (s : State) (g : Nat) (as : List Nat) : Nat := (as.filter fun a => (spReduce (s.grid g).alloc a).isNone).length

/-- R160, R407: an operation's lanes applied in turn to one location's bytes; the old values, by lane. -/
def applyLanes (op n : Nat) (old : List Byte) (m : Bool) : List RmwLane → (List Byte × Bool) × SMap (List PByte)
  | [] => ((old, m), [])
  | l :: ls =>
    let r := applyLanes op n (rmwNew op n old l.data l.cmp) (rmwPois op m l.pois) ls
    (r.1, SMap.put r.2 l.lane (old.map fun b => (b, m)))

/-- The register writes of an atomic's old values. -/
def rmwWrites (vd n : Nat) (res : SMap (List PByte)) : List RegWr :=
  let ls := res.map Prod.fst
  vecWrites vd (Nat.max 1 (n / 4)) (maskOf fun l => ls.contains l) (res.map fun e => (e.1, loadWords false e.2))

/-- R171: the promotion before an operation with an acquire is performed. -/
def acquireStart (s : State) (f : Flight) : State := s.promoteFor (grpKey f.g f.t f.grp) (f.acq.any Prod.snd)

/-- R139, R169: what the acquire of an operation does when the operation is performed. -/
def acquireEnd (s : State) (f : Flight) : State :=
  match f.acq with
  | some (scp, _) => s.acquireEnds (grpKey f.g f.t f.grp) scp
  | none => s

/-- R163: the accesses that one lane's access of a remote word comes to. -/
def remAccesses (a n : Nat) : List Nat := (pieces 0 a n).map Piece.at_

/-- R168, R410: the counter that a group is parked on, read once its last earlier access to that rank has been performed. -/
def recheckOf (s : State) (gk t : Nat) : State :=
  match (s.group gk).park with
  | some (.counter (.spad _ u _) ..) => if u == t then s.readCounter gk else s
  | _ => s

/-- R150: a remote access performed, or dropped and counted. -/
def remDo (s : State) (f : Flight) : State :=
  let gk := grpKey f.g f.t f.grp
  let s := s.acquireStart f
  let dropped := fun (t n : Nat) => s.count (s.homeCl f.g t) 0x110 n
  let cl := fun (t : Nat) => (s.team (teamKey f.g t)).cl
  match f.body with
  | .remLoad t n offs due vd scalar sx =>
    let here := s.reachable f.g t
    let get := fun a => if here.isSome then s.remBytes f.g t a n else List.replicate n (0, false)
    let each := offs.flatMap fun o => remAccesses o.2 n
    let s := if here.isNone then dropped t each.length else
      let k := s.remOver f.g each
      if k == 0 then s else s.count (cl t) 0x100 k
    let ws := if scalar then
        let v := loadScalar sx (get ((offs.map Prod.snd).getD 0 0))
        [RegWr.scal vd v.1 v.2]
      else
        vecWrites vd (Nat.max 1 (n / 4)) (maskOf fun l => offs.any fun o => o.1 == l)
          (offs.map fun o => (o.1, loadWords sx (get o.2)))
    (((s.acquireEnd f).duePart gk due ws).landed f 0).recheckOf gk t
  | .remStore t runs =>
    if (s.reachable f.g t).isNone then ((dropped t runs.length).landed f 0).recheckOf gk t
    else
      let k := s.remOver f.g (runs.map Prod.fst)
      let s := if k == 0 then s else s.count (cl t) 0x100 k
      let s := runs.foldl (fun s r => s.remWrite f.g t r.1 r.2) s
      -- R262: the marks of the image's sectors that the word covers whole
      let s := s.settleHome (runs.filterMap fun r => (spReduce (s.grid f.g).alloc r.1).bind fun o =>
        (s.imgSpadAt f.g t o).map fun pa => (pa, r.2))
      ((s.landed f 0).recheckOf gk t).recheckAll
  | .remRmw t a op sz lanes due vd =>
    let n := pow2 sz
    let here := (s.reachable f.g t).isSome && (spReduce (s.grid f.g).alloc a).isSome
    let old := if here then s.remBytes f.g t a n else List.replicate n (0, false)
    let r := applyLanes op n (old.map Prod.fst) (anyPois old) lanes
    let s := if here then
        let s := s.remWrite f.g t a (r.1.1.map fun b => (b, r.1.2))
        if r.1.2 then s.count (cl t) 0x3A0 (ceilDiv n 4) else s
      else if (s.reachable f.g t).isNone then dropped t lanes.length else s.count (cl t) 0x100 lanes.length
    let res := if here then r.2 else lanes.map fun l => (l.lane, List.replicate n (0, false))
    let s := s.acquireEnd f
    let s := match due with
      | some d => s.duePart gk d (rmwWrites vd n res)
      | none => s
    ((s.landed f 0).recheckOf gk t).recheckAll
  | _ => s

/-- The target, and the ranges that a remote operation touches. -/
def remTouches : Body → Option (Nat × List (Nat × Nat))
  | .remLoad t n offs _ _ _ _ => some (t, offs.map fun o => (o.2, n))
  | .remStore t runs => some (t, runs.map fun r => (r.1, r.2.length))
  | .remRmw t a _ sz _ _ _ => some (t, [(a, pow2 sz)])
  | _ => none

end State

/-- What a lane load or store names. -/
def laneUses (f : MF) (load : Bool) : Uses :=
  { vr := f.addrRegs ++ (if load then [] else f.dataRegs), vw := if load then f.dataRegs else [], sr := f.addrScalars, tw := f.tw }

/-- `ld` (R403). -/
def execLd (h : Hdr) (f : MF) (s : State) : Host.Outcome State Fault Refusal :=
  .next (s.memWord h f (laneUses f true) fun act s => State.effLd h f act s)

/-- `st` (R403). -/
def execSt (h : Hdr) (f : MF) (s : State) : Host.Outcome State Fault Refusal :=
  .next (s.memWord h f (laneUses f false) fun act s => State.effSt f act s)

/-- `sld` (R404). -/
def execSld (h : Hdr) (f : MF) (s : State) : Host.Outcome State Fault Refusal :=
  .next (s.memWord h f { sr := f.addrScalars, tw := f.tw } fun act s =>
    if act == 0 then { s := s.sampleIssue (s.acquireNow f) act 0 false }
    else State.effSld h f (f.vd.toNat % 64) f.size false act s)

/-- `sst` (R404). -/
def execSst (h : Hdr) (f : MF) (s : State) : Host.Outcome State Fault Refusal :=
  .next (s.memWord h f { sr := f.vd.toNat % 64 :: f.addrScalars, tw := f.tw } fun act s =>
    if act == 0 then { s := s.sampleIssue (s.releaseNow f []) act 0 true } else State.effSst f act s)

/-- The scalars of a counter word. -/
def ctrUses (f : MF) : Uses :=
  { sr := f.addrScalars ++ (if f.vd.getLsbD 7 then [] else [f.vd.toNat % 64]), tw := f.tw }

/-- `ctradd` (R409). -/
def execCtradd (h : Hdr) (f : MF) (s : State) : Host.Outcome State Fault Refusal :=
  .next (s.memWord h f (ctrUses f) fun act s =>
    if act == 0 then { s := s.sampleIssue (s.releaseNow f []) act 0 true } else State.effCtradd f act s)

/-- `ctrwait` (R410): the group parks, and the counter is read. -/
def execCtrwait (h : Hdr) (f : MF) (s : State) : Host.Outcome State Fault Refusal :=
  .next ((s.memWord h f (ctrUses f) fun act s =>
    if act == 0 then { s := s.sampleIssue (s.acquireNow f) act 0 false } else State.effCtrwait f act s).readCounter s.curGrp)

/-- `ctrrd` (R411). -/
def execCtrrd (h : Hdr) (f : MF) (s : State) : Host.Outcome State Fault Refusal :=
  .next (s.memWord h f { sr := f.addrScalars, tw := f.tw } fun act s =>
    if act == 0 then { s := s.sampleIssue (s.acquireNow f) act 0 false }
    else State.effSld h f (f.vd.toNat % 64) 8 true act s)

/-- `waitk` (R415). -/
def execWaitk (h : Hdr) (f : MF) (s : State) : Host.Outcome State Fault Refusal :=
  .next (s.issueWord h {} fun _ s =>
    if s.grp.tokensDone f.tw then { s := s } else { s := s, fate := .park (.token f.tw) })

/-- `pf` (R416): the lines of the active lanes, into the L1 unless SX is set; lanes whose page fails are counted. -/
def execPf (h : Hdr) (f : MF) (s : State) : Host.Outcome State Fault Refusal :=
  .next (s.issueWord h { vr := f.addrRegs, sr := f.addrScalars, tw := f.tw } fun act s =>
    let bad := s.mPois f act
    if bad != 0 then { s := s, fate := .trap (s.lanePoison f bad 0) }
    else
      let s0 := s
      let r := s.lookup .load (act.lanes.map fun l => { lane := l, idx := 0, at_ := s.mSum f l, n := 1 })
      let s := if r.2.isEmpty then s else s.count s.cur.cl 0x118 r.2.length
      let s := r.1.foldl (fun s q => match s.tlbLookup s.curCore s.curPart q.p.at_ with
        | some e => s.tlbTouch s.curCore e q.p.at_
        | none => s) s
      let s := if f.sx then s else r.1.foldl (fun s q =>
        if q.mt == 0 then (List.range 4).foldl (fun s i => s.fillSector s.curCore (q.pa / 128 * 4 + i)) s else s) s
      { s := s0.sampleIssue s act (4 * (distinct (r.1.map fun q => q.pa / 128)).length) false })

/-- `fence` (R170, R417). -/
def execFence (h : Hdr) (f : MF) (s : State) : Host.Outcome State Fault Refusal :=
  .next (s.accessWord h { tw := f.tw } (some f.scp.toNat) fun _ s =>
    { s := (s.releaseBy s.curGrp f.scp.toNat).acquireBy s.curGrp f.scp.toNat false })

/-- REMOTE_ACCESS (R138, R150, R168): a remote access arrives: it is held while its team moves, is saved or restored or the
line is absent, and until the earlier accesses of its group to that team are applied. -/
def execRemoteAccess (s : State) : Host.Outcome State Fault Refusal :=
  .next (match s.flight s.ev.id with
    | some f =>
      match State.remTouches f.body with
      | some (t, os) =>
        if !s.remFirst f t || s.reachable f.g t == some false || s.remAbsent f.g t os then s else s.remDo f
      | none => s
    | none => s)

end Sys2Proof.Machine
end

