-- ==== Sys2Proof/Machine/Queues.lean ====
section
/-! DEFINITION. The device-visible queues (R50 to R53) and the words that push to and pop from them (R412 to R414). -/

namespace Sys2Proof.Machine

/-- R50: entries of a queue, and bytes of an entry. -/
def Queue.count (x : Queue) : Nat := pow2 x.log2n.toNat
def Queue.size (x : Queue) : Nat := 64 * pow2 x.esz.toNat
/-- R50: the partition that owns a queue. -/
def Queue.part (x : Queue) : Nat := x.owner.toNat % 8
/-- R413: the address of the slot of an index. -/
def Queue.slotAt (x : Queue) (i : Nat) : Nat := x.base.toNat + i % x.count * x.size

namespace State

/-- R50: the counters of a queue. -/
def qTail (s : State) (q : Nat) : W64 := let x := s.queue q; s.vaQ x.part x.taila.toNat
def qHead (s : State) (q : Nat) : W64 := let x := s.queue q; s.vaQ x.part x.heada.toNat
/-- R152: the device reads the head counter of a queue, or both counters: A in the leaves that map them. -/
def headRead (s : State) (q : Nat) : State := let x := s.queue q; s.vaTouch x.part x.heada.toNat 8 false
def tailRead (s : State) (q : Nat) : State := let x := s.queue q; s.vaTouch x.part x.taila.toNat 8 false
def queueRead (s : State) (q : Nat) : State := (s.headRead q).tailRead q
/-- tail − head. -/
def qHeld (s : State) (q : Nat) : Nat := (s.qTail q - s.qHead q).toNat

/-- The claims of a queue in order. -/
def isPush (q : Nat) (f : Flight) : Bool := match f.body with
  | .push p _ _ _ => p == q
  | _ => false
def isPop (q : Nat) (f : Flight) : Bool := match f.body with
  | .pop p _ _ _ _ _ => p == q
  | _ => false

/-- A parked group of a claim wakes. -/
def wakeClaim (s : State) (gk q index : Nat) (pop : Bool) : State :=
  match (s.group gk).park with
  | some (.queue q' pop' i _ _) => if q' == q && pop' == pop && i == index then s.wake gk else s
  | _ => s

/-- R413, R414, R432: may a claim be served: its team is resident, or its transfer had begun before the team's save or
move. -/
def claimServed (s : State) (f : Flight) : Bool :=
  (s.team (teamKey f.g f.t)).st == .resident || !s.claimParked f

/-- R413: room for a claim. -/
def pushRoom (s : State) (q i : Nat) : Bool := (w64 i - s.qHead q).toNat < (s.queue q).count

/-- R413: a push's entry written, the tail advanced with a system-scope release, and the status. -/
def pushDo (s : State) (f : Flight) : State :=
  match f.body with
  | .push q i entry status =>
    let x := s.queue q
    let a := x.slotAt i
    let gk := grpKey f.g f.t f.grp
    let s := match s.walkFor x.part a true with
      | some (pa, mt) =>
        let s := s.vaTouch x.part a entry.length true
        if mt == 1 then (s.hostWrite pa (entry.map Prod.fst)).logLeak f.g 0 a entry.length 0
        else ((s.dropRange (s.coreOfGrp gk) pa entry.length).devWriteP pa entry).countWritten (f.core / 6) [entry]
      | none => s
    let s := if x.cons == 0 then s.modQueue q fun x => { x with pushers := x.pushers.put i (f.g, (s.grid f.g).root13) } else s
    let s := ((s.gridAdd f.g x.part x.taila.toNat 1).logLeak f.g 2 x.taila.toNat 8 0).noteAdder f.g f.t (.glob x.taila.toNat)
    let s := s.unitScalar gk status (w64 (i * 256))
    (s.dropFlight f.id).wakeClaim gk q i false
  | _ => s

/-- Bytes put at a place, with one mark. -/
def placeWrite (s : State) (pl : Place) (bs : List Byte) (pois : Bool) : State :=
  match pl with
  | .dev pa => s.devWrite pa bs pois
  | .host pa _ => s.hostWrite pa bs
  | .spad g t off => s.spadWrite g t off bs pois

/-- R414: a pop's entry copied to its destination, the head advanced with a system-scope release, the status, and the
acquire. -/
def popDo (s : State) (f : Flight) : State :=
  match f.body with
  | .pop q i dst lines status due =>
    let x := s.queue q
    let gk := grpKey f.g f.t f.grp
    let src := s.walkFor x.part (x.slotAt i) false
    let bs : List PByte := match src with
      | some (pa, mt) => if mt == 1 then (s.hostRead pa x.size).map fun b => (b, false) else s.devReadP pa x.size
      | none => List.replicate x.size (0, false)
    -- R134: an entry beyond the allocation is dropped; R263: so is a poisoned one for host memory, with an error event
    let s := match dst with
      | .spad g t off =>
        let ws : List (Nat × List PByte) := (List.range (x.size / 4)).filterMap fun j =>
          (spReduce (s.grid g).alloc ((off + 4 * j) % pow2 64)).map fun o => (o, (bs.drop (4 * j)).take 4)
        let s := ws.foldl (fun (s : State) (w : Nat × List PByte) => s.spadWrite g t w.1 (w.2.map Prod.fst) (anyPois w.2)) s
        (s.settleHome (ws.filterMap fun (w : Nat × List PByte) => (s.imgSpadAt g t w.1).map fun pa => (pa, w.2))).countWritten (f.core / 6)
          (ws.map Prod.snd)
      | .dev pa => ((s.dropRange (s.coreOfGrp gk) pa x.size).devWriteP pa bs).countWritten (f.core / 6) [bs]
      | .host pa va =>
        if anyPois bs then s.errorEvent f.g 2 0 f.t f.grp
        else (s.hostWrite pa (bs.map Prod.fst)).logLeak f.g 0 va x.size 0
    let s := (s.landLines f.g f.t lines).vaTouch x.part (x.slotAt i) x.size false
    let s := ((s.gridAdd f.g x.part x.heada.toNat 1).logLeak f.g 2 x.heada.toNat 8 0).noteAdder f.g f.t (.glob x.heada.toNat)
    let s := s.duePart gk due [.scal status (w64 (i * 256)) 0]
    let s := if f.acq.isSome then s.acquireEnds gk 5 else s
    (s.dropFlight f.id).wakeClaim gk q i true
  | _ => s

/-- R413, R414: a claim ended with code 1. -/
def claimFail (s : State) (f : Flight) : State :=
  let gk := grpKey f.g f.t f.grp
  match f.body with
  | .push q i _ status =>
    let s := s.unitScalar gk status 1
    (s.dropFlight f.id).wakeClaim gk q i false
  | .pop q i _ lines status due =>
    let s := (s.landLines f.g f.t lines).duePart gk due [.scal status 1 0]
    (s.dropFlight f.id).wakeClaim gk q i true
  | _ => s

/-- R413: QEN is cleared or OVF is set: claims that wait end with code 1, those whose transfer has begun complete, and the
pointers return to the counters. -/
def queueStop (s : State) (q : Nat) : State :=
  let fs := s.flights.filter fun f => isPush q f || isPop q f
  let waits := fs.filter s.claimParked
  let begun := fs.filter fun f => !s.claimParked f
  let s := waits.foldl claimFail s
  let s := begun.foldl (fun s f => if isPop q f then s.popDo f else s.pushDo f) s
  (s.queueRead q).modQueue q fun x => { x with claim := s.qTail q, pop := s.qHead q }

/-- R53: a consumer read more than N entries: OVF. -/
def queueOverflow (s : State) (q : Nat) : State := (s.modQueue q fun x => { x with ovf := true, halted := true }).queueStop q

/-- R464: a pop of a discarded team whose transfer has begun: its entry no longer goes to the team's scratchpad. -/
def disown : Body → Body
  | .pop q i (.spad _ _ _) _ status due => .pop q i (.spad noGrid 0 0) [] status due
  | b => b

/-- R413, R414, R432: the claims for which groups of a discarded team are parked are withdrawn; a pointer steps back over its last
claim. A pop whose transfer has begun goes on without the team. -/
def withdrawClaims (s : State) (tk : Nat) : State :=
  let mine := s.flights.filter fun f => teamKey f.g f.t == tk && s.claimParked f
  let s := mine.reverse.foldl (fun s f =>
    let s := s.dropFlight f.id
    match f.body with
    | .push q i _ _ => if (s.queue q).claim == w64 (i + 1) then s.modQueue q fun x => { x with claim := w64 i } else s
    | .pop q i _ _ _ _ => if (s.queue q).pop == w64 (i + 1) then s.modQueue q fun x => { x with pop := w64 i } else s
    | _ => s) s
  { s with flights := s.flights.map fun f => if teamKey f.g f.t == tk then { f with body := disown f.body } else f }

/-- R412: does a queue word end with code 1. -/
def queueRefuses (s : State) (v : W64) (push : Bool) : Bool :=
  let q := v.toNat
  let x := s.queue q
  4096 ≤ q || !(x.ownv && x.part == s.curPart) || !x.en || x.ovf || x.halted || (if push then x.prod != 1 else x.cons != 1)

/-- R412: the address of a queue word's entry. -/
def entryAt (s : State) (f : MF) : Nat := (s.src.sget f.sb.toNat + f.off.signExtend 64).toNat

/-- R412, R418: the trap of a queue word, judged before its code 1 (R337): the entry's alignment is that of the entry size of the
queue that the word names, whoever owns it; a number that names no queue gives none. -/
def entryTrap (s : State) (f : MF) (act : Mask) (v : W64) (a : Acc) : Option Trap :=
  let at_ := s.entryAt f
  let x := s.queue v.toNat
  if v.toNat < 4096 && at_ % x.size != 0 then some (Trap.scalar 0x09 act 0 (w64 at_))
  else if f.spc == 0 && (s.xlat s.curCore s.curPart at_ a).isNone then some (Trap.scalar 0x0A act 0 (w64 at_))
  else if s.src.sgetPois f.sb.toNat != 0 then some (Trap.scalar 0x0B act 0 (w64 at_))
  else none

/-- The bytes of an entry in scratchpad, from offset `o`: zero beyond the allocation. -/
def entryPieces (at_ n : Nat) : List Piece :=
  (List.range (n / 4)).map fun i => { lane := 0, idx := 4 * i, at_ := (at_ + 4 * i) % pow2 64, n := 4 }

end State

/-- What a queue word reads. -/
def queueUses (f : MF) : Uses := { sr := [f.vd.toNat % 64, f.sb.toNat], tw := f.tw }

/-- `qpush` (R412, R413). -/
def execQpush (h : Hdr) (f : MF) (s : State) : Host.Outcome State Fault Refusal :=
  .next (s.accessWord h (queueUses f) (some 5) fun act s =>
    let s0 := s
    let v := s.src.sget (f.vd.toNat % 64)
    let q := v.toNat
    let st := f.rk.toNat
    if act == 0 then { s := s.sampleIssue (s.releaseBy s.curGrp 5) act 0 true }
    else
      match s.entryTrap f act v .load with
      | some t => { s := s, fate := .trap t }
      | none =>
        if s.queueRefuses v true then { s := s.sampleIssue ((s.releaseBy s.curGrp 5).putS st 1 false) act 0 true }
        else
          let x := s.queue q
          let at_ := s.entryAt f
          let ps := State.entryPieces at_ x.size
          let absent := if f.spc == 0 then [] else s.absentLines ps
          if !absent.isEmpty then { s := s, fate := .retry (.line (s.touchedLines ps)) }
          else
            let r := match s.xlat s.curCore s.curPart at_ .load with
              | some (pa, mt) =>
                if f.spc == 0 then
                  let s := s.xlatTouch s.curCore s.curPart at_ .load
                  let r := s.glLoad s.curCore pa mt x.size
                  (r.1, State.loadMarks s.curCore pa mt r)
                else (s.countOver ps, (s.readSpads ps).get 0 [])
              | none => (s.countOver ps, (s.readSpads ps).get 0 [])
            let i := x.claim.toNat
            let ringHost := match s.walkFor x.part (x.slotAt i) true with
              | some (_, mt) => mt == 1
              | none => false
            if ringHost && anyPois r.2 then { s := s, fate := .trap (Trap.scalar 0x0B act 1 (w64 at_)) }
            else
              let s := (r.1.releaseBy s.curGrp 5).modQueue q fun y => { y with claim := y.claim + 1 }
              -- R399: its status wins over a result that the cycle's primary word leaves due
              let s := s.overPrimary [st]
              let first := !s.flights.any (State.isPush q)
              let fl := s.launch (.push q i r.2 st) none
              let s := s0.sampleIssue fl.2 act (if f.spc == 0 then (sectorsOf at_ x.size).length else x.size / 4) true
              -- R152: the room is judged by the head counter, which the lowest claim reads
              let t := if first then s.headRead q else s
              if first && s.pushRoom q i then
                match s.flights.getLast? with
                | some y => { s := t.pushDo y }
                | none => { s := t }
              else { s := t, fate := .park (.queue q false i st (.glob x.heada.toNat)) })

/-- `qpop` (R412, R414): the claim, and a status that is due when the entry has landed. -/
def execQpop (h : Hdr) (f : MF) (s : State) : Host.Outcome State Fault Refusal :=
  .next (s.accessWord h (queueUses f) none fun act s =>
    let s0 := s
    let v := s.src.sget (f.vd.toNat % 64)
    let q := v.toNat
    let st := f.rk.toNat
    if act == 0 then { s := s.sampleIssue (s.acquireBy s.curGrp 5 false) act 0 false }
    else
      match s.entryTrap f act v .store with
      | some t => { s := s, fate := .trap t }
      | none =>
        let fail := fun (s : State) => s0.sampleIssue (s.addDue h.la.toNat [(1, st)] [.scal st 1 0] 0) act 0 false
        if s.queueRefuses v false then { s := fail s }
        else
          let x := s.queue q
          let at_ := s.entryAt f
          let ps := State.entryPieces at_ x.size
          let lines := if f.spc == 0 then [] else
            distinct (ps.flatMap fun p => match State.spReduce s.curGrid.alloc p.at_ with
              | some o => linesOf o p.n
              | none => [])
          let held := s.qHeld q
          let s := s.queueRead q
          if x.count < held then { s := fail (s.queueOverflow q) }
          else if !s.landRoom lines then { s := s, fate := .stall }
          else
            let i := x.pop.toNat
            let s := s.modQueue q fun y => { y with pop := y.pop + 1 }
            let dst : Place := match s.xlat s.curCore s.curPart at_ .store with
              | some (pa, mt) => if f.spc == 0 then (if mt == 1 then .host pa at_ else .dev pa) else .spad s.cur.g s.cur.t at_
              | none => .spad s.cur.g s.cur.t at_
            let s := if f.spc == 0 then s.xlatTouch s.curCore s.curPart at_ .store else s.countOver ps
            let s := s.raiseLines s.cur.g s.cur.t lines
            let due := s.nextId
            let s := s.addDue h.la.toNat [(1, st)] [] 1
            let s := (s.launch (.pop q i dst lines st due) (some (5, false))).2
            let s := s0.sampleIssue s act (if f.spc == 0 then (sectorsOf at_ x.size).length else x.size / 4) false
            if i < (s.qTail q).toNat then { s := s }
            else { s := s, fate := .park (.queue q true i st (.glob x.taila.toNat)) })

/-- QPUSH_SLOT_WRITE (R413): the lowest claim of a queue writes its entry, once there is room. -/
def execQpushSlotWrite (s : State) : Host.Outcome State Fault Refusal :=
  let q := s.ev.q
  .next (match s.flights.find? (State.isPush q) with
    | some f =>
      match f.body with
      | .push _ i _ _ =>
        if !s.claimServed f then s
        else if s.pushRoom q i then (s.headRead q).pushDo f
        else s.headRead q
      | _ => s
    | none => s)

/-- QPOP_ENTRY_COPY (R414): the lowest claim of a queue is served, once the tail has passed it. A consumer that finds more
than N entries stops the queue (R53). -/
def execQpopEntryCopy (s : State) : Host.Outcome State Fault Refusal :=
  let q := s.ev.q
  .next (match s.flights.find? (State.isPop q) with
    | some f =>
      match f.body with
      | .pop _ i _ _ _ _ =>
        if !s.claimServed f then s
        else if (s.queue q).count < s.qHeld q then (s.queueRead q).queueOverflow q
        else if i < (s.qTail q).toNat then (s.queueRead q).popDo f
        else s.queueRead q
      | _ => s
    | none => s)

end Sys2Proof.Machine
end

