-- ==== Sys2Proof/Machine/Atomics.lean ====
section
/-! DEFINITION. The atomics (R405 to R408), the units that execute them (R160, R407), the float-atomic buffer and its token
(R257, R258). -/

namespace Sys2Proof

/-- R406: the data registers of an atomic: for a cas the compare value, then the new value. -/
def MF.atomRegs (f : MF) (cas : Bool) : List Nat :=
  (List.range (if cas then 2 * f.size / 4 else Nat.max 1 (f.size / 4))).map fun i => f.vd.toNat + i

end Sys2Proof

namespace Sys2Proof.Machine
namespace State

/-- R405, R406: the operation of a lane at its location; it is poisoned when a word that it reads is, the compare value too. -/
def rmwLane (s : State) (f : MF) (op l : Nat) : RmwLane :=
  let d := laneData s.src (f.atomRegs (op == 10)) (if op == 10 then 2 * f.size else f.size) l
  let n := if op == 10 then d.drop f.size else d
  { lane := l, data := n.map Prod.fst, cmp := if op == 10 then (d.take f.size).map Prod.fst else [], pois := anyPois d }

/-- Lanes grouped by a key, each group in lane order, in order of first appearance. -/
def byKey (l : List (Nat × Nat)) : List (Nat × List Nat) :=
  (distinct (l.map Prod.fst)).map fun k => (k, (l.filter fun e => e.1 == k).map Prod.snd)

/-- R258: a reduction of a team without the token enters the float-atomic buffer, a lane an entry. -/
def bufferFloat (s : State) (f : MF) (op : Nat) (act : Mask) : State :=
  let new := act.lanes.map fun l =>
    let d := s.rmwLane f op l
    ({ g := s.cur.g, t := s.cur.t, grp := s.cur.grp, addr := s.mSum f l, op := op - 11, operand := w32 (leNat d.data)
       pois := d.pois, id := s.nextId, lane := l, pc := s.cur.pc } : FloatEntry)
  s.modCore s.curCore fun c => { c with fbuf := c.fbuf ++ new }

/-- R408: what a float atomic of a deterministic grid does: wait, enter the buffer, or go on. -/
inductive FloatWay
  | wait
  | buffer
  | direct
  deriving DecidableEq, Repr

/-- R257, R258. -/
def floatWay (s : State) (ret : Bool) (n : Nat) : FloatWay :=
  let holder := s.curGrid.token == s.cur.t
  let mine := (s.core s.curCore).fbuf.any fun e => e.g == s.cur.g && e.t == s.cur.t
  if holder then (if mine then .wait else .direct)
  else if ret then .wait
  else if (s.core s.curCore).fbuf.length + n ≤ 256 then .buffer else .wait

/-- R405: the effect of an atomic, by its code of R480. -/
def effAtom (h : Hdr) (f : MF) (op : Nat) (act : Mask) (s : State) : Eff :=
  let n := f.size
  let ret := !f.sx
  let regs := (List.range (Nat.max 1 (n / 4))).map fun i => f.vd.toNat + i
  let sums := act.lanes.map fun l => (l, s.mSum f l)
  let mis := sums.filter fun x => x.2 % n != 0
  let ps : List Piece := sums.map fun x => { lane := x.1, idx := 0, at_ := x.2, n := n }
  let bad := s.mPois f act
  let poison := fun (m : Mask) => ({ s := s, fate := .trap (s.lanePoison f m (bit (bad == 0))) } : Eff)
  let acq := if f.isAcq then some (f.scp.toNat, f.rmt) else none
  let due := s.nextId
  let addDue := fun (s : State) (left : Nat) => if ret then s.addDue h.la.toNat (regs.map fun r => (0, r)) [] left else s
  let dst := if ret then some due else none
  let now := fun (s1 : State) (res : SMap (List PByte)) =>
    if ret && act != 0 then s1.addDue h.la.toNat (regs.map fun r => (0, r)) (rmwWrites f.vd.toNat n res) 0 else s1
  if !mis.isEmpty then
    { s := s, fate := .trap { cause := 0x09, mask := maskOf fun l => mis.any fun x => x.1 == l
                              addrs := mis.map fun x => (x.1, w64 x.2) } }
  else
  match s.mTarget f with
  | .glob =>
    let fl := 11 ≤ op && s.curGrid.det
    let r := s.lookup .store ps
    let way := if fl then s.floatWay ret act.count else .direct
    -- R258: a buffered entry is translated when it drains; a word that waits for room or for the token is looked at when it
    -- goes on
    let leak := if way != .direct then 0 else
      lanesOf ((r.1.filter fun q => q.mt == 1 && (s.rmwLane f op q.p.lane).pois).map GPiece.p)
    if act != 0 && way == .wait then { s := s, fate := .stall }
    else if ret && !r.2.isEmpty then { s := s.replayed, fate := .trap (loadFault r.2) }
    else if bad ||| leak != 0 then poison (bad ||| leak)
    else if act == 0 then { s := s.sampleIssue ((s.releaseNow f []).acquireNow f) act 0 f.sx }
    else if way == .buffer then
      { s := s.sampleIssue ((s.releaseNow f (act.lanes.map (s.mSum f))).bufferFloat f op act) act (sectorCount ps) true }
    else if s.bufferHeld r.2 then { s := s, fate := .stall }
    else
      match if r.2.isEmpty then none else s.logWait op f.sz.toNat r.2 with
      | some w => { s := (s.count s.cur.cl 0x128 1).replayed, fate := .retry w }
      | none =>
        let locs := byKey (r.1.map fun q => (2 * q.pa + bit (q.mt == 1), q.p.lane))
        let s1 := addDue ((s.releaseNow f (act.lanes.map (s.mSum f))).touchPages .store r.1) locs.length
        let s1 := locs.foldl (fun s1 e =>
          let va := s.mSum f (e.2.getD 0 0)
          let pl := if e.1 % 2 == 1 then Place.host (e.1 / 2) va else Place.dev (e.1 / 2)
          (s1.launch (.rmw pl va op f.sz.toNat (e.2.map (s.rmwLane f op)) dst f.vd.toNat) acq).2) s1
        let s1 := s1.logPieces op f.sz.toNat r.2 fun l =>
          let d := s.rmwLane f op l
          { addr := s.mSum f l, data := d.data, cmp := d.cmp, pois := d.pois }
        { s := s.sampleIssue s1 act (sectorCount ps) f.sx }
  | .own =>
    let absent := s.absentLines ps
    if bad != 0 then poison bad
    else if !absent.isEmpty then { s := s.replayed, fate := .retry (.line (s.touchedLines ps)) }
    else
      let s1 := ((s.releaseNow f (act.lanes.map (s.mSum f))).acquireNow f).countOver ps
      let x := ps.foldl (fun (x : State × SMap (List PByte)) p =>
        match spReduce s.curGrid.alloc p.at_ with
        | some o =>
          let old := spadPBytes (x.1.team s.curTeam) o n
          let d := s.rmwLane f op p.lane
          let new := rmwNew op n (old.map Prod.fst) d.data d.cmp
          let m := rmwPois op (anyPois old) d.pois
          ((x.1.modTeam s.curTeam fun y => spPutP y o n (new.map fun b => (b, m))).countStored [new.map fun b => (b, m)],
            x.2.put p.lane old)
        | none => (x.1, x.2.put p.lane (List.replicate n (0, false)))) (s1, [])
      { s := s.sampleIssue (now x.1.recheckAll x.2) act (wordCount ps) f.sx }
  | .rem u =>
    if bad != 0 then poison bad
    else if act == 0 then { s := s.sampleIssue ((s.releaseNow f []).acquireNow f) act 0 f.sx }
    else
      let locs := byKey (sums.map fun x => ((spReduce s.curGrid.alloc x.2).getD x.2, x.1))
      let s1 := addDue (s.releaseNow f (act.lanes.map (s.mSum f))) locs.length
      let s1 := locs.foldl (fun s1 e =>
        (s1.launch (.remRmw u e.1 op f.sz.toNat (e.2.map (s.rmwLane f op)) dst f.vd.toNat) acq).2) s1
      { s := s.sampleIssue s1 act (wordCount ps) f.sx }
  | .gone =>
    if bad != 0 then poison bad
    else
      let s1 := ((s.releaseNow f (act.lanes.map (s.mSum f))).acquireNow f).count s.cur.cl 0x110 ps.length
      { s := s.sampleIssue (now s1 (act.lanes.map fun l => (l, List.replicate n (0, false)))) act (wordCount ps) f.sx }

/-! ### The executing units -/

/-- The float operations by their code of R480, and is an operation in flight a global float atomic. -/
def floatOp (op : Nat) : Bool := 11 ≤ op && op ≤ 13
def isFloatRmw : Body → Bool
  | .rmw _ _ op _ _ _ _ => floatOp op
  | _ => false

/-- Do two operations on one location keep the order in which they issued: those of one group (R167) and, in a deterministic
grid, the float atomics of one team (R177); `fl` says that both are float atomics. -/
def keepOrder (s : State) (g t grp g' t' grp' : Nat) (fl : Bool) : Bool :=
  g == g' && t == t' && (grp == grp' || ((s.grid g).det && fl))

/-- R167, R177: is no earlier operation that must come before it at the same place still to be performed: in flight, in the side
log or, for an atomic, in the float-atomic buffer. The log and the buffer of a saved team lie in its image. -/
def rmwFirst (s : State) (f : Flight) (pl : Place × Nat) : Bool :=
  let fl := isFloatRmw f.body
  ((s.flights.find? fun x => s.keepOrder f.g f.t f.grp x.g x.t x.grp (fl && isFloatRmw x.body) && (match flightPlace x.body with
    | some y => placesMeet y pl
    | none => false)).all fun x => x.id == f.id) &&
  let c := s.core (s.coreOfGrp (grpKey f.g f.t f.grp))
  let x := s.team (teamKey f.g f.t)
  let before := fun (va id g t grp a n : Nat) (fl' : Bool) =>
    id < f.id && s.keepOrder f.g f.t f.grp g t grp (fl && fl') && a < va + pl.2 && va < a + n
  let logged := fun (va : Nat) => (c.sideLog ++ x.savedLog).any fun e => e.recs.any fun r =>
    before va e.id e.g e.t e.grp r.addr (pow2 e.sz) (floatOp e.op)
  match f.body with
  | .rmw _ va _ _ _ _ _ =>
    !((c.fbuf ++ x.savedFloat).any fun e => before va e.id e.g e.t e.grp e.addr 4 true) && !logged va
  | .ctrRead (.glob va) _ _ _ => !logged va
  | _ => true

/-- Bytes at a place, with one mark. -/
def placeRead (s : State) (pl : Place) (n : Nat) : List Byte × Bool :=
  match pl with
  | .dev pa => (s.devRead pa n, s.devPois pa n)
  | .host pa _ => (s.hostRead pa n, false)
  | .spad g t off => (s.spadRead g t off n, s.spadReadPois g t off n)

/-- R262: bytes at a place, each with its mark. -/
def placeReadP (s : State) (pl : Place) (n : Nat) : List PByte :=
  match pl with
  | .dev pa => s.devReadP pa n
  | .host pa _ => (s.hostRead pa n).map fun b => (b, false)
  | .spad g t off => s.spadReadP g t off n

/-- R160: an operation performed on a global location, with the issuing core's L1 brought into step first (R139); the poisoned
words that it leaves are counted (R261). -/
def rmwAt (s : State) (core g : Nat) (pl : Place) (va op sz : Nat) (lanes : List RmwLane) : State × SMap (List PByte) :=
  let n := pow2 sz
  let s := match pl with
    | .dev pa => s.dropRange core pa n
    | _ => s
  let old := s.placeRead pl n
  let r := applyLanes op n old.1 old.2 lanes
  let s := s.placeWrite pl r.1.1 r.1.2
  let s := match pl with
    | .host _ _ => s.logLeak g 0 va n 0
    | _ => s.countWritten (core / 6) [r.1.1.map fun b => (b, r.1.2)]
  (s, r.2)

/-- R407: a global atomic, or a counter read (R411), performed. -/
def atomDo (s : State) (f : Flight) : State :=
  let gk := grpKey f.g f.t f.grp
  match f.body with
  | .rmw pl va op sz lanes due vd =>
    let r := (s.acquireStart f).rmwAt (s.coreOfGrp gk) f.g pl va op sz lanes
    let s := (r.1.acquireEnd f).recheckAll
    let s := match due with
      | some d => s.duePart gk d (rmwWrites vd (pow2 sz) r.2)
      | none => s
    s.landed f 0
  | .ctrRead _ pl due sd =>
    let s := s.acquireStart f
    let s := match pl with
      | .dev pa => s.dropRange (s.coreOfGrp gk) pa 8
      | _ => s
    let old := s.placeRead pl 8
    let s := s.acquireEnd f
    (s.duePart gk due [.scal sd (w64 (leNat old.1)) (if old.2 then 3 else 0)]).landed f 0
  | _ => s

/-! ### The float-atomic token -/

/-- R258: one entry drained: applied, or placed in the side log when its page fails. R263: poison does not go to host
memory: the operation is dropped and an error event posted. -/
def drainOne (s : State) (k : Nat) (e : FloatEntry) : State :=
  let p := (s.grid e.g).part
  let op := e.op + 11
  let lane : RmwLane := { lane := 0, data := leBytes 4 e.operand.toNat, cmp := [], pois := e.pois }
  match s.xlat k p e.addr .store with
  | some (pa, mt) =>
    let s := s.xlatTouch k p e.addr .store
    if mt == 1 && e.pois then s.errorEvent e.g 4 0 e.t e.grp
    else ((s.rmwAt k e.g (if mt == 1 then .host pa e.addr else .dev pa) e.addr op 2 [lane]).1).recheckAll
  | none =>
    s.logEntry k e.g e.t e.grp (e.addr / 65536) op 2 e.pc e.id [e.lane] [{ addr := e.addr, data := lane.data, cmp := [], pois := e.pois }]
      [(e.lane, e.addr)]

/-- R258: may an entry be drained: no earlier operation of its group at its place is out, and the log has room if its
page fails. -/
def drainReady (s : State) (k : Nat) (e : FloatEntry) : Bool :=
  match s.xlat k (s.grid e.g).part e.addr .store with
  | some (pa, mt) =>
    let pl := if mt == 1 then Place.host pa e.addr else .dev pa
    !s.flights.any fun f => f.id < e.id && f.g == e.g && f.t == e.t && f.grp == e.grp && match flightPlace f.body with
      | some x => placesMeet x (pl, 4)
      | none => false
  | none => s.logRoom k 1 1

/-- R258: the holder's entries drained in order, as far as they go. -/
def drainTeam (s : State) (k g t : Nat) : Nat → State
  | 0 => s
  | fuel + 1 =>
    match (s.core k).fbuf.find? fun e => e.g == g && e.t == t with
    | some e =>
      if s.drainReady k e then
        ((s.drainOne k e).modCore k fun c => { c with fbuf := c.fbuf.erase e }).drainTeam k g t fuel
      else s
    | none => s

/-- R257: are all global float atomics of a team performed. -/
def floatsDone (s : State) (g t : Nat) : Bool :=
  (!s.flights.any fun f => f.g == g && f.t == t && isFloatRmw f.body) &&
  s.cores.all fun c => (c.2.fbuf.all fun e => !(e.g == g && e.t == t)) &&
    c.2.sideLog.all fun e => !(e.g == g && e.t == t && floatOp e.op)

end State

/-- What an atomic names. -/
def atomUses (f : MF) (cas : Bool) : Uses :=
  { vr := f.addrRegs ++ f.atomRegs cas, vw := if f.sx then [] else f.atomRegs false, sr := f.addrScalars, tw := f.tw }

/-- The shared form of the atomics (R405). -/
def atomWord (h : Hdr) (f : MF) (op : Nat) (s : State) : State :=
  s.memWord h f (atomUses f (op == 10)) fun act s => State.effAtom h f op act s

/-- `atom.add` (R405). -/
def execAtomAdd (h : Hdr) (f : MF) (s : State) : Host.Outcome State Fault Refusal := .next (atomWord h f 1 s)
/-- `atom.min` (R405). -/
def execAtomMin (h : Hdr) (f : MF) (s : State) : Host.Outcome State Fault Refusal := .next (atomWord h f 2 s)
/-- `atom.minu` (R405). -/
def execAtomMinu (h : Hdr) (f : MF) (s : State) : Host.Outcome State Fault Refusal := .next (atomWord h f 3 s)
/-- `atom.max` (R405). -/
def execAtomMax (h : Hdr) (f : MF) (s : State) : Host.Outcome State Fault Refusal := .next (atomWord h f 4 s)
/-- `atom.maxu` (R405). -/
def execAtomMaxu (h : Hdr) (f : MF) (s : State) : Host.Outcome State Fault Refusal := .next (atomWord h f 5 s)
/-- `atom.and` (R405). -/
def execAtomAnd (h : Hdr) (f : MF) (s : State) : Host.Outcome State Fault Refusal := .next (atomWord h f 6 s)
/-- `atom.or` (R405). -/
def execAtomOr (h : Hdr) (f : MF) (s : State) : Host.Outcome State Fault Refusal := .next (atomWord h f 7 s)
/-- `atom.xor` (R405). -/
def execAtomXor (h : Hdr) (f : MF) (s : State) : Host.Outcome State Fault Refusal := .next (atomWord h f 8 s)
/-- `atom.exch` (R405). -/
def execAtomExch (h : Hdr) (f : MF) (s : State) : Host.Outcome State Fault Refusal := .next (atomWord h f 9 s)
/-- `atom.cas` (R406). -/
def execAtomCas (h : Hdr) (f : MF) (s : State) : Host.Outcome State Fault Refusal := .next (atomWord h f 10 s)
/-- `atom.fadd` (R405, R408). -/
def execAtomFadd (h : Hdr) (f : MF) (s : State) : Host.Outcome State Fault Refusal := .next (atomWord h f 11 s)
/-- `atom.fmin` (R405, R408). -/
def execAtomFmin (h : Hdr) (f : MF) (s : State) : Host.Outcome State Fault Refusal := .next (atomWord h f 12 s)
/-- `atom.fmax` (R405, R408). -/
def execAtomFmax (h : Hdr) (f : MF) (s : State) : Host.Outcome State Fault Refusal := .next (atomWord h f 13 s)

/-- ATOMIC_EXECUTE (R160, R407): an atomic or counter read reaches its executing unit, after the earlier ones of its group
to the same place. -/
def execAtomicExecute (s : State) : Host.Outcome State Fault Refusal :=
  .next (match s.flight s.ev.id with
    | some f =>
      match State.flightPlace f.body with
      | some pl => if s.rmwFirst f pl then s.atomDo f else s
      | none => s
    | none => s)

/-- ATOMIC_TOKEN_PASS (R257, R258): the holder drains its entries; an exited team with nothing outstanding passes the
token on. -/
def execAtomicTokenPass (s : State) : Host.Outcome State Fault Refusal :=
  let g := s.ev.g
  let r := s.grid g
  let x := s.team (teamKey g r.token)
  let k := coreKey x.cl x.co
  .next (if (s.grids.find g).isNone || !r.det || r.nteams ≤ r.token then s
    else
      let s := if x.st == .resident || x.st == .exited then s.drainTeam k g r.token 256 else s
      if (s.team (teamKey g r.token)).st == .exited && s.floatsDone g r.token then
        s.modGrid g fun r => { r with token := r.token + 1 }
      else s)

end Sys2Proof.Machine
end

