-- ==== Sys2Proof/Machine/Ports.lean ====
section
/-! DEFINITION. Fabric ports (R27 to R34): link mode with its replay, stream mode with its fixed latency, and what a PCIe
function may reach (R44). -/

namespace Sys2Proof.Machine

/-! ### Flits -/

/-- R28: one step of the reflected CRC-32. -/
def crcStep : Nat → BitVec 32 → BitVec 32
  | 0, c => c
  | n + 1, c => crcStep n (if c.getLsbD 0 then (c >>> 1) ^^^ 0xEDB88320#32 else c >>> 1)

/-- R28: the CRC-32 of some bytes. -/
def crc32 (bs : List Byte) : BitVec 32 := ~~~(bs.foldl (fun c b => crcStep 8 (c ^^^ b.setWidth 32)) 0xFFFFFFFF#32)

end Sys2Proof.Machine

namespace Sys2Proof

/-- R28: the 12 header bytes of a flit, bit 95 first. -/
def Flit.header (f : Flit) : List Byte :=
  let n := f.ftype.toNat * pow2 92 + f.seq.toNat * pow2 84 + f.ackseq.toNat * pow2 76 + bit f.ackv * pow2 75 +
    f.vc.toNat * pow2 72 + f.dst.toNat * pow2 60 + f.src.toNat * pow2 48 + f.len.toNat * pow2 40 +
    f.tag.toNat * pow2 24 + f.low.toNat
  (leBytes 12 n).reverse

/-- R28: bytes 0 to 251 of a flit. -/
def Flit.body (f : Flit) : List Byte := f.header ++ (f.payload ++ List.replicate 240 0).take 240

/-- R29, R33: are FEC and CRC good. -/
def Flit.sound (f : Flit) : Bool := f.fecOk && Machine.crc32 f.body == f.crc

/-- R29: are FTYPE, VC and LEN of a data flit valid. -/
def Flit.validData (f : Flit) : Bool := f.ftype == 1 && f.vc.toNat ≤ 3 && 1 ≤ f.len.toNat && f.len.toNat ≤ 240

end Sys2Proof

namespace Sys2Proof.Machine
namespace State

/-! ### Functions -/

/-- R44: the partition to which a function is bound. -/
def fnPart : Fn → Option Nat
  | .pf => none
  | .vf n => if 1 ≤ n && n ≤ 8 then some (n - 1) else none

/-- R44: the partition that owns a port, a queue. A queue's descriptor and doorbell page are reached by the partition whose
range of CREATE holds its number; QD3.OWNER serves translation and R45 (log 36, DESIGN CHOICE). -/
def portOwner (s : State) (n : Nat) : Option Nat :=
  (List.range 8).find? fun p => (s.part p).exists_ && (s.part p).ports.getLsbD n
def queueOwner (s : State) (q : Nat) : Option Nat :=
  (List.range 8).find? fun p => (s.part p).exists_ && (s.part p).qfirst ≤ q && q < (s.part p).qfirst + (s.part p).qcount

/-- R44: may a function reach a block of an owner. A block of no partition is to a virtual function as another partition's
(log 36, DESIGN CHOICE). -/
def fnMay (fn : Fn) (owner : Option Nat) : Bool :=
  match fn with
  | .pf => true
  | .vf _ => (fnPart fn).isSome && owner == fnPart fn

/-- R44: a write that is dropped because the block belongs to another partition. -/
def blockWrite (s : State) (fn : Fn) : State :=
  match fnPart fn with
  | some p => s.modPart p fun x => { x with blkacc := satAdd64 x.blkacc 1 }
  | none => s

/-! ### Sending -/

/-- R28: an outgoing flit as bits of a header and a payload. -/
def OutFlit.flit (f : OutFlit) : Flit :=
  { fecOk := true, fecFixed := 0, fecBad := 0, ftype := BitVec.ofNat 4 f.ftype, seq := f.seq, ackseq := f.ackseq
    ackv := f.ackv, vc := BitVec.ofNat 3 f.vc, dst := f.dst, src := f.src, len := f.len, tag := f.tag, low := 0
    payload := f.payload, crc := f.crc }

/-- R28: the flit with the CRC-32 over its bytes 0 to 251. -/
def OutFlit.seal (f : OutFlit) : OutFlit := { f with crc := crc32 (OutFlit.flit f).body }

/-- R28: the 256 bytes of a flit on the link; the CRC's byte order is the model's choice, as R5 has multi-byte values
(log 44). -/
def OutFlit.wire (f : OutFlit) : List Byte := (OutFlit.flit f).body ++ leBytes 4 f.crc.toNat

/-- R29: the last sequence number received in order. -/
def Port.ackSeq (x : Port) : BitVec 8 := x.rxSeq - 1

/-- R28: a data flit as it goes out, for the first time or again: its header names the last flit received in order so far.
ACKV is set once a flit has been accepted since enable (log 44, DESIGN CHOICE). -/
def OutFlit.acked (x : Port) (f : OutFlit) : OutFlit :=
  OutFlit.seal { f with ackseq := Port.ackSeq x, ackv := x.accept != 0 }

/-- R29: waiting flits enter the retry buffer, and are sent, while it has room. -/
def pump (s : State) (n : Nat) : Nat → State
  | 0 => s
  | fuel + 1 =>
    let x := s.port n
    match x.backlog with
    | [] => s
    | f :: rest =>
      if 64 ≤ x.retry.length || !x.up then s
      else
        let f := OutFlit.acked x { f with seq := x.txSeq }
        (s.modPort n fun x =>
          { x with backlog := rest, retry := x.retry ++ [f], sent := x.sent ++ [f], txSeq := x.txSeq + 1, unacked := 0 }).pump
          n fuel

/-- R28, R29: a data flit handed to a port; one that is not enabled in link mode sends nothing. -/
def sendFlit (s : State) (n vc dst src tag : Nat) (payload : List Byte) : State :=
  let x := s.port n
  if !x.en || x.stream then s
  else
    let f : OutFlit :=
      { port := n, ftype := 1, seq := 0, ackseq := 0, ackv := false, vc := vc, dst := BitVec.ofNat 12 dst
        src := BitVec.ofNat 12 src, len := BitVec.ofNat 8 payload.length, tag := BitVec.ofNat 16 tag
        payload := (payload ++ List.replicate 240 0).take 240 }
    (s.modPort n fun x => { x with backlog := x.backlog ++ [f] }).pump n 64

/-- R29: a flit without data: an acknowledgement (FTYPE 2) or a replay request (FTYPE 3). R28 gives such a flit's ACKSEQ a
meaning and gives no value to its other fields: SEQ, VC, DST, SRC, TAG and LEN of 0, a payload of zeros and ACKV 1 are the
model's choice (log 44, DESIGN CHOICE). -/
def sendControl (s : State) (n ftype : Nat) (seq : BitVec 8) : State :=
  let f : OutFlit :=
    { port := n, ftype := ftype, seq := 0, ackseq := seq, ackv := true, vc := 0, dst := 0, src := 0, len := 0, tag := 0
      payload := List.replicate 240 0 }
  s.modPort n fun x => { x with sent := x.sent ++ [OutFlit.seal f] }

/-- R29: an acknowledgement frees every flit up to the one it names, when that one is in the retry buffer; the replays of a
flit that is still unacknowledged stay in a row. -/
def ackTo (s : State) (n : Nat) (seq : BitVec 8) : State :=
  let x := s.port n
  match x.retry.findIdx? fun f => f.seq == seq with
  | none => s
  | some i =>
    (s.modPort n fun x =>
      { x with retry := x.retry.drop (i + 1)
               replays := if (x.retry.take (i + 1)).any fun f => f.seq == x.replaySeq then 0 else x.replays }).pump n 64

/-- R28, R29: flits sent again, each with the acknowledgement of the moment, and counted in REPLAY; those sent again after a
retraining count too (log 44, DESIGN CHOICE). -/
def resend (s : State) (n : Nat) (fs : List OutFlit) : State :=
  s.modPort n fun x =>
    { x with sent := x.sent ++ fs.map (OutFlit.acked x), replay := satAdd64 x.replay fs.length
             unacked := if fs.isEmpty then x.unacked else 0 }

/-- FEC counts of an arriving flit (R34). -/
def fecCount (s : State) (n : Nat) (f : Flit) : State :=
  s.modPort n fun x =>
    { x with fecCorr := satAdd64 x.fecCorr f.fecFixed, fecUnc := satAdd64 x.fecUnc f.fecBad }

/-- R34: a flit dropped for FEC, CRC, FTYPE, VC or LEN. -/
def dropBad (s : State) (n : Nat) : State := s.modPort n fun x => { x with dropBad := satAdd64 x.dropBad 1 }

/-- Is a port up in link mode, in stream mode. -/
def linkUp (s : State) (n : Nat) : Bool := (s.port n).en && (s.port n).up && !(s.port n).stream
def streamUp (s : State) (n : Nat) : Bool := (s.port n).en && (s.port n).up && (s.port n).stream

/-! ### Enabling -/

/-- R32, R51: the pages of a stream port's ring, when its queue is fit for it. R32 refuses a ring that is unmapped: that the
queue's owner must also own the port, and that a ring which is mapped and not writable is refused with ERR as an unmapped
one is, are the model's choice (log 44, DESIGN CHOICE). -/
def streamRing (s : State) (n : Nat) : Option (List Nat) :=
  let q := (s.port n).queue.toNat
  let x := s.queue q
  let p := x.owner.toNat % 8
  if !x.ownv || x.esz != 2 || x.prod != 2 || s.portOwner n != some p then none
  else
    let bytes := pow2 x.log2n.toNat * 256
    let pages := (pagesOf x.base.toNat bytes).map fun g => s.walkFor p (g * 65536) true
    if pages.all Option.isSome then some (pages.filterMap fun r => r.map fun r => pltKey (r.1 / 65536) r.2) else none

/-- R34: a port as EN going from 0 to 1 leaves it, with the pages it pins. -/
def Port.enabled (x : Port) (pages : List Nat) : Port :=
  { x with en := true, enWait := false, retrain := 0, fecCorr := 0, fecUnc := 0, replay := 0, accept := 0, dropBad := 0
           dropFull := 0, txSeq := 0, rxSeq := 0, retry := [], unacked := 0, replays := 0, retraining := false
           backlog := [], rx := [], cycles2 := 0, pages := pages }

/-- R34: a port that is down: it forgets its link's state. -/
def Port.down (x : Port) : Port :=
  { x with en := false, enWait := false, up := false, width := 0, retraining := false, retry := [], backlog := [], rx := []
           unacked := 0, pages := [] }

/-- R34: EN goes from 0 to 1; a stream port without a fit ring is refused with ERR (R32), and one whose pages find no room
in the page-lock table waits for it (R159). -/
def portOn (s : State) (n : Nat) : State :=
  let x := s.port n
  if x.en then s
  else if x.stream then
    match s.streamRing n with
    | some pages =>
      if s.pltRoom pages then (s.pin pages).modPort n fun x => Port.enabled x pages
      else s.modPort n fun x => { x with enWait := true }
    | none => s.modPort n fun x => { x with err := true, enWait := false }
  else s.modPort n fun x => Port.enabled x []

/-- R159: enables that wait for room in the page-lock table. -/
def portsWaiting (s : State) : State :=
  (s.ports.filter fun e => e.2.enWait).foldl (fun s e => s.portOn e.1) s

/-- R34, R45: EN goes to 0: the port is down. -/
def portOff (s : State) (n : Nat) : State :=
  let x := s.port n
  if !(x.en || x.enWait) then s else (s.unpin x.pages).modPort n Port.down

/-- R31: a mode is asked for: refused with ERR while the port is up. A port that is enabled and not yet up is down: it
enters the new mode as if it were enabled in it (log 44). -/
def portMode (s : State) (n : Nat) (stream : Bool) : State :=
  let x := s.port n
  if x.stream == stream then s
  else if x.up then s.modPort n fun x => { x with err := true }
  else if x.en || x.enWait then
    ((s.unpin x.pages).modPort n fun x => { Port.down x with stream := stream }).portOn n
  else s.modPort n fun x => { x with stream := stream }

/-- R34: QUEUE written, while the port is down; a port that is enabled and not yet up is down, and is enabled anew with the
new queue. A write while the port is up leaves QUEUE, and sets no ERR (log 44, DESIGN CHOICE). -/
def portQueue (s : State) (n : Nat) (q : BitVec 16) : State :=
  if (s.port n).up || (s.port n).queue == q then s else (s.portOff n).modPort n fun x => { x with queue := q }

/-- R34: a write of a port's control register. That ERR is cleared first, so that it is set after a write which clears it and is
refused, is the model's choice (log 44, DESIGN CHOICE). -/
def portWrite (s : State) (n : Nat) (v : W64) : State :=
  let s := if v.getLsbD 33 then s.modPort n fun x => { x with err := false } else s
  let s := s.portQueue n (BitVec.ofNat 16 (v.bits 63 48))
  let s := s.portMode n (v.getLsbD 1)
  if v.getLsbD 0 then s.portOn n else s.portOff n

/-- R34: the control register as it reads. -/
def portCtl (x : Port) : W64 :=
  w64 (x.queue.toNat * pow2 48 + x.retrain.toNat * pow2 36 + x.width.toNat * pow2 34 + bit x.err * pow2 33 +
    bit x.up * pow2 32 + bit x.stream * 2 + bit x.en)

/-- R34: a register of a port's block. -/
def portRead (s : State) (n off : Nat) : W64 :=
  let x := s.port n
  match off with
  | 0x00 => portCtl x
  | 0x08 => x.fecCorr
  | 0x10 => x.fecUnc
  | 0x18 => x.replay
  | 0x20 => x.accept
  | 0x28 => x.dropBad
  | 0x30 => x.dropFull
  | _ => 0

/-- R44: an access of a function to a port, or its drop. -/
def portAccess (s : State) (fn : Fn) (n : Nat) (f : State → State) : State :=
  if 48 ≤ n || s.boot.recovery then s else if fnMay fn (s.portOwner n) then f s else s.blockWrite fn

/-! ### Receiving -/

/-- R29: has the receive buffer room; its size is not stated (log 11). -/
def rxRoom (x : Port) : Bool := x.rx.length < Config.rxRoom

/-- R29: a flit turned away: the expected SEQ is asked for again. -/
def askReplay (s : State) (n : Nat) : State := s.sendControl n 3 (s.port n).rxSeq

/-- R60: the physical cluster of a virtual number in a partition. -/
def physCluster (s : State) (p v : Nat) : Option Nat :=
  ((List.range 32).filter fun c => (s.part p).clusters.getLsbD c)[v]?

/-- R220: does a grid of the partition own a cluster's carafe. -/
def carafeOf (s : State) (p cl : Nat) : Bool :=
  match (s.cluster cl).carafe.cfg with
  | some c => (s.grid c.grid).part == p
  | none => false

/-- R220: a deposit's flit joins the chunks that have come; a malformed or foreign one is dropped and counted. -/
def depositFlit (s : State) (n : Nat) (f : Flit) : State :=
  match s.portOwner n with
  | none => s
  | some p =>
    let b := fun (i k : Nat) => leNat ((f.payload.drop i).take k)
    let tok := b 0 4
    let pos := b 4 1
    let idx := b 6 2
    let cnt := b 8 2
    let len := f.len.toNat
    let data := (f.payload.drop 16).take (len - 16)
    let cl := s.physCluster p (b 5 1)
    let shape := 16 < len && b 10 6 == 0 && pos ≤ 7 && idx < cnt && (idx + 1 == cnt || len == 240)
    match cl with
    | none =>
      match s.physCluster p 0 with
      | some c => s.count c 0x330 1
      | none => s
    | some cl =>
      if !(shape && s.carafeOf p cl) then s.count cl 0x330 1
      else
        let mine := fun (x : Flight) => match x.body with
          | .peerDeposit m src c t j k ch _ =>
            m == n && src == f.src.toNat && c == cl && t == tok && j == pos && k == cnt && (ch.find idx).isNone
          | _ => false
        match s.flights.find? mine with
        | some x =>
          match x.body with
          | .peerDeposit m src c t j k ch y => s.setFlight { x with body := .peerDeposit m src c t j k (ch.put idx data) y }
          | _ => s
        | none =>
          let (id, s) := s.fresh
          let x : Flight := { id := id, g := noGrid, cmd := id, body := .peerDeposit n f.src.toNat cl tok pos cnt [(idx, data)] none }
          { s with flights := s.flights ++ [x] }

/-- R29: an accepted flit goes to its unit: VC 2 waits for the collective engine, VC 3 for the carafe; the spec describes no
receiver of VC 0 and 1. -/
def deliver (s : State) (n : Nat) (f : Flit) : State :=
  if f.vc == 2 then s.modPort n fun x => { x with rx := x.rx ++ [f] }
  else if f.vc == 3 then s.depositFlit n f
  else s

/-- R29: every sixteenth flit that is not acknowledged is acknowledged at once. -/
def ackSixteenth (s : State) (n : Nat) : State :=
  let x := s.port n
  if x.unacked < 16 then s else (s.sendControl n 2 (Port.ackSeq x)).modPort n fun x => { x with unacked := 0 }

/-- R29: a data flit arrives in link mode. That the acknowledgement of a flit with good FEC and CRC holds though the flit is then
discarded is the model's choice (log 44, DESIGN CHOICE). -/
def dataFlit (s : State) (n : Nat) (f : Flit) : State :=
  let s := s.fecCount n f
  let s := if f.sound && f.ackv then s.ackTo n f.ackseq else s
  if !(f.sound && f.validData) then (s.dropBad n).askReplay n
  else if f.seq != (s.port n).rxSeq || !rxRoom (s.port n) then s.askReplay n
  else
    ((s.modPort n fun x =>
      { x with accept := satAdd64 x.accept 1, rxSeq := x.rxSeq + 1, unacked := x.unacked + 1 }).ackSixteenth n).deliver n f

/-- R29: a replay request: everything from the flit it names is sent again; after the eighth replay of one flit in a row
the port retrains. -/
def replayFrom (s : State) (n : Nat) (seq : BitVec 8) : State :=
  let x := s.port n
  let again := x.retry.dropWhile fun f => f.seq != seq
  if again.isEmpty then s
  else
    let c := if x.replays != 0 && x.replaySeq == seq then x.replays + 1 else 1
    let s := (s.modPort n fun x => { x with replays := c, replaySeq := seq }).resend n again
    if c < 8 then s
    else
      s.modPort n fun x =>
        { x with replays := 0, retraining := true, up := false, width := 0
                 retrain := if x.retrain == 15 then 15 else x.retrain + 1 }

/-- R33: has the port's queue room for one more entry, beside those it holds and those on their way. A queue that is not
enabled, or that is stopped (R53), has none: its flits count in DROPFULL (log 44, DESIGN CHOICE). -/
def streamRoom (s : State) (n : Nat) : Bool :=
  let q := (s.port n).queue.toNat
  let x := s.queue q
  let p := x.owner.toNat % 8
  let held := (s.vaQ p x.taila.toNat - s.vaQ p x.heada.toNat).toNat
  x.en && !x.halted && held + ((s.port n).entries.filter fun e => e.queue == q).length < pow2 x.log2n.toNat

/-- R33: the bytes of a stream entry. -/
def streamEntry (x : Port) (f : Flit) : List Byte :=
  let n := f.len.toNat
  (f.payload.take n ++ List.replicate 240 0).take 240 ++ leBytes 4 x.accept.toNat ++
    leBytes 4 (x.dropBad.toNat + x.dropFull.toNat) ++ leBytes 8 (x.cycles2 / 2)

/-- R33: a flit arrives in stream mode. -/
def streamFlit (s : State) (n : Nat) (f : Flit) : State :=
  let s := s.fecCount n f
  if !(f.sound && f.ftype == 5 && 1 ≤ f.len.toNat && f.len.toNat ≤ 240) then
    s.dropBad n
  else
    let q := (s.port n).queue.toNat
    let room := s.streamRoom n
    -- R152: the counters of a queue that runs are read
    let s := if (s.queue q).en && !(s.queue q).halted then s.queueRead q else s
    if !room then s.modPort n fun x => { x with dropFull := satAdd64 x.dropFull 1 }
    else
      s.modPort n fun x =>
      let x := { x with accept := satAdd64 x.accept 1 }
      { x with entries := x.entries ++ [{ queue := x.queue.toNat, bytes := streamEntry x f, left := 410 }] }

/-- R32: an entry becomes visible in its queue, and then the queue's tail rises. -/
def streamPut (s : State) (e : StreamEntry) : State :=
  let x := s.queue e.queue
  let p := x.owner.toNat % 8
  let tail := s.vaQ p x.taila.toNat
  (s.vaWrite p (x.base.toNat + tail.toNat % pow2 x.log2n.toNat * 256) e.bytes).deviceAdd p x.taila.toNat 1

/-- R32: the oldest entry, when it has at most `ns` nanoseconds to go, becomes visible. -/
def streamWrite (s : State) (n ns : Nat) : State :=
  match (s.port n).entries with
  | [] => s
  | e :: rest => if ns < e.left then s else (s.modPort n fun y => { y with entries := rest }).streamPut e

/-- R32: no entry is late: before `ns` nanoseconds pass, those whose 410 ns end earlier become visible. -/
def streamsDue (s : State) (ns : Nat) : State :=
  if ns == 0 then s
  else s.ports.foldl (fun s e => e.2.entries.foldl (fun s _ => s.streamWrite e.1 (ns - 1)) s) s

end State

/-! ### The steps -/

/-- PORT_ENABLE (R34). -/
def execPortEnable (s : State) : Host.Outcome State Fault Refusal :=
  .next (s.portAccess s.ev.fn s.ev.n fun s => s.portOn s.ev.n)

/-- PORT_DISABLE (R34). -/
def execPortDisable (s : State) : Host.Outcome State Fault Refusal :=
  .next (s.portAccess s.ev.fn s.ev.n fun s => s.portOff s.ev.n)

/-- PORT_MODE_SET (R31). -/
def execPortModeSet (s : State) : Host.Outcome State Fault Refusal :=
  .next (s.portAccess s.ev.fn s.ev.n fun s => s.portMode s.ev.n s.ev.flag)

/-- R27: the width at which a port has trained: four lanes, or two where one lane could not train. -/
def trainedWidth (four : Bool) : BitVec 2 := if four then 2 else 1

/-- PORT_TRAINED (R27): on four lanes, or on two. -/
def execPortTrained (s : State) : Host.Outcome State Fault Refusal :=
  let x := s.port s.ev.n
  .next (if x.en && !x.up && !x.retraining then
    (s.modPort s.ev.n fun x => { x with up := true, width := trainedWidth s.ev.flag }).pump s.ev.n 64
  else s)

/-- DATA_FLIT_RECEIVE (R29). -/
def execDataFlitReceive (s : State) : Host.Outcome State Fault Refusal :=
  .next (if s.linkUp s.ev.n then s.dataFlit s.ev.n s.ev.flit else s)

/-- ACK_FLIT_RECEIVE (R29). -/
def execAckFlitReceive (s : State) : Host.Outcome State Fault Refusal :=
  let f := s.ev.flit
  .next (if s.linkUp s.ev.n then
    let s := s.fecCount s.ev.n f
    if !f.sound then s.dropBad s.ev.n
    else if f.ftype == 2 && f.ackv then s.ackTo s.ev.n f.ackseq else s
  else s)

/-- REPLAY_REQUEST (R29). -/
def execReplayRequest (s : State) : Host.Outcome State Fault Refusal :=
  let f := s.ev.flit
  .next (if s.linkUp s.ev.n then
    let s := s.fecCount s.ev.n f
    if !f.sound then s.dropBad s.ev.n
    else if f.ftype == 3 then s.replayFrom s.ev.n f.ackseq else s
  else s)

/-- ACK_TIMER (R29). -/
def execAckTimer (s : State) : Host.Outcome State Fault Refusal :=
  let x := s.port s.ev.n
  .next (if s.linkUp s.ev.n && x.unacked != 0 then
    (s.sendControl s.ev.n 2 (State.Port.ackSeq x)).modPort s.ev.n fun x => { x with unacked := 0 }
  else s)

/-- RETRAIN_DONE (R27, R29): the port is up at the width at which it trained, and the unacknowledged flits are sent again. -/
def execRetrainDone (s : State) : Host.Outcome State Fault Refusal :=
  let x := s.port s.ev.n
  .next (if x.en && x.retraining then
    ((s.modPort s.ev.n fun x => { x with retraining := false, up := true, width := trainedWidth s.ev.flag }).resend s.ev.n x.retry).pump s.ev.n 64
  else s)

/-- STREAM_FLIT_RECEIVE (R33). -/
def execStreamFlitReceive (s : State) : Host.Outcome State Fault Refusal :=
  .next (if s.streamUp s.ev.n then s.streamFlit s.ev.n s.ev.flit else s)

/-- STREAM_ENTRY_WRITE (R32). -/
def execStreamEntryWrite (s : State) : Host.Outcome State Fault Refusal := .next (s.streamWrite s.ev.n 0)

end Sys2Proof.Machine
end

