-- ==== Sys2Proof/Machine/Boot.lean ====
section
/-! DEFINITION. Boot, recovery and attestation (R37 to R40). -/

namespace Sys2Proof.Machine
namespace State

/-- R19: the off command on a disabled island's bus. -/
def islandOff (s : State) (cl : Nat) : State :=
  { s with power := { s.power with
      regOff := s.power.regOff ||| BitVec.ofNat 32 (pow2 cl)
      svb := s.power.svb.put (cl / 8) (BitVec.ofNat 16 (32768 + cl % 8 * 4096)) } }

/-- R19: the disabled islands of a 28-cluster part are commanded off. -/
def islandsOff (s : State) : State :=
  if s.fuses.grade28 then ((List.range 32).filter fun c => !s.fuses.enabled.getLsbD c).foldl islandOff s else s

/-- An image as a list of numbers, for its digest. -/
def imageList (x : List (Nat × Byte)) : List Nat := x.flatMap fun e => [e.1, e.2.toNat]

/-- R40, block 4: the fuse state. -/
def fuseBlock (s : State) : List Byte :=
  leBytes 5 (s.fuses.enabled.toNat + pow2 32 * bit s.fuses.grade28 + pow2 33 * bit s.fuses.rGrade)

/-- R40, block 3: the partitions as the monitor has them: the fields of CREATE. Which fields the block covers is the model's choice
(log 7, DESIGN CHOICE). -/
def monitorList (s : State) : List Nat :=
  s.parts.flatMap fun e => if e.2.exists_ then
    [e.1, e.2.clusters.toNat, e.2.harts.toNat, e.2.base, e.2.size, e.2.qfirst, e.2.qcount, e.2.ports.toNat,
      e.2.clsok.toNat, e.2.weight.toNat] else []

/-- R40: a measurement block; the order of the bytes of its parts is the model's (log 7). -/
def measure (s : State) (n : Nat) (v : List Byte) : State := { s with boot := { s.boot with meas := s.boot.meas.put n v } }

/-- A digest as bytes. -/
def digestBytes (d : BitVec 384) : List Byte := leBytes 48 d.toNat

/-- R40, block 2: the digest of an image and its security version. -/
def imageBlock (x : List (Nat × Byte)) : List Byte :=
  digestBytes (Config.sha384 (imageList x)) ++ leBytes 8 (Config.imageVersion x)

/-- R40: block 3 brought up to date. -/
def measureMonitor (s : State) : State := s.measure 3 (digestBytes (Config.sha384 s.monitorList))

/-- R37, phase 4: hart 0 runs the monitor, the fabric ports are all down, and harts 1 to 15 are released. -/
def startMonitor (s : State) : State :=
  { s with
    ports := s.ports.map fun e => (e.1, Port.down e.2)
    harts := ((List.range 15).map fun i => i + 1).foldl (fun m h => m.modify h {} fun x => { x with released := true })
      (s.harts.put 0 { released := true, running := true }) }

/-- R39: the code of an image that does not verify, 0 for one that does. -/
def imageCode (s : State) (x : List (Nat × Byte)) : Nat :=
  if !Config.imageFormed x then 3
  else if !Config.imageSigned x then 1
  else if Config.imageVersion x < s.fuses.minVer then 2
  else 0

/-- R39: the boot ROM awaits an image. -/
def enterRecovery (s : State) : State :=
  { s with boot := { s.boot with recovery := true, phase := 2 }, power := { s.power with state := 5 } }

/-- R37: phases 1 to 5. -/
def bootVerify (s : State) : State :=
  if s.boot.phase != 1 then s
  else
    let s := s.islandsOff
    if !Config.romIntact then s
    else if s.imageCode s.boot.slot != 0 then s.enterRecovery
    else
      let s := s.measure 1 (digestBytes Config.romDigest)
      let s := s.measure 2 (imageBlock s.boot.slot)
      let s := ((s.measureMonitor).measure 4 s.fuseBlock).startMonitor
      { s with boot := { s.boot with phase := 5, recovery := false }, power := { s.power with state := 2 } }

/-- R39: a write of RCVGO. RCVST reads 0 after an image that verifies: the model's choice (log 33, DESIGN CHOICE). -/
def rcvgo (s : State) (v : W64) : State :=
  if !s.boot.recovery || !v.getLsbD 0 then s
  else
    let c := s.imageCode s.boot.staged
    if c == 0 then
      { s with boot := { s.boot with slot := s.boot.staged, recovery := false, phase := 1, rcvst := 0 },
               power := { s.power with state := 1 } }
    else { s with boot := { s.boot with rcvst := w64 c } }

/-- R46: the low bits that a base address register reads and the number of its bits that are fixed, for the register at a
configuration offset: BAR0 of 64 MiB, BAR2 of 16 MiB and BAR4 of 256 GiB, all of 64 bits, BAR4 prefetchable; the places of
the registers and of these bits are PCI's (PRESUMED, log 46). -/
def barFixed : Nat → Nat × Nat
  | 0x10 => (4, 26)
  | 0x18 => (4, 24)
  | 0x20 => (12, 32)
  | 0x24 => (0, 6)
  | _ => (0, 0)

/-- R38, R46: a configuration request; beside the size and kind of the base address registers the contents of configuration
space are not stated (log 11). -/
def configRequest (s : State) : State :=
  if s.boot.phase < 5 then s.answer .retry
  else
    let (i, s) := s.freeIdx
    let b := barFixed s.ev.off
    s.answer (.value (w64 ((Config.freeWord i).toNat % pow2 32 / pow2 b.2 * pow2 b.2 + b.1)))

/-- R40: an SPDM request to a function: virtual functions do not answer. That the physical function answers one in every boot
phase and in recovery, where R38 answers configuration requests with Request Retry Status and R40 is silent, is the model's
choice (log 33, DESIGN CHOICE). -/
def spdm (s : State) (fn : Fn) (r : Reply) : State :=
  match fn with
  | .pf => s.answer r
  | .vf _ => s.answer .none

end State

/-- BOOT_VERIFY (R37, R19). -/
def execBootVerify (s : State) : Host.Outcome State Fault Refusal := .next s.bootVerify
/-- CONFIG_REQUEST (R38). -/
def execConfigRequest (s : State) : Host.Outcome State Fault Refusal := .next s.configRequest
/-- RCVGO (R39). -/
def execRcvgo (s : State) : Host.Outcome State Fault Refusal := .next (s.rcvgo s.ev.v)

/-- GET_VERSION (R40): SPDM 1.3. -/
def execGetVersion (s : State) : Host.Outcome State Fault Refusal :=
  .next (s.spdm s.ev.fn (.spdmVersion 1 3 (Config.spdmBody 1 0)))
/-- GET_CAPABILITIES (R40). -/
def execGetCapabilities (s : State) : Host.Outcome State Fault Refusal :=
  .next (s.spdm s.ev.fn (.bytes (Config.spdmBody 2 0)))
/-- NEGOTIATE_ALGORITHMS (R40): ECDSA P-384 and SHA-384. -/
def execNegotiateAlgorithms (s : State) : Host.Outcome State Fault Refusal :=
  .next (s.spdm s.ev.fn (.spdmAlgorithms .ecdsaP384 .sha384 (Config.spdmBody 3 0)))
/-- GET_DIGESTS (R40). -/
def execGetDigests (s : State) : Host.Outcome State Fault Refusal := .next (s.spdm s.ev.fn (.bytes (Config.spdmBody 4 0)))
/-- GET_CERTIFICATE (R40). -/
def execGetCertificate (s : State) : Host.Outcome State Fault Refusal :=
  .next (s.spdm s.ev.fn (.bytes (Config.spdmBody 5 0)))
/-- CHALLENGE (R40). -/
def execChallenge (s : State) : Host.Outcome State Fault Refusal := .next (s.spdm s.ev.fn (.bytes (Config.spdmBody 6 0)))
/-- GET_MEASUREMENTS (R40): a block's content beside what the answer's frame holds. -/
def execGetMeasurements (s : State) : Host.Outcome State Fault Refusal :=
  .next (s.spdm s.ev.fn
    (.bytes (Config.spdmBody 7 s.ev.index ++ s.boot.meas.get s.ev.index [])))
/-- SPDM_UNSUPPORTED_REQUEST (R40). -/
def execSpdmUnsupportedRequest (s : State) : Host.Outcome State Fault Refusal := .next (s.spdm s.ev.fn .unsupported)

end Sys2Proof.Machine
end

