-- ==== Sys2Proof/Machine/Copies.lean ====
section
/-! DEFINITION. The copy words (R419 to R424) and the landing of what they send (R137, R142 to R149). -/

namespace Sys2Proof

/-- R299: bytes of a lane copy or of an element. -/
def CP.size (f : CP) : Nat := pow2 f.sz.toNat

end Sys2Proof

namespace Sys2Proof.Machine

/-- One element of a copy: its lane, its source and its destination sums, and its bytes. -/
structure Elem where
  lane : Nat
  src : Nat
  dst : Nat
  n : Nat
  deriving DecidableEq, Repr

/-- What a copy comes to at submission (R143): the runs of each transfer operation, the physical pages to pin, the
scratchpad lines it writes, the offsets beyond the allocation, and those of them that are destinations. -/
structure Plan where
  ops : List (List (Place × Place × Nat))
  pages : List Nat
  lines : List Nat
  beyond : Nat
  past : Nat

namespace State

/-! ### Submission -/

/-- R419: the elements of a lane copy. -/
def laneElems (s : State) (f : CP) (act : Mask) : List Elem :=
  act.lanes.map fun l =>
    { lane := l
      src := (s.src.sget f.ssrc.toNat + sx64 (s.src.lane f.vsrc.toNat l) + f.off.signExtend 64).toNat
      dst := (s.src.sget f.sdst.toNat + sx64 (s.src.lane f.vdst.toNat l)).toNat
      n := f.size }

/-- One side of an element: a global address translated, or an offset of the team's scratchpad. -/
def copySide (s : State) (glob : Bool) (a : Acc) (sum : Nat) : Option Place :=
  if glob then
    match s.xlat s.curCore s.curPart sum a with
    | some (pa, mt) => some (if mt == 1 then .host pa sum else .dev pa)
    | none => none
  else some (.spad s.cur.g s.cur.t sum)

/-- R143: the elements whose pages fail, each with its failing address, the source's first. -/
def copyFails (s : State) (gs gd : Bool) (es : List Elem) : List (Nat × Nat) :=
  es.flatMap fun e =>
    if (s.copySide gs .load e.src).isNone then [(e.lane, e.src)]
    else if (s.copySide gd .store e.dst).isNone then [(e.lane, e.dst)] else []

/-- The 128-byte line of a place, numbered apart for each space. -/
def placeLine (s : State) : Place → Nat
  | .dev pa => pa / 128 * 4
  | .host pa _ => pa / 128 * 4 + 1
  | .spad g _ o => match spReduce (s.grid g).alloc o with
    | some r => r / 128 * 4 + 2
    | none => 3

/-- Is a place a scratchpad offset beyond the allocation. -/
def placeOver (s : State) : Place → Bool
  | .spad g _ o => (spReduce (s.grid g).alloc o).isNone
  | _ => false

/-- The scratchpad line of a place. -/
def spadLine (s : State) : Place → List Nat
  | .spad g _ o => match spReduce (s.grid g).alloc o with
    | some r => [r / 128]
    | none => []
  | _ => []

/-- The physical page of a place in global memory, as the page-lock table names it. -/
def placePage : Place → List Nat
  | .dev pa => [pltKey (pa / 65536) 0]
  | .host pa _ => [pltKey (pa / 65536) 1]
  | _ => []

/-- R143: runs of one pair of lines put together, in lane order. -/
def addRun (k : Nat × Nat) (r : Place × Place × Nat) :
    List ((Nat × Nat) × List (Place × Place × Nat)) → List ((Nat × Nat) × List (Place × Place × Nat))
  | [] => [(k, [r])]
  | (j, l) :: rest => if j == k then (j, l ++ [r]) :: rest else (j, l) :: addRun k r rest

/-- R143: the plan of a copy whose every page translates; the pages are those that its operations use. -/
def copyPlan (s : State) (gs gd : Bool) (es : List Elem) : Plan :=
  let rs : List (Place × Place × Nat) := es.flatMap fun e =>
    match s.copySide gs .load e.src, s.copySide gd .store e.dst with
    | some a, some b => [(a, b, e.n)]
    | _, _ => []
  let inside := rs.filter fun r => !s.placeOver r.2.1
  let ops := inside.foldl (fun l r => addRun (s.placeLine r.1, s.placeLine r.2.1) r l) []
  { ops := ops.map Prod.snd
    pages := distinct (inside.flatMap fun r => placePage r.1 ++ placePage r.2.1)
    lines := distinct (inside.flatMap fun r => s.spadLine r.2.1)
    beyond := (rs.filter fun r => s.placeOver r.1).length + (rs.filter fun r => s.placeOver r.2.1).length
    past := (rs.filter fun r => s.placeOver r.2.1).length }

/-- R144: operations of the core in a channel. -/
def channelsOf : Body → List Nat
  | .copy _ c _ => [c]
  | .cpav _ _ _ _ _ cs => cs
  | .mcast _ _ _ _ _ cs _ => cs
  | _ => []
def isMcast : Body → Bool
  | .mcast .. => true
  | _ => false
/-- R144: the operations in a channel of a core that some flights are; the deliveries of a multicast share theirs. -/
def channelLoadOf (fs : List Flight) (k c : Nat) : Nat :=
  (fs.foldl (fun (x : Nat × List Nat) f =>
    if f.core != k || (isMcast f.body && x.2.contains f.cmd) then x
    else (x.1 + (channelsOf f.body).count c, if isMcast f.body then f.cmd :: x.2 else x.2)) (0, [])).1
def channelLoad (s : State) (k c : Nat) : Nat := channelLoadOf s.flights k c

/-- R144: the channels of n operations, from the one after the channel last used. -/
def nextChannels (s : State) (k n : Nat) : List Nat := (List.range n).map fun i => ((s.core k).copyLast + 1 + i) % 8

/-- R144: do n further operations fit, the first in the channel after the last one used. -/
def channelRoom (s : State) (k n : Nat) : Bool :=
  let last := (s.core k).copyLast
  (List.range 8).all fun i => s.channelLoad k ((last + 1 + i) % 8) + (n + 7 - i) / 8 ≤ 64

/-- R159: a submission waits for room in the page-lock table; each is counted once. -/
def pltStall (s : State) : Eff :=
  { s := if s.grp.pltWait then s else (s.modGrp fun x => { x with pltWait := true }).count s.cur.cl 0x138 1, fate := .stall }

/-- R152, R174: what a submission does at once: its pages touched, the dirty sectors of its source lines written back. -/
def copyTouch (s : State) (gs gd : Bool) (es : List Elem) : State :=
  let s := if gs then (distinct (es.map fun e => e.src / 65536)).foldl
    (fun s g => s.xlatTouch s.curCore s.curPart (g * 65536) .load) s else s
  if gd then (distinct (es.map fun e => e.dst / 65536)).foldl
    (fun s g => s.xlatTouch s.curCore s.curPart (g * 65536) .store) s else s
def copySources (s : State) (ops : List (List (Place × Place × Nat))) : State :=
  (distinct (ops.flatMap fun l => l.flatMap fun r => match r.1 with
    | .dev pa => [pa / 128]
    | _ => [])).foldl (fun s l => s.wbRange s.curCore (l * 128) 128) s

/-- R145, R419: a copy that transfers nothing leaves the token, its status too, as it is. -/
def emptyCopy (s : State) (act : Mask) : Eff := { s := s.sampleIssue s act 0 true }

/-- The pages of global memory that an operation in flight uses. -/
def bodyPages : Body → List Nat
  | .copy runs _ _ => distinct (runs.flatMap fun r => placePage r.1 ++ placePage r.2.1)
  | .cpav runs ver _ _ _ _ => distinct (placePage ver ++ runs.flatMap fun r => placePage r.1 ++ placePage r.2.1)
  | .mcast _ _ runs _ _ _ _ => distinct (runs.flatMap fun r => placePage r.1)
  | _ => []

/-- R143 to R145: the flights of one command: bodies sent in order, the token raised, the pages pinned. -/
def sendAll (s : State) (tk : Nat) (pages : List Nat) (bodies : List Body) : State :=
  let cmd := s.nextId
  let s := (s.tokenUp s.curGrp tk).pin pages
  let s := s.modGrp fun x => { x with pltWait := false }
  bodies.foldl (fun s b =>
    let f : Flight :=
      { id := s.nextId, g := s.cur.g, t := s.cur.t, grp := s.cur.grp, core := s.curCore, tk := some tk, cmd := cmd
        pages := bodyPages b, body := b }
    { s with nextId := s.nextId + 1, flights := s.flights ++ [f] }) s

/-- Sectors, or scratchpad words, that a copy touches (R280). -/
def copySectors (gs gd : Bool) (es : List Elem) : Nat :=
  if gs || gd then
    (distinct (es.flatMap fun e => (if gs then sectorsOf e.src e.n else []) ++ (if gd then sectorsOf e.dst e.n else []))).length
  else wordCount (es.flatMap fun e => [{ lane := 0, idx := 0, at_ := e.src, n := e.n }, { lane := 0, idx := 0, at_ := e.dst, n := e.n }])

/-- R133: transfer operations that land in a team's scratchpad are deliveries to it. -/
def addDeliveries (s : State) (tk : Nat) (d : Int) : State :=
  s.modTeam tk fun x => { x with deliveries := (x.deliveries + d).toNat }

/-- R263: the lanes that would form an address from a poisoned word. -/
def copyPois (s : State) (f : CP) (act : Mask) : Mask :=
  if s.src.sgetPois f.ssrc.toNat != 0 || s.src.sgetPois f.sdst.toNat != 0 then act
  else act &&& (s.src.vgetPois f.vsrc.toNat ||| s.src.vgetPois f.vdst.toNat)

/-- R263: the lanes whose source address a poisoned word would form. -/
def copySrcPois (s : State) (f : CP) (act : Mask) : Mask :=
  if s.src.sgetPois f.ssrc.toNat != 0 then act else act &&& s.src.vgetPois f.vsrc.toNat

/-- R263, R269: the poison-use trap of a copy: each lane with the address that a poisoned word would form, the source's
first. -/
def copyPoison (s : State) (f : CP) (es : List Elem) (bad : Mask) : Trap :=
  let src := s.copySrcPois f bad
  { cause := 0x0B, mask := bad
    addrs := (es.filter fun e => bad.getLsbD e.lane).map fun e => (e.lane, w64 (if src.getLsbD e.lane then e.src else e.dst)) }

/-- R142, R271: the trap of a lane copy. -/
def copyTrap (s : State) (f : CP) (gs gd : Bool) (es : List Elem) (bad : Mask) : Option Trap :=
  let mis := es.filter fun e => e.src % e.n != 0 || e.dst % e.n != 0
  if !mis.isEmpty then
    some { cause := 0x09, mask := maskOf fun l => mis.any fun e => e.lane == l
           addrs := mis.map fun e => (e.lane, w64 (if e.src % e.n != 0 then e.src else e.dst)) }
  else
    let fs := s.copyFails gs gd es
    if !fs.isEmpty then
      some { cause := 0x0A, mask := maskOf fun l => fs.any fun x => x.1 == l, addrs := fs.map fun x => (x.1, w64 x.2) }
    else if bad != 0 then some (s.copyPoison f es bad) else none

/-- R134, R145: a copy of which every element is dropped completes its token at once. -/
def tokenPulse (s : State) (f : CP) : State := (s.tokenUp s.curGrp f.tk.toNat).tokenDown s.curGrp f.tk.toNat 0

/-- R420: the effect of a lane copy between two spaces. A sampled copy is recorded as a store is, so that byte 34 of its record
is 0xFF (R280; log 35, DESIGN CHOICE). -/
def effCpa (gs gd : Bool) (f : CP) (act : Mask) (s : State) : Eff :=
  let es := s.laneElems f act
  match s.copyTrap f gs gd es (s.copyPois f act) with
  | some t => { s := if t.cause == 0x0A then s.replayed else s, fate := .trap t }
  | none =>
    if !s.tokenRoom s.curGrp f.tk.toNat then { s := s, fate := .stall }
    else if act == 0 then s.emptyCopy act
    else
      let p := s.copyPlan gs gd es
      if !s.landRoom p.lines || !s.channelRoom s.curCore p.ops.length then { s := s, fate := .stall }
      else if !s.pltRoom p.pages then s.pltStall
      else
        let s1 := (s.copyTouch gs gd es).copySources p.ops
        let s1 := if p.beyond == 0 then s1 else s1.count s.cur.cl 0x100 p.beyond
        let s1 := s1.raiseLines s.cur.g s.cur.t p.lines
        let s1 := if gd then s1 else s1.addDeliveries s.curTeam p.ops.length
        let gen := (s1.team s.curTeam).gen
        let n := p.ops.length
        let cs := s1.nextChannels s.curCore n
        let s1 := if n == 0 then s1.tokenPulse f else
          s1.sendAll f.tk.toNat p.pages ((List.range n).map fun i => .copy (p.ops.getD i []) (cs.getD i 0) gen)
        let s1 := s1.modCore s.curCore fun c => { c with copyLast := (c.copyLast + n) % 8 }
        { s := s.sampleIssue s1 act (copySectors gs gd es) true }

/-- R421, R146: the effect of a copy with a version check. -/
def effCpav (gs : Bool) (f : CP) (act : Mask) (s : State) : Eff :=
  let es := s.laneElems f act
  let ver := (s.src.sget f.se.toNat).toNat
  let bad := s.copyPois f act
  let verBad := s.src.sgetPois f.se.toNat != 0 && act != 0
  let want := s.src.sget (f.se.toNat + 1)
  let wantPois := s.src.sgetPois (f.se.toNat + 1) != 0
  let trap := if act != 0 && ver % 8 != 0 && (s.copyTrap f gs true es 0).all (fun t => t.cause != 0x09) then
      some (Trap.scalar 0x09 act 0 (w64 ver))
    else
      match s.copyTrap f gs true es 0 with
      | some t => some t
      | none =>
        if act != 0 && (s.copySide true .store ver).isNone then some (Trap.scalar 0x0A act 0 (w64 ver))
        else if verBad then some (Trap.scalar 0x0B act 0 (w64 ver))
        else if bad != 0 then some (s.copyPoison f es bad)
        -- R263, R424: a poisoned E would go to host memory
        else if act != 0 && wantPois && (match s.copySide true .store ver with | some (.host ..) => true | _ => false) then
          some (Trap.scalar 0x0B act 1 (w64 ver))
        else none
  match trap with
  | some t => { s := if t.cause == 0x0A then s.replayed else s, fate := .trap t }
  | none =>
    if !s.tokenRoom s.curGrp f.tk.toNat then { s := s, fate := .stall }
    else if act == 0 then s.emptyCopy act
    else
      match s.copySide true .store ver with
      | none => { s := s }
      | some v =>
        let p := s.copyPlan gs true es
        let pages := distinct (p.pages ++ placePage v)
        let n := p.ops.length
        if !s.channelRoom s.curCore n then { s := s, fate := .stall }
        else if !s.pltRoom pages then s.pltStall
        else
          let s1 := ((s.copyTouch gs true es).xlatTouch s.curCore s.curPart ver .store).copySources p.ops
          let s1 := if p.beyond == 0 then s1 else s1.count s.cur.cl 0x100 p.beyond
          let inPage := es.all fun e => e.dst / 65536 == ver / 65536
          let s1 := s1.sendAll f.tk.toNat pages [.cpav p.ops.flatten v want wantPois inPage (s1.nextChannels s.curCore n)]
          let s1 := s1.modCore s.curCore fun c => { c with copyLast := (c.copyLast + n) % 8 }
          { s := s.sampleIssue s1 act (copySectors gs true es) true }

/-- R422: the rows and columns of a tile copy. -/
def cptDims (s : State) (f : CP) : Nat × Nat :=
  let v := (s.src.sget f.se.toNat).toNat
  (v % 65536, v / 65536 % 65536)

/-- R147, R422: the elements of a tile copy, row by row. -/
def cptElems (s : State) (f : CP) (lane : Nat) : List Elem :=
  let d := s.cptDims f
  let st := (s.src.sget (f.se.toNat + 1)).toNat
  let src := (s.src.sget f.ssrc.toNat + f.off.signExtend 64).toNat
  let dst := (s.src.sget f.sdst.toNat).toNat
  let z := f.size
  (List.range d.1).flatMap fun i => (List.range d.2).map fun j =>
    { lane := lane, src := (src + i * (st % pow2 32) + j * z) % pow2 64
      dst := (if f.tq == 0 then dst + i * (st / pow2 32) + j * z else dst + j * (st / pow2 32) + i * z) % pow2 64
      n := z }

/-- R422: the reserved-field condition of a tile copy's operands, when a lane is active. -/
def cptDyn (s : State) (h : Hdr) (f : CP) : Option Nat :=
  let d := s.cptDims f
  if s.activeLanes h != 0 && (d.1 == 0 || 256 < d.1 || d.2 == 0 || 256 < d.2) then some 37 else none

/-- R422: the effect of a tile copy. Its operations enter the channels as room frees, and the stream waits in place until
the last has entered. The 0x0B of a poisoned operand names the source address when s[SSRC], the rows and columns, or the source
stride is poisoned, else the destination address (log 20, DESIGN CHOICE for the rows and columns, which form both). -/
def effCpt (gs : Bool) (f : CP) (act : Mask) (s : State) : Eff :=
  let k := s.curCore
  let entered := fun (s : State) => (List.range 8).all fun c => s.channelLoad k c ≤ 64
  match s.grp.entering with
  | some _ => if entered s then { s := s.modGrp fun x => { x with entering := none } } else { s := s, fate := .stall }
  | none =>
    let src := (s.src.sget f.ssrc.toNat + f.off.signExtend 64).toNat
    let dst := (s.src.sget f.sdst.toNat).toNat
    let st := (s.src.sget (f.se.toNat + 1)).toNat
    let z := f.size
    let poisSrc := s.src.sgetPois f.ssrc.toNat != 0 || (s.src.sgetPois f.se.toNat).getLsbD 0 ||
      (s.src.sgetPois (f.se.toNat + 1)).getLsbD 0
    let poisDst := s.src.sgetPois f.sdst.toNat != 0 || (s.src.sgetPois (f.se.toNat + 1)).getLsbD 1
    if act == 0 then
      if s.tokenRoom s.curGrp f.tk.toNat then s.emptyCopy act else { s := s, fate := .stall }
    else if src % z != 0 || dst % z != 0 || st % pow2 32 % z != 0 || st / pow2 32 % z != 0 then
      { s := s, fate := .trap (Trap.scalar 0x09 act 0 (w64 (if src % z != 0 then src else if dst % z != 0 then dst else src))) }
    else
      let es := s.cptElems f (act.lanes.getD 0 0)
      match s.copyFails gs (!gs) es with
      | x :: _ => { s := s.replayed, fate := .trap (Trap.scalar 0x0A act 0 (w64 x.2)) }
      | [] =>
        if poisSrc || poisDst then { s := s, fate := .trap (Trap.scalar 0x0B act 0 (w64 (if poisSrc then src else dst))) }
        else if !s.tokenRoom s.curGrp f.tk.toNat then { s := s, fate := .stall }
        else
          let p := s.copyPlan gs (!gs) es
          if !s.landRoom p.lines then { s := s, fate := .stall }
          else if !s.pltRoom p.pages then s.pltStall
          else
            let s1 := (s.copyTouch gs (!gs) es).copySources p.ops
            let s1 := if p.beyond == 0 then s1 else s1.count s.cur.cl 0x100 p.beyond
            let s1 := s1.raiseLines s.cur.g s.cur.t p.lines
            let s1 := if gs then s1.addDeliveries s.curTeam p.ops.length else s1
            let gen := (s1.team s.curTeam).gen
            let n := p.ops.length
            let cs := s1.nextChannels k n
            let cmd := s1.nextId
            let s1 := if n == 0 then s1.tokenPulse f else
              s1.sendAll f.tk.toNat p.pages ((List.range n).map fun i => .copy (p.ops.getD i []) (cs.getD i 0) gen)
            let s1 := s.sampleIssue (s1.modCore k fun c => { c with copyLast := (c.copyLast + n) % 8 }) act (copySectors gs (!gs) es) true
            if entered s1 then { s := s1 }
            else { s := s1.modGrp fun x => { x with entering := some cmd }, fate := .stall }

/-- R148, R149: a rank's delivery: the team, when it exists. -/
def cpmTeam (s : State) (r : Nat) : Option Nat :=
  let x := s.curGrid
  let u := x.cohort s.cur.t * x.coh + r
  if x.coh ≤ r || x.nteams ≤ u then none else some u

/-- R148: the runs of a delivery, each from its source to the reduced offset of its destination. -/
def deliveryRuns (s : State) (p : Plan) : List (Place × Nat × Nat) :=
  p.ops.flatten.filterMap fun r => match r.2.1 with
    | .spad g _ o => (spReduce (s.grid g).alloc o).map fun x => (r.1, x, r.2.2)
    | _ => none

/-- R423: the effect of a multicast. -/
def effCpm (gs : Bool) (f : CP) (act : Mask) (s : State) : Eff :=
  let es := s.laneElems f act
  let mask := (s.src.sget f.se.toNat).toNat % 65536
  let bad := s.copyPois f act ||| (if (s.src.sgetPois f.se.toNat).getLsbD 0 then act else 0)
  match s.copyTrap f gs false es bad with
  | some t => { s := if t.cause == 0x0A then s.replayed else s, fate := .trap t }
  | none =>
    if !s.tokenRoom s.curGrp f.tk.toNat then { s := s, fate := .stall }
    else if act == 0 then s.emptyCopy act
    else
      let p := s.copyPlan gs false es
      let ranks := (List.range 16).filter fun r => mask.testBit r
      let us := ranks.filterMap s.cpmTeam
      let lost := ranks.length - us.length
      let n := p.ops.length
      if ranks.isEmpty then { s := s.sampleIssue (s.tokenPulse f) act 0 true }
      else if !us.isEmpty && !s.channelRoom s.curCore n then { s := s, fate := .stall }
      else if !s.pltRoom p.pages then s.pltStall
      else
        -- R134: a source beyond the allocation is counted here, a destination at each delivery
        let src := p.beyond - p.past
        let s1 := (s.copyTouch gs false es).copySources p.ops
        let s1 := if src == 0 then s1 else s1.count s.cur.cl 0x100 src
        let s1 := if lost == 0 then s1 else s1.count s.cur.cl 0x108 lost
        let runs := s.deliveryRuns p
        let s1 := us.foldl (fun s u => s.addDeliveries (teamKey s.cur.g u) 1) s1
        let cs := s1.nextChannels s.curCore n
        let s1 := if us.isEmpty then s1.tokenPulse f else
          (s1.sendAll f.tk.toNat p.pages (us.map fun u => .mcast u (s1.team (teamKey s.cur.g u)).gen runs none false cs p.past)).modCore
            s.curCore fun c => { c with copyLast := (c.copyLast + n) % 8 }
        { s := s.sampleIssue s1 act (copySectors gs false es) true }

/-! ### Landing -/

/-- The scratchpad lines of a transfer operation. -/
def copyLines (s : State) : Body → List Nat
  | .copy runs _ _ => distinct (runs.flatMap fun r => s.spadLine r.2.1)
  | _ => []

/-- R174: have the accesses that the group issued before a copy been performed, as far as they meet its sources. -/
def sourcesReady (s : State) (f : Flight) (srcs : List (Place × Nat)) : Bool :=
  let own := (s.flights.filter fun x => x.cmd == f.cmd).flatMap fun x => s.copyLines x.body
  (!s.flights.any fun x => x.id < f.id && isAccess x.body && x.g == f.g && x.t == f.t && x.grp == f.grp) &&
  (!s.cores.any fun c => c.2.fbuf.any fun e => e.id < f.id && e.g == f.g && e.t == f.t && e.grp == f.grp) &&
  -- R137: a source line that another copy makes absent holds the transfer; a team that moves, is saved or restored does too
  srcs.all fun r => match r.1 with
    | .spad g t o =>
      match s.reachable g t with
      | some false => false
      | some true => (s.team (teamKey g t)).st != .resident ||
          match spReduce (s.grid g).alloc o with
          | some x => (linesOf x r.2).all fun l =>
              (s.team (teamKey g t)).landing.get l 0 ≤ bit (g == f.g && t == f.t && own.contains l)
          | none => true
      | none => true
    | _ => true

/-- Bytes that a copy reads at a source, each with its mark: zero beyond an allocation; what an exited team's scratchpad held
is a free value (log 11). -/
def copyRead (s : State) (pl : Place) (n : Nat) : List PByte :=
  match pl with
  | .spad g t o =>
    match spReduce (s.grid g).alloc o with
    | none => List.replicate n (0, false)
    | some x =>
      match (s.team (teamKey g t)).st with
      | .exited | .pending => (List.range n).map fun i => ((Config.freeWord (s.free + i)).setWidth 8, false)
      | _ => s.placeReadP (.spad g t x) n
  | _ => s.placeReadP pl n

/-- R144: is a transfer operation among the first 64 of its channel. -/
def inChannel (s : State) (f : Flight) : Bool :=
  match f.body with
  | .copy _ c _ => channelLoadOf (s.flights.filter fun x => x.id < f.id) f.core c < 64
  | _ => true

/-- R139, R267: one run of a copy put at its destination. -/
def copyPut (s : State) (f : Flight) (dst : Place) (bs : List PByte) : State :=
  match dst with
  | .dev pa => (s.dropRange (s.coreOfGrp (grpKey f.g f.t f.grp)) pa bs.length).devWriteP pa bs
  | .host pa va => (s.hostWrite pa (bs.map Prod.fst)).logLeak f.g 0 va bs.length 0
  | .spad g t o => match spReduce (s.grid g).alloc o with
    | some x => s.spadWriteP g t x bs
    | none => s

/-- R166, R262, R263: the runs of a transfer operation: every source is read, then every destination written in lane order,
and the sectors written whole take the mark of what was written. Poison does not go to host memory: the whole operation is then
dropped, and an error event posted. The answers tell whether it was dropped and whether some byte was poisoned. -/
def copyRuns (s : State) (f : Flight) (runs : List (Place × Place × Nat)) : State × Bool × Bool :=
  let data := runs.map fun r => (r.2.1, s.copyRead r.1 r.2.2)
  let s := { s with free := s.free + 128 }
  let pois := data.any fun d => anyPois d.2
  let out := data.any fun d => anyPois d.2 && match d.1 with
    | .host .. => true
    | _ => false
  if out then (s.errorEvent f.g 2 0 f.t f.grp, true, pois)
  else
    let s := data.foldl (fun s d => s.copyPut f d.1 d.2) s
    -- a destination beyond the allocation takes nothing
    let put := data.filter fun d => match d.1 with
      | .spad g _ o => (spReduce (s.grid g).alloc o).isSome
      | _ => true
    let ws := put.filterMap fun d => match d.1 with
      | .dev pa => some (pa, d.2)
      | .spad g t o => (s.imgSpadAt g t ((spReduce (s.grid g).alloc o).getD 0)).map fun pa => (pa, d.2)
      | _ => none
    ((s.settleHome ws).countWritten (f.core / 6) (put.map Prod.snd), false, pois)

/-- R137: the lines of a transfer operation to which no other operation of its command is still to write. -/
def lastLines (s : State) (f : Flight) : List Nat :=
  let others := (s.flights.filter fun x => x.cmd == f.cmd && x.id != f.id).flatMap fun x => s.copyLines x.body
  (s.copyLines f.body).filter fun l => !others.contains l

/-- R137, R145, R150: a transfer operation lands, or is dropped when its team has exited or was discarded. -/
def copyLand (s : State) (f : Flight) (runs : List (Place × Place × Nat)) (gen : BitVec 16) : State :=
  let tk := teamKey f.g f.t
  let x := s.team tk
  let toSpad := runs.any fun r => match r.2.1 with
    | .spad .. => true
    | _ => false
  let gone := toSpad && (x.st == .exited || x.st == .pending || x.gen != gen)
  let s1 := if toSpad then s.addDeliveries tk (-1) else s
  if gone then (s1.count (s.homeCl f.g f.t) (if x.st == .exited then 0x110 else 0x108) 1).landed f 0
  else
    let r := s1.copyRuns f runs
    ((r.1.landLines f.g f.t (s.lastLines f)).landed f (if r.2.2 then 3 else 0)).recheckAll

/-- R146: the commit at the version word's home, with the core's own sector of the word brought into step first (R139). A
poisoned expected value leaves the new version poisoned (R262), and a compare that reads a poisoned word is counted (R261). -/
def cpavDo (s : State) (f : Flight) (runs : List (Place × Place × Nat)) (ver : Place) (want : W64) (pois inPage : Bool) : State :=
  let s := match ver with
    | .dev pa => s.dropRange (s.coreOfGrp (grpKey f.g f.t f.grp)) pa 8
    | _ => s
  let s := if inPage && (pois || anyPois (s.placeReadP ver 8)) then s.count (f.core / 6) 0x3A0 1 else s
  if !inPage then s.landed f 2
  else if w64 (leNat (s.placeRead ver 8).1) != want then s.landed f 1
  else
    let r := s.copyRuns f runs
    let st := if r.2.2 then 3 else 0
    if r.2.1 then (r.1.landed f st).recheckAll
    else
      let new := (leBytes 8 (want + 1).toNat).map fun b => (b, pois)
      (((r.1.copyPut f ver new).countWritten (f.core / 6) [new]).landed f st).recheckAll

/-- R149, R262: a delivery put into its team's scratchpad; its landing counts fall. What it drops beyond the allocation is counted
where the team is (R134). -/
def mcastWrite (s : State) (f : Flight) (t : Nat) (data : List (Nat × List PByte)) (lines : List Nat) (past : Nat) : State :=
  let s := data.foldl (fun s d => s.spadWriteP f.g t d.1 d.2) s
  let s := (s.settleHome (data.filterMap fun d => (s.imgSpadAt f.g t d.1).map fun pa => (pa, d.2))).countWritten (f.core / 6)
    (data.map Prod.snd)
  let s := if past == 0 then s else s.count (s.team (teamKey f.g t)).cl 0x100 past
  let s := (s.landLines f.g t lines).addDeliveries (teamKey f.g t) (-1)
  (s.landed f (if data.any fun d => anyPois d.2 then 3 else 0)).recheckAll

/-- R148 to R150: one step of a delivery: its bytes are read, for every delivery of its command at once; it raises the
landing counts of a resident team's lines; it lands. -/
def mcastStep (s : State) (f : Flight) (t : Nat) (gen : BitVec 16) (runs : List (Place × Nat × Nat))
    (data : Option (List (Nat × List PByte))) (raised : Bool) (cs : List Nat) (past : Nat) : State :=
  let tk := teamKey f.g t
  let x := s.team tk
  match data with
  | none =>
    if !s.sourcesReady f (runs.map fun r => (r.1, r.2.2)) then s
    else
      let d := runs.map fun r => (r.2.1, s.copyRead r.1 r.2.2)
      { s with
        free := s.free + 128
        flights := s.flights.map fun y => if y.cmd == f.cmd then
          (match y.body with
            | .mcast u g2 rs none ra c2 p2 => { y with body := .mcast u g2 rs (some d) ra c2 p2 }
            | _ => y) else y }
  | some d =>
    let lines := distinct (d.flatMap fun e => linesOf e.1 e.2.length)
    match s.reachable f.g t with
    | none => ((s.addDeliveries tk (-1)).count (s.homeCl f.g t) 0x108 1).landed f 0
    | some false => s
    | some true =>
      if x.gen != gen then ((s.addDeliveries tk (-1)).count (s.homeCl f.g t) 0x108 1).landed f 0
      else if raised then s.mcastWrite f t d lines past
      else if !lines.all fun l => s.landCount f.g t l < 7 then s
      else if x.st == .saved then (s.raiseLines f.g t lines).mcastWrite f t d lines past
      else (s.raiseLines f.g t lines).setFlight { f with body := .mcast t gen runs data true cs past }

end State

/-! ### Words and events -/

/-- What a lane copy names. -/
def cpaUses (f : CP) (se : List Nat) : Uses :=
  { vr := [f.vsrc.toNat, f.vdst.toNat], sr := [f.ssrc.toNat, f.sdst.toNat] ++ se, tw := f.tw }

/-- How a copy issues: after an acquire of its group that is still to be performed (R169). -/
def copyWord (s : State) (h : Hdr) (u : Uses) (eff : Mask → State → Eff) : State := s.accessWord h u none eff

/-- `cpa` from global to scratchpad (R420). -/
def execCpaG2S (h : Hdr) (f : CP) (s : State) : Host.Outcome State Fault Refusal :=
  .next (copyWord s h (cpaUses f []) (State.effCpa true false f))
/-- `cpa` from scratchpad to global (R420). -/
def execCpaS2G (h : Hdr) (f : CP) (s : State) : Host.Outcome State Fault Refusal :=
  .next (copyWord s h (cpaUses f []) (State.effCpa false true f))
/-- `cpa` from global to global (R420). -/
def execCpaG2G (h : Hdr) (f : CP) (s : State) : Host.Outcome State Fault Refusal :=
  .next (copyWord s h (cpaUses f []) (State.effCpa true true f))
/-- `cpa` from scratchpad to scratchpad (R420). -/
def execCpaS2S (h : Hdr) (f : CP) (s : State) : Host.Outcome State Fault Refusal :=
  .next (copyWord s h (cpaUses f []) (State.effCpa false false f))

/-- `cpav` from global (R421). -/
def execCpavGlobal (h : Hdr) (f : CP) (s : State) : Host.Outcome State Fault Refusal :=
  .next (copyWord s h (cpaUses f [f.se.toNat, f.se.toNat + 1]) (State.effCpav true f))
/-- `cpav` from scratchpad (R421). -/
def execCpavScratchpad (h : Hdr) (f : CP) (s : State) : Host.Outcome State Fault Refusal :=
  .next (copyWord s h (cpaUses f [f.se.toNat, f.se.toNat + 1]) (State.effCpav false f))

/-- What a tile copy names. -/
def cptUses (s : State) (h : Hdr) (f : CP) : Uses :=
  { sr := [f.ssrc.toNat, f.sdst.toNat, f.se.toNat, f.se.toNat + 1], tw := f.tw, dyn := s.cptDyn h f }

/-- `cpt` from global to scratchpad (R422). -/
def execCptG2S (h : Hdr) (f : CP) (s : State) : Host.Outcome State Fault Refusal :=
  .next (copyWord s h (cptUses s h f) (State.effCpt true f))
/-- `cpt` from scratchpad to global (R422). -/
def execCptS2G (h : Hdr) (f : CP) (s : State) : Host.Outcome State Fault Refusal :=
  .next (copyWord s h (cptUses s h f) (State.effCpt false f))

/-- `cpm` from global (R423). -/
def execCpmGlobal (h : Hdr) (f : CP) (s : State) : Host.Outcome State Fault Refusal :=
  .next (copyWord s h (cpaUses f [f.se.toNat]) (State.effCpm true f))
/-- `cpm` from scratchpad (R423). -/
def execCpmScratchpad (h : Hdr) (f : CP) (s : State) : Host.Outcome State Fault Refusal :=
  .next (copyWord s h (cpaUses f [f.se.toNat]) (State.effCpm false f))

/-- COPY_LANDING (R137, R144, R150): a transfer operation in its channel lands, unless its source or its team holds it. -/
def execCopyLanding (s : State) : Host.Outcome State Fault Refusal :=
  .next (match s.flight s.ev.id with
    | some f =>
      match f.body with
      | .copy runs _ gen =>
        let toOwn := runs.any fun r => match r.2.1 with
          | .spad .. => true
          | _ => false
        if !s.inChannel f || !s.sourcesReady f (runs.map fun r => (r.1, r.2.2)) ||
            (toOwn && s.reachable f.g f.t == some false) then s
        else s.copyLand f runs gen
      | _ => s
    | none => s)

/-- CPAV_COMMIT (R146). -/
def execCpavCommit (s : State) : Host.Outcome State Fault Refusal :=
  .next (match s.flight s.ev.id with
    | some f =>
      match f.body with
      | .cpav runs ver want pois inPage _ =>
        if !s.inChannel f || !s.sourcesReady f (runs.map fun r => (r.1, r.2.2)) then s
        else s.cpavDo f runs ver want pois inPage
      | _ => s
    | none => s)

/-- MULTICAST_DELIVERY (R149): one step of a delivery. -/
def execMulticastDelivery (s : State) : Host.Outcome State Fault Refusal :=
  .next (match s.flight s.ev.id with
    | some f =>
      match f.body with
      | .mcast t gen runs data raised cs past => s.mcastStep f t gen runs data raised cs past
      | _ => s
    | none => s)

end Sys2Proof.Machine
end

