-- ==== Sys2Proof/Machine/Units.lean ====
section
/-! DEFINITION. What the submissions to the engines and units share (R159, R434, R435): the global bytes that a command
touches, their translation at submission, and reads and writes through the pages so pinned. -/

namespace Sys2Proof.Machine

/-- Global bytes that a command touches. -/
structure Span where
  at_ : Nat
  n : Nat
  acc : State.Acc
  deriving DecidableEq, Repr

/-- The pages of a span, each with the lowest address that it touches there. -/
def Span.pages (x : Span) : List (Nat × Nat) := (pagesOf x.at_ x.n).map fun g => (g, Nat.max x.at_ (g * 65536))

/-- A two's-complement field of b bits as an integer. -/
def signedField (b v : Nat) : Int := if pow2 (b - 1) ≤ v then (v : Int) - pow2 b else v

namespace State

/-- R434: the address that a translation trap reports: the lowest that the command touches in the first failing page. -/
def spanFail (s : State) (xs : List Span) : Option Nat :=
  let bad := xs.flatMap fun x => (x.pages.filter fun p => (s.xlat s.curCore s.curPart p.2 x.acc).isNone).map Prod.fst
  match bad with
  | [] => none
  | b :: l =>
    let g := l.foldl Nat.min b
    let at_ := xs.flatMap fun x => (x.pages.filter fun p => p.1 == g).map Prod.snd
    some (at_.foldl Nat.min (g * 65536 + 65535))

/-- The pages of a command, translated. -/
def spanPins (s : State) (xs : List Span) : Pinned :=
  (distinct (xs.flatMap fun x => pagesOf x.at_ x.n)).filterMap fun g =>
    let acc := if xs.any fun x => x.acc == .load && (pagesOf x.at_ x.n).contains g then State.Acc.load else State.Acc.store
    (s.xlat s.curCore s.curPart (g * 65536) acc).map fun r => (g, r.1 / 65536, r.2)

/-- R152, R153: the pages of a command that translates count as accessed. -/
def touchSpans (s : State) (xs : List Span) : State :=
  (xs.flatMap fun x => (pagesOf x.at_ x.n).map fun g => (g, x.acc)).foldl
    (fun s p => s.xlatTouch s.curCore s.curPart (p.1 * 65536) p.2) s

/-- R174, R176: have the accesses that a group issued before a command been performed; `id` is the command's number. -/
def earlierDone (s : State) (g t grp id : Nat) : Bool :=
  (!s.flights.any fun x => x.id < id && isAccess x.body && x.g == g && x.t == t && x.grp == grp) &&
    (!s.cores.any fun c => c.2.fbuf.any fun e => e.id < id && e.g == g && e.t == t && e.grp == grp) &&
    (s.team (teamKey g t)).savedFloat.all fun e => id ≤ e.id || e.grp != grp

/-- Bytes written at a virtual address in pinned pages, sector by sector, past the L1 of core k. -/
def pinnedPut (s : State) (g k : Nat) (m : Pinned) (va : Nat) (bs : List Byte) : State :=
  (sectorsOf va bs.length).foldl (fun s sec =>
    let lo := Nat.max va (32 * sec)
    let part := (bs.drop (lo - va)).take (32 * sec + 32 - lo)
    match pinnedPlace m lo with
    | some (.dev pa) => (s.dropRange k pa part.length).devWrite pa part false
    | some (.host pa _) => (s.hostWrite pa part).logLeak g 0 lo part.length 0
    | _ => s) s

/-- R159: has the table room for the pages of a submission. -/
def pinRoom (s : State) (m : Pinned) : Bool := s.pltRoom (physPages m)

/-- R159: a submission that waits for room; each is counted once. -/
def pinStall (s : State) : Eff :=
  { s := if s.grp.pltWait then s else (s.modGrp fun x => { x with pltWait := true }).count s.cur.cl 0x138 1, fate := .stall }

/-- R159: the pages of a submission pinned. -/
def pinAll (s : State) (m : Pinned) : State :=
  (s.pin (physPages m)).modGrp fun x => { x with pltWait := false }

/-- R263: is a scalar operand poisoned; `lo` for its low word alone. -/
def scalarMark (s : State) (n : BitVec 6) : Bool := s.src.sgetPois n.toNat != 0

/-- R263, R269: the trap of a command whose scalar address is poisoned. -/
def addrPois (s : State) (r : List (BitVec 6)) : Option Trap :=
  (r.find? s.scalarMark).map fun n => Trap.scalar 0x0B s.cur.lanes 0 (s.sreg n)

/-- R263, R435: the trap of a command that would send a poisoned register across the fabric; `a` is its address register. -/
def exportPois (s : State) (a : BitVec 6) (r : List (BitVec 6)) : Option Trap :=
  if r.any s.scalarMark then some (Trap.scalar 0x0B s.cur.lanes 1 (s.sreg a)) else none

/-- A range as pieces, one for each page. -/
def pagePieces (a n : Nat) : List Piece :=
  (pagesOf a n).map fun g =>
    let lo := Nat.max a (g * 65536)
    { lane := 0, idx := lo - a, at_ := lo, n := Nat.min (a + n) (g * 65536 + 65536) - lo }

/-- A record that a command reads at issue (a job card, a descriptor, a configuration): aligned and translated; its qwords, and
is one poisoned; or the trap. R167: it waits for the group's own earlier operations on the record. R139: the units read at L2,
past the L1; with `wb` the core's dirty sectors of the record are written back first. A carafe reads what L2 holds (file 20),
and for a job card or a descriptor the write-back is the model's choice (log 42, DESIGN CHOICE). -/
def recordAt (s : State) (r : BitVec 6) (n align : Nat) (wb : Bool) : Except Fate (State × List W64 × Bool) :=
  let va := s.sreg r
  let act := s.cur.lanes
  let sp : List Span := [{ at_ := va.toNat, n := n, acc := .load }]
  if va.toNat % align != 0 then .error (.trap (Trap.scalar 0x09 act 0 va))
  else
    match s.spanFail sp with
    | some a => .error (.trap (Trap.scalar 0x0A act 0 (w64 a)))
    | none =>
      match s.addrPois [r] with
      | some t => .error (.trap t)
      | none =>
        if s.orderHeld .load (s.lookup .load (pagePieces va.toNat n)).1 then .error .stall
        else
        let s1 := s.touchSpans sp
        let x := (pagesOf va.toNat n).foldl (fun (y : State × List PByte) g =>
          let lo := Nat.max va.toNat (g * 65536)
          let hi := Nat.min (va.toNat + n) (g * 65536 + 65536)
          match y.1.xlat y.1.curCore y.1.curPart lo .load with
          | some (pa, mt) =>
            let t := if wb && mt != 1 then y.1.wbRange y.1.curCore pa (hi - lo) else y.1
            (t, y.2 ++ if mt == 1 then (t.hostRead pa (hi - lo)).map (·, false) else t.devReadP pa (hi - lo))
          | none => y) (s1, [])
        .ok (x.1, (List.range (n / 8)).map (fun i => w64 (leNat (((x.2.drop (8 * i)).take 8).map Prod.fst))), anyPois x.2)

/-- R263: a record whose words form addresses is not used when poisoned. -/
def cleanRecord (s : State) (r : BitVec 6) (n align : Nat) : Except Fate (State × List W64) :=
  match s.recordAt r n align true with
  | .error t => .error t
  | .ok (x, q, pois) => if pois then .error (.trap (Trap.scalar 0x0B s.cur.lanes 0 (s.sreg r))) else .ok (x, q)

end State
end Sys2Proof.Machine
end

