-- ==== Sys2Proof/Machine/Carafe.lean ====
section
/-! DEFINITION. The carafe (R214 to R229, R460 to R462): configuration, routes, deposits, combining and release. -/

namespace Sys2Proof.Machine

/-! ### The configuration record -/

/-- R215: the format code of OFMT and DFMT as a float format. -/
def carafeFmt (c : Nat) : Nat := match c with
  | 0 => 0
  | 1 => 2
  | _ => 1

end Sys2Proof.Machine

namespace Sys2Proof.Machine.CrfCfg

def w (c : CrfCfg) (i : Nat) : W64 := c.record.getD i 0
def hid (c : CrfCfg) : Nat := (c.w 0).bits 63 48
def ofmt (c : CrfCfg) : Nat := carafeFmt ((c.w 0).bits 47 44)
def dfmt (c : CrfCfg) : Nat := carafeFmt ((c.w 0).bits 43 40)
def osat (c : CrfCfg) : Bool := (c.w 0).getLsbD 39
/-- R216: the release mode as recorded; DET makes it 1. -/
def rel (c : CrfCfg) : Bool := (c.w 0).getLsbD 38
def subst (c : CrfCfg) : Bool := (c.w 0).getLsbD 37
def kmax (c : CrfCfg) : Nat := (c.w 0).bits 36 33
def nslot (c : CrfCfg) : Nat := (c.w 0).bits 31 20
def dataa (c : CrfCfg) : Nat := (c.w 1).toNat
def rowa (c : CrfCfg) : Nat := (c.w 2).toNat
def rows (c : CrfCfg) : Nat := (c.w 3).bits 63 32
def rstr (c : CrfCfg) : Nat := (c.w 3).bits 31 0
def rela (c : CrfCfg) : Nat := (c.w 4).toNat
def stata (c : CrfCfg) : Nat := (c.w 5).toNat
def falla (c : CrfCfg) : Nat := (c.w 6).bits 56 7 * 128
def tbase (c : CrfCfg) : Nat := (c.w 7).bits 63 32
def tout (c : CrfCfg) : Nat := (c.w 7).bits 31 0

/-- R215: bytes of the data region. -/
def region (c : CrfCfg) : Nat := c.nslot * c.kmax * c.hid * 4

/-- R216: are the record's fields in their ranges. -/
def fieldsOk (c : CrfCfg) : Bool :=
  16 ≤ c.hid && c.hid ≤ 16384 && c.hid % 16 == 0 && (c.w 0).bits 47 44 ≤ 2 && (c.w 0).bits 43 40 ≤ 2 &&
    1 ≤ c.kmax && c.kmax ≤ 8 && !(c.w 0).getLsbD 32 && 1 ≤ c.nslot && c.nslot ≤ 2048 && (c.w 0).bits 19 0 == 0 &&
    (c.w 1).bits 63 57 == 0 && (c.w 1).bits 15 0 == 0 && (c.w 2).bits 63 57 == 0 && (c.w 2).bits 6 0 == 0 &&
    1 ≤ c.rows && c.rows ≤ 1048576 && c.rstr % 128 == 0 && c.hid * fmtBits c.ofmt / 8 ≤ c.rstr &&
    (c.w 4).bits 63 57 == 0 && (c.w 4).bits 2 0 == 0 && (c.w 5).bits 63 57 == 0 && (c.w 5).bits 2 0 == 0 &&
    (c.w 6).bits 63 57 == 0 && (c.w 6).bits 6 0 == 0

/-- R215: the regions that are pinned. -/
def spans (c : CrfCfg) : List Span :=
  [{ at_ := c.dataa, n := c.region, acc := .load }, { at_ := c.dataa, n := c.region, acc := .store },
   { at_ := c.rowa, n := c.rows * c.rstr, acc := .store }, { at_ := c.stata, n := ceilDiv c.rows 4, acc := .store },
   { at_ := c.rela, n := 8, acc := .store }] ++
  if c.subst then [{ at_ := c.falla, n := c.hid * 4, acc := .load }] else []

/-- The index of a token from the first, modulo 2^32. -/
def tokIdx (c : CrfCfg) (t : Nat) : Nat := (t + pow2 32 - c.tbase) % pow2 32

end Sys2Proof.Machine.CrfCfg

namespace Sys2Proof.Machine
namespace State

def carafe (s : State) (cl : Nat) : Carafe := (s.cluster cl).carafe
def modCarafe (s : State) (cl : Nat) (f : Carafe → Carafe) : State :=
  s.modCluster cl fun c => { c with carafe := f c.carafe }

/-- The groups of a cluster's cores. -/
def groupsOfCluster (s : State) (cl : Nat) : List Nat := (List.range 6).flatMap fun co => s.groupsOfCore (coreKey cl co)

/-- R218: a slot was freed: groups that wait for slots try again. -/
def wakeCarafe (s : State) (cl : Nat) : State :=
  s.wakeWhere (s.groupsOfCluster cl) fun w => match w with
    | .carafe _ => true
    | _ => false

/-- R214: ownership ends: open slots are abandoned and the configuration's pages unpinned. -/
def carafeEnd (s : State) (cl : Nat) : State :=
  match (s.carafe cl).cfg with
  | none => s
  | some c =>
    ((s.unpin (physPages c.pages)).modCarafe cl fun x => { x with cfg := none, slots := [] }).wakeCarafe cl

/-- R214: is the issuing grid the owner. -/
def ownsCarafe (s : State) (cl g : Nat) : Bool := (s.carafe cl).cfg.any fun c => c.grid == g

/-- R224, R228: is a slot open: its token has not closed, or waits for its release complete or substituted. -/
def slotOpen (x : CrfSlot) : Bool := x.closed.all (· ≤ 1)

/-- R225: the slot that holds a token, one that waits for its release among them. -/
def slotOf (x : Carafe) (t : Nat) : Option (Nat × CrfSlot) := x.slots.find? fun e => e.2.tok == t

/-! ### Combining and release -/

/-- A word of a configuration's memory, with its mark. -/
def crfWord (s : State) (c : CrfCfg) (va : Nat) : W32 × Bool :=
  let bs := s.pinnedRead c.pages va 4
  (w32 (leNat (bs.map Prod.fst)), bs.any Prod.snd)

/-- R217: where element e of position j of slot n lies. -/
def elemAt (c : CrfCfg) (n j e : Nat) : Nat := c.dataa + (n * c.kmax + j) * c.hid * 4 + 4 * e

/-- R222, R262: the words of a slot that lie in a sector of device memory are poisoned there. -/
def loseWords (c : CrfCfg) (sec n : Nat) (x : CrfSlot) : CrfSlot :=
  { x with dataPois := (List.range x.k).foldl (fun m j => (List.range c.hid).foldl (fun m e =>
      match pinnedPlace c.pages (elemAt c n j e) with
      | some (.dev pa) => if pa / 32 == sec then SMap.set m false (16384 * j + e) true else m
      | _ => m) m) x.dataPois }

/-- R222, R262: a sector of device memory is lost; words of a carafe's data region in it are marked in their slots. -/
def loseSector (s : State) (sec : Nat) : State :=
  { s with
    memPois := s.memPois.put sec true
    clusters := s.clusters.map fun q => (q.1, match q.2.carafe.cfg with
      | some c =>
        { q.2 with carafe := { q.2.carafe with slots := q.2.carafe.slots.map fun e => (e.1, loseWords c sec e.1 e.2) } }
      | none => q.2) }

/-- R222: element e of a slot's row. -/
def rowElem (s : State) (c : CrfCfg) (n : Nat) (x : CrfSlot) (e : Nat) : W32 × Bool :=
  let fall := s.crfWord c (c.falla + 4 * e)
  let term := fun (j : Nat) =>
    let y := if x.have_.getLsbD j then f32 (s.crfWord c (elemAt c n j e)).1
      else if c.subst then f32 fall.1 else FVal.zero false
    (f32 (x.gates.getD j 0)).mul y
  let mark := fun (j : Nat) =>
    if x.have_.getLsbD j then x.dataPois.get (16384 * j + e) false
    else c.subst && fall.2
  let acc := (List.range x.k).foldl (fun (acc : W32) j =>
    if j == 0 then rne32 (term 0) else rne32 (FVal.add 0 (f32 acc) (term j))) 0
  (w32 (convert c.ofmt 0 c.osat false 0 (f32 acc)), x.gatePois || (List.range x.k).any mark)

/-- R222: a slot's row. -/
def formRow (s : State) (c : CrfCfg) (n : Nat) (x : CrfSlot) : List (W32 × Bool) := (List.range c.hid).map (s.rowElem c n x)

/-- Bytes written at a virtual address in pinned pages, none of which crosses a page; poison does not go to host memory
(R263). -/
def pinnedWrite (s : State) (g : Nat) (m : Pinned) (va : Nat) (bs : List Byte) (pois : Bool) (code : Nat) : State :=
  match pinnedPlace m va with
  | some (.dev pa) => s.devWrite pa bs pois
  | some (.host pa _) => if pois then s.errorEvent g code 0 else (s.hostWrite pa bs).logLeak g 0 va bs.length 0
  | _ => s

/-- The 32-byte pieces of n-byte elements from a virtual address: address, bytes, and is one poisoned. -/
def elemPieces (va size : Nat) (es : List (W32 × Bool)) : List (Nat × List Byte × Bool) :=
  let per := 32 / size
  (List.range (es.length / per)).map fun i =>
    let part := (es.drop (per * i)).take per
    (va + 32 * i, part.flatMap fun e => leBytes size e.1.toNat, part.any Prod.snd)

/-- R263: would pieces send poison to host memory. -/
def leaksPois (m : Pinned) (ps : List (Nat × List Byte × Bool)) : Bool :=
  ps.any fun p => p.2.2 && match pinnedPlace m p.1 with
    | some (.host ..) => true
    | _ => false

/-- R222: pieces written, sector by sector. -/
def writePieces (s : State) (g : Nat) (m : Pinned) (ps : List (Nat × List Byte × Bool)) : State :=
  ps.foldl (fun s p => s.pinnedWrite g m p.1 p.2.1 p.2.2 3) s

/-- R222: a row written, its poisoned elements counted; R263: one that would send poison to host memory is dropped, with an
error event. -/
def writeRow (s : State) (cl : Nat) (c : CrfCfg) (r : Nat) (row : List (W32 × Bool)) : State :=
  let ps := elemPieces (c.rowa + r * c.rstr) (fmtBits c.ofmt / 8) row
  if leaksPois c.pages ps then s.errorEvent c.grid 3 0
  else (s.writePieces c.grid c.pages ps).count cl 0x3A0 (row.filter Prod.snd).length

/-- R225: a closed token released. -/
def releaseSlot (s : State) (cl n : Nat) : State :=
  match (s.carafe cl).cfg, (s.carafe cl).slots.find n with
  | some c, some x =>
    let p := (s.grid c.grid).part
    let kind := x.closed.getD 0
    let r := c.tokIdx x.tok % c.rows
    let s := if 2 ≤ kind then s else s.writeRow cl c r x.row
    let a := c.stata + r / 4
    let old := leNat (s.pinnedRead c.pages a 1 |>.map Prod.fst)
    let s := s.pinnedWrite c.grid c.pages a (leBytes 1 (old ||| (kind * pow2 (2 * (r % 4))))) false 3
    let s := (s.gridAdd c.grid p c.rela 1).count cl 0x308 1
    let s := s.modCarafe cl fun y =>
      { y with slots := y.slots.erase n, rcnt := (y.rcnt + 1) % pow2 32, next := if c.rel then (y.next + 1) % pow2 32 else y.next }
    s.wakeCarafe cl
  | _, _ => s

/-- R225: with REL = 1 closed tokens are released while it is their turn. -/
def releaseTurns (s : State) (cl : Nat) : Nat → State
  | 0 => s
  | fuel + 1 =>
    match (s.carafe cl).slots.find? fun e => e.2.tok == (s.carafe cl).next && e.2.closed.isSome with
    | some e => (s.releaseSlot cl e.1).releaseTurns cl fuel
    | none => s

/-- R222 to R225: a slot is closed: complete (0), substituted (1), dropped (2) or lost to an error in the slot
table (3, R260). -/
def closeSlot (s : State) (cl n kind : Nat) : State :=
  match (s.carafe cl).cfg, (s.carafe cl).slots.find n with
  | some c, some x =>
    let row := if 2 ≤ kind then [] else s.formRow c n x
    let s := s.modCarafe cl fun y => { y with slots := y.slots.put n { x with closed := some kind, row := row } }
    let s := if kind == 1 then s.count cl 0x310 1 else s
    if c.rel then s.releaseTurns cl 2049 else s.releaseSlot cl n
  | _, _ => s

/-! ### crfcfg -/

/-- A command that ends at once: its token rises and falls. -/
def quickToken (s : State) (tk : Nat) : State := (s.tokenUp s.curGrp tk).tokenDown s.curGrp tk 0

/-- R215, R216: the effect of `crfcfg`. -/
def effCrfcfg (f : XF) (s : State) : Eff :=
  let cl := s.cur.cl
  let g := s.cur.g
  let tk := f.tk.toNat
  let own := s.ownsCarafe cl g
  let free := (s.carafe cl).cfg.isNone
  let setCode := fun (s : State) (c : Nat) => s.modCarafe cl fun x => { x with code := c }
  if s.sreg f.sa == 0 then
    match s.addrPois [f.sa] with
    | some t => { s := s, fate := .trap t }
    | none =>
      if !s.tokenRoom s.curGrp tk then { s := s, fate := .stall }
      else
        let s := if own then setCode (s.carafeEnd cl) 0 else if free then setCode s 0 else s
        { s := s.quickToken tk }
  else
    match s.recordAt f.sa 64 64 false with
    | .error t => { s := s, fate := t }
    | .ok (s1, q, pois) =>
      let q0 := q.getD 0 0
      let q := if s.curGrid.det then q.set 0 (q0 ||| 0x4000000000) else q
      let c : CrfCfg := { grid := g, record := q, pages := [] }
      let done := fun (code : Nat) => ({ s := (setCode s1 code).quickToken tk } : Eff)
      if !s.tokenRoom s.curGrp tk then { s := s, fate := .stall }
      else if !own && !free then { s := s1.quickToken tk }
      else if own && (s.carafe cl).slots.any fun e => slotOpen e.2 then done 2
      else if !c.fieldsOk then done 3
      else if 134217728 < c.region then done 4
      else if pois then done 9
      else
        match s.spanFail c.spans with
        | some a => { s := s, fate := .trap (Trap.scalar 0x0A s.cur.lanes 0 (w64 a)) }
        | none =>
          let m := s.spanPins c.spans
          if !s.pinRoom m then s.pinStall
          else
            let old := ((s.carafe cl).cfg.map fun c => physPages c.pages).getD []
            let s2 := ((s1.touchSpans c.spans).pinAll m).unpin old
            let s2 := s2.modCarafe cl fun x =>
              { x with cfg := some { c with pages := m }, slots := [], next := c.tbase, rcnt := 0, code := 0 }
            -- R218: the slots are free
            { s := (s2.wakeCarafe cl).quickToken tk }

/-! ### crfroute -/

/-- R217: a lane's route record, with the marks of its identity and of its gates. -/
structure Route where
  lane : Nat
  tok : Nat
  k : Nat
  ids : List Nat
  gates : List W32
  zeros : Bool
  idPois : Bool
  gatePois : Bool

/-- R217: a route record read from the team's scratchpad. -/
def routeAt (s : State) (lane off : Nat) : Route :=
  let ps := (List.range 16).map fun i => ({ lane := i, idx := 0, at_ := off + 4 * i, n := 4 } : Piece)
  let m := s.readSpads ps
  let w := fun i => SMap.get m i []
  let num := fun i => leNat ((w i).map Prod.fst)
  let k := num 1 % 256
  let half := fun i => num (2 + i / 2) / pow2 (16 * (i % 2)) % 65536
  { lane := lane, tok := num 0, k := k, ids := (List.range (Nat.min k 8)).map half
    gates := (List.range (Nat.min k 8)).map fun i => w32 (num (6 + i))
    zeros := num 1 / 256 == 0 && num 14 == 0 && num 15 == 0
    idPois := anyPois (w 0) || anyPois (w 1) || (List.range (ceilDiv (Nat.min k 8) 2)).any fun i => anyPois (w (2 + i))
    gatePois := (List.range (Nat.min k 8)).any fun i => anyPois (w (6 + i)) }

/-- R217: the code of each route, in ascending lane order; `claimed` are the tokens that earlier lanes claim. -/
def routeCodes (x : Carafe) (c : CrfCfg) : List Nat → List Route → List (Route × Nat)
  | _, [] => []
  | claimed, r :: l =>
    let code :=
      if r.idPois || r.k == 0 || c.kmax < r.k || !r.zeros then 3
      else if c.rel && c.tokIdx r.tok < c.tokIdx x.next then 2
      else if (slotOf x r.tok).any (fun e => slotOpen e.2) || claimed.contains r.tok then 1
      else 0
    (r, code) :: routeCodes x c (if code == 0 then r.tok :: claimed else claimed) l

/-- R218: the slots that the claiming routes get, in order; none when some route finds no free slot. -/
def routeSlots (x : Carafe) (c : CrfCfg) (rs : List Route) : Option (List Nat) :=
  let free := (List.range c.nslot).filter fun n => (x.slots.find n).isNone
  if c.rel then
    rs.foldl (fun (acc : Option (List Nat)) r =>
      acc.bind fun l =>
        let n := c.tokIdx r.tok % c.nslot
        if (x.slots.find n).isNone && !l.contains n && c.tokIdx r.tok < c.tokIdx x.next + c.nslot then some (l ++ [n])
        else none) (some [])
  else if rs.length ≤ free.length then some (free.take rs.length) else none

/-- R217, R218: a slot claimed. -/
def claimSlot (s : State) (cl n : Nat) (c : CrfCfg) (r : Route) : State :=
  let (id, s) := s.fresh
  let x : CrfSlot :=
    { tok := r.tok, k := r.k, ids := r.ids, gates := r.gates, gatePois := r.gatePois
      deadline := if c.tout == 0 then none else some ((s.cluster cl).elapsed + c.tout), stamp := id }
  (s.modCarafe cl fun y => { y with slots := y.slots.put n x }).count cl 0x300 1

/-- R298: the VX register of a route. -/
def routeVx (f : XF) : Nat := f.acd.toNat * 16 + f.aca.toNat

/-- R461: the effect of `crfroute`. Each park counts in CPARK, that of a word woken and parked again too (log 43). -/
def effCrfroute (h : Hdr) (f : XF) (act : Mask) (s : State) : Eff :=
  let cl := s.cur.cl
  let vx := routeVx f
  let off := fun (l : Nat) => (s.sreg f.sa + sx64 (s.src.lane vx l)).toNat
  let bad := act.lanes.filter fun l => off l % 64 != 0
  let pois := if s.scalarMark f.sa then act else act &&& s.src.vgetPois vx
  if !bad.isEmpty then
    { s := s, fate := .trap { cause := 0x09, mask := maskOf fun l => bad.contains l, addrs := bad.map fun l => (l, w64 (off l)) } }
  else if pois != 0 then
    { s := s, fate := .trap { cause := 0x0B, mask := pois, addrs := pois.lanes.map fun l => (l, w64 (off l)) } }
  else
    let x := s.carafe cl
    let answer := fun (s : State) (codes : List (Nat × Nat)) =>
      let vals := (List.range 128).map fun l => w32 (((codes.find? fun e => e.1 == l).map Prod.snd).getD 0)
      ({ s := s.addDue h.la.toNat [(0, f.imm8.toNat)] [.vec f.imm8.toNat act vals 0] 0 } : Eff)
    match x.cfg with
    | none => answer s (act.lanes.map fun l => (l, 4))
    | some c =>
      if c.grid != s.cur.g then answer s (act.lanes.map fun l => (l, 4))
      else
        let ps := act.lanes.map fun l => ({ lane := l, idx := 0, at_ := off l, n := 64 } : Piece)
        let gone := s.absentLines ps
        if !gone.isEmpty then { s := s, fate := .retry (.line (s.touchedLines ps)) }
        else
          let rs := routeCodes x c [] (act.lanes.map fun l => s.routeAt l (off l))
          let takers := (rs.filter fun e => e.2 == 0).map Prod.fst
          match routeSlots x c takers with
          | none => { s := s.count cl 0x338 1, fate := .retry (.carafe takers.length) }
          | some ns =>
            let s := (takers.zip ns).foldl (fun s e => s.claimSlot cl e.2 c e.1) (s.countOver ps)
            answer s (rs.map fun e => (e.1.lane, e.2))

/-! ### crfdep -/

/-- R462: the operands of a deposit outside their limits. -/
def depDyn (s : State) (f : XF) : Option Nat :=
  let b := s.sreg f.sb
  let c := s.sreg f.sc
  let peer := c.getLsbD 15
  let p := s.curPart
  let n := ((List.range 32).filter fun i => (s.part p).clusters.getLsbD i).length
  let badB := b.getLsbD 35 || b.bits 63 56 != 0 || (if peer then 2 < b.bits 39 36 else b.bits 55 36 != 0)
  let port := c.bits 37 32
  let badC := c.bits 14 5 != 0 || c.bits 31 28 != 0 || c.bits 63 38 != 0 || n ≤ c.bits 4 0 ||
    (peer && (48 ≤ port || s.portOwner port != some p))
  minBit [adm 51 (!badB), adm 45 (!badC)]

/-- R462, R219: the source elements of a deposit. -/
def depSource (s : State) (m : Pinned) (spad : Bool) (base hid size : Nat) : List (Place × Nat) :=
  (List.range hid).filterMap fun e =>
    let a := base + e * size
    if spad then some (.spad s.cur.g s.cur.t a, size) else (pinnedPlace m a).map fun p => (p, size)

/-- R462: the global range that a deposit of `hid` elements reads; none for one from scratchpad. -/
def depSpans (f : XF) (s : State) (hid size : Nat) : List Span :=
  if f.imm8.getLsbD 0 then [] else [{ at_ := (s.sreg f.sa).toNat, n := hid * size, acc := .load }]

/-- R435, R462: the trap of a deposit of `hid` elements, alignment, translation and poison in turn. R263: `exports` are the
registers whose fields go out with it. -/
def depTrap (f : XF) (s : State) (hid size : Nat) (exports : List (BitVec 6)) : Option Trap :=
  if (s.sreg f.sa).toNat % size != 0 then some (Trap.scalar 0x09 s.cur.lanes 0 (s.sreg f.sa))
  else
    match s.spanFail (depSpans f s hid size) with
    | some a => some (Trap.scalar 0x0A s.cur.lanes 0 (w64 a))
    | none => (s.addrPois [f.sa]).or (s.exportPois f.sa exports)

/-- R219, R462: a deposit of `hid` elements sent with a body. -/
def sendDeposit (f : XF) (s : State) (hid size : Nat) (exports : List (BitVec 6)) (body : List (Place × Nat) → Body) : Eff :=
  match depTrap f s hid size exports with
  | some t => { s := s, fate := .trap t }
  | none =>
    let tk := f.tk.toNat
    let sp := depSpans f s hid size
    let m := s.spanPins sp
    if !s.tokenRoom s.curGrp tk then { s := s, fate := .stall }
    else if !s.pinRoom m then s.pinStall
    else
      let src := s.depSource m (f.imm8.getLsbD 0) (s.sreg f.sa).toNat hid size
      let s1 := (s.touchSpans sp).pinAll m
      let s1 := (distinct (src.flatMap fun r => match r.1 with | .dev pa => [pa / 128] | _ => [])).foldl
        (fun s l => s.wbRange s.curCore (l * 128) 128) s1
      -- R134: the source is read as a copy's
      let past := (src.filter fun r => s.placeOver r.1).length
      let s1 := if past == 0 then s1 else s1.count s.cur.cl 0x100 past
      let s1 := s1.tokenUp s.curGrp tk
      let (id, s1) := s1.fresh
      let x : Flight :=
        { id := id, g := s.cur.g, t := s.cur.t, grp := s.cur.grp, core := s.curCore, tk := some tk, cmd := id
          pages := physPages m, body := body src }
      { s := { s1 with flights := s1.flights ++ [x] } }

/-- R462: a local deposit whose target is unconfigured or another grid's: it is dropped in BADDEP, and its token falls. The rows of
R435 that its source meets trap all the same (R337), with the element size and the length that the target's configuration
gives: `hid` elements of `size` bytes, or of one byte and none of them where there is no configuration. -/
def depDrop (s : State) (f : XF) (cl hid size : Nat) : Eff :=
  match depTrap f s hid size [] with
  | some t => { s := s, fate := .trap t }
  | none =>
    if s.tokenRoom s.curGrp f.tk.toNat then { s := (s.count cl 0x330 1).quickToken f.tk.toNat } else { s := s, fate := .stall }

/-- R462: the effect of `crfdep`. A peer deposit sends its token index and position, and its target's cluster and device, in
its flits (R220, R28). -/
def effCrfdep (f : XF) (s : State) : Eff :=
  let b := s.sreg f.sb
  let c := s.sreg f.sc
  let tok := b.bits 31 0
  let pos := b.bits 34 32
  if c.getLsbD 15 then
    let size := fmtBits (carafeFmt (b.bits 39 36)) / 8
    s.sendDeposit f (b.bits 55 40) size [f.sb, f.sc] fun src =>
      .peerSend (c.bits 37 32) (c.bits 27 16) (c.bits 4 0) tok pos (s.sreg f.sa).toNat src false
  else
    let cl := (s.physCluster s.curPart (c.bits 4 0)).getD 0
    match (s.carafe cl).cfg with
    | some k =>
      if k.grid == s.cur.g then
        s.sendDeposit f k.hid (fmtBits k.dfmt / 8) [] fun src => .deposit cl tok pos k.hid k.dfmt src none
      else s.depDrop f cl k.hid (fmtBits k.dfmt / 8)
    | none => s.depDrop f cl 0 1

/-! ### Deposits -/

/-- R221: the claim that a deposit goes to, or the counter in which its drop counts; `id` is its flight. -/
def judge (s : State) (id cl tok pos : Nat) (sizeOk : Bool) : Except Nat Nat :=
  let other := s.flights.any fun x => x.id != id && match x.body with
    | .deposit c t j _ _ _ (some _) => c == cl && t == tok && j == pos
    | .peerDeposit _ _ c t j _ _ (some (some _)) => c == cl && t == tok && j == pos
    | _ => false
  if !sizeOk then .error 0x330
  else
    match slotOf (s.carafe cl) tok with
    | none => .error 0x320
    | some (_, x) =>
      if !slotOpen x || x.closed == some 1 then .error 0x320
      else if x.k ≤ pos then .error 0x330
      else if x.have_.getLsbD pos || other then .error 0x328
      else .ok x.stamp

/-- R219: the source of a deposit read and converted to FP32. -/
def depRead (s : State) (fmt : Nat) (src : List (Place × Nat)) : List (W32 × Bool) :=
  src.map fun r =>
    let v := s.copyRead r.1 r.2
    (rne32 (decodeFloat fmt (leNat (v.map Prod.fst))), anyPois v)

/-- R219: the bytes of a peer deposit, each with its mark. -/
def depBytes (s : State) (src : List (Place × Nat)) : List PByte := src.flatMap fun r => s.copyRead r.1 r.2

/-- R220: the flits of a peer deposit sent. -/
def sendChunks (s : State) (port dst src cl tok pos tag : Nat) (bs : List Byte) : State :=
  let n := ceilDiv bs.length 224
  (List.range n).foldl (fun s i =>
    let hd := leBytes 4 tok ++ leBytes 1 pos ++ leBytes 1 cl ++ leBytes 2 i ++ leBytes 2 n ++ leBytes 6 0
    s.sendFlit port 3 dst src tag (hd ++ (bs.drop (224 * i)).take 224)) s

/-- R221 to R223: an accepted deposit has landed in its slot: its elements are written, and its bit is set; past the slot's
deadline the slot closes first. R263: one that would send poison to host memory is dropped, with an error event; the answer
tells so. R221 names deadlines and `crfdrop` alone: that a deposit whose slot was given up meanwhile by the end of ownership or a
new configuration counts in LATE too is the model's choice (log 43, DESIGN CHOICE). -/
def landDeposit (s : State) (cl pos stamp : Nat) (data : List (W32 × Bool)) : State × Bool :=
  match (s.carafe cl).cfg, (s.carafe cl).slots.find? fun e => e.2.stamp == stamp && e.2.closed.isNone with
  | some c, some (n, x) =>
    let ps := elemPieces (elemAt c n pos 0) 4 data
    if x.deadline.any (· < (s.cluster cl).elapsed) then ((s.closeSlot cl n 1).count cl 0x320 1, false)
    else if leaksPois c.pages ps then (s.errorEvent c.grid 3 0, true)
    else
    let s := s.writePieces c.grid c.pages ps
    let marks := (List.range c.hid).foldl (fun m e =>
      SMap.set m false (16384 * pos + e) ((data.getD e (0, false)).2)) x.dataPois
    let x := { x with have_ := x.have_ ||| BitVec.ofNat 8 (pow2 pos), dataPois := marks }
    let s := s.modCarafe cl fun y => { y with slots := y.slots.put n x }
    (if (List.range x.k).all fun j => x.have_.getLsbD j then s.closeSlot cl n 0 else s, false)
  | _, _ => (s.count cl 0x320 1, false)

/-- The bytes of a received deposit, in chunk order; none while a chunk is missing. -/
def allChunks (count : Nat) (ch : SMap (List Byte)) : Option (List Byte) :=
  if (List.range count).all fun i => (ch.find i).isSome then some ((List.range count).flatMap fun i => ch.get i []) else none

/-- R221: do the chunks of a peer deposit that have come make a vector of the size that the carafe's DFMT gives. Where the carafe
has no configuration they do not: the deposit counts in BADDEP, which is the model's choice (log 43, DESIGN CHOICE). -/
def chunksFit (s : State) (cl count : Nat) (ch : SMap (List Byte)) : Bool :=
  (s.carafe cl).cfg.any fun c =>
    let size := c.hid * (fmtBits c.dfmt / 8)
    count == ceilDiv size 224 && ch.all fun e => e.2.length == Nat.min 224 (size - 224 * e.1)

/-- R221: a deposit's first byte reaches its carafe; a peer's deposit is read and sent. R221 judges the size of fabric deposits
alone: that a local deposit which finds its own grid's carafe configured with another HID or DFMT than at its issue is dropped
in BADDEP too is the model's choice (log 43, DESIGN CHOICE). -/
def depositArrival (s : State) (f : Flight) : State :=
  match f.body with
  | .deposit cl tok pos hid fmt src none =>
    if !s.sourcesReady f src then s
    else
      let data := s.depRead fmt src
      let s := { s with free := s.free + 128 }
      match s.judge f.id cl tok pos ((s.carafe cl).cfg.any fun c => c.grid == f.g && c.hid == hid && c.dfmt == fmt) with
      | .error off => (s.count cl off 1).landed f 0
      | .ok st => s.setFlight { f with body := .deposit cl tok pos hid fmt src (some (st, data)) }
  | .peerSend port dst cl tok pos at_ src false =>
    if !s.sourcesReady f src then s
    else
      let d := s.depBytes src
      let s := { s with free := s.free + 128 }
      if anyPois d then (s.errorEvent f.g 2 0 f.t f.grp).landed f 3
      else if !s.linkUp port then (s.count (f.core / 6) 0x330 1).landed f 0
      else
        -- R28: the spec names no register that holds the device's own id: a free value (log 11)
        let (i, s) := s.freeIdx
        let s := s.logLeak f.g 1 at_ d.length dst
        (s.sendChunks port dst ((Config.freeWord i).toNat % 4096) cl tok pos (f.id % 65536) (d.map Prod.fst)).setFlight
          { f with body := .peerSend port dst cl tok pos at_ src true }
  | .peerDeposit port src cl tok pos count ch none =>
    match s.judge f.id cl tok pos (s.chunksFit cl count ch) with
    | .error off => (s.count cl off 1).setFlight { f with body := .peerDeposit port src cl tok pos count ch (some none) }
    | .ok st => s.setFlight { f with body := .peerDeposit port src cl tok pos count ch (some (some st)) }
  | _ => s

/-- R221: the last byte of a deposit lands, or the rest of a dropped one has come. A poisoned source leaves the token's
status 0 (log 43), unless the deposit is dropped under R263 with status 3. -/
def depositLanded (s : State) (f : Flight) : State :=
  match f.body with
  | .deposit cl _ pos _ _ _ (some (st, data)) =>
    let r := s.landDeposit cl pos st data
    r.1.landed f (if r.2 then 3 else 0)
  | .peerSend port _ _ _ _ _ _ true =>
    let x := s.port port
    if (x.retry ++ x.backlog).any fun o => o.vc == 3 && o.tag.toNat == f.id % 65536 then s else s.landed f 0
  | .peerDeposit port src cl tok pos count ch (some j) =>
    let open_ := fun (st : Nat) => (s.carafe cl).slots.any fun e => e.2.stamp == st && e.2.closed.isNone
    match j, allChunks count ch with
    | none, some _ => s.dropFlight f.id
    | none, none => s
    | some st, some bs =>
      if !s.chunksFit cl count ch then (s.count cl 0x330 1).dropFlight f.id
      else
      let fmt := ((s.carafe cl).cfg.map CrfCfg.dfmt).getD 0
      let size := fmtBits fmt / 8
      let data := (List.range (bs.length / size)).map fun e =>
        (rne32 (decodeFloat fmt (leNat ((bs.drop (e * size)).take size))), false)
      (s.landDeposit cl pos st data).1.dropFlight f.id
    | some st, none =>
      if open_ st then s
      else (s.count cl 0x320 1).setFlight { f with body := .peerDeposit port src cl tok pos count ch (some none) }
  | _ => s

/-- R228: a status word as the issuing grid reads it. -/
def crfStatus (s : State) (cl g n : Nat) : W64 :=
  let x := s.carafe cl
  match x.cfg with
  | none => 0
  | some c =>
    if c.grid != g then (if n == 0 then 8 else 0)
    else if n == 0 then
      let open_ := (x.slots.filter fun e => slotOpen e.2).length
      w64 ((c.nslot - x.slots.length) % 4096 * pow2 52 + open_ % 4096 * pow2 40 + x.code * pow2 36 + bit c.subst * 4 + bit c.rel * 2 + 1)
    else w64 (x.next * pow2 32 + x.rcnt)

/-- R224: `crfdrop` on a token: its result. -/
def dropToken (s : State) (cl t : Nat) : State × Nat :=
  match slotOf (s.carafe cl) t with
  | some (n, x) => if slotOpen x then ((s.count cl 0x318 1).closeSlot cl n 2, 0) else (s, 1)
  | none => (s, 1)

end State

/-! ### The words -/

/-- `crfcfg` (R216, R460). -/
def execCrfcfg (h : Hdr) (f : XF) (s : State) : Host.Outcome State Fault Refusal :=
  .next (s.accessWord h { sr := [f.sa.toNat], tw := f.tw } none fun _ s => s.effCrfcfg f)

/-- `crfroute` (R217, R461), long-latency. -/
def execCrfroute (h : Hdr) (f : XF) (s : State) : Host.Outcome State Fault Refusal :=
  .next (s.accessWord h { vr := [State.routeVx f], vw := [f.imm8.toNat], sr := [f.sa.toNat], tw := f.tw } none fun act s =>
    s.effCrfroute h f act)

/-- `crfdep` (R219, R462). -/
def execCrfdep (h : Hdr) (f : XF) (s : State) : Host.Outcome State Fault Refusal :=
  .next (s.accessWord h
    { sr := [f.sa.toNat, f.sb.toNat, f.sc.toNat], tw := f.tw, dyn := s.depDyn f } none fun _ s => s.effCrfdep f)

/-- `crfstat` (R228). -/
def execCrfstat (h : Hdr) (f : XF) (s : State) : Host.Outcome State Fault Refusal :=
  .next (s.issueWord h { tw := f.tw } fun _ s =>
    { s := s.putS f.sc.toNat (s.crfStatus s.cur.cl s.cur.g f.imm8.toNat) false })

/-- `crfdrop` (R224), long-latency. -/
def execCrfdrop (h : Hdr) (f : XF) (s : State) : Host.Outcome State Fault Refusal :=
  let v := s.sreg f.sa
  .next (s.issueWord h { sr := [f.sa.toNat], tw := f.tw, dyn := adm 57 (v.hi == 0) } fun _ s =>
    let cl := s.cur.cl
    let r := if s.ownsCarafe cl s.cur.g then s.dropToken cl v.lo.toNat else (s, 4)
    { s := r.1.addDue h.la.toNat [(1, f.sc.toNat)] [.scal f.sc.toNat (w64 r.2) 0] 0 })

/-- DEPOSIT_ARRIVAL (R221). -/
def execDepositArrival (s : State) : Host.Outcome State Fault Refusal :=
  .next (match s.flight s.ev.id with
    | some f => s.depositArrival f
    | none => s)

/-- DEPOSIT_LANDED (R221, R222). -/
def execDepositLanded (s : State) : Host.Outcome State Fault Refusal :=
  .next (match s.flight s.ev.id with
    | some f => s.depositLanded f
    | none => s)

/-- R223: may a deposit for a token still set its bit in the cycle at hand. -/
def State.depositComing (s : State) (cl tok : Nat) : Bool :=
  s.flights.any fun x => match x.body with
    | .deposit c t _ _ _ _ _ => c == cl && t == tok
    | .peerDeposit _ _ c t _ _ _ j => c == cl && t == tok && j != some none
    | _ => false

/-- SLOT_DEADLINE (R223): an open slot whose deadline has come is closed as substituted; in the cycle of the deadline a
deposit that is coming wins. -/
def execSlotDeadline (s : State) : Host.Outcome State Fault Refusal :=
  let cl := s.ev.cl
  .next (match (s.carafe cl).slots.find s.ev.slot with
    | some x =>
      match x.deadline, x.closed with
      | some d, none =>
        if d < (s.cluster cl).elapsed || (d == (s.cluster cl).elapsed && !s.depositComing cl x.tok) then s.closeSlot cl s.ev.slot 1
        else s
      | _, _ => s
    | none => s)

end Sys2Proof.Machine
end

