-- ==== Sys2Proof/Machine/CrFun.lean ====
section
/-! DEFINITION. The correctly rounded functions of R255: the exact value as a fixed-point number of 704 fractional bits,
marked as lying a little above what is written, since it is irrational wherever it is not an exact special case (log 12). -/

namespace Sys2Proof

/-- Fractional bits of the fixed point. -/
def fxBits : Nat := 704
/-- One in fixed point. -/
def fxOne : Nat := pow2 fxBits
/-- The product of two fixed-point numbers. -/
def fxMul (a b : Nat) : Nat := a * b / fxOne

/-- Σ z^(2k+1)/(2k+1) with alternating signs (atan) or not (atanh); `p` is z^(2k+1). -/
def atanSeries (alt : Bool) (zz : Nat) : Nat → Nat → Nat → Nat
  | 0, _, _ => 0
  | fuel + 1, p, k =>
    if p == 0 then 0
    else
      let t := p / (2 * k + 1)
      let rest := atanSeries alt zz fuel (p * zz / fxOne) (k + 1)
      if alt then t - rest else t + rest

/-- atanh z for a fixed-point z of at most 1/3. -/
def fxAtanh (z : Nat) : Nat := atanSeries false (fxMul z z) 240 z 0

/-- atan(1/n). -/
def fxAtanInv (n : Nat) : Nat := atanSeries true (fxOne / (n * n)) 170 (fxOne / n) 0

/-- ln 2 = 2 atanh(1/3). -/
def fxLn2 : Nat := 2 * fxAtanh (fxOne / 3)

/-- π = 16 atan(1/5) − 4 atan(1/239). -/
def fxPi : Nat := 16 * fxAtanInv 5 - 4 * fxAtanInv 239

/-- Σ y^k/k! from term `t` = y^k/k! on. -/
def expSeries (y : Nat) : Nat → Nat → Nat → Nat
  | 0, _, _ => 0
  | fuel + 1, t, k => if t == 0 then 0 else t + expSeries y fuel (t * y / fxOne / (k + 1)) (k + 1)

/-- e^y for a fixed-point y below 1. -/
def fxExpSmall (y : Nat) : Nat := expSeries y 160 fxOne 0

/-- x squared n times. -/
def fxSquares : Nat → Nat → Nat
  | 0, x => x
  | n + 1, x => fxSquares n (fxMul x x)

/-- e^y for a fixed-point y below 512: (e^(y/2^9))^(2^9). -/
def fxExp (y : Nat) : Nat := fxSquares 9 (fxExpSmall (y / 512))

/-- Σ of the alternating series of sin or cos: `t` is the present term, `k` its degree. -/
def trigSeries (yy : Nat) : Nat → Nat → Nat → Nat
  | 0, _, _ => 0
  | fuel + 1, t, k =>
    if t == 0 then 0 else t - trigSeries yy fuel (t * yy / fxOne / ((k + 1) * (k + 2))) (k + 2)

/-- sin y and cos y for a fixed-point y of at most π/4. -/
def fxSin (y : Nat) : Nat := trigSeries (fxMul y y) 90 y 1
def fxCos (y : Nat) : Nat := trigSeries (fxMul y y) 90 fxOne 0

/-- The integer square root, bit by bit from bit n − 1 down. -/
def isqrtBits (v : Nat) : Nat → Nat → Nat
  | 0, r => r
  | n + 1, r => isqrtBits v n (if (r + pow2 n) * (r + pow2 n) ≤ v then r + pow2 n else r)

/-- ⌊√v⌋. -/
def isqrt (v : Nat) : Nat := isqrtBits v (flog2 v / 2 + 1) 0

/-- A fixed-point magnitude as a value just above which the exact one lies. -/
def fxVal (neg : Bool) (x : Nat) : Approx := { val := .fin neg x (-(fxBits : Int)), more := true }

/-- Any positive magnitude below every format's range, and any above. -/
def tinyVal (neg : Bool) : Approx := { val := .fin neg 1 (-5000), more := true }
def hugeVal : Approx := { val := .fin false 1 5000, more := true }
/-- A value just below 1. -/
def belowOne (neg : Bool) : Approx := { val := .fin neg (pow2 200 - 1) (-200), more := true }

/-- ⌊m·2^e⌋ and its fraction in fixed point. -/
def intPart (m : Nat) (e : Int) : Nat := if 0 ≤ e then shl m e else m / pow2 (-e).toNat
def fracPart (m : Nat) (e : Int) : Nat :=
  if 0 ≤ e then 0 else m % pow2 (-e).toNat * fxOne / pow2 (-e).toNat
/-- m·2^e in fixed point. -/
def toFx (m : Nat) (e : Int) : Nat := intPart m e * fxOne + fracPart m e

/-- The exponent of the leading one of m·2^e, m ≠ 0. -/
def lead (m : Nat) (e : Int) : Int := (flog2 m : Int) + e

/-- R255: 2^x. -/
def crExp2 (x : FVal) : Approx :=
  match x with
  | .nan => { val := .nan }
  | .inf n => if n then { val := .zero false } else { val := .inf false }
  | .fin n m e =>
    if m == 0 then { val := .fin false 1 0 }
    else if 11 ≤ lead m e then (if n then tinyVal false else hugeVal)
    else
      let i := intPart m e
      let f := fracPart m e
      if f == 0 then { val := .fin false 1 (sInt n i) }
      else
        let (k, g) : Int × Nat := if n then (-(i : Int) - 1, fxOne - f) else (i, f)
        { val := .fin false (fxExpSmall (fxMul g fxLn2)) (k - fxBits), more := true }

/-- R255: log₂ x. -/
def crLog2 (x : FVal) : Approx :=
  match x with
  | .nan => { val := .nan }
  | .inf n => if n then { val := .nan } else { val := .inf false }
  | .fin n m e =>
    if m == 0 then { val := .inf true }
    else if n then { val := .nan }
    else
      let k := lead m e
      let d := pow2 (flog2 m)
      if m == d then { val := FVal.ofInt k }
      else
        let l := 2 * fxAtanh ((m - d) * fxOne / (m + d)) * fxOne / fxLn2
        if 0 ≤ k then fxVal false (k.toNat * fxOne + l) else fxVal true (k.natAbs * fxOne - l - 1)

/-- R255: 1/x. -/
def crRcp (x : FVal) : Approx := FVal.div (.fin false 1 0) x

/-- A value m·2^e with an even exponent. -/
def evenExp (m : Nat) (e : Int) : Nat × Int := if e % 2 == 0 then (m, e) else (2 * m, e - 1)

/-- R255: 1/√x. -/
def crRsq (x : FVal) : Approx :=
  match x with
  | .nan => { val := .nan }
  | .inf n => if n then { val := .nan } else { val := .zero false }
  | .fin n m e =>
    if m == 0 then { val := .inf n }
    else if n then { val := .nan }
    else
      let (m, e) := evenExp m e
      let k := pow2 (2 * quotBits)
      let r := isqrt (k / m)
      { val := .fin false r (-(e / 2) - quotBits), more := r * r * m != k }

/-- R255: √x. -/
def crSqrt (x : FVal) : Approx :=
  match x with
  | .nan => { val := .nan }
  | .inf n => if n then { val := .nan } else { val := .inf false }
  | .fin n m e =>
    if m == 0 then { val := .zero n }
    else if n then { val := .nan }
    else
      let (m, e) := evenExp m e
      let v := m * pow2 (2 * quotBits)
      let r := isqrt v
      { val := .fin false r (e / 2 - quotBits), more := r * r != v }

/-- sin(πt) for t in fixed point from 0 to 1/2, exclusive of the exact points. -/
def sinPiHalf (t : Nat) : Nat :=
  if 4 * t ≤ fxOne then fxSin (fxMul t fxPi) else fxCos (fxMul (fxOne / 2 - t) fxPi)

/-- R255: sin πx. -/
def crSinPi (x : FVal) : Approx :=
  match x with
  | .nan => { val := .nan }
  | .inf _ => { val := .nan }
  | .fin n m e =>
    if m == 0 then { val := .zero n }
    else
      let f := fracPart m e
      let neg := n != (intPart m e % 2 == 1)
      if f == 0 then { val := .zero n }
      else if 2 * f == fxOne then { val := .fin neg 1 0 }
      else fxVal neg (sinPiHalf (if 2 * f ≤ fxOne then f else fxOne - f))

/-- R255: cos πx. -/
def crCosPi (x : FVal) : Approx :=
  match x with
  | .nan => { val := .nan }
  | .inf _ => { val := .nan }
  | .fin _ m e =>
    if m == 0 then { val := .fin false 1 0 }
    else
      let f := fracPart m e
      let odd := intPart m e % 2 == 1
      if f == 0 then { val := .fin odd 1 0 }
      else if 2 * f == fxOne then { val := .zero false }
      else if 2 * f < fxOne then
        let c := sinPiHalf (fxOne / 2 - f)
        if c == fxOne then belowOne odd else fxVal odd c
      else fxVal (!odd) (sinPiHalf (f - fxOne / 2))

/-- R255: tanh x = (e^2x − 1)/(e^2x + 1). -/
def crTanh (x : FVal) : Approx :=
  match x with
  | .nan => { val := .nan }
  | .inf n => { val := .fin n 1 0 }
  | .fin n m e =>
    if m == 0 then { val := .zero n }
    else if 6 ≤ lead m e then belowOne n
    else
      let y := fxExp (2 * toFx m e)
      fxVal n ((y - fxOne) * fxOne / (y + fxOne))

/-- R255: 1/(1 + e^−x). -/
def crSigm (x : FVal) : Approx :=
  match x with
  | .nan => { val := .nan }
  | .inf n => if n then { val := .zero false } else { val := .fin false 1 0 }
  | .fin n m e =>
    if m == 0 then { val := .fin false 1 (-1) }
    else if 8 ≤ lead m e then (if n then tinyVal false else belowOne false)
    else
      let y := fxExp (toFx m e)
      if n then
        let r := fxOne * fxOne / (fxOne + y)
        if 2 * r == fxOne then { val := .fin false (pow2 400 - 1) (-401), more := true } else fxVal false r
      else
        let r := y * fxOne / (fxOne + y)
        fxVal false r

end Sys2Proof
end

