-- ==== Sys2Proof/Machine/VecFloat.lean ====
section
/-! DEFINITION. The vector float words of the formats V3 and VI (R384 to R391). -/

namespace Sys2Proof.Machine

/-! ### Elements -/

/-- R384: an operation on the elements of one lane: one FP32, or the two halves of a pair. -/
def elems1 (ty : Nat) (op : Nat → Nat) (a : W32) : W32 :=
  let x := a.toNat
  if ty == 0 then w32 (op x) else w32 (op (x % 65536) + 65536 * op (x / 65536))
def elems2 (ty : Nat) (op : Nat → Nat → Nat) (a b : W32) : W32 :=
  let x := a.toNat
  let y := b.toNat
  if ty == 0 then w32 (op x y) else w32 (op (x % 65536) (y % 65536) + 65536 * op (x / 65536) (y / 65536))
def elems3 (ty : Nat) (op : Nat → Nat → Nat → Nat) (a b c : W32) : W32 :=
  let x := a.toNat
  let y := b.toNat
  let z := c.toNat
  if ty == 0 then w32 (op x y z)
  else w32 (op (x % 65536) (y % 65536) (z % 65536) + 65536 * op (x / 65536) (y / 65536) (z / 65536))

/-- R247: an operand as the word reads it. -/
def fread (ty : Nat) (ftz : Bool) (c : Nat) : FVal := flushIn ty ftz (decodeFloat ty c)

/-- R245 to R247: a two-operand float operation, rounded once. -/
def fop2 (ty rm : Nat) (sat ftz : Bool) (op : FVal → FVal → Approx) (a b : Nat) : Nat :=
  let x := fread ty ftz a
  let y := fread ty ftz b
  encodeWide ty rm sat ftz (x.isInf || y.isInf) (op x y)
/-- `vfma`: the product is not rounded (R385). -/
def fma (ty rm : Nat) (sat ftz : Bool) (a b c : Nat) : Nat :=
  let x := fread ty ftz a
  let y := fread ty ftz b
  let z := fread ty ftz c
  encodeWide ty rm sat ftz (x.isInf || y.isInf || z.isInf) { val := FVal.add rm (x.mul y) z }
/-- A function of one operand, rounded once. -/
def fop1 (ty rm : Nat) (sat ftz : Bool) (op : FVal → Approx) (a : Nat) : Nat :=
  let x := fread ty ftz a
  encodeWide ty rm sat ftz x.isInf (op x)
/-- An exact operation of two operands. -/
def fexact2 (ty : Nat) (ftz : Bool) (op : FVal → FVal → FVal) (a b : Nat) : Nat :=
  encodeWide ty 0 false ftz true { val := op (fread ty ftz a) (fread ty ftz b) }
/-- An exact operation of one operand. -/
def fexact1 (ty : Nat) (ftz : Bool) (op : FVal → FVal) (a : Nat) : Nat :=
  encodeWide ty 0 false ftz true { val := op (fread ty ftz a) }

/-- R388: rounding to an integral value; a zero result keeps the sign. -/
def fintegral (rm : Nat) : FVal → FVal
  | .nan => .nan
  | .inf n => .inf n
  | .fin n m e => if 0 ≤ e then .fin n m e else .fin n (roundShift rm n m false (-e) 0) 0

/-- R387: the class word of an element. -/
def fclass (ty : Nat) (ftz : Bool) (c : Nat) : Nat :=
  let (eb, fb) := fmtWidths ty
  let neg := c / pow2 (eb + fb) % 2 == 1
  let e := c / pow2 fb % pow2 eb
  let m := c % pow2 fb
  let k :=
    if e + 1 == pow2 eb then (if m == 0 then (if neg then 1 else 64) else 128)
    else if e == 0 then (if m == 0 || ftz then 8 else if neg then 4 else 16)
    else if neg then 2 else 32
  let snan := k == 128 && m < pow2 (fb - 1)
  k + 256 * bit neg + 512 * bit snan

/-- R386: a relation of FP32 operands. -/
def frel (sel : BitVec 8) (ftz : Bool) (a b : W32) : Bool :=
  FVal.rel (sel.toNat % 8) (fread 0 ftz a.toNat) (fread 0 ftz b.toNat)

/-- R391: an FP32 immediate, or a pair. -/
def fval2 (f : V3) (op : FVal → FVal → Approx) : W32 → W32 → W32 :=
  elems2 f.ty.toNat (fop2 f.ty.toNat f.rm.toNat f.sat f.ftz op)
def ival2 (f : VI) (op : FVal → FVal → Approx) : W32 → W32 → W32 :=
  elems2 f.ty.toNat (fop2 f.ty.toNat f.rm.toNat f.sat f.ftz op)

/-- Exact sum, difference and product before rounding. -/
def fsum (rm : Nat) (x y : FVal) : Approx := { val := FVal.add rm x y }
def fdiff (rm : Nat) (x y : FVal) : Approx := { val := FVal.add rm x y.neg }
def fprod (x y : FVal) : Approx := { val := x.mul y }

/-! ### The words -/

/-- `vfadd` (R385). -/
def execVfadd (h : Hdr) (f : V3) (s : State) : Host.Outcome State Fault Refusal :=
  .next (v3Two h f (fval2 f (fsum f.rm.toNat)) s)

/-- `vfsub` (R385). -/
def execVfsub (h : Hdr) (f : V3) (s : State) : Host.Outcome State Fault Refusal :=
  .next (v3Two h f (fval2 f (fdiff f.rm.toNat)) s)

/-- `vfmul` (R385). -/
def execVfmul (h : Hdr) (f : V3) (s : State) : Host.Outcome State Fault Refusal :=
  .next (v3Two h f (fval2 f fprod) s)

/-- `vfma` (R385). -/
def execVfma (h : Hdr) (f : V3) (s : State) : Host.Outcome State Fault Refusal :=
  .next (v3Three h f (elems3 f.ty.toNat (fma f.ty.toNat f.rm.toNat f.sat f.ftz)) s)

/-- `vfmin` (R385). -/
def execVfmin (h : Hdr) (f : V3) (s : State) : Host.Outcome State Fault Refusal :=
  .next (v3Two h f (elems2 f.ty.toNat (fexact2 f.ty.toNat f.ftz FVal.minimum)) s)

/-- `vfmax` (R385). -/
def execVfmax (h : Hdr) (f : V3) (s : State) : Host.Outcome State Fault Refusal :=
  .next (v3Two h f (elems2 f.ty.toNat (fexact2 f.ty.toNat f.ftz FVal.maximum)) s)

/-- `vfneg` (R385). -/
def execVfneg (h : Hdr) (f : V3) (s : State) : Host.Outcome State Fault Refusal :=
  .next (v3One h f (elems1 f.ty.toNat (fexact1 f.ty.toNat f.ftz FVal.neg)) s)

/-- `vfabs` (R385). -/
def execVfabs (h : Hdr) (f : V3) (s : State) : Host.Outcome State Fault Refusal :=
  .next (v3One h f (elems1 f.ty.toNat (fexact1 f.ty.toNat f.ftz FVal.abs)) s)

/-- `vfcmp` (R386). -/
def execVfcmp (h : Hdr) (f : V3) (s : State) : Host.Outcome State Fault Refusal :=
  .next (v3Rel h f (frel f.imm8 f.ftz) s)

/-- `vfclass` (R387): the class word, or with PD a test of it. -/
def execVfclass (h : Hdr) (f : V3) (s : State) : Host.Outcome State Fault Refusal :=
  if f.pd == 0 then .next (v3One h f (elems1 f.ty.toNat (fclass f.ty.toNat f.ftz)) s)
  else
    .next (s.issueWord h (f.uses false false false) fun act s =>
      let a := s.src.varg f.va
      let hit := maskOf fun l => (BitVec.ofNat 8 (fclass 0 f.ftz (a.at l).toNat)) &&& f.imm8 != 0
      { s := s.putP f.pd act hit a.pois })

/-- `vfrnd` (R388). -/
def execVfrnd (h : Hdr) (f : V3) (s : State) : Host.Outcome State Fault Refusal :=
  .next (v3One h f (elems1 f.ty.toNat (fexact1 f.ty.toNat f.ftz (fintegral f.rm.toNat))) s)

/-- `vfdiv` (R389), long-latency. -/
def execVfdiv (h : Hdr) (f : V3) (s : State) : Host.Outcome State Fault Refusal :=
  .next (v3TwoLong h f (fval2 f FVal.div) s)

/-- `vexp2` (R255, R390), long-latency. -/
def execVexp2 (h : Hdr) (f : V3) (s : State) : Host.Outcome State Fault Refusal :=
  .next (v3OneLong h f (elems1 f.ty.toNat (fop1 f.ty.toNat f.rm.toNat f.sat f.ftz crExp2)) s)

/-- `vlog2` (R255, R390), long-latency. -/
def execVlog2 (h : Hdr) (f : V3) (s : State) : Host.Outcome State Fault Refusal :=
  .next (v3OneLong h f (elems1 f.ty.toNat (fop1 f.ty.toNat f.rm.toNat f.sat f.ftz crLog2)) s)

/-- `vrcp` (R255, R390), long-latency. -/
def execVrcp (h : Hdr) (f : V3) (s : State) : Host.Outcome State Fault Refusal :=
  .next (v3OneLong h f (elems1 f.ty.toNat (fop1 f.ty.toNat f.rm.toNat f.sat f.ftz crRcp)) s)

/-- `vrsq` (R255, R390), long-latency. -/
def execVrsq (h : Hdr) (f : V3) (s : State) : Host.Outcome State Fault Refusal :=
  .next (v3OneLong h f (elems1 f.ty.toNat (fop1 f.ty.toNat f.rm.toNat f.sat f.ftz crRsq)) s)

/-- `vsqrt` (R255, R390), long-latency. -/
def execVsqrt (h : Hdr) (f : V3) (s : State) : Host.Outcome State Fault Refusal :=
  .next (v3OneLong h f (elems1 f.ty.toNat (fop1 f.ty.toNat f.rm.toNat f.sat f.ftz crSqrt)) s)

/-- `vsinpi` (R255, R390), long-latency. -/
def execVsinpi (h : Hdr) (f : V3) (s : State) : Host.Outcome State Fault Refusal :=
  .next (v3OneLong h f (elems1 f.ty.toNat (fop1 f.ty.toNat f.rm.toNat f.sat f.ftz crSinPi)) s)

/-- `vcospi` (R255, R390), long-latency. -/
def execVcospi (h : Hdr) (f : V3) (s : State) : Host.Outcome State Fault Refusal :=
  .next (v3OneLong h f (elems1 f.ty.toNat (fop1 f.ty.toNat f.rm.toNat f.sat f.ftz crCosPi)) s)

/-- `vtanh` (R255, R390), long-latency. -/
def execVtanh (h : Hdr) (f : V3) (s : State) : Host.Outcome State Fault Refusal :=
  .next (v3OneLong h f (elems1 f.ty.toNat (fop1 f.ty.toNat f.rm.toNat f.sat f.ftz crTanh)) s)

/-- `vsigm` (R255, R390), long-latency. -/
def execVsigm (h : Hdr) (f : V3) (s : State) : Host.Outcome State Fault Refusal :=
  .next (v3OneLong h f (elems1 f.ty.toNat (fop1 f.ty.toNat f.rm.toNat f.sat f.ftz crSigm)) s)

/-- `vfadd` with an immediate (R391). -/
def execVfaddImm (h : Hdr) (f : VI) (s : State) : Host.Outcome State Fault Refusal :=
  .next (viTwo h f (ival2 f (fsum f.rm.toNat)) s)

/-- `vfmul` with an immediate (R391). -/
def execVfmulImm (h : Hdr) (f : VI) (s : State) : Host.Outcome State Fault Refusal :=
  .next (viTwo h f (ival2 f fprod) s)

/-- `vfmin` with an immediate (R391). -/
def execVfminImm (h : Hdr) (f : VI) (s : State) : Host.Outcome State Fault Refusal :=
  .next (viTwo h f (elems2 f.ty.toNat (fexact2 f.ty.toNat f.ftz FVal.minimum)) s)

/-- `vfmax` with an immediate (R391). -/
def execVfmaxImm (h : Hdr) (f : VI) (s : State) : Host.Outcome State Fault Refusal :=
  .next (viTwo h f (elems2 f.ty.toNat (fexact2 f.ty.toNat f.ftz FVal.maximum)) s)

/-- `vfcmp` with an immediate (R391): the relation lies in VD. -/
def execVfcmpImm (h : Hdr) (f : VI) (s : State) : Host.Outcome State Fault Refusal :=
  .next (viRel h f (frel f.vd f.ftz) s)

/-- `vmov` of a float immediate (R391). -/
def execVmovFloatImm (h : Hdr) (f : VI) (s : State) : Host.Outcome State Fault Refusal :=
  .next (viMov h f s)

end Sys2Proof.Machine
end

