-- ==== Sys2Proof/Machine/VecInt.lean ====
section
/-! DEFINITION. The vector integer and logical words of the formats V3 and VI (R376 to R379). -/

namespace Sys2Proof.Machine

/-! ### Operations on 32-bit lanes -/

/-- R377: an exact integer clamped to INT32. -/
def clampS (v : Int) : W32 :=
  if v < -2147483648 then 0x80000000 else if 2147483647 < v then 0x7FFFFFFF else BitVec.ofInt 32 v
/-- R377: an exact integer clamped to UINT32. -/
def clampU (v : Int) : W32 := if v < 0 then 0 else if 4294967295 < v then 0xFFFFFFFF else BitVec.ofInt 32 v

/-- R376, R377: an operation that wraps, or with SAT clamps its exact result, signed or (TY 0x0B) unsigned. -/
def satOp (sat : Bool) (ty : BitVec 5) (op : Int → Int → Int) (a b : W32) : W32 :=
  if !sat then BitVec.ofInt 32 (op a.toInt b.toInt)
  else if ty == 0x0B then clampU (op a.toNat b.toNat)
  else clampS (op a.toInt b.toInt)

/-- Bits [63:32] of the signed, unsigned product. -/
def mulhS (a b : W32) : W32 := ((a.signExtend 64 * b.signExtend 64) >>> 32).setWidth 32
def mulhU (a b : W32) : W32 := ((a.setWidth 64 * b.setWidth 64) >>> 32).setWidth 32
/-- Shifts by the low five bits of b. -/
def shlL (a b : W32) : W32 := a <<< (b.toNat % 32)
def shrL (a b : W32) : W32 := a >>> (b.toNat % 32)
def sarL (a b : W32) : W32 := a.sshiftRight (b.toNat % 32)
def minS (a b : W32) : W32 := if a.slt b then a else b
def minU (a b : W32) : W32 := if a.ult b then a else b
def maxS (a b : W32) : W32 := if b.slt a then a else b
def maxU (a b : W32) : W32 := if b.ult a then a else b
/-- R376, R377: −2³¹ gives itself, or with SAT the largest INT32. -/
def absL (sat : Bool) (a : W32) : W32 := if sat then clampS a.toInt.natAbs else BitVec.ofInt 32 a.toInt.natAbs
def negL (sat : Bool) (a : W32) : W32 := if sat then clampS (-a.toInt) else -a
/-- R378: the relation that IMM8 or VD selects. -/
def relL (sel : BitVec 8) (a b : W32) : Bool := relBits (sel.toNat % 8) (!sel.getLsbD 3) a b

/-! ### The words -/

/-- `vadd` (R376). -/
def execVadd (h : Hdr) (f : V3) (s : State) : Host.Outcome State Fault Refusal :=
  .next (v3Two h f (satOp f.sat f.ty (· + ·)) s)

/-- `vsub` (R376). -/
def execVsub (h : Hdr) (f : V3) (s : State) : Host.Outcome State Fault Refusal :=
  .next (v3Two h f (satOp f.sat f.ty (· - ·)) s)

/-- `vmul` (R376). -/
def execVmul (h : Hdr) (f : V3) (s : State) : Host.Outcome State Fault Refusal :=
  .next (v3Two h f (satOp f.sat f.ty (· * ·)) s)

/-- `vmulh` (R376). -/
def execVmulh (h : Hdr) (f : V3) (s : State) : Host.Outcome State Fault Refusal :=
  .next (v3Two h f (mulhS) s)

/-- `vmulhu` (R376). -/
def execVmulhu (h : Hdr) (f : V3) (s : State) : Host.Outcome State Fault Refusal :=
  .next (v3Two h f (mulhU) s)

/-- `vmad` (R376): a × b + c. -/
def execVmad (h : Hdr) (f : V3) (s : State) : Host.Outcome State Fault Refusal :=
  .next (v3Three h f (fun a b c => a * b + c) s)

/-- `vand` (R376). -/
def execVand (h : Hdr) (f : V3) (s : State) : Host.Outcome State Fault Refusal :=
  .next (v3Two h f (· &&& ·) s)

/-- `vor` (R376). -/
def execVor (h : Hdr) (f : V3) (s : State) : Host.Outcome State Fault Refusal :=
  .next (v3Two h f (· ||| ·) s)

/-- `vxor` (R376). -/
def execVxor (h : Hdr) (f : V3) (s : State) : Host.Outcome State Fault Refusal :=
  .next (v3Two h f (· ^^^ ·) s)

/-- `vnot` (R376). -/
def execVnot (h : Hdr) (f : V3) (s : State) : Host.Outcome State Fault Refusal :=
  .next (v3One h f (~~~ ·) s)

/-- `vshl` (R376). -/
def execVshl (h : Hdr) (f : V3) (s : State) : Host.Outcome State Fault Refusal :=
  .next (v3Two h f shlL s)

/-- `vshr` (R376). -/
def execVshr (h : Hdr) (f : V3) (s : State) : Host.Outcome State Fault Refusal :=
  .next (v3Two h f shrL s)

/-- `vsar` (R376). -/
def execVsar (h : Hdr) (f : V3) (s : State) : Host.Outcome State Fault Refusal :=
  .next (v3Two h f sarL s)

/-- `vmin` (R376). -/
def execVmin (h : Hdr) (f : V3) (s : State) : Host.Outcome State Fault Refusal :=
  .next (v3Two h f minS s)

/-- `vminu` (R376). -/
def execVminu (h : Hdr) (f : V3) (s : State) : Host.Outcome State Fault Refusal :=
  .next (v3Two h f minU s)

/-- `vmax` (R376). -/
def execVmax (h : Hdr) (f : V3) (s : State) : Host.Outcome State Fault Refusal :=
  .next (v3Two h f maxS s)

/-- `vmaxu` (R376). -/
def execVmaxu (h : Hdr) (f : V3) (s : State) : Host.Outcome State Fault Refusal :=
  .next (v3Two h f maxU s)

/-- `vabs` (R376, R377). -/
def execVabs (h : Hdr) (f : V3) (s : State) : Host.Outcome State Fault Refusal :=
  .next (v3One h f (absL f.sat) s)

/-- `vneg` (R376, R377). -/
def execVneg (h : Hdr) (f : V3) (s : State) : Host.Outcome State Fault Refusal :=
  .next (v3One h f (negL f.sat) s)

/-- `vmov` (R376): a register, or with BS the low word of a scalar. -/
def execVmov (h : Hdr) (f : V3) (s : State) : Host.Outcome State Fault Refusal :=
  .next (s.issueWord h
    { vr := if f.bs then [] else [f.va.toNat], vw := [f.vd.toNat], sr := if f.bs then [f.vb.toNat % 64] else [] }
    fun act s => { s := s.putV f.vd act (if f.bs then s.src.bcast (f.vb.toNat % 64) else s.src.varg f.va) })

/-- `vsel` (R376): p[N] selects a or b in each lane; the condition may be decided by a poisoned word's bits. -/
def execVsel (h : Hdr) (f : V3) (s : State) : Host.Outcome State Fault Refusal :=
  let n := f.imm8.toNat % 16
  .next (s.issueWord h { f.uses true false true with pr := [n] } fun act s =>
    let p := s.src.pget n
    let a := s.src.varg f.va
    let b := f.argB s.src
    { s := s.putV f.vd act
        { vals := (List.range 128).map fun l => if p.getLsbD l then a.at l else b.at l, pois := a.pois ||| b.pois } })

/-- `vcmp` (R376, R378). -/
def execVcmp (h : Hdr) (f : V3) (s : State) : Host.Outcome State Fault Refusal :=
  .next (v3Rel h f (relL f.imm8) s)

/-- `vpopc` (R376). -/
def execVpopc (h : Hdr) (f : V3) (s : State) : Host.Outcome State Fault Refusal :=
  .next (v3One h f (fun a => w32 (popc a)) s)

/-- `vclz` (R376). -/
def execVclz (h : Hdr) (f : V3) (s : State) : Host.Outcome State Fault Refusal :=
  .next (v3One h f (fun a => w32 (clz a)) s)

/-- `vadd` with an immediate (R379). -/
def execVaddImm (h : Hdr) (f : VI) (s : State) : Host.Outcome State Fault Refusal :=
  .next (viTwo h f (satOp f.sat f.ty (· + ·)) s)

/-- `vmul` with an immediate (R379). -/
def execVmulImm (h : Hdr) (f : VI) (s : State) : Host.Outcome State Fault Refusal :=
  .next (viTwo h f (satOp f.sat f.ty (· * ·)) s)

/-- `vand` with an immediate (R379). -/
def execVandImm (h : Hdr) (f : VI) (s : State) : Host.Outcome State Fault Refusal :=
  .next (viTwo h f (· &&& ·) s)

/-- `vor` with an immediate (R379). -/
def execVorImm (h : Hdr) (f : VI) (s : State) : Host.Outcome State Fault Refusal :=
  .next (viTwo h f (· ||| ·) s)

/-- `vxor` with an immediate (R379). -/
def execVxorImm (h : Hdr) (f : VI) (s : State) : Host.Outcome State Fault Refusal :=
  .next (viTwo h f (· ^^^ ·) s)

/-- `vshl` with an immediate (R379). -/
def execVshlImm (h : Hdr) (f : VI) (s : State) : Host.Outcome State Fault Refusal :=
  .next (viTwo h f (shlL) s)

/-- `vshr` with an immediate (R379). -/
def execVshrImm (h : Hdr) (f : VI) (s : State) : Host.Outcome State Fault Refusal :=
  .next (viTwo h f (shrL) s)

/-- `vsar` with an immediate (R379). -/
def execVsarImm (h : Hdr) (f : VI) (s : State) : Host.Outcome State Fault Refusal :=
  .next (viTwo h f (sarL) s)

/-- `vmin` with an immediate (R379). -/
def execVminImm (h : Hdr) (f : VI) (s : State) : Host.Outcome State Fault Refusal :=
  .next (viTwo h f (minS) s)

/-- `vminu` with an immediate (R379). -/
def execVminuImm (h : Hdr) (f : VI) (s : State) : Host.Outcome State Fault Refusal :=
  .next (viTwo h f (minU) s)

/-- `vmax` with an immediate (R379). -/
def execVmaxImm (h : Hdr) (f : VI) (s : State) : Host.Outcome State Fault Refusal :=
  .next (viTwo h f (maxS) s)

/-- `vmaxu` with an immediate (R379). -/
def execVmaxuImm (h : Hdr) (f : VI) (s : State) : Host.Outcome State Fault Refusal :=
  .next (viTwo h f (maxU) s)

/-- `vcmp` with an immediate (R379): the relation lies in VD. -/
def execVcmpImm (h : Hdr) (f : VI) (s : State) : Host.Outcome State Fault Refusal :=
  .next (viRel h f (relL f.vd) s)

/-- `vmov` with an immediate (R379). -/
def execVmovImm (h : Hdr) (f : VI) (s : State) : Host.Outcome State Fault Refusal :=
  .next (viMov h f s)

end Sys2Proof.Machine
end

