-- ==== Sys2Proof/Machine/VecMove.lean ====
section
/-! DEFINITION. Lane movement, group-wide words, reductions, scans and conversions (R380 to R383, R392 to R398). -/

namespace Sys2Proof.Machine

/-! ### Lane movement -/

/-- A result read from a source lane of `a` in each lane: `src` gives the lane, or none for zero. -/
def gather (a : VArg) (src : Nat → Option Nat) : VArg :=
  { vals := (List.range 128).map fun l => match src l with
      | some i => a.at i
      | none => 0
    pois := maskOf fun l => match src l with
      | some i => a.pois.getLsbD i
      | none => false }

/-- `vshuf` (R381). -/
def execVshuf (h : Hdr) (f : V3) (s : State) : Host.Outcome State Fault Refusal :=
  let n := f.imm8.toNat
  .next (s.issueWord h (f.uses (n == 0) false true) fun act s =>
    let a := s.src.varg f.va
    if n == 0 then
      let b := f.argB s.src
      let x := gather a fun l => let i := (b.at l).toNat; if i ≤ 127 then some i else none
      { s := s.putV f.vd act { x with pois := x.pois ||| b.pois } }
    else if n < 128 then { s := s.putV f.vd act (gather a fun l => some ((l + n) % 128)) }
    else { s := s.putV f.vd act (gather a fun l => some (l ^^^ (n - 128))) })

/-- `vbcast` (R380): the lane is IMM8, or with BS the low seven bits of a scalar. -/
def execVbcast (h : Hdr) (f : V3) (s : State) : Host.Outcome State Fault Refusal :=
  .next (s.issueWord h (f.uses f.bs false true) fun act s =>
    let n := if f.bs then (s.src.sget (f.vb.toNat % 64)).toNat % 128 else f.imm8.toNat
    let x := gather (s.src.varg f.va) fun _ => some n
    { s := s.putV f.vd act { x with pois := if f.bs then x.pois ||| (s.src.bcast (f.vb.toNat % 64)).pois else x.pois } })

/-- `vlaneid` (R380). -/
def execVlaneid (h : Hdr) (f : V3) (s : State) : Host.Outcome State Fault Refusal :=
  .next (s.issueWord h { vw := [f.vd.toNat] } fun act s =>
    { s := s.putV f.vd act { vals := (List.range 128).map w32 } })

/-- `vballot` (R382): the mask of active lanes where p[N] is true, into a pair of s registers. -/
def execVballot (h : Hdr) (f : V3) (s : State) : Host.Outcome State Fault Refusal :=
  let sd := f.vd.toNat % 64
  let n := f.va.toNat % 16
  .next (s.issueWord h { pr := [n] } fun act s =>
    let m := act &&& s.src.pget n
    { s := (s.putS sd (m.setWidth 64) false).putS (sd + 1) ((m >>> 64).setWidth 64) false })

/-- `vany` (R382). -/
def execVany (h : Hdr) (f : V3) (s : State) : Host.Outcome State Fault Refusal :=
  let n := f.va.toNat % 16
  .next (s.issueWord h { pr := [n] } fun act s =>
    { s := s.setQ (f.vd.toNat % 8) (act &&& s.src.pget n != 0) })

/-- `vall` (R382). -/
def execVall (h : Hdr) (f : V3) (s : State) : Host.Outcome State Fault Refusal :=
  let n := f.va.toNat % 16
  .next (s.issueWord h { pr := [n] } fun act s =>
    { s := s.setQ (f.vd.toNat % 8) (act &&& ~~~(s.src.pget n) == 0) })

/-! ### Reductions and scans -/

/-- R383: the operation and its identity. -/
def redOp (c : Nat) : W32 → W32 → W32 :=
  match c with
  | 0 => (· + ·)
  | 1 => minS
  | 2 => minU
  | 3 => maxS
  | 4 => maxU
  | 5 => (· &&& ·)
  | 6 => (· ||| ·)
  | _ => (· ^^^ ·)
def redUnit (c : Nat) : W32 :=
  match c with
  | 1 => 0x7FFFFFFF
  | 2 => 0xFFFFFFFF
  | 3 => 0x80000000
  | 5 => 0xFFFFFFFF
  | _ => 0

/-- R251: the leaves: inactive lanes take the identity. -/
def leaves (act : Mask) (a : VArg) (unit : W32) : List W32 :=
  (List.range 128).map fun l => if act.getLsbD l then a.at l else unit

/-- R392: FP32 add, minimum and maximum, and their identities. -/
def fredNode (c : Nat) : W32 → W32 → W32 :=
  match c with
  | 0 => add32
  | 1 => min32
  | _ => max32
def fredUnit (c : Nat) : W32 :=
  match c with
  | 0 => 0x80000000
  | 1 => 0x7F800000
  | _ => 0xFF800000

/-- R392: one half (or the whole FP32 lane) of the leaves, as FP32, with `.ftz` read. -/
def fredLeaf (ty : Nat) (ftz hi : Bool) (a : W32) : W32 :=
  let c := if ty == 0 then a.toNat else if hi then a.toNat / 65536 else a.toNat % 65536
  rne32 (fread ty ftz c)

/-- R246, R392: a tree's value rounded once into the format; `.sat` replaces an infinity that came from finite leaves. -/
def fredOut (ty : Nat) (sat ftz : Bool) (ls : List W32) (x : W32) : Nat :=
  encodeWide ty 0 sat ftz (ls.any fun l => (f32 l).isInf) { val := f32 x }

/-- R392: T over a prefix of the lanes, in the word's format. -/
def fredValue (f : V3) (act : Mask) (a : VArg) (n : Nat) : W32 :=
  let ty := f.ty.toNat
  let c := f.imm8.toNat % 16
  let half := fun hi =>
    let ls := ((List.range n).map fun l => if act.getLsbD l then fredLeaf ty f.ftz hi (a.at l) else fredUnit c)
    let ls := if n == 0 then [fredUnit c] else ls
    fredOut ty f.sat f.ftz ls (canon (fredNode c) (fredUnit c) ls)
  if ty == 0 then w32 (half false) else w32 (half false + 65536 * half true)

/-- R383: T over a prefix of the lanes. -/
def redValue (f : V3) (act : Mask) (a : VArg) (n : Nat) : W32 :=
  let c := f.imm8.toNat % 16
  canon (redOp c) (redUnit c) ((leaves act a (redUnit c)).take n)

/-- R374: does a prefix of the active lanes hold a poisoned word. -/
def prefixPois (act : Mask) (a : VArg) (n : Nat) : Bool :=
  (List.range n).any fun l => act.getLsbD l && a.pois.getLsbD l

/-- A reduction: its value goes to every active lane, and with IMM8[5] to a scalar. -/
def reduceWord (h : Hdr) (f : V3) (value : Mask → VArg → Nat → W32) (s : State) : State :=
  s.issueWord h { vr := [f.va.toNat], vw := [f.vd.toNat] } fun act s =>
    let a := s.src.varg f.va
    let v := value act a 128
    let p := prefixPois act a 128
    let sb := f.vb.toNat % 64
    let also := f.imm8.getLsbD 5
    let s := s.addDue h.la.toNat ((0, f.vd.toNat) :: if also then [(1, sb)] else [])
      (RegWr.vec f.vd.toNat act (splat v) (if p then Mask.full else 0) ::
        if also then [.scal sb (v.setWidth 64) (if p then 1 else 0)] else []) 0
    let s := if p && also && sb != 0 then s.count s.cur.cl 0x3A0 1 else s
    { s := s.countPois (if p then act else 0) }

/-- A scan: lane L gets the value over the lanes up to L, or with IMM8[4] below L. -/
def scanWord (h : Hdr) (f : V3) (value : Mask → VArg → Nat → W32) (s : State) : State :=
  s.issueWord h { vr := [f.va.toNat], vw := [f.vd.toNat] } fun act s =>
    let a := s.src.varg f.va
    let n := fun l => if f.imm8.getLsbD 4 then l else l + 1
    let x : VArg :=
      { vals := (List.range 128).map fun l => if act.getLsbD l then value act a (n l) else 0
        pois := maskOf fun l => prefixPois act a (n l) }
    { s := s.dueV h f.vd act x }

/-- `vred` (R383), long-latency. -/
def execVred (h : Hdr) (f : V3) (s : State) : Host.Outcome State Fault Refusal :=
  .next (reduceWord h f (redValue f) s)
/-- `vscan` (R383), long-latency. -/
def execVscan (h : Hdr) (f : V3) (s : State) : Host.Outcome State Fault Refusal :=
  .next (scanWord h f (redValue f) s)
/-- `vfred` (R392), long-latency. -/
def execVfred (h : Hdr) (f : V3) (s : State) : Host.Outcome State Fault Refusal :=
  .next (reduceWord h f (fredValue f) s)
/-- `vfscan` (R392), long-latency. -/
def execVfscan (h : Hdr) (f : V3) (s : State) : Host.Outcome State Fault Refusal :=
  .next (scanWord h f (fredValue f) s)

/-! ### Conversions -/

/-- R393: the width of an element's place in a lane. -/
def laneSlot (ty : Nat) : Nat := if ty == 5 then 8 else fmtBits ty

/-- R394: element `pos` of a lane. -/
def laneElem (ty pos : Nat) (ftz : Bool) (x : W32) : FVal :=
  if ty == 0x10 then cb2Comp (x.toNat / pow2 (16 * (pos / 8)) % 65536) (pos % 8)
  else
    let c := x.toNat / pow2 (laneSlot ty * pos) % pow2 (fmtBits ty)
    if isFloatFmt ty then flushIn ty ftz (decodeFloat ty c) else decodeInt ty c

/-- R394: a lane with one element replaced. -/
def laneMerge (ty pos y : Nat) (c : W32) : W32 :=
  let lo := pow2 (laneSlot ty * pos)
  let n := pow2 (laneSlot ty)
  w32 (c.toNat - c.toNat / lo % n * lo + y % n * lo)

/-- `vcvt` (R394, R395). -/
def execVcvt (h : Hdr) (f : V3) (s : State) : Host.Outcome State Fault Refusal :=
  let dst := f.ty.toNat
  let src := f.ty2.toNat
  let spos := f.imm8.toNat % 16
  let dpos := f.imm8.toNat / 16
  let narrow := fmtBits dst < 32
  let u : Uses :=
    { vr := f.va.toNat :: (if narrow then [f.vc.toNat] else []), vw := [f.vd.toNat]
      sr := if f.bs then [f.vb.toNat % 64] else [] }
  .next (s.issueWord h u fun act s =>
    let a := s.src.varg f.va
    let c := s.src.varg f.vc
    let sx := s.src.sget (f.vb.toNat % 64)
    let one := fun l =>
      let v := laneElem src spos f.ftz (a.at l)
      let y := convert dst f.rm.toNat f.sat f.ftz (stochDraw sx l dpos) v
      if narrow then laneMerge dst dpos y (c.at l) else w32 y
    let sp := f.bs && s.src.sgetPois (f.vb.toNat % 64) != 0
    { s := s.putV f.vd act
        { vals := (List.range 128).map fun l => if act.getLsbD l then one l else 0
          pois := a.pois ||| (if narrow then c.pois else 0) ||| (if sp then Mask.full else 0) } })

/-- R243, R398: a slot that is not bound, or that asks for smoothing when no vector is bound. -/
def State.slotUnbound (s : State) (n : BitVec 3) (smooth : Bool) : Option Nat :=
  let f := s.fslot n
  if !slotBound f then some n.toNat
  else if smooth && slotSmth f && s.grp.smooth.isNone then some n.toNat else none

/-- R241: element k of the bound smoothing vector, from the team's scratchpad. -/
def State.smoothAt (s : State) (base : W32) (k : Nat) : W32 :=
  let x := s.team s.curTeam
  match State.spReduce s.curGrid.alloc (base.toNat + 4 * k) with
  | none => 0
  | some o => w32 (leNat (State.spBytes x o 4))

/-- R396: the values that a pack quantises: inactive lanes +0, flushed, and divided by the smoothing vector. -/
def packSources (s : State) (f : V3) (act : Mask) (smth : Bool) : List W32 :=
  let a := s.src.varg f.va
  (List.range 128).map fun l =>
    let x : W32 := if act.getLsbD l then a.at l else 0
    let x := if f.ftz then w32 (encodeWide 0 0 false true true { val := fread 0 true x.toNat }) else x
    match if smth then s.grp.smooth else none with
    | none => x
    | some b =>
      let d := FVal.div (f32 x) (f32 (s.smoothAt b (128 * f.imm8.toNat + l)))
      w32 (encodeWide 0 0 false false ((f32 x).isInf) d)

/-- R396: the scale and the codes of block b of the sources. -/
def packBlock (ty scl rm : Nat) (sx : W64) (xs : List W32) (b : Nat) : Nat × List Nat :=
  let vs := (List.range 32).map fun i => f32 (xs.getD (32 * b + i) 0)
  let e := if scl % 2 == 1 then blockScale ty vs else 127
  (e, (List.range 32).map fun i => blockCode ty rm e (stochDraw sx (32 * b + i) 0) (vs.getD i (FVal.zero false)))

/-- The 32-bit words of a byte string, one for each lane, zero beyond its end. -/
def laneWords (bs : List Byte) : List W32 := (List.range 128).map fun l => w32 (leNat ((bs.drop (4 * l)).take 4))

/-- R374: which lanes of a packed result are poisoned: those that hold a byte of a poisoned block. -/
def packPois (ty : Nat) (blk : Nat → Bool) : Mask :=
  let n := fmtBits ty
  maskOf fun l => (List.range 4).any fun b => blk b && b * n * 4 < 4 * l + 4 && 4 * l < (b + 1) * n * 4

/-- `vcvtbs` pack (R396), long-latency: VD in every lane, and the four block scales in a scalar. A block's result reads every
lane of the block, active or not, and its smoothing words, and with RM 4 the seed; a scale reads its block alone (R374). -/
def execVcvtbsPack (h : Hdr) (f : V3) (s : State) : Host.Outcome State Fault Refusal :=
  let fmt := s.fslot f.slot
  let ty := slotFmt fmt
  let sb := f.vb.toNat % 64
  let sr := f.rm == 4
  let u : Uses :=
    { vr := [f.va.toNat], vw := [f.vd.toNat], sr := if sr then [f.vc.toNat % 64] else []
      unbound := s.slotUnbound f.slot true
      dyn := s.slotRow (.vcvtbsPack h f) }
  .next (s.issueWord h u fun act s =>
    let a := s.src.varg f.va
    let sx := s.src.sget (f.vc.toNat % 64)
    let xs := packSources s f act (slotSmth fmt)
    let bl := (List.range 4).map (packBlock ty (slotScl fmt) f.rm.toNat sx xs)
    let bytes := packCodes ty (bl.flatMap Prod.snd)
    let scales := leNat (bl.map fun b => BitVec.ofNat 8 b.1)
    let smp := fun (l : Nat) => slotSmth fmt && (match s.grp.smooth with
      | some b =>
        match State.spReduce s.curGrid.alloc (b.toNat + 4 * (128 * f.imm8.toNat + l)) with
        | some o => State.spPois (s.team s.curTeam) o 4
        | none => false
      | none => false)
    let all := sr && s.src.sgetPois (f.vc.toNat % 64) != 0
    let blk := fun b => (List.range 32).any fun i => smp (32 * b + i) || a.pois.getLsbD (32 * b + i)
    let pm := packPois ty fun b => all || blk b
    let ovr := (List.range 128).filter fun l =>
      match if slotSmth fmt then s.grp.smooth else none with
      | some b => (State.spReduce s.curGrid.alloc (b.toNat + 4 * (128 * f.imm8.toNat + l))).isNone
      | none => false
    let s := if ovr.isEmpty then s else s.count s.cur.cl 0x100 ovr.length
    let s := s.addDue h.la.toNat [(0, f.vd.toNat), (1, sb)]
      [.vec f.vd.toNat Mask.full (laneWords bytes) pm,
       .scal sb (w64 scales) (if (List.range 4).any blk then 1 else 0)] 0
    let s := if (List.range 4).any blk && sb != 0 then s.count s.cur.cl 0x3A0 1 else s
    { s := s.countPois pm })

/-- R397: element L of the byte string as a value. -/
def unpackElem (ty : Nat) (bytes : List Byte) (l : Nat) : FVal :=
  if ty == 0x10 then cb2Comp (codeAt ty bytes (l / 8)) (l % 8) else decodeElem ty (codeAt ty bytes l)

/-- `vcvtbs` unpack (R397). -/
def execVcvtbsUnpack (h : Hdr) (f : V3) (s : State) : Host.Outcome State Fault Refusal :=
  let fmt := s.fslot f.slot
  let ty := slotFmt fmt
  let sb := f.vb.toNat % 64
  let blk := slotBlock fmt
  let u : Uses :=
    { vr := [f.va.toNat], vw := [f.vd.toNat], sr := if blk then [sb] else []
      unbound := s.slotUnbound f.slot true
      dyn := s.slotRow (.vcvtbsUnpack h f) }
  .next (s.issueWord h u fun act s =>
    let a := s.src.varg f.va
    let bytes := a.vals.flatMap fun w => leBytes 4 w.toNat
    let sc := s.src.sget sb
    let one := fun l =>
      let e := if blk then bitsOf sc.toNat (8 * (l / 32) + 7) (8 * (l / 32)) else 127
      if e == 0xFF then 0x7FC00000#32
      else w32 (encodeWide 0 f.rm.toNat false false false { val := (unpackElem ty bytes l).scale ((e : Int) - 127) })
    let bits := if ty == 0x10 then 2 else fmtBits ty
    let sp := blk && (s.src.sgetPois sb).getLsbD 0
    { s := s.putV f.vd act
        { vals := (List.range 128).map fun l => if act.getLsbD l then one l else 0
          pois := maskOf fun l =>
            sp || a.pois.getLsbD (l * bits / 32) || a.pois.getLsbD ((l * bits + bits - 1) / 32) } })

end Sys2Proof.Machine
end

