-- ==== Sys2Proof/Machine/Matrix.lean ====
section
/-! DEFINITION. The matrix engine (R436 to R448): shape records and smoothing, the issue of matrix words into the engine
queue, and the words' effects on tiles and scratchpad when the engine runs them. -/

namespace Sys2Proof.Machine

/-! ### Shape records -/

/-- R437: the fields of a shape record. -/
structure Shape where
  m : Nat
  n : Nat
  k : Nat
  row0 : Nat
  col0 : Nat
  abase : Nat
  astr : Nat
  aes : Nat
  bbase : Nat
  bstr : Nat
  bes : Nat
  bt : Bool
  ascb : Nat
  ascc : Nat
  bscb : Nat
  bscc : Nat
  meta_ : Nat
  live : Nat

/-- R437: the words W0 to W5 as fields. -/
def shapeOf (w : List W64) : Shape :=
  let q := fun (i : Nat) => (w.getD i 0 : W64)
  { m := (q 0).bits 4 0 + 1, n := (q 0).bits 9 5 + 1, k := (q 0).bits 25 10, row0 := (q 0).bits 30 26
    col0 := (q 0).bits 35 31, abase := (q 1).bits 31 0, astr := (q 1).bits 47 32, aes := (q 1).bits 63 48
    bbase := (q 2).bits 31 0, bstr := (q 2).bits 47 32, bes := (q 2).bits 62 48, bt := (q 2).getLsbD 63
    ascb := (q 3).bits 31 0, ascc := (q 3).bits 63 32, bscb := (q 4).bits 31 0, bscc := (q 4).bits 63 32
    meta_ := (q 5).bits 31 0, live := (q 5).bits 63 32 }

/-- C = ⌈K/32⌉. -/
def Shape.chunks (h : Shape) : Nat := ceilDiv h.k 32

/-- R438: the region lies in the tile. -/
def Shape.fits (h : Shape) : Bool := h.row0 + h.m ≤ 32 && h.col0 + h.n ≤ 32

/-- A format whose elements are packed along their contiguous dimension (R437). -/
def packedFmt (ty : Nat) : Bool := ty == 0x10 || fmtBits ty < 8

/-- R438: what a shape must meet for `mma`; a slot that is not bound imposes nothing (R435). -/
def Shape.okMma (h : Shape) (fa fb : BitVec 16) (spa afa : Bool) : Bool :=
  h.fits && 1 ≤ h.k && 1 ≤ h.aes && 1 ≤ h.bes &&
    (!slotBound fa || slotFmt fa == 0x10 || 8 ≤ fmtBits (slotFmt fa) || h.aes == 1) &&
    (!slotBound fb || !packedFmt (slotFmt fb) || (h.bt && h.bes == 1)) &&
    (!spa || h.k % 4 == 0) && (!afa || h.k ≤ 32)

/-- R440, R253: do two slots accumulate in INT32. -/
def intProduct (fa fb : BitVec 16) : Bool :=
  isIntFmt (slotFmt fa) && isIntFmt (slotFmt fb) && slotScl fa == 0 && slotScl fb == 0

/-! ### Reads of the scratchpad -/

/-- A number with a poison mark. -/
abbrev PNat := Nat × Bool

/-- Bytes read as a little-endian number, poisoned when one of them is. -/
def pNum (bs : List PByte) : PNat := (leNat (bs.map Prod.fst), bs.any Prod.snd)

/-- R134: a byte of a team's scratchpad of `a` bytes; beyond the allocation it reads zero. -/
def spByte (a : Nat) (x : Team) (off : Nat) : PByte :=
  match State.spReduce a off with
  | some o => (Memory.byte x.spad o, x.spadPois.get (o / 4) false)
  | none => (0, false)

/-- R134: n bytes from an offset of a team's scratchpad of `a` bytes. -/
def spNum (a : Nat) (x : Team) (off n : Nat) : PNat := pNum ((List.range n).map fun i => spByte a x (off + i))

/-- Bytes of an element that is not packed. -/
def fmtBytes (ty : Nat) : Nat := fmtBits ty / 8

/-- R231, R437: where the code of element `e` of a row lies: its first byte, its bytes, and the bit at which it begins. -/
def codePlace (ty base es e : Nat) : Nat × Nat × Nat :=
  if ty == 0x10 then (base + 2 * (e / 8), 2, 0)
  else if packedFmt ty then
    let b := fmtBits ty
    let sh := e * b % 8
    (base + e * b / 8, if 8 < sh + b then 2 else 1, sh)
  else (base + e * es * fmtBytes ty, fmtBytes ty, 0)

/-- The code at a place, through a reader of bytes. -/
def codeRead (rd : Nat → Nat → PNat) (ty base es e : Nat) : PNat :=
  let p := codePlace ty base es e
  let v := rd p.1 p.2.1
  (v.1 / pow2 p.2.2 % pow2 (fmtBits ty), v.2)

/-- R239, R240: the value of a code; of a CB2 index, its component. -/
def codeVal (ty k code : Nat) : FVal := if ty == 0x10 then cb2Comp code (k % 8) else decodeElem ty code

/-- R237, R239: a value under its scales. -/
def scaled (v : FVal) (blk : Option Nat) (chan : Option FVal) : FVal :=
  let v := match blk with
    | none => v
    | some e => if e == 0xFF then .nan else v.scale (scaleExp e)
  match chan with
  | none => v
  | some c => v.mul c

/-! ### mma -/

/-- A product at the engine, with what it reads: its operands' bytes and the smoothing vector's, the team's tiles, the
two slots, the shape and the binding, and whether it accumulates in INT32. -/
structure Mx where
  rd : Nat → Nat → PNat
  sm : Nat → Nat → PNat
  x : Team
  int : Bool
  fa : BitVec 16
  fb : BitVec 16
  h : Shape
  smooth : Option W32
  f : XF

namespace Mx

/-- R443: is chunk c computed. -/
def live (z : Mx) (c : Nat) : Bool := !z.f.lcb || (z.rd (z.h.live + c / 8) 1).1 / pow2 (c % 8) % 2 == 1

/-- R442: where the metadata nibble of row i, group g lies. -/
def metaAt (z : Mx) (i g : Nat) : Nat := z.h.meta_ + i * ceilDiv z.h.k 8 + g / 2

/-- R442: the compressed element that holds A(i, k); none for a pruned position. -/
def stored (z : Mx) (i k : Nat) : Option Nat :=
  if z.f.spa then
    let g := k / 4
    let nib := (z.rd (z.metaAt i g) 1).1 / pow2 (4 * (g % 2)) % 16
    if nib / 4 == k % 4 then some (2 * g + 1) else if nib % 4 == k % 4 then some (2 * g) else none
  else some k

/-- The row of A that element (i, ·) lies in, and the line of B of element (·, j) with its element number. -/
def aRow (z : Mx) (i : Nat) : Nat := z.h.abase + i * z.h.astr
def bRow (z : Mx) (k j : Nat) : Nat × Nat :=
  if z.h.bt then (z.h.bbase + j * z.h.bstr, k) else (z.h.bbase + k * z.h.bstr, j)

/-- An FP16 channel scale. -/
def chan (z : Mx) (base i : Nat) : FVal × Bool :=
  let v := z.rd (base + 2 * i) 2
  (decodeFloat 1 v.1, v.2)

/-- R441: VALA(i, k) from compressed element q. -/
def valA (z : Mx) (i k q : Nat) : FVal × Bool :=
  let ty := slotFmt z.fa
  let c := codeRead z.rd ty (z.aRow i) z.h.aes q
  let b := z.rd (z.h.ascb + i * z.h.chunks + k / 32) 1
  let ch := z.chan z.h.ascc i
  let ub := slotBlock z.fa
  let uc := slotChan z.fa
  (scaled (codeVal ty k c.1) (if ub then some b.1 else none) (if uc then some ch.1 else none),
   c.2 || (ub && b.2) || (uc && ch.2))

/-- R444: row i of tile ACA in the A slot's format, as values with their block scale. -/
def convRow (z : Mx) (i : Nat) : List (FVal × Bool) :=
  let ty := slotFmt z.fa
  let key := fun k => 1024 * z.f.aca.toNat + 32 * i + k
  let xs := (List.range 32).map fun k => if k < z.h.k then f32 (z.x.tiles.get (key k) 0) else FVal.zero false
  let p := (List.range z.h.k).any fun k => z.x.tilePois.get (key k) false
  if slotBlock z.fa then
    let e := blockScale ty xs
    xs.map fun v => (scaled (decodeElem ty (blockCode ty 0 e 0 v)) (some e) none, p)
  else xs.map fun v => (decodeElem ty (convert ty 0 false false 0 v), p)

/-- R241: w × s_k rounded to FP32. -/
def smoothed (z : Mx) (base : W32) (k : Nat) (v : FVal) : FVal × Bool :=
  let s := z.sm (base.toNat + 4 * k) 4
  (f32 (rne32 (v.mul (f32 (w32 s.1)))), s.2)

/-- R441: the code value of B(k, j), smoothed. -/
def wordB (z : Mx) (k j : Nat) : FVal × Bool × Bool :=
  let ty := slotFmt z.fb
  let r := z.bRow k j
  let c := codeRead z.rd ty r.1 z.h.bes r.2
  let v := codeVal ty r.2 c.1
  match if slotSmth z.fb then z.smooth else none with
  | none => (v, false, c.2)
  | some base =>
    let t := z.smoothed base k v
    let out := if ty == 0x10 then 2 else ty
    (decodeElem out (convert out 0 true false 0 t.1), t.1.isNan, c.2 || t.2)

/-- R441: VALB(k, j): a NaN that smoothing brings into a block makes the block's scale 0xFF (R241). -/
def valB (z : Mx) (k j : Nat) : FVal × Bool :=
  let w := z.wordB k j
  let b := z.rd (z.h.bscb + j * z.h.chunks + k / 32) 1
  let ch := z.chan z.h.bscc j
  let ub := slotBlock z.fb
  let uc := slotChan z.fb
  let spoilt := ub && slotSmth z.fb &&
    (List.range 32).any fun i => 32 * (k / 32) + i < z.h.k && (z.wordB (32 * (k / 32) + i) j).2.1
  (scaled w.1 (if ub then some (if spoilt then 0xFF else b.1) else none) (if uc then some ch.1 else none),
   w.2.2 || (ub && b.2) || (uc && ch.2))

/-- R441: product k of element (i, j), with poison; padding and pruned positions give +0, a pruned position with the mark of
its operand of B (R262). `conv` is row i of ACA under AFA. -/
def product (z : Mx) (conv : List (FVal × Bool)) (i j k : Nat) : FVal × Bool :=
  if z.h.k ≤ k then (FVal.zero false, false)
  else
    match if z.f.afa then some k else z.stored i k with
    | none => (FVal.zero false, (z.valB k j).2 || (z.rd (z.metaAt i (k / 4)) 1).2)
    | some q =>
      let va := if z.f.afa then conv.getD k (FVal.zero false, false) else z.valA i k q
      let vb := z.valB k j
      let p := va.1.mul vb.1
      let p := if z.f.nega != z.f.negb then p.neg else p
      (p, va.2 || vb.2 || (z.f.spa && (z.rd (z.metaAt i (k / 4)) 1).2))

/-- An exact integer. -/
def toInt : FVal → Int
  | .fin n m e => sInt n (shl m e)
  | _ => 0

/-- R250, R441: an accumulator with one chunk added. -/
def addChunk (z : Mx) (ps : List FVal) (acc : W32) : W32 :=
  if z.int then BitVec.ofInt 32 (acc.toInt + (ps.map toInt).foldl (· + ·) 0)
  else
    let sum := canon (fun a b => f32 (rne32 (FVal.add 0 a b))) (FVal.zero false) ps
    rne32 (FVal.add 0 (f32 acc) sum)

/-- R441: an accumulator of element (i, j), with its mark, after chunk c; the operands of a skipped chunk leave their marks
(R262). -/
def step (z : Mx) (conv : List (FVal × Bool)) (i j c : Nat) (acc : W32 × Bool) : W32 × Bool :=
  let ps := (List.range 32).map fun n => z.product conv i j (32 * c + n)
  (z.addChunk (if z.live c then ps.map Prod.fst else []) acc.1, acc.2 || ps.any Prod.snd)

/-- The key of element (i, j) of the destination. -/
def dst (z : Mx) (i j : Nat) : Nat := 1024 * z.f.acd.toNat + 32 * (z.h.row0 + i) + z.h.col0 + j

/-- R441: the new value of element (i, j), with its poison mark. -/
def element (z : Mx) (conv : List (FVal × Bool)) (i j : Nat) : W32 × Bool :=
  let old : W32 × Bool := (z.x.tiles.get (z.dst i j) 0, z.x.tilePois.get (z.dst i j) false)
  (List.range z.h.chunks).foldl (fun acc c => z.step conv i j c acc) (if z.f.acz then (0, false) else old)

/-- R441: `mma`'s writes: tile keys, values and marks. -/
def mmaOut (z : Mx) : List (Nat × W32 × Bool) :=
  (List.range z.h.m).flatMap fun i =>
    let conv := if z.f.afa then z.convRow i else []
    (List.range z.h.n).map fun j => (z.dst i j, z.element conv i j)

/-- R441 to R443, R448: the scratchpad reads of `mma`: first byte and bytes of each element it reads. -/
def mmaReads (z : Mx) : List (Nat × Nat) :=
  let cs := (List.range z.h.chunks).filter z.live
  let ks := cs.flatMap fun c => ((List.range 32).map fun i => 32 * c + i).filter fun k => k < z.h.k
  let is := List.range z.h.m
  let js := List.range z.h.n
  let place := fun (p : Nat × Nat × Nat) => (p.1, p.2.1)
  (if z.f.lcb then (List.range z.h.chunks).map fun c => (z.h.live + c / 8, 1) else []) ++
  (if z.f.afa then []
   else
    (if z.f.spa then is.flatMap fun i => ks.map fun k => (z.metaAt i (k / 4), 1) else []) ++
    (is.flatMap fun i => ks.flatMap fun k => match z.stored i k with
      | some q => [place (codePlace (slotFmt z.fa) (z.aRow i) z.h.aes q)]
      | none => []) ++
    (if slotBlock z.fa then is.flatMap fun i => cs.map fun c => (z.h.ascb + i * z.h.chunks + c, 1) else []) ++
    (if slotChan z.fa then is.map fun i => (z.h.ascc + 2 * i, 2) else [])) ++
  (js.flatMap fun j => ks.map fun k =>
    let r := z.bRow k j
    place (codePlace (slotFmt z.fb) r.1 z.h.bes r.2)) ++
  (if slotBlock z.fb then js.flatMap fun j => cs.map fun c => (z.h.bscb + j * z.h.chunks + c, 1) else []) ++
  (if slotChan z.fb then js.map fun j => (z.h.bscc + 2 * j, 2) else []) ++
  (match if slotSmth z.fb then z.smooth else none with
   | some b => ks.map fun k => (b.toNat + 4 * k, 4)
   | none => [])

end Mx

/-! ### Tile moves -/

/-- R446: e(i, j): the offset of an element of a region, from s[SA] and s[SB]. -/
def moveAt (sa sb : W64) (size i j : Nat) : Nat := sa.toNat + i * sb.bits 31 0 + j * sb.bits 47 32 * size

/-- R446: the region's elements, in ascending i, then ascending j. -/
def region (h : Shape) : List (Nat × Nat) := (List.range h.m).flatMap fun i => (List.range h.n).map fun j => (i, j)

/-- The key of element (i, j) of a region of tile n. -/
def tileKey (h : Shape) (n i j : Nat) : Nat := 1024 * n + 32 * (h.row0 + i) + h.col0 + j

/-- R447: the value of a tile element as `mcvt` reads it. -/
def cvtIn (i32 : Bool) (w : W32) : FVal := if i32 then decodeInt 0x0A w.toNat else f32 w

/-- R447: what `mcvt` writes: offset, bytes and mark, in order. -/
def mcvtOut (z : Mx) (sa sb sc : W64) : List (Nat × List Byte × Bool) :=
  let ty := slotFmt z.fa
  let i32 := z.f.imm8.getLsbD 0
  let rm := z.f.rm.toNat
  let size := if fmtBits ty < 8 then 1 else fmtBytes ty
  let val := fun i j => cvtIn i32 (z.x.tiles.get (tileKey z.h z.f.aca.toNat i j) 0)
  let mark := fun i j => z.x.tilePois.get (tileKey z.h z.f.aca.toNat i j) false
  (List.range z.h.m).flatMap fun i =>
    let js := List.range z.h.n
    let rowP := js.any (mark i)
    let e := blockScale ty ((List.range 32).map fun j => if j < z.h.n then val i j else FVal.zero false)
    let code := fun j =>
      if slotBlock z.fa then blockCode ty rm e 0 (val i j) else convert ty rm z.f.sat false 0 (val i j)
    let p := fun j => if slotBlock z.fa then rowP else mark i j
    (if fmtBits ty < 8 then [(moveAt sa sb 1 i 0, packCodes ty (js.map code), rowP)]
     else js.map fun j => (moveAt sa sb size i j, leBytes size (code j), p j)) ++
    (if slotBlock z.fa then [(sc.toNat + i, leBytes 1 e, rowP)] else [])

/-- R446: what `maccst` writes. -/
def maccstOut (z : Mx) (sa sb : W64) : List (Nat × List Byte × Bool) :=
  (region z.h).map fun e =>
    let key := tileKey z.h z.f.aca.toNat e.1 e.2
    (moveAt sa sb 4 e.1 e.2, leBytes 4 (z.x.tiles.get key 0).toNat, z.x.tilePois.get key false)

/-- The bytes that a move writes, as ranges. -/
def moveRanges (h : Shape) (sa sb sc : W64) (kind ty : Nat) (blk : Bool) : List (Nat × Nat) :=
  if kind == 0 then (region h).map fun e => (moveAt sa sb 4 e.1 e.2, 4)
  else
    (List.range h.m).flatMap fun i =>
      (if fmtBits ty < 8 then [(moveAt sa sb 1 i 0, roundUp (h.n * fmtBits ty) (if ty == 5 then 24 else 8) / 8)]
       else (List.range h.n).map fun j => (moveAt sa sb (fmtBytes ty) i j, fmtBytes ty)) ++
      if blk then [(sc.toNat + i, 1)] else []

/-- R134: the lines of an allocation that byte ranges touch. -/
def rangeLines (a : Nat) (rs : List (Nat × Nat)) : List Nat :=
  distinct (rs.flatMap fun r => (List.range r.2).filterMap fun i => (State.spReduce a (r.1 + i)).map fun o => o / 128)

/-- R134: ranges that pass the allocation. -/
def rangeOver (a : Nat) (rs : List (Nat × Nat)) : Nat :=
  (rs.filter fun r => (List.range r.2).any fun i => (State.spReduce a (r.1 + i)).isNone).length

namespace State

/-- Bytes written by an engine, each reduced against the allocation; bytes beyond it are dropped. -/
def engineWrite (s : State) (g t : Nat) (off : Nat) (bs : List Byte) (pois : Bool) : State :=
  let a := (s.grid g).alloc
  let each := fun (s : State) => (List.range bs.length).foldl (fun s i =>
    match spReduce a (off + i) with
    | some o => s.spadWrite g t o [bs.getD i 0] pois
    | none => s) s
  match spReduce a off with
  | none => each s
  | some o => if o + bs.length ≤ a then s.spadWrite g t o bs pois else each s

/-- Tile elements written. -/
def tileWrite (s : State) (tk : Nat) (es : List (Nat × W32 × Bool)) : State :=
  s.modTeam tk fun x =>
    { x with
      tiles := es.foldl (fun m e => SMap.set m 0 e.1 e.2.1) x.tiles
      tilePois := es.foldl (fun m e => SMap.set m false e.1 e.2.2) x.tilePois }

/-- R451: tiles that a matrix word used while a tile task had them: the tile's contents are free values (log 11), and the
task's C is unpredictable. -/
def mixTiles (s : State) (k tk : Nat) (tiles : List Nat) : State :=
  tiles.foldl (fun s n =>
    let hit := fun (j : TileJob) => teamKey j.g j.t == tk && (j.card.getD 0 0).bits 55 52 == n
    if (s.core k).tts.any hit then
      let (i, s) := s.freeIdx
      let s := s.tileWrite tk ((List.range 1024).map fun e => (1024 * n + e, Config.tileMix i e, false))
      let jobs := (s.core k).tts.map fun j => if hit j then { j with mixed := true } else j
      s.modCore k fun c => { c with tts := jobs }
    else s) s

/-! ### Issue -/

/-- A shape record of the issuing group. -/
def shapeWords (s : State) (n : BitVec 3) : List W64 := (List.range 6).map fun w => s.grp.shp.get (6 * n.toNat + w) 0

/-- R436, R116: a matrix word that passes its checks: after the baton it enters the engine queue. -/
def engineEnter (s : State) (i : Instr) (f : XF) (ranges : List (Nat × Nat)) : Eff :=
  let k := s.curCore
  let gk := s.curGrp
  match (s.core k).baton with
  | some b =>
    if b != gk then
      { s := s.modCore k fun c => { c with batonWait := c.batonWait ++ [gk] }, fate := .retry (.baton false) }
    else enter k gk
  | none => enter k gk
where
  enter (k gk : Nat) : Eff :=
    let tk := if f.imm8.getLsbD 7 then some f.tk.toNat else none
    let lines := rangeLines s.curGrid.alloc ranges
    if 16 ≤ (s.core k).engq.length || (tk.any fun n => !s.tokenRoom gk n) || !s.landRoom lines then
      { s := s, fate := .stall }
    else
      let (id, s) := s.fresh
      let w : EngWord :=
        { g := s.cur.g, t := s.cur.t, grp := s.cur.grp, word := i, shape := s.shapeWords f.shp, smooth := s.grp.smooth
          sa := s.sreg f.sa, sb := s.sreg f.sb, sc := s.sreg f.sc, tk := tk, lines := lines
          gen := (s.team s.curTeam).gen, id := id }
      let s := match tk with
        | some n => s.tokenUp gk n
        | none => s
      let s := s.raiseLines s.cur.g s.cur.t lines
      { s := s.modCore k fun c => { c with engq := c.engq ++ [w] } }

/-- R263: the trap of a word whose scalar operand, used as an address, is poisoned. -/
def scalarPois (s : State) (r : List (BitVec 6)) : Option Trap :=
  (r.find? fun n => s.src.sgetPois n.toNat != 0).map fun n => Trap.scalar 0x0B s.cur.lanes 0 (s.sreg n)

/-- R263, R437: the trap of an `mma` that would form a scratchpad offset from a marked half of its shape record: of W1 and W2 the
operands' offsets and strides, of W3 to W5 the offsets that the word reads at, with the word as the address. -/
def shapePois (s : State) (f : XF) : Option Trap :=
  let fa := s.fslot f.fsa
  let fb := s.fslot f.fsb
  let sides := fun (lo hi : Bool) => BitVec.ofNat 2 (bit lo + 2 * bit hi)
  let used : List (Nat × BitVec 2) :=
    [(1, sides (!f.afa) (!f.afa)), (2, 3), (3, sides (!f.afa && slotBlock fa) (!f.afa && slotChan fa)),
     (4, sides (slotBlock fb) (slotChan fb)), (5, sides f.spa f.lcb)]
  (used.find? fun u => s.grp.shpPois.get (6 * f.shp.toNat + u.1) 0 &&& u.2 != 0).map fun u =>
    Trap.scalar 0x0B s.cur.lanes 0 ((s.shapeWords f.shp).getD u.1 0)

/-- R443: what a slot named by a matrix word keeps from issuing: not bound, or smoothing used with no binding. -/
def matUnbound (s : State) (f : XF) : Option Nat :=
  match s.slotUnbound f.fsa false with
  | some n => some n
  | none => s.slotUnbound f.fsb true

/-- R446: the region, the operands and the addresses that the move words share; the rows of R435 in their order. -/
def moveWord (s : State) (h : Hdr) (i : Instr) (f : XF) (kind size : Nat) (u : Uses) : State :=
  let sb := s.sreg f.sb
  let sh := shapeOf (s.shapeWords f.shp)
  let fm := s.fslot f.fsa
  let ty := slotFmt fm
  let blk := kind == 2 && slotBlock fm
  let narrow := kind == 2 && fmtBits ty < 8
  let cw := sb.bits 47 32
  let bad := sb.bits 63 48 != 0 || cw == 0 || (narrow && cw != 1)
  let u := { u with
    sr := [f.sa.toNat, f.sb.toNat] ++ (if blk then [f.sc.toNat] else [])
    dyn := [s.slotRow i, adm 51 (!bad), adm 42 sh.fits].findSome? id }
  s.accessWord h u none fun act s =>
    let sa := s.sreg f.sa
    if sa.toNat % size != 0 || sb.bits 31 0 % size != 0 then { s := s, fate := .trap (Trap.scalar 0x09 act 0 sa) }
    else
      match s.scalarPois ([f.sa, f.sb] ++ (if blk then [f.sc] else [])) with
      | some t => { s := s, fate := .trap t }
      | none =>
        let rs := if kind == 1 then [] else moveRanges sh sa sb (s.sreg f.sc) kind ty blk
        s.engineEnter i f rs

/-! ### The engine -/

/-- A queued word's view of the machine. -/
def mxOf (s : State) (w : EngWord) (f : XF) : Mx :=
  let r := s.grid w.g
  let x := s.team (teamKey w.g w.t)
  let fa := r.slot f.fsa.toNat
  let fb := r.slot f.fsb.toNat
  { rd := spNum r.alloc x, sm := spNum r.alloc x, x := x, int := intProduct fa fb, fa := fa, fb := fb
    h := shapeOf w.shape, smooth := w.smooth, f := f }

/-- R448: may a word read its sources: the accesses that its group issued before it have been performed, and each source line
is present for the engine, so that only words that are still in its queue keep its count up. -/
def engineReady (s : State) (k : Nat) (w : EngWord) (rs : List (Nat × Nat)) : Bool :=
  let x := s.team (teamKey w.g w.t)
  (rs.isEmpty || s.earlierDone w.g w.t w.grp w.id) && (rangeLines (s.grid w.g).alloc rs).all fun l =>
    x.landing.get l 0 ≤ ((s.core k).engq.filter fun e => e.g == w.g && e.t == w.t && e.lines.contains l).length

/-- The reads of a word of the queue. -/
def engineReads (z : Mx) (w : EngWord) : List (Nat × Nat) :=
  match w.word with
  | .mma _ _ => z.mmaReads
  | .maccld _ _ => (region z.h).map fun e => (moveAt w.sa w.sb 4 e.1 e.2, 4)
  | _ => []

/-- R261: the poisoned words that an engine writes into the scratchpad. -/
def poisWords (out : List (Nat × List Byte × Bool)) : Nat :=
  (distinct ((out.filter fun o => o.2.2).flatMap fun o =>
    (List.range o.2.1.length).map fun i => (o.1 + i) / 4)).length

/-- R441, R446, R447: the effect of a word of the queue; the poisoned words that it writes are counted (R261). -/
def engineDo (s : State) (z : Mx) (w : EngWord) : State :=
  let tk := teamKey w.g w.t
  let cl := (s.team tk).cl
  let put := fun (s : State) (out : List (Nat × List Byte × Bool)) =>
    let s := out.foldl (fun s o => s.engineWrite w.g w.t o.1 o.2.1 o.2.2) s
    let s := s.count cl 0x100 (rangeOver (s.grid w.g).alloc (out.map fun o => (o.1, o.2.1.length)))
    s.count cl 0x3A0 (poisWords out)
  let tile := fun (s : State) (es : List (Nat × W32 × Bool)) =>
    (s.tileWrite tk es).count cl 0x3A0 (es.filter fun e => e.2.2).length
  match w.word with
  | .mma _ _ => tile s z.mmaOut
  | .maccld _ f =>
    tile s ((region z.h).map fun e =>
      let v := z.rd (moveAt w.sa w.sb 4 e.1 e.2) 4
      (tileKey z.h f.acd.toNat e.1 e.2, w32 v.1, v.2))
  | .maccst _ _ => put s (maccstOut z w.sa w.sb)
  | .mcvt _ _ => put s (mcvtOut z w.sa w.sb w.sc)
  | _ => s

/-- The fields of a matrix word. -/
def matFields : Instr → Option XF
  | .mma _ f => some f
  | .maccld _ f => some f
  | .maccst _ f => some f
  | .mcvt _ f => some f
  | _ => none

/-- The tiles that a matrix word uses. -/
def matTiles (i : Instr) (f : XF) : List Nat :=
  match i with
  | .mma _ _ => f.acd.toNat :: (if f.afa then [f.aca.toNat] else [])
  | .maccld _ _ => [f.acd.toNat]
  | _ => [f.aca.toNat]

/-- R436: the head of a core's engine queue runs once its source lines are present; a word of a team that is gone is
dropped. -/
def engineStep (s : State) (k : Nat) : State :=
  match (s.core k).engq with
  | [] => s
  | w :: rest =>
    let s1 := s.modCore k fun c => { c with engq := rest, macroTurn := true }
    let x := s.team (teamKey w.g w.t)
    if x.gen != w.gen || x.st == .exited || x.st == .pending then s1
    else
      match matFields w.word with
      | none => s1
      | some f =>
        let z := s.mxOf w f
        let rs := engineReads z w
        if !s.engineReady k w rs then s
        else
          -- R451: what the word reads of a task's tile is open, and what it leaves there
          let mix := fun (s : State) => s.mixTiles k (teamKey w.g w.t) (matTiles w.word f)
          let s := mix s1
          let s := s.engineDo (s.mxOf w f) w
          let s := mix (s.count x.cl 0x100 (rangeOver (s.grid w.g).alloc rs))
          let s := s.landLines w.g w.t w.lines
          match w.tk with
          | some n => s.tokenDown (grpKey w.g w.t w.grp) n 0
          | none => s

end State

/-! ### The words -/

/-- `mma` (R440, R441); the marks of its record are looked at after the other rows of R435. -/
def execMma (h : Hdr) (f : XF) (s : State) : Host.Outcome State Fault Refusal :=
  let fa := s.fslot f.fsa
  let fb := s.fslot f.fsb
  let sh := shapeOf (s.shapeWords f.shp)
  let u : Uses :=
    { tiles := f.acd.toNat :: (if f.afa then [f.aca.toNat] else [])
      tw := f.tw, unbound := s.matUnbound f
      dyn := [s.slotRow (.mma h f), adm 42 (sh.okMma fa fb f.spa f.afa)].findSome? id }
  .next (s.accessWord h u none fun _ s =>
    match s.shapePois f with
    | some t => { s := s, fate := .trap t }
    | none => s.engineEnter (.mma h f) f [])

/-- `maccld` (R446). -/
def execMaccld (h : Hdr) (f : XF) (s : State) : Host.Outcome State Fault Refusal :=
  .next (s.moveWord h (.maccld h f) f 1 4 { tiles := [f.acd.toNat], tw := f.tw })

/-- `maccst` (R446). -/
def execMaccst (h : Hdr) (f : XF) (s : State) : Host.Outcome State Fault Refusal :=
  .next (s.moveWord h (.maccst h f) f 0 4 { tiles := [f.aca.toNat], tw := f.tw })

/-- `mcvt` (R446, R447). -/
def execMcvt (h : Hdr) (f : XF) (s : State) : Host.Outcome State Fault Refusal :=
  let ty := slotFmt (s.fslot f.fsa)
  .next (s.moveWord h (.mcvt h f) f 2 (if fmtBits ty < 8 then 1 else fmtBytes ty)
    { tiles := [f.aca.toNat], tw := f.tw, unbound := s.slotUnbound f.fsa false })

/-- `shpset` (R439): the words are copied as they are, with their marks. -/
def execShpset (h : Hdr) (f : XF) (s : State) : Host.Outcome State Fault Refusal :=
  .next (s.issueWord h { sr := [f.sa.toNat, f.sb.toNat, f.sc.toNat], tw := f.tw } fun _ s =>
    let at_ := 6 * f.shp.toNat + (if f.imm8 == 1 then 3 else 0)
    { s := s.modGrp fun x =>
        { x with shp := ((x.shp.set 0 at_ (s.sreg f.sa)).set 0 (at_ + 1) (s.sreg f.sb)).set 0 (at_ + 2) (s.sreg f.sc)
                 shpPois := ((x.shpPois.set 0 at_ (s.src.sgetPois f.sa.toNat)).set 0 (at_ + 1) (s.src.sgetPois f.sb.toNat)).set 0
                   (at_ + 2) (s.src.sgetPois f.sc.toNat) } })

/-- `smooth` (R439). -/
def execSmooth (h : Hdr) (f : XF) (s : State) : Host.Outcome State Fault Refusal :=
  let off := f.imm8 == 1
  let v := s.sreg f.sa
  let u : Uses := { sr := if off then [] else [f.sa.toNat], tw := f.tw, dyn := adm 57 (off || v.hi == 0) }
  .next (s.issueWord h u fun act s =>
    if off then { s := s.modGrp fun x => { x with smooth := none } }
    else if v.toNat % 4 != 0 then { s := s, fate := .trap (Trap.scalar 0x09 act 0 v) }
    else
      match s.scalarPois [f.sa] with
      | some t => { s := s, fate := .trap t }
      | none => { s := s.modGrp fun x => { x with smooth := some v.lo } })

/-- MATRIX_ENGINE_EXEC (R436); the clocks of a core in frost are gated (R118). -/
def execMatrixEngineExec (s : State) : Host.Outcome State Fault Refusal :=
  let k := coreKey s.ev.cl s.ev.co
  .next (if (s.core k).frost then s else s.engineStep k)

end Sys2Proof.Machine
end

