-- ==== Sys2Proof/Machine/Tiles.lean ====
section
/-! DEFINITION. Tile tasks (R449 to R452, R175, R176) and the non-zero scan (R453, R454). -/

namespace Sys2Proof.Machine

/-! ### The job card -/

/-- R450: the fields of a job card. -/
structure Card where
  q : List W64

namespace Card

def w (c : Card) (i : Nat) : W64 := c.q.getD i 0
def acc (c : Card) : Nat := (c.w 0).bits 55 52
def fsa (c : Card) : Nat := (c.w 0).bits 51 49
def fsb (c : Card) : Nat := (c.w 0).bits 48 46
def fsc (c : Card) : Nat := (c.w 0).bits 45 43
def accum (c : Card) : Bool := (c.w 0).getLsbD 42
def rm (c : Card) : Nat := (c.w 0).bits 41 39
def sat (c : Card) : Bool := (c.w 0).getLsbD 38
def m (c : Card) : Nat := (c.w 1).bits 15 0
def n (c : Card) : Nat := (c.w 1).bits 31 16
def k (c : Card) : Nat := (c.w 1).bits 47 32
def abase (c : Card) : Nat := (c.w 2).toNat
def astr (c : Card) : Nat := (c.w 3).bits 31 0
def bstr (c : Card) : Nat := (c.w 3).bits 63 32
def bbase (c : Card) : Nat := (c.w 4).toNat
def cbase (c : Card) : Nat := (c.w 5).toNat
def cstr (c : Card) : Nat := (c.w 6).bits 31 0

/-- R175: footprint f as its bounding range: first byte and length; none when its extent is 0. -/
def foot (c : Card) (f : Nat) : Option (Nat × Nat) :=
  let b := c.w (12 + 2 * f)
  let d := c.w (13 + 2 * f)
  let ext := d.bits 23 0
  if ext == 0 then none else some (b.toNat, (d.bits 39 24 - 1) * d.bits 63 40 + ext)
/-- R175: the bytes that footprint f names. -/
def named (c : Card) (f : Nat) : List (Nat × Nat) :=
  let d := c.w (13 + 2 * f)
  if d.bits 23 0 == 0 then []
  else (List.range (d.bits 39 24)).map fun i => ((c.w (12 + 2 * f)).toNat + i * d.bits 63 40, d.bits 23 0)
def reads (c : Card) : List (Nat × Nat) := (List.range 4).filterMap c.foot
def writes (c : Card) : List (Nat × Nat) := [4, 5].filterMap c.foot
def written (c : Card) : List (Nat × Nat) := [4, 5].flatMap c.named

/-- R449, R450: are the fields in their ranges, for the slots of a grid and its tiles. -/
def fieldsOk (c : Card) (r : Grid) : Bool :=
  let fa := r.slot c.fsa
  let fb := r.slot c.fsb
  let fc := r.slot c.fsc
  (c.w 0).bits 63 56 == 1 && (c.w 0).bits 37 0 == 0 && c.acc < r.acct && c.rm ≤ 3 &&
    1 ≤ c.m && 1 ≤ c.n && 1 ≤ c.k && (c.w 1).bits 63 48 == 0 && (c.w 6).bits 63 32 == 0 && c.w 11 == 0 &&
    ([2, 4, 5, 7, 8, 9, 10, 12, 14, 16, 18, 20, 22].all fun i => (c.w i).bits 63 57 == 0) &&
    ((List.range 6).all fun f => (c.w (13 + 2 * f)).bits 23 0 == 0 || 1 ≤ (c.w (13 + 2 * f)).bits 39 24) &&
    (!slotBound fa || aSlotFmt (slotFmt fa)) && (!slotBound fb || bSlotFmt (slotFmt fb)) &&
    (!slotBound fc || (slotFmt fc ≤ 2 && slotScl fc == 0 && !slotSmth fc))

/-- R449: a slot that is not bound, or that asks for smoothing with no binding. -/
def slotsBad (c : Card) (r : Grid) (smooth : Option W32) : Bool :=
  !slotBound (r.slot c.fsa) || !slotBound (r.slot c.fsb) || !slotBound (r.slot c.fsc) ||
    (slotSmth (r.slot c.fsb) && smooth.isNone)

/-- R231: bytes of a packed row of n elements. -/
def rowBytes (ty n : Nat) : Nat :=
  if ty == 0x10 then 2 * ceilDiv n 8 else roundUp (n * fmtBits ty) (if fmtBits ty == 6 then 24 else 8) / 8

/-- R449: the global bytes that the job touches. -/
def spans (c : Card) (r : Grid) : List Span :=
  let fa := r.slot c.fsa
  let fb := r.slot c.fsb
  let fc := slotFmt (r.slot c.fsc)
  let ch := ceilDiv c.k 32
  let rows := fun (b st n len : Nat) (a : State.Acc) => (List.range n).map fun i => ({ at_ := b + i * st, n := len, acc := a } : Span)
  rows c.abase c.astr c.m (rowBytes (slotFmt fa) c.k) .load ++
  rows c.bbase c.bstr c.n (rowBytes (slotFmt fb) c.k) .load ++
  rows c.cbase c.cstr c.m (rowBytes fc c.n) .store ++
  (if c.accum then rows c.cbase c.cstr c.m (rowBytes fc c.n) .load else []) ++
  (if slotBlock fa then [{ at_ := (c.w 7).toNat, n := c.m * ch, acc := .load }] else []) ++
  (if slotChan fa then [{ at_ := (c.w 8).toNat, n := 2 * c.m, acc := .load }] else []) ++
  (if slotBlock fb then [{ at_ := (c.w 9).toNat, n := c.n * ch, acc := .load }] else []) ++
  (if slotChan fb then [{ at_ := (c.w 10).toNat, n := 2 * c.n, acc := .load }] else [])

end Card

/-- Do two ranges meet. -/
def rangesMeet (a b : List (Nat × Nat)) : Bool :=
  a.any fun x => b.any fun y => x.1 < y.1 + y.2 && y.1 < x.1 + x.2

/-- R175: must a job wait for an earlier one: read after write, write after read, write after write. That a job also waits for one
that names its ACC tile, so that its C depends on the data alone, is read from R451 (log 42, DEDUCED). -/
def jobEdge (new old : Card) : Bool :=
  rangesMeet new.reads old.writes || rangesMeet new.writes old.reads || rangesMeet new.writes old.writes || new.acc == old.acc

namespace State

/-- The physical ranges of virtual ranges of a partition, page by page. -/
def physRanges (s : State) (p : Nat) (rs : List (Nat × Nat)) : List (Nat × Nat) :=
  rs.flatMap fun r => (pagesOf r.1 r.2).filterMap fun g =>
    let lo := Nat.max r.1 (g * 65536)
    let hi := Nat.min (r.1 + r.2) (g * 65536 + 65536)
    match s.walk p (g * 65536) with
    | some l => if l.mt == 1 then none else some (l.ppn * 65536 + lo % 65536, hi - lo)
    | none => none

/-- R176: the dirty sectors of a core within ranges written back. -/
def wbRanges (s : State) (k : Nat) (rs : List (Nat × Nat)) : State :=
  ((s.core k).l1.keys.filter fun sec => rangesMeet [(32 * sec, 32)] rs).foldl (fun s sec => s.wbSector k sec) s

/-- R449: an outcome code of `ttq`, written. -/
def tileCode (s : State) (f : XF) (c : Nat) : State := s.modRegs fun r => r.sset f.sc.toNat (w64 c) 0

/-- R449: the effect of `ttq`. -/
def effTtq (f : XF) (s : State) : Eff :=
  let k := s.curCore
  if 32 ≤ (s.core k).tts.length then { s := s, fate := .stall }
  else
    match s.cleanRecord f.sa 192 64 with
    | .error t => { s := s, fate := t }
    | .ok (s1, q) =>
      let c : Card := { q := q }
      let r := s.curGrid
      let sp := c.spans r
      if !c.fieldsOk r then { s := s1.tileCode f 1 }
      else if c.slotsBad r s.grp.smooth then { s := s1.tileCode f 3 }
      else if 1024 < (distinct (sp.flatMap fun x => pagesOf x.at_ x.n)).length then { s := s1.tileCode f 2 }
      else
        match s.spanFail sp with
        | some a => { s := s, fate := .trap (Trap.scalar 0x0A s.cur.lanes 0 (w64 a)) }
        | none =>
          let m := s.spanPins sp
          if !s.tokenRoom s.curGrp f.tk.toNat then { s := s, fate := .stall }
          else if !s.pinRoom m then s.pinStall
          else
            let (id, s2) := ((s1.touchSpans sp).pinAll m).fresh
            let old := (s2.core k).tts.filter fun j => j.g == s.cur.g && j.t == s.cur.t && jobEdge c { q := j.card }
            let j : TileJob :=
              { g := s.cur.g, t := s.cur.t, grp := s.cur.grp, tk := f.tk.toNat, addr := (s.sreg f.sa).toNat, card := q
                smooth := s.grp.smooth, i := 0, j := 0, c := 0, phase := 0, pages := m, edges := old.map TileJob.id
                id := id }
            let s2 := (s2.wbRanges k (s2.physRanges s.curPart c.reads)).tokenUp s.curGrp f.tk.toNat
            { s := (s2.modCore k fun y => { y with tts := y.tts ++ [j] }).tileCode f 0 }

/-! ### Macro-ops -/

/-- The product that a job's STEP takes at its output tile. -/
def jobMx (s : State) (j : TileJob) : Mx :=
  let c : Card := { q := j.card }
  let r := s.grid j.g
  let x := s.team (teamKey j.g j.t)
  let ch := ceilDiv c.k 32
  let h : Shape :=
    { m := Nat.min 32 (c.m - 32 * j.i), n := Nat.min 32 (c.n - 32 * j.j), k := c.k, row0 := 0, col0 := 0
      abase := c.abase + 32 * j.i * c.astr, astr := c.astr, aes := 1, bbase := c.bbase + 32 * j.j * c.bstr
      bstr := c.bstr, bes := 1, bt := true, ascb := (c.w 7).toNat + 32 * j.i * ch, ascc := (c.w 8).toNat + 64 * j.i
      bscb := (c.w 9).toNat + 32 * j.j * ch, bscc := (c.w 10).toNat + 64 * j.j, meta_ := 0, live := 0 }
  let f : XF :=
    { acd := BitVec.ofNat 4 c.acc, aca := 0, sa := 0, sb := 0, sc := 0, shp := 0, fsa := BitVec.ofNat 3 c.fsa
      fsb := BitVec.ofNat 3 c.fsb, nega := false, negb := false, acz := false, spa := false, lcb := false, afa := false
      tk := 0, tw := 0, rm := 0, sat := false, imm8 := 0 }
  { rd := fun va n => pNum (s.pinnedRead j.pages va n), sm := spNum r.alloc x, x := x, int := intProduct (r.slot c.fsa) (r.slot c.fsb)
    fa := r.slot c.fsa, fb := r.slot c.fsb, h := h, smooth := j.smooth, f := f }

/-- Where element (i, j') of the job's C block lies. -/
def cAt (c : Card) (ty : Nat) (j : TileJob) (i n : Nat) : Nat :=
  c.cbase + (32 * j.i + i) * c.cstr + (32 * j.j + n) * fmtBytes ty

/-- R451, R253: the accumulator that LOAD takes from an FP32 value: in INT32, for a job of integer slots without a scale,
the integer that it is; the spec gives no accumulator for a value that is no INT32 integer (log 42, DESIGN CHOICE). -/
def loadAcc (int : Bool) (v : FVal) : W32 :=
  let w := rne32 v
  let n := encodeInt 0x0A 1 0 v
  if !int then w
  else if w == 0x80000000 || n != 0x7FFFFFFF && rne32 (decodeInt 0x0A n) == w then w32 n
  else Config.jobAcc w

/-- R451: LOAD and STEP: what is written into the tile. -/
def jobTile (s : State) (j : TileJob) : List (Nat × W32 × Bool) :=
  let c : Card := { q := j.card }
  let z := s.jobMx j
  let tc := slotFmt ((s.grid j.g).slot c.fsc)
  (region z.h).map fun e =>
    let key := z.dst e.1 e.2
    if j.phase == 0 then
      if c.accum then
        let v := pNum (s.pinnedRead j.pages (cAt c tc j e.1 e.2) (fmtBytes tc))
        (key, loadAcc z.int (decodeFloat tc v.1), v.2)
      else (key, 0, false)
    else
      let old : W32 × Bool := (z.x.tiles.get key 0, z.x.tilePois.get key false)
      (key, z.step [] e.1 e.2 j.c old)

/-- R451: STORE: the bytes of the C block, converted from FP32, or from INT32 where the job accumulates in it (R253). -/
def jobStore (s : State) (j : TileJob) (idx : Nat) : List (Place × List Byte × Bool) :=
  let c : Card := { q := j.card }
  let z := s.jobMx j
  let tc := slotFmt ((s.grid j.g).slot c.fsc)
  (region z.h).flatMap fun e =>
    let key := z.dst e.1 e.2
    let v := cvtIn z.int (z.x.tiles.get key 0)
    let code := if j.mixed then (Config.tileMix idx key).toNat else convert tc c.rm c.sat false 0 v
    match pinnedPlace j.pages (cAt c tc j e.1 e.2) with
    | some (.dev pa) =>
      if pa % 65536 + fmtBytes tc ≤ 65536 then [(.dev pa, leBytes (fmtBytes tc) code, z.x.tilePois.get key false)]
      else (List.range (fmtBytes tc)).filterMap fun i => (pinnedPlace j.pages (cAt c tc j e.1 e.2 + i)).map fun p =>
        (p, [BitVec.ofNat 8 (code / pow2 (8 * i))], z.x.tilePois.get key false)
    | _ => (List.range (fmtBytes tc)).filterMap fun i => (pinnedPlace j.pages (cAt c tc j e.1 e.2 + i)).map fun p =>
      (p, [BitVec.ofNat 8 (code / pow2 (8 * i))], z.x.tilePois.get key false)

/-- A piece of a C block performed. -/
def cPut (s : State) (g : Nat) (o : Place × List Byte × Bool) : State :=
  match o.1 with
  | .dev pa => s.devWrite pa o.2.1 o.2.2
  | .host pa va => (s.hostWrite pa o.2.1).logLeak g 0 va o.2.1.length 0
  | .spad _ _ _ => s

/-- The bytes of a place in device memory, sector by sector. -/
def sectorPieces (pa : Nat) (bs : List PByte) : List (Nat × List PByte) :=
  (sectorsOf pa bs.length).map fun sec =>
    let lo := Nat.max pa (32 * sec)
    (lo, (bs.drop (lo - pa)).take (32 * sec + 32 - lo))

/-- R262: a C block performed: a sector that it covers whole takes the mark of what was written. -/
def cBlock (s : State) (g : Nat) (out : List (Place × List Byte × Bool)) : State :=
  (out.foldl (fun s o => s.cPut g o) s).settleHome (out.flatMap fun o => match o.1 with
    | .dev pa => sectorPieces pa (o.2.1.map fun b => (b, o.2.2))
    | _ => [])

/-- R451: the job ends: its pages are unpinned, its token falls, and its write footprints wait for `ttwait`; with the last job
of an exited team the team's tiles and the scratchpad that held its smoothing factors are free. -/
def jobEnd (s : State) (k : Nat) (j : TileJob) (st : Nat) : State :=
  let c : Card := { q := j.card }
  let d : DoneJob :=
    { grpKey := grpKey j.g j.t j.grp, tk := j.tk, ranges := s.physRanges (s.grid j.g).part c.writes
      bytes := s.physRanges (s.grid j.g).part c.written }
  let tk := teamKey j.g j.t
  let gone := (s.team tk).st == .exited
  let s := s.modCore k fun y =>
    { y with tts := y.tts.filter fun x => x.id != j.id, doneJobs := if gone then y.doneJobs else y.doneJobs ++ [d] }
  let s := if gone && s.jobsOver tk then s.modTeam tk fun x => { x with spad := [], spadPois := [], tiles := [], tilePois := [] } else s
  (s.unpin (physPages j.pages)).tokenDown (grpKey j.g j.t j.grp) j.tk st

/-- The job after a macro-op; none after its last. -/
def jobNext (c : Card) (j : TileJob) : Option TileJob :=
  if j.phase == 0 then some { j with phase := 1, c := 0 }
  else if j.phase == 1 then
    if j.c + 1 < ceilDiv c.k 32 then some { j with c := j.c + 1 } else some { j with phase := 2, c := 0 }
  else if 32 * (j.j + 1) < c.n then some { j with phase := 0, j := j.j + 1 }
  else if 32 * (j.i + 1) < c.m then some { j with phase := 0, i := j.i + 1, j := 0 }
  else none

/-- R451: one macro-op of a job; the poisoned words that it writes are counted, each 32-bit word once (R261). -/
def jobStep (s : State) (k : Nat) (j : TileJob) : State :=
  let c : Card := { q := j.card }
  let tk := teamKey j.g j.t
  let (idx, s) := if j.mixed then s.freeIdx else (0, s)
  let out := if j.phase == 2 then s.jobStore j idx else []
  -- R263: poison does not go to a host page: the job is dropped with status 3
  if out.any fun o => o.2.2 && match o.1 with | .host _ _ => true | _ => false then (s.errorEvent j.g 2 0 j.t j.grp).jobEnd k j 3
  else
    let s :=
      if j.phase == 2 then
        ((s.cBlock j.g out).count (k / 6) 0x3A0 (poisWords (out.filterMap fun o => match o.1 with
          | .dev pa => some (pa, o.2)
          | _ => none))).recheckAll
      else
        let w := s.jobTile j
        let w := if j.mixed then w.map fun e => (e.1, Config.tileMix idx e.1, false) else w
        (s.tileWrite tk w).count (k / 6) 0x3A0 (w.filter fun e => e.2.2).length
    match jobNext c j with
    | some n => s.modCore k fun y => { y with tts := y.tts.map fun x => if x.id == j.id then n else x }
    | none => s.jobEnd k j 0

/-- R451: a job is ready: its team runs here, the jobs before it in R175 have ended, and so have the accesses of its group
before it (R176). -/
def jobReady (s : State) (k : Nat) (j : TileJob) : Bool :=
  let st := (s.team (teamKey j.g j.t)).st
  (st == .resident || st == .exited) && ((s.core k).tts.all fun x => !j.edges.contains x.id) &&
    s.earlierDone j.g j.t j.grp j.id

/-- The earliest submitted of some jobs. -/
def firstJob (l : List TileJob) : Option TileJob :=
  l.foldl (fun m j => match m with
    | some b => if j.id < b.id then some j else some b
    | none => some j) none

/-- R451: the ready job that has the next turn, round robin in the order of submission, wherever a restore put it in the list. -/
def jobTurn (s : State) (k : Nat) : Option TileJob :=
  let c := s.core k
  let l := c.tts.filter (s.jobReady k)
  match firstJob (l.filter fun j => c.ttsTurn < j.id) with
  | some j => some j
  | none => firstJob l

/-! ### The non-zero scan -/

/-- R453: the element count and size of a scan. -/
def scanSize (f : XF) : Nat := pow2 (f.imm8.extractLsb' 0 2).toNat
/-- R454: the bytes of the largest list and bitmap that n elements allow. -/
def scanBytes (n : Nat) (bm : Bool) : Nat := 4 + 4 * n + (if bm then ceilDiv n 256 else 0)

/-- R453: the effect of `nzscan` at issue. -/
def effScan (f : XF) (s : State) : Eff :=
  let k := s.curCore
  let gk := s.curGrp
  let sa := s.sreg f.sa
  let sb := s.sreg f.sb
  let n := (s.sreg f.sc).toNat
  let size := scanSize f
  if sa.toNat % size != 0 then { s := s, fate := .trap (Trap.scalar 0x09 s.cur.lanes 0 sa) }
  else if sb.toNat % 4 != 0 then { s := s, fate := .trap (Trap.scalar 0x09 s.cur.lanes 0 sb) }
  else
    match s.addrPois [f.sa, f.sb] with
    | some t => { s := s, fate := .trap t }
    | none =>
      let bm := f.imm8.getLsbD 3
      let lines := rangeLines s.curGrid.alloc [(sb.toNat, scanBytes n bm)]
      if 8 ≤ (s.core k).nzsq.length || !s.tokenRoom gk f.tk.toNat || !s.landRoom lines then { s := s, fate := .stall }
      else
        let (id, s) := s.fresh
        let c : ScanCmd :=
          { g := s.cur.g, t := s.cur.t, grp := s.cur.grp, tk := f.tk.toNat, src := sa.toNat, dst := sb.toNat, n := n
            size := size, float := f.imm8.getLsbD 2, bitmap := bm, lines := lines, gen := (s.team s.curTeam).gen, id := id }
        let s := (s.tokenUp gk f.tk.toNat).raiseLines s.cur.g s.cur.t lines
        { s := s.modCore k fun y => { y with nzsq := y.nzsq ++ [c] } }

/-- R453: what a scan finds: for each element, is it nonzero, and is it poisoned. -/
def scanHits (a : Nat) (x : Team) (c : ScanCmd) : List (Bool × Bool) :=
  (List.range c.n).map fun e =>
    let v := spNum a x (c.src + e * c.size) c.size
    (v.2 || (if c.float then v.1 % pow2 (8 * c.size - 1) != 0 else v.1 != 0), v.2)

/-- R453: what a scan writes: offset, bytes and mark. -/
def scanOut (c : ScanCmd) (hits : List (Bool × Bool)) : List (Nat × List Byte × Bool) :=
  let idx := (List.range c.n).filter fun e => (hits.getD e (false, false)).1
  let live := fun i => (List.range 32).any fun b => (hits.getD (32 * i + b) (false, false)).1
  let byte := fun b => (List.range 8).foldl (fun v i => v + pow2 i * bit (live (8 * b + i))) 0
  ((List.range idx.length).map fun i =>
    let e := idx.getD i 0
    (c.dst + 4 + 4 * i, leBytes 4 e, (hits.getD e (false, false)).2)) ++
  [(c.dst, leBytes 4 idx.length, false)] ++
  (if c.bitmap then (List.range (ceilDiv c.n 256)).map fun b => (c.dst + 4 + 4 * c.n + b, leBytes 1 (byte b), false) else [])

/-- R454: the head of a core's scan queue runs once its source lines are present and the accesses that its group issued before
it have been performed (R174); its writes are dropped when its team has
exited or was discarded (R464). -/
def scanStep (s : State) (k : Nat) : State :=
  match (s.core k).nzsq with
  | [] => s
  | c :: rest =>
    let s1 := s.modCore k fun y => { y with nzsq := rest }
    let x := s.team (teamKey c.g c.t)
    let a := (s.grid c.g).alloc
    let gk := grpKey c.g c.t c.grp
    if x.gen != c.gen || x.st == .exited || x.st == .pending then
      s1.count x.cl (if x.st == .exited then 0x110 else 0x108) 1
    else
      let src := [(c.src, c.n * c.size)]
      let own := fun l => ((s.core k).nzsq.filter fun e => e.g == c.g && e.t == c.t && e.lines.contains l).length
      if !s.earlierDone c.g c.t c.grp c.id || !(rangeLines a src).all (fun l => x.landing.get l 0 ≤ own l) then s
      else
        let out := scanOut c (scanHits a x c)
        let s := out.foldl (fun s o => s.engineWrite c.g c.t o.1 o.2.1 o.2.2) s1
        let past := ((List.range c.n).filter fun e => (spReduce a (c.src + e * c.size)).isNone).length
        let s := s.count x.cl 0x100 (past + rangeOver a (out.map fun o => (o.1, o.2.1.length)))
        let s := s.count x.cl 0x3A0 (poisWords out)
        (s.landLines c.g c.t c.lines).tokenDown gk c.tk 0

end State

/-! ### The words -/

/-- `ttq` (R449). -/
def execTtq (h : Hdr) (f : XF) (s : State) : Host.Outcome State Fault Refusal :=
  .next (s.accessWord h { sr := [f.sa.toNat], tw := f.tw } none fun _ s => s.effTtq f)

/-- `ttwait` (R452). -/
def execTtwait (h : Hdr) (f : XF) (s : State) : Host.Outcome State Fault Refusal :=
  .next (s.issueWord h {} fun _ s =>
    if s.grp.tokensDone f.tw then { s := s.dropJobSectors s.curGrp f.tw }
    else { s := s, fate := .park (.tileWait f.tw) })

/-- `nzscan` (R453). -/
def execNzscan (h : Hdr) (f : XF) (s : State) : Host.Outcome State Fault Refusal :=
  let n := (s.sreg f.sc).toNat
  .next (s.accessWord h
    { sr := [f.sa.toNat, f.sb.toNat, f.sc.toNat], tw := f.tw, dyn := adm 45 (1 ≤ n && n ≤ 65536) } none fun _ s => s.effScan f)

/-- MACRO_OP (R451): after a matrix word at most one; with an empty queue one after the other; none on a core in frost (R118). -/
def execMacroOp (s : State) : Host.Outcome State Fault Refusal :=
  let k := coreKey s.ev.cl s.ev.co
  let c := s.core k
  .next (if !c.frost && (c.engq.isEmpty || c.macroTurn) then
    match s.jobTurn k with
    | some j => (s.modCore k fun y => { y with ttsTurn := j.id, macroTurn := false }).jobStep k j
    | none => s
  else s)

/-- NZS_RUN (R454); none on a core in frost (R118). -/
def execNzsRun (s : State) : Host.Outcome State Fault Refusal :=
  let k := coreKey s.ev.cl s.ev.co
  .next (if (s.core k).frost then s else s.scanStep k)

end Sys2Proof.Machine
end

