-- ==== Sys2Proof/Machine/Coll.lean ====
section
/-! DEFINITION. Collectives (R455 to R459): the descriptor, the steps at a home and at the other ranks, and their end. -/

namespace Sys2Proof.Machine

/-! ### The descriptor -/

/-- R456: bytes of a step's slice, and of a flit's data. -/
def stepBytes : Nat := 14336
def flitBytes : Nat := 224

end Sys2Proof.Machine

namespace Sys2Proof.Machine.Coll

def w (c : Coll) (i : Nat) : W64 := c.desc.getD i 0
def kind (c : Coll) : Nat := (c.w 0).bits 63 56
def rop (c : Coll) : Nat := (c.w 0).bits 55 52
def ty (c : Coll) : Nat := (c.w 0).bits 51 47
def nrank (c : Coll) : Nat := (c.w 0).bits 35 27
def me (c : Coll) : Nat := (c.w 0).bits 26 19
def root (c : Coll) : Nat := (c.w 0).bits 18 11
def src (c : Coll) : Nat := (c.w 1).bits 56 0
def dst (c : Coll) : Nat := (c.w 2).bits 56 0
def count (c : Coll) : Nat := (c.w 3).bits 31 0
/-- R455: the step time limit in nanoseconds. -/
def tlim (c : Coll) : Nat := let t := (c.w 3).bits 63 32; 1000 * if t == 0 then 50 else t
def peersA (c : Coll) : Nat := (c.w 4).bits 56 0
def stata (c : Coll) : Nat := (c.w 5).bits 56 3 * 8
def cnta (c : Coll) : Nat := (c.w 6).bits 56 3 * 8
def tag (c : Coll) : Nat := (c.w 7).bits 31 0
/-- Bytes of an element. -/
def esize (c : Coll) : Nat := fmtBits c.ty / 8

/-- R455: are the descriptor's fields within their limits. -/
def fieldsOk (c : Coll) : Bool :=
  1 ≤ c.kind && c.kind ≤ 4 && c.rop ≤ 2 && (c.kind ≤ 2 || c.rop == 0) && [0, 1, 2, 10, 11].contains c.ty &&
    (c.w 0).bits 46 36 == 0 && (c.w 0).bits 10 0 == 0 && 2 ≤ c.nrank && c.nrank ≤ 256 && c.me < c.nrank &&
    (if c.kind == 4 then c.root < c.nrank else c.root == 0) && (c.w 1).bits 63 57 == 0 && (c.w 2).bits 63 57 == 0 &&
    (c.kind != 2 || c.count % c.nrank == 0) && (c.w 4).bits 63 57 == 0 && (c.w 5).bits 63 57 == 0 &&
    (c.w 5).bits 2 0 == 0 && (c.w 6).bits 63 57 == 0 && (c.w 6).bits 2 0 == 0 && (c.w 7).bits 63 32 == 0

/-- R455: bytes of the unit that steps divide: a contribution, or for KIND 2 one rank's slice of it. -/
def unitBytes (c : Coll) : Nat := if c.kind == 2 then c.count / c.nrank * c.esize else c.count * c.esize

/-- R456: steps of one unit, and of the collective. -/
def unitSteps (c : Coll) : Nat := ceilDiv c.unitBytes stepBytes
def steps (c : Coll) : Nat := if c.kind == 2 || c.kind == 3 then c.nrank * c.unitSteps else c.unitSteps

/-- R456: the unit's index and the step's number in it. -/
def unitOf (c : Coll) (s : Nat) : Nat := s / Nat.max 1 c.unitSteps
def partOf (c : Coll) (s : Nat) : Nat := s % Nat.max 1 c.unitSteps

/-- R456: the home rank of a step. -/
def home (c : Coll) (s : Nat) : Nat :=
  match c.kind with
  | 1 => s % c.nrank
  | 4 => c.root
  | _ => c.unitOf s

/-- Bytes of a step, and how many flits they take. -/
def bytesOf (c : Coll) (s : Nat) : Nat := Nat.min stepBytes (c.unitBytes - c.partOf s * stepBytes)
def flitsOf (c : Coll) (s : Nat) : Nat := ceilDiv (c.bytesOf s) flitBytes

/-- Where a step's data lies in SRC, and its result in DST. -/
def srcAt (c : Coll) (s : Nat) : Nat :=
  c.src + c.partOf s * stepBytes + if c.kind == 2 then c.unitOf s * c.unitBytes else 0
def dstAt (c : Coll) (s : Nat) : Nat :=
  c.dst + c.partOf s * stepBytes + if c.kind == 3 then c.unitOf s * c.unitBytes else 0

/-- Has a rank data for a step. -/
def gives (c : Coll) (r s : Nat) : Bool := c.kind ≤ 2 || r == c.home s
/-- Does this rank write a step's result: for KIND 2 the slice's owner alone. -/
def takes (c : Coll) (s : Nat) : Bool := c.kind != 2 || c.home s == c.me

/-- Bytes read from SRC and written to DST at this rank. -/
def srcBytes (c : Coll) : Nat := if c.kind == 4 && c.me != c.root then 0 else c.count * c.esize
def dstBytes (c : Coll) : Nat := if c.kind == 3 then c.nrank * c.unitBytes else c.unitBytes

/-- R434: the global bytes that the collective touches. -/
def spans (c : Coll) : List Span :=
  let one := fun (a n : Nat) (x : State.Acc) => if n == 0 then [] else [({ at_ := a, n := n, acc := x } : Span)]
  one c.src c.srcBytes .load ++ one c.dst c.dstBytes .store ++ one c.stata 8 .store ++ one c.cnta 8 .store

/-- R455: is an entry of PEERS well formed. -/
def peerOk (e : BitVec 32) : Bool :=
  (e.extractLsb' 12 4).toNat == 0 && (e.extractLsb' 22 10).toNat == 0 && (e.extractLsb' 16 6).toNat ≤ 47
def peerDev (c : Coll) (r : Nat) : Nat := ((c.peers.getD r 0).extractLsb' 0 12).toNat
def peerPort (c : Coll) (r : Nat) : Nat := ((c.peers.getD r 0).extractLsb' 16 6).toNat

/-! ### The result of a step -/

/-- R456: the combination of the ranks' elements; a missing rank takes the identity. -/
def combine (c : Coll) (xs : List (Option Nat)) : Nat :=
  if c.ty < 3 then
    let leaf := fun (ident : FVal) (x : Option Nat) => match x with
      | some v => decodeFloat c.ty v
      | none => ident
    if c.rop == 0 then
      let t := canon add32 0x80000000 (xs.map fun x => rne32 (leaf (FVal.zero true) x))
      convert c.ty 0 false false 0 (f32 t)
    else
      let v := if c.rop == 1 then canon min32 0x7F800000 (xs.map fun x => rne32 (leaf (.inf false) x))
        else canon max32 0xFF800000 (xs.map fun x => rne32 (leaf (.inf true) x))
      convert c.ty 0 false false 0 (f32 v)
  else
    let ys := xs.filterMap id
    let sg := fun (v : Nat) => if c.ty == 10 then signedField 32 v else (v : Int)
    if c.rop == 0 then (ys.foldl (· + ·) 0) % pow2 32
    else match ys with
      | [] => 0
      | y :: l => l.foldl (fun a b => if (if c.rop == 1 then sg b < sg a else sg a < sg b) then b else a) y

/-- R456, R458: the result of a step from the ranks' data; `none` for a missing rank. -/
def result (c : Coll) (s : Nat) (data : List (Option (List Byte))) : List Byte :=
  let z := c.esize
  (List.range (c.bytesOf s / z)).flatMap fun e =>
    leBytes z (c.combine (data.map fun d => d.map fun b => leNat ((b.drop (e * z)).take z)))

/-- The data of a step from its flits; none while one is missing. -/
def joined (c : Coll) (s : Nat) (m : SMap (List Byte)) : Option (List Byte) :=
  if (List.range (c.flitsOf s)).all fun i => (m.find i).isSome then
    some ((List.range (c.flitsOf s)).flatMap fun i => m.get i [])
  else none

/-- R456: the data of a rank for a step that this home holds. -/
def held (c : Coll) (s r : Nat) : Option (List Byte) := c.joined s (c.have_.get (256 * s + r) [])

/-- The flits of some data, by index. -/
def cut (bs : List Byte) : SMap (List Byte) :=
  (List.range (ceilDiv bs.length flitBytes)).map fun i => (i, (bs.drop (i * flitBytes)).take flitBytes)

end Sys2Proof.Machine.Coll

namespace Sys2Proof.Machine
namespace State

def coll (s : State) (k : Nat) : Option Coll := s.colls.find k
def setColl (s : State) (k : Nat) (c : Coll) : State := { s with colls := s.colls.put k c }

/-! ### Ending -/

/-- R459: groups that wait for a collective get its status. -/
def wakeColl (s : State) (k : Nat) (v : W64) : State :=
  s.allSlotGroups.foldl (fun s gk =>
    match (s.group gk).park with
    | some (.coll h sc) =>
      if 16 * (s.grid (grpKeyGrid gk)).part + h == k && (s.team (gk / 32)).st != .restoring then
        (s.modGroup gk fun x => { x with regs := x.regs.sset sc v 0 }).wake gk
      else s
    | _ => s) s

/-- R457: a collective ends at this rank: the status is written, the counter rises, and the token falls. -/
def collFinish (s : State) (k : Nat) (c : Coll) (v : W64) (st : Nat) : State :=
  let s := s.pinnedWrite c.g c.pages c.stata (leBytes 8 v.toNat) false 2
  let s := (s.gridAdd c.g c.part c.cnta 1).unpin (physPages c.pages)
  let s := if c.orphan then s else s.tokenDown (grpKey c.g c.t c.grp) c.tk st
  (s.setColl k { c with status := some v, have_ := [], got := [], firstAt := [], pages := [] }).wakeColl k v

/-- R457: the collective ends once every step has. -/
def collCheck (s : State) (k : Nat) : State :=
  match s.coll k with
  | none => s
  | some c =>
    if c.status.isNone && (List.range c.steps).all fun i => c.ended.get i false then
      let v := w64 (Nat.min (c.psteps) (pow2 32 - 1) * pow2 32 + c.miss * pow2 24 + bit (c.psteps != 0))
      s.collFinish k c v 0
    else s

/-- R456, R458: a step ends at this rank with a result and its mark (0 whole, else 1 + the missing rank). -/
def stepEnd (s : State) (k i mark : Nat) (bs : Option (List Byte)) : State :=
  match s.coll k with
  | none => s
  | some c =>
    let s := match bs with
      | some b =>
        if c.takes i && !(2 < c.kind && mark != 0) then
          s.pinnedPut c.g (s.coreOfGrp (grpKey c.g c.t c.grp)) c.pages (c.dstAt i) b
        else s
      | none => s
    let c := { c with
      ended := c.ended.put i true, got := c.got.erase i, mark := c.mark.erase i
      psteps := if mark == 0 then c.psteps else c.psteps + 1
      miss := if mark != 0 && c.psteps == 0 then mark - 1 else c.miss }
    (s.setColl k c).recheckAll

/-- R456: the flits of some data sent to a rank, with the mark of a result; R267: the write is logged by the place of the
data at this rank (log 39, DESIGN CHOICE). -/
def sendStep (s : State) (c : Coll) (i r mark : Nat) (bs : List Byte) : State :=
  let s := s.logLeak c.g 1 (if c.home i == c.me then c.dstAt i else c.srcAt i) bs.length (c.peerDev r)
  (Coll.cut bs).foldl (fun s e =>
    let hd := leBytes 4 c.tag ++ leBytes 2 i ++ leBytes 2 c.me ++ leBytes 2 e.1 ++ leBytes 6 0
    s.sendFlit (c.peerPort r) 2 (c.peerDev r) (c.peerDev c.me) mark (hd ++ e.2)) s

/-- R456, R458: a home closes a step: its result goes to every rank. -/
def closeStep (s : State) (k i : Nat) : State :=
  match s.coll k with
  | none => s
  | some c =>
    let data := (List.range c.nrank).map (c.held i)
    let bs := if c.kind ≤ 2 then c.result i data else (c.held i c.me).getD []
    let missing := (List.range c.nrank).find? fun r => c.gives r i && (c.held i r).isNone
    let mark := match missing with
      | some r => r + 1
      | none => 0
    let others := (List.range c.nrank).filter (· != c.me)
    let s := if mark == 0 then s else s.devCount 0x2028 1
    let s := others.foldl (fun s r => s.sendStep c i r mark bs) s
    let c := { c with
      closed := c.closed.put i true, firstAt := c.firstAt.erase i
      have_ := c.have_.filter fun e => e.1 / 256 != i }
    (s.setColl k c).stepEnd k i mark (some bs)

/-- R458: flits of other ranks that wait at this home for later steps. -/
def waitingBehind (c : Coll) (i : Nat) : Nat :=
  (c.have_.filter fun e => i < e.1 / 256 && e.1 % 256 != c.me).foldl (fun n e => n + e.2.length) 0

/-- R456, R458: the steps of this home that may close now: whole, or with 64 flits waiting behind them. -/
def collAdvance (s : State) (k : Nat) : State :=
  match s.coll k with
  | none => s
  | some c =>
    let mine := (List.range c.steps).filter fun i => c.home i == c.me && !c.closed.get i false
    (mine.foldl (fun s i => match s.coll k with
      | some c =>
        if ((List.range c.nrank).all fun r => !c.gives r i || (c.held i r).isSome) || 64 ≤ waitingBehind c i then
          s.closeStep k i
        else s
      | none => s) s).collCheck k

/-! ### Starting -/

/-- R455: the handle that a partition's next collective takes: one never used, else one that has ended and that no group
waits for. -/
def freeHandle (s : State) (p : Nat) : Option Nat :=
  let waited := fun h => s.groups.any fun e => (s.grid (grpKeyGrid e.1)).part == p && match e.2.park with
    | some (.coll x _) => x == h
    | _ => false
  match (List.range 16).find? fun h => (s.coll (16 * p + h)).isNone with
  | some h => some h
  | none => (List.range 16).find? fun h => ((s.coll (16 * p + h)).bind Coll.status).isSome && !waited h

/-- R456: this rank's data of every step goes to its home. -/
def collStart (s : State) (k : Nat) (c : Coll) (src : List Byte) : State :=
  let s := (List.range c.steps).foldl (fun s i =>
    if !c.gives c.me i then s
    else
      let bs := (src.drop (c.srcAt i - c.src)).take (c.bytesOf i)
      if c.home i == c.me then
        match s.coll k with
        | some y => s.setColl k { y with have_ := y.have_.put (256 * i + c.me) (Coll.cut bs) }
        | none => s
      else s.sendStep c i (c.home i) 0 bs) s
  s.collAdvance k

/-- R455: the effect of `coll`. -/
def effColl (f : XF) (s : State) : Eff :=
  let p := s.curPart
  let tk := f.tk.toNat
  let gk := s.curGrp
  match s.cleanRecord f.sa 64 64 with
  | .error t => { s := s, fate := t }
  | .ok (s1, q) =>
    let c : Coll :=
      { part := p, g := s.cur.g, t := s.cur.t, grp := s.cur.grp, tk := tk, desc := q, peers := [], pages := []
        started := s.cleElapsed }
    let ok := c.fieldsOk
    let pt := if ok then [({ at_ := c.peersA, n := 4 * c.nrank, acc := .load } : Span)] else []
    match s.spanFail pt with
    | some a => { s := s, fate := .trap (Trap.scalar 0x0A s.cur.lanes 0 (w64 a)) }
    | none =>
      -- R167: the group's own dirty bytes of the peer table first
      let s1 := if ok then s1.wbRanges s.curCore (s1.physRanges p [(c.peersA, 4 * c.nrank)]) else s1
      let bs := s1.pinnedRead (s1.spanPins pt) c.peersA (if ok then 4 * c.nrank else 0)
      let c := { c with peers := (List.range c.nrank).map fun r => w32 (leNat (((bs.drop (4 * r)).take 4).map Prod.fst)) }
      let ok := ok && c.peers.all Coll.peerOk &&
        (List.range c.nrank).all fun r => r == c.me || s.portOwner (c.peerPort r) == some p
      let sp := if ok then c.spans else
        [({ at_ := c.stata, n := 8, acc := .store } : Span), { at_ := c.cnta, n := 8, acc := .store }]
      match s.spanFail sp with
      | some a => { s := s, fate := .trap (Trap.scalar 0x0A s.cur.lanes 0 (w64 a)) }
      | none =>
        let m := s.spanPins sp
        match s.freeHandle p with
        | none => { s := s, fate := .stall }
        | some h =>
          if !s.tokenRoom gk tk || s.accessesOut gk then { s := s, fate := .stall }
          else if !s.pinRoom m then s.pinStall
          else
            let k := 16 * p + h
            let s2 := ((s1.touchSpans (pt ++ sp)).pinAll m).wbRanges s.curCore
              (s1.physRanges p (if ok then [(c.src, c.srcBytes)] else []))
            let s2 := s2.tokenUp gk tk
            let s2 := s2.modRegs fun r => r.sset f.sc.toNat (w64 h) 0
            let c := { c with pages := m }
            let src := s2.pinnedRead m c.src (if ok then c.srcBytes else 0)
            if !ok then { s := s2.collFinish k c 2 0 }
            else if (src ++ bs).any Prod.snd then
              -- R263: poison does not go across the fabric: the operation is dropped with token status 3
              { s := ({ ((s2.errorEvent c.g 2 0 c.t c.grp).unpin (physPages m)) with colls := s2.colls.erase k }).tokenDown gk tk 3 }
            else { s := (s2.setColl k c).collStart k c (src.map Prod.fst) }

/-- R459: the effect of `collw`. -/
def effCollw (f : XF) (s : State) : Eff :=
  let h := (s.sreg f.sa).toNat % 16
  let put := fun (v : W64) => ({ s := s.putS f.sc.toNat v false } : Eff)
  match s.coll (16 * s.curPart + h) with
  | none => put 3
  | some c =>
    if c.g != s.cur.g || c.t != s.cur.t || c.orphan then put 3
    else
      match c.status with
      | some v => put v
      | none => { s := s, fate := .park (.coll h f.sc.toNat), ends := true }

/-! ### Flits -/

/-- R456: the collective of a port's partition that a flit's TAG names: one that has not ended, else one that has. -/
def collOfTag (s : State) (p tag : Nat) : Option Nat :=
  let ks := (List.range 16).map (16 * p + ·)
  let hit := fun (open_ : Bool) k => (s.coll k).any fun c => c.tag == tag && (c.status.isNone == open_) && !c.peers.isEmpty
  match ks.find? (hit true) with
  | some k => some k
  | none => ks.find? (hit false)

/-- A flit of a port's receive buffer, with its collective. -/
def collFlit (s : State) (n : Nat) : Option (Nat × Flit × Nat) :=
  match s.portOwner n with
  | none => none
  | some p =>
    let fs := (s.port n).rx
    firstSome (List.range fs.length) fun i =>
      fs[i]?.bind fun f => (s.collOfTag p (leNat (f.payload.take 4))).map fun k => (i, f, k)

/-- R456, R458: one flit at its collective. -/
def collTake (s : State) (k : Nat) (f : Flit) : State :=
  let b := fun (i n : Nat) => leNat ((f.payload.drop i).take n)
  let i := b 4 2
  let r := b 6 2
  let idx := b 8 2
  let data := (f.payload.drop 16).take (f.len.toNat - 16)
  match s.coll k with
  | none => s
  | some c =>
    if c.status.isSome || c.steps ≤ i || c.closed.get i false || c.ended.get i false then s.devCount 0x2020 1
    else if c.home i == c.me then
      if c.nrank ≤ r || !c.gives r i || c.flitsOf i ≤ idx then s
      else
        let old := c.have_.get (256 * i + r) []
        let c := { c with
          have_ := c.have_.put (256 * i + r) (old.put idx data)
          firstAt := if (c.firstAt.find i).isSome then c.firstAt else c.firstAt.put i s.cleElapsed }
        (s.setColl k c).collAdvance k
    else if c.flitsOf i ≤ idx then s
    else
      let got := (c.got.get i []).put idx data
      let mark := if f.tag == 0 then c.mark else c.mark.put i f.tag.toNat
      let s := s.setColl k { c with got := c.got.put i got, mark := mark }
      match c.joined i got with
      | some bs => (s.stepEnd k i (mark.get i 0) (some bs)).collCheck k
      | none => s

/-- R458: a home's step whose limit has passed since its first flit closes partial. -/
def collStepTimeout (s : State) (k i : Nat) : State :=
  match s.coll k with
  | none => s
  | some c =>
    match c.firstAt.find i with
    | some t =>
      if c.status.isNone && c.home i == c.me && !c.closed.get i false && t + c.tlim ≤ s.cleElapsed then
        (s.closeStep k i).collCheck k
      else s
    | none => s

/-- R458: a rank without a step's result after four limits closes it with its home as the missing rank; at the home rank the
step is closed to its flits too (log 39). -/
def collResultTimeout (s : State) (k i : Nat) : State :=
  match s.coll k with
  | none => s
  | some c =>
    if c.status.isNone && i < c.steps && !c.ended.get i false && c.started + 4 * c.tlim ≤ s.cleElapsed then
      let x := if c.home i == c.me then
          { c with closed := c.closed.put i true, firstAt := c.firstAt.erase i, have_ := c.have_.filter fun e => e.1 / 256 != i }
        else c
      ((s.setColl k x).stepEnd k i (c.home i + 1) none).collCheck k
    else s

end State

/-! ### The words and the steps -/

/-- `coll` (R455). -/
def execColl (h : Hdr) (f : XF) (s : State) : Host.Outcome State Fault Refusal :=
  .next (s.accessWord h { sr := [f.sa.toNat], tw := f.tw } none fun _ s => s.effColl f)

/-- `collw` (R459). -/
def execCollw (h : Hdr) (f : XF) (s : State) : Host.Outcome State Fault Refusal :=
  .next (s.issueWord h
    { sr := [f.sa.toNat], tw := f.tw, dyn := adm 57 ((s.sreg f.sa).toNat < 16) } fun _ s => s.effCollw f)

/-- COLL_FLIT_ARRIVAL (R456): the collective engine takes a flit from a port. -/
def execCollFlitArrival (s : State) : Host.Outcome State Fault Refusal :=
  .next (match s.collFlit s.ev.n with
    | some (i, f, k) => (s.modPort s.ev.n fun x => { x with rx := x.rx.eraseIdx i }).collTake k f
    | none => s)

/-- COLL_STEP_TIMEOUT (R458). -/
def execCollStepTimeout (s : State) : Host.Outcome State Fault Refusal :=
  .next (s.collStepTimeout (16 * s.ev.p + s.ev.handle) s.ev.step)

/-- COLL_RESULT_TIMEOUT (R458). -/
def execCollResultTimeout (s : State) : Host.Outcome State Fault Refusal :=
  .next (s.collResultTimeout (16 * s.ev.p + s.ev.handle) s.ev.step)

end Sys2Proof.Machine
end

