-- ==== Sys2Proof/Machine/Control.lean ====
section
/-! DEFINITION. The C words (R348 to R353) and the path signature (R276, R278). -/

namespace Sys2Proof.Machine

/-- R276: the mix of an address and a set of lanes. -/
def mixSig (pc : Nat) (m : Mask) : W64 :=
  let x : W64 := w64 pc ^^^ (m.setWidth 64 * 0x9E3779B97F4A7C15) ^^^ rotl64 ((m >>> 64).setWidth 64) 29
  let x := x ^^^ (x >>> 31)
  let x := x * 0xBF58476D1CE4E5B9
  x ^^^ (x >>> 27)

namespace State

/-- R278: a record of a traced group's fold. -/
def traceFold (s : State) (pc : Nat) (m : Mask) : State :=
  let r := s.curGrid
  let y := s.page r.part
  if r.traced && y.trcb.bits 63 44 == s.cur.t && y.trcb.bits 43 39 == s.cur.grp then
    let base := y.trcb.bits 38 12 * 4096
    let i := y.trcn.toNat % pow2 (8 + y.trcb.bits 3 0)
    let s := s.vaWrite r.part (base + 32 * i) (leBytes 8 pc ++ leBytes 16 m.toNat ++ leBytes 8 (s.cyclesOf s.curCore).toNat)
    s.modPage r.part fun y => { y with trcn := y.trcn + 1 }
  else s

/-- R276: one fold of the issuing group's signature. -/
def foldSig (s : State) (pc : Nat) (m : Mask) : State :=
  (s.modGrp fun x => { x with sig := rotl64 x.sig 5 ^^^ mixSig pc m }).traceFold pc m

/-- R348, R349: the active lanes go to their targets, each a 64-bit value, and the issue folds once. -/
def branchTo (s : State) (act : Mask) (target : Nat → Nat) : Eff :=
  let next := (s.cur.pc + s.cur.len) % pow2 64
  let left := act &&& maskOf fun l => target l != next
  let s := s.modGrp fun x => left.lanes.foldl (fun x l => x.setPc (Mask.one l) (target l)) x
  { s := s.foldSig s.cur.pc left, moved := left }

/-- As `branchTo`, with one target for every lane. -/
def branchAll (s : State) (act : Mask) (target : Nat) : Eff :=
  let next := (s.cur.pc + s.cur.len) % pow2 64
  let left := if target == next then 0 else act
  let s := s.modGrp fun x => x.setPc left target
  { s := s.foldSig s.cur.pc left, moved := left }

/-- PCw + sext(DISP), modulo 2^64 (R349). -/
def dispTarget (s : State) (f : CF) : Nat := (w64 s.cur.pc + f.disp.signExtend 64).toNat

/-- R349: the link of a call. -/
def putLink (s : State) (f : CF) : State := s.setS f.sx (w64 (s.cur.pc + s.cur.len)) 0

/-- R263, R269: an indirect target in a poisoned word: each lane with the target that it would have taken. -/
def poisonTarget (s : State) (act : Mask) (target : Nat → Nat) : Eff :=
  { s := s, fate := .trap { cause := 0x0B, mask := act, addrs := act.lanes.map fun l => (l, w64 (target l)) } }

/-- R349: a jump to the address in an s register. -/
def jumpReg (s : State) (f : CF) (act : Mask) : Eff :=
  if s.src.sgetPois f.sa.toNat != 0 && act != 0 then s.poisonTarget act fun _ => (s.sreg f.sa).toNat
  else s.branchAll act (s.sreg f.sa).toNat

end State

/-- `nop` (R349). -/
def execNop (h : Hdr) (_f : CF) (s : State) : Host.Outcome State Fault Refusal :=
  .next (s.issueWord h {} fun _ s => { s := s })

/-- `bra` (R349). -/
def execBra (h : Hdr) (f : CF) (s : State) : Host.Outcome State Fault Refusal :=
  .next (s.issueWord h {} fun act s => s.branchAll act (s.dispTarget f))

/-- `brq` (R349): the flag is read once. -/
def execBrq (h : Hdr) (f : CF) (s : State) : Host.Outcome State Fault Refusal :=
  .next (s.issueWord h {} fun act s =>
    s.branchAll act (if s.src.qget f.qc.toNat != f.qn then s.dispTarget f else (s.cur.pc + s.cur.len) % pow2 64))

/-- `jmp` (R349). -/
def execJmp (h : Hdr) (f : CF) (s : State) : Host.Outcome State Fault Refusal :=
  .next (s.issueWord h { sr := [f.sa.toNat] } fun act s => s.jumpReg f act)

/-- `jmpv` (R349): a target for each lane. -/
def execJmpv (h : Hdr) (f : CF) (s : State) : Host.Outcome State Fault Refusal :=
  .next (s.issueWord h { vr := [f.va.toNat] } fun act s =>
    let x := s.src.varg f.va
    let target := fun l => (w64 s.cur.pc + sx64 (x.at l)).toNat
    if act &&& x.pois != 0 then s.poisonTarget (act &&& x.pois) target else s.branchTo act target)

/-- `call` (R349). -/
def execCall (h : Hdr) (f : CF) (s : State) : Host.Outcome State Fault Refusal :=
  .next (s.issueWord h {} fun act s => (s.putLink f).branchAll act (s.dispTarget f))

/-- `calli` (R349): the target is read before the link is written. -/
def execCalli (h : Hdr) (f : CF) (s : State) : Host.Outcome State Fault Refusal :=
  .next (s.issueWord h { sr := [f.sa.toNat] } fun act s =>
    if s.src.sgetPois f.sa.toNat != 0 && act != 0 then s.poisonTarget act fun _ => (s.sreg f.sa).toNat
    else (s.putLink f).branchAll act (s.sreg f.sa).toNat)

/-- `ret` (R349). -/
def execRet (h : Hdr) (f : CF) (s : State) : Host.Outcome State Fault Refusal :=
  .next (s.issueWord h { sr := [f.sa.toNat] } fun act s => s.jumpReg f act)

/-- `exit` (R99, R351). -/
def execExitWord (h : Hdr) (_f : CF) (s : State) : Host.Outcome State Fault Refusal :=
  .next ((s.issueWord h {} fun act s =>
    { s := s.modGrp fun x => { x with exited := x.exited ||| act } }).groupExit s.curGrp)

/-- `trap` (R349, R350). -/
def execTrapWord (h : Hdr) (f : CF) (s : State) : Host.Outcome State Fault Refusal :=
  .next (s.issueWord h {} fun act s =>
    { s := s, fate := .after { cause := 0x10, mask := act, detail := w64 (f.disp.toNat % 65536) } })

/-- `syscall` (R349, R350). -/
def execSyscall (h : Hdr) (f : CF) (s : State) : Host.Outcome State Fault Refusal :=
  .next (s.issueWord h {} fun act s =>
    { s := s, fate := .after { cause := 0x0F, mask := act, detail := w64 (f.disp.toNat % 65536) } })

/-- `bkpt` (R349, R350). -/
def execBkpt (h : Hdr) (_f : CF) (s : State) : Host.Outcome State Fault Refusal :=
  .next (s.issueWord h {} fun act s => { s := s, fate := .after { cause := 0x0E, mask := act } })

/-- `runend` (R352): both runs end, and the group is not ready for n cycles. -/
def execRunend (h : Hdr) (f : CF) (s : State) : Host.Outcome State Fault Refusal :=
  .next (s.issueWord h {} fun _ s =>
    { s := s.modGrp fun x => { x with runendLeft := 40 * (f.disp.toNat % 256) }, ends := true })

end Sys2Proof.Machine
end

