-- ==== Sys2Proof/Machine/Debug.lean ====
section
/-! DEFINITION. Debugging and recovery through a partition's page: recovery points (R265), the trap ring (R268, R269), step
and strict controls (R273), trace (R278), sampling (R279, R280) and the hang detector (R281, R282); and the steps of fetch,
translation and results outside a word. -/

namespace Sys2Proof.Machine
namespace State

/-! ### Settings with pinned pages (R483) -/

/-- R483: the physical pages of n bytes from `a`, when all are mapped, and writable where asked. -/
def settingPages (s : State) (p a n : Nat) (write : Bool) : Option (List Nat) :=
  let l := (pagesOf a n).map fun g => s.walkFor p (g * 65536) write
  if l.all Option.isSome then some (l.filterMap fun x => x.map fun y => pltKey (y.1 / 65536) y.2) else none

/-- Pages of several ranges of a setting, in one list. -/
def allPages : List (Option (List Nat)) → Option (List Nat)
  | [] => some []
  | none :: _ => none
  | some l :: rest => (allPages rest).map fun r => l ++ r

/-! ### The trap ring -/

/-- R268, R483: the pages of the ring that a page's registers describe. -/
def ringPagesOf (s : State) (p : Nat) : Option (List Nat) :=
  let x := s.page p
  let n := x.trapb.bits 3 0
  if ringBase x == 0 || n < 5 then none
  else
    allPages [s.settingPages p (ringBase x) (2048 * pow2 n) true, s.settingPages p (ringTail x) 8 true,
              s.settingPages p (ringHead x) 8 false]

/-- R483: a ring setting takes effect, or none stands. That a setting whose pages are mapped and find no room in the page-lock
table takes no effect either is the model's choice (log 36, DESIGN CHOICE). -/
def ringSet (s : State) (p : Nat) : State :=
  let s := (s.unpin (s.page p).ringPages).modPage p fun y => { y with ringPages := [], ringOk := false }
  match s.ringPagesOf p with
  | none => s
  | some l => if s.pltRoom l then (s.pin l).modPage p fun y => { y with ringPages := l, ringOk := true } else s

/-- R268: a register of the ring written. -/
def trapRegWrite (s : State) (p off : Nat) (v : W64) : State :=
  match off with
  | 0x40 => (s.modPage p fun y => { y with trapb := v &&& 0x01FFFFFFFFFF000F }).ringSet p
  | 0x48 => (s.modPage p fun y => { y with trapt := v &&& 0x01FFFFFFFFFFFFF8 }).ringSet p
  | 0x50 => (s.modPage p fun y => { y with traph := v &&& 0x01FFFFFFFFFFFFF8 }).ringSet p
  | _ => s

/-- R269: the 2 KiB of a ring entry. -/
def trapEntry (r : TrapRec) : List Byte :=
  let lanes := (List.range 128).flatMap fun l =>
    leBytes 8 (if r.mask.getLsbD l then (((r.addrs.find? fun a => a.1 == l).map Prod.snd).getD 0).toNat else 0)
  r.ident ++ leBytes 1 r.cause ++ leBytes 1 r.kind ++ leBytes 1 r.flags ++ leBytes 5 0 ++ leBytes 8 r.pc.toNat ++
    leBytes 16 r.mask.toNat ++ leBytes 8 r.cycles.toNat ++ leBytes 8 r.elapsed.toNat ++ leBytes 8 r.detail.toNat ++
    leBytes 8 r.detail2.toNat ++ leBytes 48 0 ++ lanes ++ (r.hang ++ leBytes 896 0).take 896

/-- R268: may a record be written: the results of its group that are still due come first. -/
def recordReady (s : State) (r : TrapRec) : Bool := r.kind != 0 || (s.group (grpKey r.g r.t r.grp)).due.isEmpty

/-- R268: the next record that may be written goes to the ring, the tail rises with a system-scope release, and the trap
hart gets its message. -/
def trapRecord (s : State) (p : Nat) : State :=
  let x := s.page p
  match x.trapq.findIdx? s.recordReady with
  | none => s
  | some i =>
    match x.trapq[i]? with
    | none => s
    | some r =>
      if s.ringFree p == 0 then s.ringRead p
      else
        let s := (s.ringRead p).modPage p fun y => { y with trapq := y.trapq.eraseIdx i }
        let at_ := ringBase x + 2048 * ((s.vaQ p (ringTail x)).toNat % ringSize x)
        ((s.vaWrite p at_ (trapEntry r)).deviceAdd p (ringTail x) 1).send (.hart (s.trapHartOf p))

/-! ### Recovery points (R265) -/

/-- R265: the pages of a recovery point. -/
def ckptPagesOf (s : State) (p : Nat) : Option (List Nat) :=
  let x := s.page p
  let n := x.ckpt2.bits 4 0
  if n < 4 || 16 < n then none
  else
    allPages [s.settingPages p (x.ckpt1.bits 56 7 * 128) 128 false,
              s.settingPages p (x.ckpt2.bits 56 12 * 4096) (16 * pow2 n) true]

/-- R265: CKPT0 written; with GO a recovery point is declared, or refused with ERR. That a GO whose pages find no room in the
page-lock table is refused with ERR is the model's choice (log 36, DESIGN CHOICE). -/
def ckpt0Write (s : State) (p : Nat) (v : W64) : State :=
  let g := v.bits 63 40
  if !v.getLsbD 0 then s.modPage p fun y => { y with ckptGrid := BitVec.ofNat 24 g }
  else
    let refuse := s.modPage p fun y => { y with ckptErr := true }
    let own := s.grids.any fun e => e.1 == g && e.2.part == p
    match s.ckptPagesOf p with
    | none => refuse
    | some l =>
      let t := s.unpin (s.grid g).ckptPages
      if !own || !t.pltRoom l then refuse
      else
        let x := s.page p
        ((t.pin l).modGrid g fun r =>
          { r with gen := r.gen + 1, nlog := 0, ovfl := false, reca := some (x.ckpt1.bits 56 7 * 128)
                   loga := x.ckpt2.bits 56 12 * 4096, log2n := x.ckpt2.bits 4 0, ckptPages := l }).modPage p fun y =>
            { y with ckptGrid := BitVec.ofNat 24 g }

/-- R265: CKPTST. -/
def ckptStatus (s : State) (p : Nat) : W64 :=
  let x := s.page p
  let r := s.grid x.ckptGrid.toNat
  let own := r.part == p && (s.grids.find x.ckptGrid.toNat).isSome && r.reca.isSome
  w64 (bit x.ckptErr + if own then 2 * bit r.ovfl + 65536 * Nat.min 65535 r.nlog + pow2 32 * r.gen.toNat else 0)

/-! ### Step and strict controls (R273) -/

/-- R273: the three bits of DBGSEL for one group: at placement, at `trapret`, or at the next run start. -/
def dbgGroup (s : State) (p : Nat) (b : BitVec 3) (gk : Nat) : State :=
  match (s.team (gk / 32)).st with
  | .pending => s.modPage p fun y => { y with dbgPend := y.dbgPend.put gk (b.setWidth 4) }
  | .exited => s
  | .saved | .restoring => s.imgWrite (gk / 32) (imageGroup gk + 0x730)
      ((s.imgRead (gk / 32) (imageGroup gk + 0x730) 1).map fun x => (x &&& 0xF0#8) ||| 8#8 ||| b.setWidth 8)
  | _ => s.modGroup gk fun x => { x with dbgPend := some b }

/-- R273: DBGSEL written; with GO it acts on every named group. -/
def dbgselWrite (s : State) (p : Nat) (v : W64) : State :=
  let s := s.modPage p fun y => { y with dbgsel := v &&& 0xFFFFFFFFFFFF800E }
  let g := v.bits 63 40
  let t := v.bits 39 20
  let n := v.bits 19 15
  match s.grids.find g with
  | none => s
  | some r =>
    if !v.getLsbD 0 || r.part != p || (24 ≤ n && n ≤ 30) then s
    else
      let ts := if t == 0xFFFFF then List.range r.nteams else if t < r.nteams then [t] else []
      let ns := if n == 31 then List.range r.ngroups else if n < r.ngroups then [n] else []
      (ts.flatMap fun t => ns.map fun n => grpKey g t n).foldl (fun s gk => s.dbgGroup p (v.extractLsb' 1 3) gk) s

/-! ### Trace (R278) and sampling (R279, R280) -/

/-- R278, R483: TRCA written: EN stands when the buffer's pages can be pinned. That EN reads 0 also where the pages are mapped and
find no room in the page-lock table is the model's choice (log 36, DESIGN CHOICE). -/
def trcaWrite (s : State) (p : Nat) (v : W64) : State :=
  let v := v &&& 0x81FFFFFFFFFFFFFF
  let off := v &&& 0x7FFFFFFFFFFFFFFF
  let y := s.page p
  let s := (s.unpin y.trcPages).modPage p fun y => { y with trca := off, trcPages := [] }
  if !v.getLsbD 63 then s
  else
    match s.settingPages p (y.trcb.bits 38 12 * 4096) (32 * pow2 (8 + y.trcb.bits 3 0)) true with
    | none => s
    | some l => if s.pltRoom l then (s.pin l).modPage p fun y => { y with trca := v, trcPages := l } else s

/-- R279, R483: SAMPC written: EN stands when the buffer's pages can be pinned; for a full page-lock table the choice is that of
`trcaWrite` (log 36, DESIGN CHOICE). -/
def sampcWrite (s : State) (p : Nat) (v : W64) : State :=
  let v := v &&& 0xF1
  let y := s.page p
  let s := (s.unpin y.sampPages).modPage p fun y => { y with sampc := v &&& 0xF0, sampPages := [] }
  if !v.getLsbD 0 then s
  else
    match s.settingPages p (y.sampb.bits 56 12 * 4096) (64 * pow2 (6 + y.sampb.bits 3 0)) true with
    | none => s
    | some l => if s.pltRoom l then (s.pin l).modPage p fun y => { y with sampc := v, sampPages := l } else s

/-- R279: has a sampled instruction fully completed: none of the operations and results that it began is outstanding. -/
def sampleDone (s : State) (x : Sample) : Bool :=
  let mine := fun (i : Nat) => x.first ≤ i && i < x.last
  (s.flights.all fun f => !mine f.id) && ((s.group x.grpKey).due.all fun d => !mine d.id) &&
    s.cores.all fun e => e.2.fbuf.all fun f => !mine f.id

/-- R280: a sample record. Byte 34 of a copy, which is neither a load nor a store, is 0xFF as a store's is (log 35, DESIGN
CHOICE). -/
def sampleBytes (x : Sample) (m : SampleTimes) (now : W64) : List Byte :=
  x.ident ++ leBytes 8 x.pc ++ leBytes 1 x.active ++ leBytes 1 (Nat.min 255 x.replays) ++ leBytes 2 (Nat.min 65535 x.sectors) ++
    leBytes 2 m.ql1.toNat ++ leBytes 2 m.ql2.toNat ++ leBytes 2 m.qdram.toNat ++
    leBytes 1 (if x.store then 255 else m.lastLane.toNat) ++ leBytes 5 0 ++ leBytes 8 x.issued.toNat ++
    leBytes 8 (now - x.issued).toNat ++ leBytes 8 0

/-- The partition that owns a cluster. -/
def partOfCluster (s : State) (cl : Nat) : Option Nat :=
  (List.range 8).find? fun p => (s.part p).exists_ && (s.part p).clusters.getLsbD cl

/-- R279, R280: the record of a core's first completed sample. -/
def sampleRecord (s : State) (cl co : Nat) (m : SampleTimes) : State :=
  let k := coreKey cl co
  match s.partOfCluster cl, (s.core k).samples.findIdx? s.sampleDone with
  | some p, some i =>
    match (s.core k).samples[i]? with
    | none => s
    | some x =>
      let s := s.modCore k fun c => { c with samples := c.samples.eraseIdx i }
      let y := s.page p
      if !y.sampc.getLsbD 0 then s
      else
        let at_ := y.sampb.bits 56 12 * 4096 + 64 * (y.sampn.toNat % pow2 (6 + y.sampb.bits 3 0))
        (s.vaWrite p at_ (sampleBytes x m (s.elapsedOf cl))).modPage p fun y => { y with sampn := y.sampn + 1 }
  | _, _ => s

/-! ### The hang detector (R281, R282) -/

/-- R281: is work of a grid in flight that keeps its hang count from rising: a copy or deposit, a job of an engine, a command
of the array, a carafe slot with a deadline that has not closed (a closed one waits for its turn alone, R272); or a group that has trapped, or that a halt has stopped (R364). -/
def gridAtWork (s : State) (g : Nat) : Bool :=
  (s.flights.any fun f => f.g == g && !isAccess f.body && match f.body with
    | .push .. | .pop .. => false
    | _ => true) ||
  (s.cores.any fun e => (e.2.engq.any fun x => x.g == g) || (e.2.tts.any fun x => x.g == g) || e.2.nzsq.any fun x => x.g == g) ||
  (s.clusters.any fun e =>
    (e.2.sfa.queue.any fun x => x.g == g) ||
      ((e.2.carafe.cfg.any fun c => c.grid == g) && e.2.carafe.slots.any fun x => x.2.deadline.isSome && x.2.closed.isNone)) ||
  (s.colls.any fun e => e.2.g == g && e.2.status.isNone) ||
  s.groups.any fun e => grpKeyGrid e.1 == g && (e.2.park == some .trap || (e.2.halted && s.parked e.1))

/-- R282: the reason of a waiting group, with the location, the value awaited and the current value where it has one. -/
def waitOf (s : State) (gk : Nat) : Option (Nat × Option Loc × Nat) :=
  let x := s.group gk
  let r := s.grid (grpKeyGrid gk)
  let kc := fun (n : Nat) => if atImage (s.team (gk / 32)) then leNat (s.imgRead (gk / 32) (imageGroup gk + 0x700 + n) 1) else x.kc n
  let first := fun (m : BitVec 8) => ((List.range 8).find? fun n => m.getLsbD n && kc n != 0).getD 0
  match x.park with
  | some (.counter l want ..) => some (0, some l, want.toNat)
  -- R413, R414: a push waits until the head, a pop until the tail, is that high
  | some (.queue q pop i _ l) => some (1, some l, if pop then i + 1 else i + 1 - (s.queue q).count)
  | some (.token m) => some (2, none, first m)
  | some (.tileWait m) => some (2, none, first m)
  | some (.coll hd _) => some (2, none, ((s.colls.find (16 * r.part + hd)).map Coll.tk).getD 0)
  | some (.line _) => some (3, none, 0)
  | some (.baton _) => some (4, none, 0)
  | some (.task _) => some (5, none, 0)
  | some (.carafe _) => some (6, none, 0)
  | some (.reggrow ..) => some (7, none, 0)
  | some (.sideLog ..) => some (7, none, 0)
  | _ => none

/-- R282: waiters gathered by reason and location: reason, location, least value, first waiter, number. -/
def gather (l : List (Nat × Nat × Option Loc × Nat)) : List (Nat × Option Loc × Nat × Nat × Nat) :=
  l.foldl (fun (acc : List (Nat × Option Loc × Nat × Nat × Nat)) w =>
    let same := fun (r : Nat × Option Loc × Nat × Nat × Nat) => r.1 == w.2.1 && r.2.1 == w.2.2.1
    if acc.any same then
      acc.map fun r => if same r then (r.1, r.2.1, Nat.min r.2.2.1 w.2.2.2, r.2.2.2.1, r.2.2.2.2 + 1) else r
    else acc ++ [(w.2.1, w.2.2.1, w.2.2.2, w.1, 1)]) []

/-- R282: the 32 bytes of a hang record. -/
def hangBytes (s : State) (g : Nat) (r : Nat × Option Loc × Nat × Nat × Nat) : List Byte :=
  let p := (s.grid g).part
  let code := (r.2.1.map locCode).getD 0
  let now := ((r.2.1.bind fun l => s.counterValue p l).getD 0).toNat
  let gk := r.2.2.2.1
  let last := if r.2.1.isSome then ((s.grid g).lastAdd.find code).getD 0xFFFFFFFF else 0xFFFFFFFF
  leBytes 8 code ++ leBytes 8 r.2.2.1 ++ leBytes 8 now ++
    leBytes 4 (grpKeyTeam gk + pow2 20 * grpKeyIdx gk + pow2 25 * r.1 + pow2 28 * Nat.min 15 r.2.2.2.2) ++ leBytes 4 last

/-- R281, R282: the record of a hang. -/
def hangPost (s : State) (g : Nat) : State :=
  let p := (s.grid g).part
  let waits := (s.groups.filter fun e => grpKeyGrid e.1 == g).filterMap fun e => (s.waitOf e.1).map fun w => (e.1, w)
  let recs := gather waits
  let who := (((s.groups.filter fun e => grpKeyGrid e.1 == g && e.2.park.isSome).map Prod.fst).head?).getD (grpKey g 0 0)
  let k := s.coreOfGrp who
  let r : TrapRec :=
    { g := g, t := grpKeyTeam who, grp := grpKeyIdx who, ident := s.identity g (grpKeyTeam who) (grpKeyIdx who) 0, cause := 0x0C
      kind := 2, flags := 2 * bit (s.group who).step, pc := 0, mask := Mask.full, cycles := s.cyclesOf k
      elapsed := s.elapsedOf (k / 6), detail := w64 recs.length, detail2 := 0, addrs := []
      hang := (recs.take 28).flatMap fun r => s.hangBytes g r }
  let cls := distinct ((s.teams.filter fun e => e.1 / 1048576 == g && (e.2.st == .resident || e.2.st == .moving)).map fun e => e.2.cl)
  let s := cls.foldl (fun s cl => s.count cl 0x3B0 1) s
  s.modPage p fun y => { y with trapq := y.trapq ++ [r] }

/-- R281: a microsecond's check of a grid. -/
def hangCheck (s : State) (g : Nat) : State :=
  match s.grids.find g with
  | none => s
  | some r =>
    if s.cleElapsed % 1000 != 0 || r.hangAt == some s.cleElapsed then s
    else
      let busy := s.gridAtWork g
      let n := if r.issued then 0 else if busy || r.hangBusy then r.hang else r.hang + 1300
      let s := s.modGrid g fun r => { r with hang := n, issued := false, hangBusy := busy, hangAt := some s.cleElapsed }
      if pow2 r.hangx ≤ n then (s.hangPost g).modGrid g fun r => { r with hang := 0 } else s

/-! ### Results, fetch and translation -/

/-- R351, R372: a write of a due result as it is made: no load result for lanes that have exited, and nothing for the s
registers `skip` that the secondary word of its cycle wrote. -/
def dueWrite (x : Group) (skip : List Nat) (r : Regs) (w : RegWr) : Regs :=
  match w with
  | .loaded n m vals pois => r.write (.loaded n (m &&& ~~~x.exited) vals pois)
  | .scal n _ _ => if skip.contains n then r else r.write w
  | _ => r.write w

/-- R107: a long-latency result whose last part is there is written, and no longer due. The result that a saved group is still due
(R413, R414) is written once its registers are back (R129). -/
def writeDue (s : State) (gk id : Nat) : State :=
  match if atImage (s.team (gk / 32)) then none else (s.group gk).due.find? fun d => d.id == id && d.left == 0 with
  | none => s
  | some d =>
    let qk := 4 * s.coreOfGrp gk + (s.group gk).quad
    let mine := fun (e : Nat × Nat × Nat × Nat) => e.1 == gk && e.2.1 ≤ id && id < e.2.2.1
    let skip := ((s.quad qk).skips.filter mine).map fun e => e.2.2.2
    let left := (s.group gk).due.filter fun e => e.id != id
    (s.modGroup gk fun x => { x with regs := d.writes.foldl (dueWrite x skip) x.regs, due := left }).modQuad qk fun q =>
      { q with skips := q.skips.filter fun e => e.1 != gk || left.any fun d => e.2.1 ≤ d.id && d.id < e.2.2.1 }

/-- R153: a walk for a translation that a core does not hold. -/
def walkStep (s : State) (k p va : Nat) : State :=
  if (s.core k).tlb.any fun e => tlbHolds e p va then s
  else match s.tlbLookup k p va with
    | some e => s.tlbTouch k e va
    | none => s

end State

/-- TRAP_RING_SET (R268, R483). -/
def execTrapRingSet (s : State) : Host.Outcome State Fault Refusal := .next (s.trapRegWrite s.ev.p s.ev.off s.ev.v)

/-- TRAP_RECORD (R268, R269). -/
def execTrapRecord (s : State) : Host.Outcome State Fault Refusal := .next (s.trapRecord s.ev.p)

/-- CKPT0_GO (R265). -/
def execCkpt0Go (s : State) : Host.Outcome State Fault Refusal :=
  .next (if s.ev.v.getLsbD 0 then s.ckpt0Write s.ev.p s.ev.v else s)

/-- DBGSEL_GO (R273). -/
def execDbgselGo (s : State) : Host.Outcome State Fault Refusal :=
  .next (if s.ev.v.getLsbD 0 then s.dbgselWrite s.ev.p s.ev.v else s)

/-- TRACE_ARM (R278, R483). -/
def execTraceArm (s : State) : Host.Outcome State Fault Refusal :=
  .next (if s.ev.v.getLsbD 63 then s.trcaWrite s.ev.p s.ev.v else s)

/-- SAMPLING_ENABLE (R279, R483). -/
def execSamplingEnable (s : State) : Host.Outcome State Fault Refusal :=
  .next (if s.ev.v.getLsbD 0 then s.sampcWrite s.ev.p s.ev.v else s)

/-- SAMPLE_RECORD (R279, R280). -/
def execSampleRecord (s : State) : Host.Outcome State Fault Refusal :=
  .next (s.sampleRecord s.ev.cl s.ev.co s.ev.times)

/-- HANG_CHECK (R281, R282). -/
def execHangCheck (s : State) : Host.Outcome State Fault Refusal := .next (s.hangCheck s.ev.g)

/-- RUN_START (R101, R108). -/
def execRunStart (s : State) : Host.Outcome State Fault Refusal := .next (s.startRun (coreKey s.ev.cl s.ev.co) s.ev.qd)

/-- LONG_LATENCY_RESULT (R107). -/
def execLongLatencyResult (s : State) : Host.Outcome State Fault Refusal :=
  .next (s.writeDue (grpKey s.ev.g s.ev.t s.ev.grp) s.ev.id)

/-- TLB_WALK (R153). -/
def execTlbWalk (s : State) : Host.Outcome State Fault Refusal :=
  .next (s.walkStep (coreKey s.ev.cl s.ev.co) s.ev.p s.ev.va)

/-- ICACHE_FILL (R286, R287). -/
def execIcacheFill (s : State) : Host.Outcome State Fault Refusal :=
  .next (if s.ev.va < pow2 57 then s.fillLine (coreKey s.ev.cl s.ev.co) s.ev.p s.ev.va else s)

/-- RUNEND_EXPIRY (R352): the count of `runend` is over. -/
def execRunendExpiry (s : State) : Host.Outcome State Fault Refusal :=
  let gk := grpKey s.ev.g s.ev.t s.ev.grp
  .next (if (s.group gk).runendLeft == 1 then s.modGroup gk fun x => { x with runendLeft := 0 } else s)

end Sys2Proof.Machine
end

