-- ==== Sys2Proof/Machine/Preempt.lean ====
section
/-! DEFINITION. Pre-emption (R83 to R90), the seniority rule (R115), saves, restores and discards as events (R88, R129). -/

namespace Sys2Proof.Machine
namespace State

/-! ### Discard -/

/-- R88, R464: a team discarded with all its work elsewhere: claims are withdrawn, tokens and acquires of its operations
in flight are dropped, and its collectives run on without it. -/
def discardAll (s : State) (tk : Nat) : State :=
  let s := s.withdrawClaims tk
  let s := { s with
    flights := s.flights.map fun (f : Flight) => if teamKey f.g f.t == tk then { f with tk := none, acq := none } else f
    colls := s.colls.map fun (e : Nat × Coll) =>
      if teamKey e.2.g e.2.t == tk then (e.1, { e.2 with orphan := true }) else e }
  s.discardTeam tk

/-- Is a run of the team in progress on its core. -/
def teamRuns (s : State) (tk : Nat) : Bool :=
  let x := s.team tk
  (List.range 4).any fun d => match (s.quad (4 * coreKey x.cl x.co + d)).run with
    | some r => r.grp / 32 == tk
    | none => false

/-! ### The draft meets a stop -/

/-- R125: a swap abandoned: nothing has moved, the L1s return to write-back, and it is counted. -/
def abandonSwap (s : State) (cl : Nat) : State :=
  match (s.cluster cl).swap with
  | none => s
  | some w =>
    let back := fun (s : State) (co : Nat) => s.modCore (coreKey cl co) fun c => { c with writeThrough := false }
    (back (back s w.hot) w.cool).modCluster cl fun c =>
      { c with swap := none, skips := if c.skips.toNat < 65535 then c.skips + 1 else c.skips }

/-- R125: a stop of a team on a core abandons a swap of that core. -/
def breakSwap (s : State) (k : Nat) : State :=
  match (s.cluster (k / 6)).swap with
  | some w => if !w.pausing && (w.hot == k % 6 || w.cool == k % 6) then s.abandonSwap (k / 6) else s
  | none => s

/-! ### A request -/

/-- R84: is a request refused. -/
def pmRefused (s : State) (p op : Nat) : Bool :=
  let x := s.page p
  let g := x.pmreq0.bits 63 40
  let lo := x.pmreq0.bits 39 20
  let hi := x.pmreq0.bits 19 0
  x.pmBusy || 2 ≤ op || !(s.grids.any fun e => e.1 == g && e.2.part == p) || hi < lo || (s.grid g).nteams ≤ hi

/-- R85: a request starts: its fields are kept, the counts cleared. -/
def pmStart (s : State) (p : Nat) (v : W64) : State :=
  s.modPage p fun y =>
    { y with deadline := v.extractLsb' 32 32, force := v.extractLsb' 4 2, op := v.extractLsb' 2 2
             ndrain := 0, ndisc := 0, nsave := 0, nlate := 0, pmDone := false, pmBusy := true, pmLeft := [], pmAt := [] }

/-- R85: the request has ended for every named team. -/
def pmSettle (s : State) (p : Nat) : State :=
  if (s.page p).pmBusy && (s.page p).pmLeft.isEmpty then
    (s.modPage p fun y => { y with pmDone := true, pmBusy := false }).send (.hart (s.trapHartOf p))
  else s

/-- The teams that PMREQ0 names. -/
def pmNamed (s : State) (p : Nat) : List Nat :=
  let x := s.page p
  let lo := x.pmreq0.bits 39 20
  (List.range (x.pmreq0.bits 19 0 + 1 - lo)).map fun i => teamKey (x.pmreq0.bits 63 40) (lo + i)

/-- R86: what a pre-emption request does at once to a named team. R86 has no row for a team that is restoring (R129): that the
request waits until it is resident, and then chooses for it as for any resident team, is the model's choice (log 29, DESIGN
CHOICE). -/
def pmMark (s : State) (p tk : Nat) : State :=
  let x := s.team tk
  let wait := fun (s : State) => s.modPage p fun y => { y with pmLeft := y.pmLeft ++ [tk] }
  match x.st with
  | .pending => s.modTeam tk fun y => { y with held := true }
  | .saved => s.modTeam tk fun y => { y with held := true }
  | .exited => s
  | .saving => wait (s.modTeam tk fun y => { y with wanted := true })
  | _ => wait s

/-- R84, R86: GO with OP 0. -/
def preemptGo (s : State) (p : Nat) (v : W64) : State :=
  let s := s.pmStart p v
  ((s.pmNamed p).foldl (fun s tk => s.pmMark p tk) s).pmSettle p

/-- R86: GO with OP 1. -/
def releaseGo (s : State) (p : Nat) (v : W64) : State :=
  let s := s.pmStart p v
  let free := fun (s : State) (tk : Nat) => if (s.team tk).held then s.modTeam tk fun y => { y with held := false } else s
  ((s.pmNamed p).foldl free s).pmSettle p

/-- R84: a write of PMREQ1. R84 refuses one with GO = 1 while BUSY is 1 and does not treat one with GO = 0 then: that it takes
the new DEADLINE, FORCE and OP, which the running request uses where it has not chosen yet, is the model's choice (log 29,
DESIGN CHOICE). -/
def pmreq1Write (s : State) (p : Nat) (v : W64) : State :=
  let op := v.bits 3 2
  if !v.getLsbD 0 then
    s.modPage p fun y => { y with deadline := v.extractLsb' 32 32, force := v.extractLsb' 4 2, op := v.extractLsb' 2 2 }
  else if s.pmRefused p op then s.modPage p fun y => { y with pmErr := true }
  else if op == 0 then s.preemptGo p v
  else s.releaseGo p v

/-! ### The estimator -/

/-- R87: the remaining time, none when it is infinite. -/
def remaining (total done e : Nat) : Option Nat :=
  if total != 0 && total ≤ done then some 0
  else if done == 0 || total == 0 then none
  else some (ceilDiv (e * (total - done)) done)

/-- R87: the action for a resident team. -/
def estimate (s : State) (p tk : Nat) : Choice :=
  let x := s.team tk
  let y := s.page p
  let r := s.grid (tk / 1048576)
  let may := r.rstrt && !x.taskUser
  let quick : Bool := match remaining r.progTot x.progress.toNat x.elapsed.toNat with
    | some n => n ≤ y.deadline.toNat
    | none => false
  let f := y.force.toNat
  if f == 1 then .drain
  else if f == 2 then (if may then .discard else .save)
  else if f == 3 then .save
  else if quick then .drain
  else if may then .discard
  else .save

/-- R479: a save that cannot begin: the team is late and the request ends for it. -/
def pmFailed (s : State) (tk : Nat) : State :=
  ((s.pmCount tk fun y => { y with nlate := Nat.min 255 (y.nlate + 1) }).modTeam tk fun x =>
    { x with cause := none, drainAt := none, choice := none }).pmReached tk

/-- R479: a save asked for by the request: it begins, fails for good, or waits for room in the page-lock table. -/
def pmSave (s : State) (tk : Nat) (c : SaveCause) : State :=
  let r := s.beginSave tk c
  if r.2 then r.1
  else match s.savePages tk with
    | .error _ => r.1.pmFailed tk
    | .ok _ => r.1

/-- R87: the estimator's choice for a team when the request reaches its cluster, made once; a save or discard abandons a
swap of its core (R125). -/
def pmChoose (s : State) (p tk late : Nat) : State :=
  let x := s.team tk
  if x.choice.isSome then s
  else
    let c := s.estimate p tk
    let s := if c == .drain then s else s.breakSwap (coreKey x.cl x.co)
    s.modTeam tk fun y =>
      { y with choice := some c, drainAt := some late, cause := if c == .drain then some .drain else y.cause }

/-- R87, R88: the estimator's action for one named team of the cluster. A discard stops the issue of the team's groups at
their run boundaries, for which it waits; a team that another cause saves is judged by the deadline. -/
def pmAct (s : State) (p tk : Nat) : State :=
  let x := s.team tk
  let late := (s.page p).pmAt.get x.cl 0 + (s.page p).deadline.toNat
  match x.st with
  | .pending => (s.modTeam tk fun y => { y with held := true }).pmReached tk
  | .saved => (s.modTeam tk fun y => { y with held := true }).pmReached tk
  | .exited => s.pmReached tk
  | .resident =>
    let s := s.pmChoose p tk late
    match (s.team tk).choice with
    | some .discard =>
      if s.teamRuns tk then s
      -- R81: it has opened a task or received a split since the choice
      else if x.taskUser then
        ((s.breakSwap (coreKey x.cl x.co)).modTeam tk fun y => { y with choice := some .save }).pmSave tk .preempt
      else
        let s := ((s.pmLate tk).discardAll tk).modTeam tk fun y => { y with held := true }
        (s.pmCount tk fun y => { y with ndisc := Nat.min 65535 (y.ndisc + 1) }).pmReached tk
    | some .save => s.pmSave tk .preempt
    | _ => s
  | .saving => if x.drainAt.isNone then s.modTeam tk fun y => { y with wanted := true, drainAt := some late } else s
  | _ => s

/-- R87: the request at a cluster: the estimator chooses for each named resident team there. -/
def preemptEstimate (s : State) (p cl : Nat) : State :=
  if !(s.page p).pmBusy then s
  else
    let s := if ((s.page p).pmAt.find cl).isSome then s
      else s.modPage p fun y => { y with pmAt := y.pmAt.put cl (s.cluster cl).elapsed }
    ((s.page p).pmLeft.filter fun tk => (s.team tk).cl == cl).foldl (fun s tk => s.pmAct p tk) s

/-- R88: a drained team past its deadline is saved. -/
def drainDeadline (s : State) (tk : Nat) : State :=
  let x := s.team tk
  match x.drainAt with
  | some d => if x.st == .resident && x.cause == some .drain && d ≤ (s.cluster x.cl).elapsed then
      (s.breakSwap (coreKey x.cl x.co)).pmSave tk .drain else s
  | none => s

/-- R88, R129: a save ends once its team has stopped. -/
def saveComplete (s : State) (tk : Nat) : State :=
  if (s.team tk).st == .saving && s.stopped tk then s.completeSave tk else s

/-- R88, R129: a restore ends. -/
def restoreComplete (s : State) (tk : Nat) : State :=
  if (s.team tk).st == .restoring then s.completeRestore tk else s

/-! ### The seniority rule -/

/-- The first of some teams whose save begins, from the list's head on (R479). -/
def saveFirst (s : State) (c : SaveCause) : List Nat → State
  | [] => s
  | tk :: rest =>
    let r := s.beginSave tk c
    if r.2 then r.1
    else match s.savePages tk with
      | .error _ => r.1.saveFirst c rest
      | .ok _ => r.1

/-- R115: teams by seniority, the least senior first. -/
def leastSenior (s : State) (l : List Nat) : List Nat :=
  l.foldl (fun acc tk => (acc.filter fun a => s.senior (tk * 32) (a * 32)) ++ [tk] ++
    acc.filter fun a => !s.senior (tk * 32) (a * 32)) []

/-- R115, R426: a waiter whose rows cannot be had. -/
def growFails (s : State) (gk : Nat) : State :=
  match (s.group gk).park with
  | some (.reggrow _ sd) => (s.modGroup gk fun x => { x with regs := x.regs.sset sd 1 0 }).wake gk
  | _ => s

/-- R115: the seniority rule at a core. -/
def senioritySave (s : State) (k : Nat) : State :=
  let gs := (s.groupsOfCore k).filter fun gk => (s.team (gk / 32)).st == .resident
  let waiters := gs.filter fun gk => match (s.group gk).park with
    | some (.reggrow ..) => true
    | _ => false
  match s.seniorMost waiters with
  | none => s
  | some w =>
    if !gs.all fun gk => s.parked gk then s
    else
      let s := s.breakSwap k
      let others := (s.coreTeams k).filter fun tk => tk != w / 32
      if others.isEmpty then s.growFails w
      else if others.any fun tk => (s.team tk).st != .resident then s
      else s.saveFirst .seniority (s.leastSenior others)

end State

/-- PREEMPT (R84, R86). -/
def execPreempt (s : State) : Host.Outcome State Fault Refusal :=
  .next (if s.ev.v.getLsbD 0 && s.ev.v.bits 3 2 != 1 then s.pmreq1Write s.ev.p s.ev.v else s)

/-- RELEASE_HELD (R84, R86). -/
def execReleaseHeld (s : State) : Host.Outcome State Fault Refusal :=
  .next (if s.ev.v.getLsbD 0 && s.ev.v.bits 3 2 == 1 then s.pmreq1Write s.ev.p s.ev.v else s)

/-- PREEMPT_ESTIMATE (R87, R88). -/
def execPreemptEstimate (s : State) : Host.Outcome State Fault Refusal := .next (s.preemptEstimate s.ev.p s.ev.cl)

/-- DRAIN_DEADLINE (R88). -/
def execDrainDeadline (s : State) : Host.Outcome State Fault Refusal := .next (s.drainDeadline (teamKey s.ev.g s.ev.t))

/-- SAVE_COMPLETE (R88, R129). -/
def execSaveComplete (s : State) : Host.Outcome State Fault Refusal := .next (s.saveComplete (teamKey s.ev.g s.ev.t))

/-- RESTORE_COMPLETE (R88, R129). -/
def execRestoreComplete (s : State) : Host.Outcome State Fault Refusal :=
  .next (s.restoreComplete (teamKey s.ev.g s.ev.t))

/-- SENIORITY_SAVE (R115). -/
def execSenioritySave (s : State) : Host.Outcome State Fault Refusal := .next (s.senioritySave (coreKey s.ev.cl s.ev.co))

end Sys2Proof.Machine
end

