-- ==== Sys2Proof/Machine/Draft.lean ====
section
/-! DEFINITION. Frost and thaw (R118, R119), the barometer (R121) and the draft (R123 to R127). -/

namespace Sys2Proof.Machine
namespace State

/-! ### Frost -/

/-- R118: may a core enter frost: no run, no word in its engines' queues, every resident group parked, and every result it
awaits landed. -/
def mayFrost (s : State) (k : Nat) : Bool :=
  ((List.range 4).all fun d => (s.quad (4 * k + d)).run.isNone) && (s.core k).engq.isEmpty && (s.core k).nzsq.isEmpty &&
    (s.core k).tts.isEmpty &&
    (s.groupsOfCore k).all fun gk => s.parked gk && !s.awaits gk

/-- R119: is there a reason to thaw: a waking event, a placement or a restore; a resident group that is not parked. -/
def mayThaw (s : State) (k : Nat) : Bool :=
  (s.core k).woken || (s.groupsOfCore k).any fun gk =>
    (s.team (gk / 32)).st == .resident && (s.group gk).park.isNone && !(s.group gk).halted && !(s.group gk).gone

/-! ### The barometer -/

/-- R121: BUDGET after an estimate in 1/16 A. -/
def nextBudget (thold : Bool) (b est : Nat) : Nat :=
  if thold then 3 else if 1600 < est then Nat.max 3 (b - 1) else if est < 1440 then Nat.min 8 (b + 1) else b

/-- R121: a microsecond tick of a cluster's barometer. -/
def barometerTick (s : State) (cl : Nat) (est : BitVec 16) : State :=
  let c := s.cluster cl
  if c.elapsed % 1000 != 0 || c.baroAt == some c.elapsed then s
  else s.modCluster cl fun c =>
    { c with baroAt := some c.elapsed, iest := est, budget := nextBudget c.thold c.budget est.toNat }

/-- R121: the stall ratios of the last 10 µs. -/
def stallSample (s : State) (cl : Nat) (r : List (BitVec 16)) : State :=
  let c := s.cluster cl
  if c.elapsed % 10000 != 0 || c.stallAt == some c.elapsed then s
  else s.modCluster cl fun c => { c with stallAt := some c.elapsed, stall := r }

/-! ### The draft -/

/-- R123: DRAFTCFG's threshold and interval at the nearest limit. -/
def draftLimit (s : State) : Int := Nat.max 4 (Nat.min 120 s.draftThresh.toNat)
def draftPeriod (s : State) : Nat := Nat.max 100 (Nat.min 10000 s.draftInterval.toNat)

/-- R124: the reading of a core. -/
def tempOf (s : State) (cl co : Nat) : Int := (s.cluster cl).temps.getD co 0

/-- R124: has a core a resident team. -/
def hasTeam (s : State) (k : Nat) : Bool := (s.coreTeams k).any fun tk => (s.team tk).st == .resident

/-- R124: of some cores, the first by a ranking, the lowest number on a tie. -/
def pickCore (better : Nat → Nat → Bool) (l : List Nat) : Option Nat :=
  l.foldl (fun (b : Option Nat) c => match b with
    | none => some c
    | some a => if better c a then some c else b) none

/-- R124: the bytes that a move of a core's teams exchanges. -/
def moveBytes (s : State) (k : Nat) : Nat :=
  let on := s.coreTeams k
  ((List.range 4).map fun d => s.rowsUsed (4 * k + d)).foldl (· + ·) 0 +
    (on.map fun tk => (s.grid (tk / 1048576)).alloc + 4096 * (s.grid (tk / 1048576)).acct + 4096).foldl (· + ·) 0

/-- R124, R125: has a core a save, restore or placement in progress; a save that a request has chosen and that waits for room in
the page-lock table is one (log 29, DEDUCED). -/
def unsettled (s : State) (k : Nat) : Bool :=
  (s.coreTeams k).any fun tk =>
    (s.team tk).st != .resident || (s.team tk).placing || (s.team tk).choice == some .save

/-- R124: the pair that a tick chooses. -/
def draftPair (s : State) (cl : Nat) : Option (Nat × Nat) :=
  let cores := List.range 6
  match pickCore (fun a b => s.tempOf cl b < s.tempOf cl a) (cores.filter fun co => s.hasTeam (coreKey cl co)) with
  | none => none
  | some h =>
    let w := (s.core (coreKey cl h)).pword
    let ok := fun co => co != h && ((s.core (coreKey cl co)).pword.isNone || (s.core (coreKey cl co)).pword == w)
    match pickCore (fun a b => s.tempOf cl a < s.tempOf cl b) (cores.filter ok) with
    | none => none
    | some c =>
      let fresh := fun co => !((s.cluster cl).lastPair.any fun p => p.1 == co || p.2 == co)
      if s.draftLimit ≤ s.tempOf cl h - s.tempOf cl c && fresh h && fresh c && !s.unsettled (coreKey cl h) &&
          !s.unsettled (coreKey cl c) && s.moveBytes (coreKey cl h) ≤ 3670016 && s.moveBytes (coreKey cl c) ≤ 3670016
      then some (h, c) else none

/-- R125: a swap decided: both L1s write back and turn to write-through. -/
def beginSwap (s : State) (cl h c : Nat) : State :=
  let one := fun (s : State) (co : Nat) => (s.wbCore (coreKey cl co)).modCore (coreKey cl co) fun x => { x with writeThrough := true }
  (one (one s h) c).modCluster cl fun x => { x with swap := some { hot := h, cool := c, decided := x.elapsed, pausing := false } }

/-- R124: an interval tick of a cluster. -/
def draftTick (s : State) (cl : Nat) : State :=
  let c := s.cluster cl
  if c.elapsed % (c.interval * 1000) != 0 || c.draftAt == some c.elapsed then s
  else
    let pair := if s.draftEn && c.swap.isNone then s.draftPair cl else none
    let s := match pair with
      | some (h, k) => s.beginSwap cl h k
      | none => s
    s.modCluster cl fun x => { x with draftAt := some c.elapsed, interval := s.draftPeriod, lastPair := pair }

/-- R125, R464: have both cores of a swap reached their stop. -/
def swapStopped (s : State) (k : Nat) : Bool :=
  ((List.range 4).all fun d => (s.quad (4 * k + d)).run.isNone) &&
    ((s.groupsOfCore k).all fun gk => !s.awaits gk) && (s.core k).engq.isEmpty && (s.core k).nzsq.isEmpty

/-- R125: issue stops and the teams of both cores are marked moving. -/
def draftStop (s : State) (cl : Nat) : State :=
  let c := s.cluster cl
  match c.swap with
  | none => s
  | some w =>
    let a := coreKey cl w.hot
    let b := coreKey cl w.cool
    if w.pausing || w.decided + 10000 < c.elapsed || !s.swapStopped a || !s.swapStopped b then s
    else
      let s := (s.coreTeams a ++ s.coreTeams b).foldl (fun s tk => s.modTeam tk fun x => { x with st := .moving }) s
      s.modCluster cl fun x => { x with swap := some { w with pausing := true, paused := c.elapsed } }

/-- R125: the stop was not reached within 10 µs. -/
def draftAbandon (s : State) (cl : Nat) : State :=
  let c := s.cluster cl
  match c.swap with
  | some w => if !w.pausing && w.decided + 10000 ≤ c.elapsed then s.abandonSwap cl else s
  | none => s

/-- R126: what of a core goes with its teams. -/
def moved (old new : Core) : Core :=
  { old with
    pword := new.pword, frost := false, woken := false, writeThrough := false, sideLog := new.sideLog, logSeq := new.logSeq, fbuf := new.fbuf
    baton := new.baton, batonWait := new.batonWait, tts := new.tts, ttsTurn := new.ttsTurn, macroTurn := new.macroTurn
    doneJobs := new.doneJobs, l1 := [] }

/-- R125, R126: the exchange of two cores' teams. -/
def exchange (s : State) (cl h c : Nat) : State :=
  let a := coreKey cl h
  let b := coreKey cl c
  let ta := s.coreTeams a
  let tb := s.coreTeams b
  let s := (s.flushCore a).flushCore b
  let ca := s.core a
  let cb := s.core b
  let s := (s.modCore a fun x => moved x cb).modCore b fun x => moved x ca
  let s := (List.range 4).foldl (fun (s : State) d =>
    let qa := s.quad (4 * a + d)
    let qb := s.quad (4 * b + d)
    (s.modQuad (4 * a + d) fun q => { q with slots := qb.slots }).modQuad (4 * b + d) fun q => { q with slots := qa.slots }) s
  let put := fun (s : State) (l : List Nat) (co : Nat) =>
    l.foldl (fun s tk => s.modTeam tk fun x => { x with st := .resident, co := co }) s
  -- R177, R257: what exited teams left in the buffers went with them
  let gone := fun (k : Nat) => (s.teams.filter fun e => e.2.st == .exited && coreKey e.2.cl e.2.co == k).map Prod.fst
  let stay := fun (s : State) (l : List Nat) (co : Nat) => l.foldl (fun s tk => s.modTeam tk fun x => { x with co := co }) s
  let ga := gone a
  let gb := gone b
  let s := stay (stay (put (put s ta c) tb h) ga c) gb h
  (s.settleCore a).settleCore b

/-- R125, R126, R432: the exchange ends and issue resumes; what the groups wait for is looked at again, and so are the counters
that other groups watch in the scratchpads that moved (R173). -/
def draftRelease (s : State) (cl : Nat) : State :=
  let c := s.cluster cl
  match c.swap with
  | none => s
  | some w =>
    if !w.pausing then s
    else
      let s := s.exchange cl w.hot w.cool
      let s := s.modCluster cl fun x =>
        { x with swap := none, swaps := if x.swaps.toNat < 4294967295 then x.swaps + 1 else x.swaps
                 lastPause := BitVec.ofNat 8 (Nat.min 255 ((c.elapsed - w.paused) / 20)) }
      ((s.groupsOfCore (coreKey cl w.hot) ++ s.groupsOfCore (coreKey cl w.cool)).foldl reexamine s).recheckAll

end State

/-- FROST (R118). -/
def execFrost (s : State) : Host.Outcome State Fault Refusal :=
  let k := coreKey s.ev.cl s.ev.co
  .next (if s.mayFrost k then s.modCore k fun c => { c with frost := true, woken := false } else s)

/-- THAW (R119). -/
def execThaw (s : State) : Host.Outcome State Fault Refusal :=
  let k := coreKey s.ev.cl s.ev.co
  .next (if s.mayThaw k then s.modCore k fun c => { c with frost := false, woken := false } else s)

/-- BAROMETER_TICK (R121). -/
def execBarometerTick (s : State) : Host.Outcome State Fault Refusal := .next (s.barometerTick s.ev.cl s.ev.w16)

/-- STALL_SAMPLE (R121, R122). -/
def execStallSample (s : State) : Host.Outcome State Fault Refusal :=
  .next (s.stallSample s.ev.cl [s.ev.r0, s.ev.r1, s.ev.r2, s.ev.r3])

/-- DRAFT_TICK (R124). -/
def execDraftTick (s : State) : Host.Outcome State Fault Refusal := .next (s.draftTick s.ev.cl)

/-- DRAFT_STOP (R125). -/
def execDraftStop (s : State) : Host.Outcome State Fault Refusal := .next (s.draftStop s.ev.cl)

/-- DRAFT_ABANDON (R125). -/
def execDraftAbandon (s : State) : Host.Outcome State Fault Refusal := .next (s.draftAbandon s.ev.cl)

/-- DRAFT_RELEASE (R125, R126). -/
def execDraftRelease (s : State) : Host.Outcome State Fault Refusal := .next (s.draftRelease s.ev.cl)

end Sys2Proof.Machine
end

