-- ==== Sys2Proof/Machine/Sfa.lean ====
section
/-! DEFINITION. The stochastic field array (R194 to R213, R463, R481): its commands, loading and colouring, sweeps, reads
and status. -/

namespace Sys2Proof.Machine

/-! ### The job card -/

/-- R198: the fields of a load's card. -/
def cardNvar (q : List W64) : Nat := (q.getD 0 0).bits 13 0
def cardDeg (q : List W64) : Nat := (q.getD 0 0).bits 21 16
def cardNbr (q : List W64) : Nat := (q.getD 1 0).toNat
def cardBias (q : List W64) : Nat := (q.getD 2 0).toNat
def cardInit (q : List W64) : Nat := (q.getD 3 0).toNat

/-- R199, code 3: NVAR and DEG in their ranges, every reserved bit zero. -/
def sfaCardOk (q : List W64) : Bool :=
  1 ≤ cardNvar q && cardNvar q ≤ 8192 && 1 ≤ cardDeg q && cardDeg q ≤ 32 &&
    (q.getD 0 0).bits 63 22 == 0 && (q.getD 0 0).bits 15 14 == 0 && (q.getD 1 0).bits 63 57 == 0 &&
    (q.getD 1 0).bits 1 0 == 0 && (q.getD 2 0).bits 63 57 == 0 && !(q.getD 2 0).getLsbD 0 &&
    (q.getD 3 0).bits 63 57 == 0 && (q.drop 4).all (· == 0)

/-- R198: the arrays that a card names: first byte and length. -/
def sfaArrays (q : List W64) : List (Nat × Nat) :=
  [(cardNbr q, 4 * cardNvar q * cardDeg q), (cardBias q, 2 * cardNvar q)] ++
    if cardInit q == 0 then [] else [(cardInit q, ceilDiv (cardNvar q) 8)]

/-! ### Colouring and the update rule -/

/-- R200: does row i list variable j. -/
def sfaLists (nbr : SMap Nat) (deg i j : Nat) : Bool := (List.range deg).any fun d => nbr.find (32 * i + d) == some j

/-- R200: are two variables adjacent. -/
def sfaAdjacent (nbr : SMap Nat) (deg i j : Nat) : Bool := sfaLists nbr deg i j || sfaLists nbr deg j i

/-- R200: the smallest number that a list of colours does not hold. -/
def freeColour (used : List Nat) : Nat := ((List.range (used.length + 1)).find? fun k => !used.contains k).getD used.length

/-- R200: the colours of the first n variables, in ascending index order. -/
def sfaColours (nbr : SMap Nat) (deg : Nat) : Nat → List Nat
  | 0 => []
  | n + 1 =>
    let cs := sfaColours nbr deg n
    cs ++ [freeColour ((List.range n).filter (sfaAdjacent nbr deg n) |>.map fun j => cs.getD j 0)]

end Sys2Proof.Machine

namespace Sys2Proof.Machine.Sfa

/-- The state of variable i as ±1. -/
def spin (x : Sfa) (i : Nat) : Int := if x.st.get i false then 1 else -1

/-- R201: the field of variable i. -/
def field (x : Sfa) (i : Nat) : Int :=
  (List.range x.deg).foldl (fun h d => match x.nbr.find (32 * i + d) with
    | some j => h + signedField 8 (x.coup.get (32 * i + d) 0).toNat * x.spin j
    | none => h) (signedField 16 (x.bias.get i 0).toNat)

/-- R201: the threshold of variable i at an inverse temperature. -/
def threshold (x : Sfa) (beta : FVal) (i : Nat) : Nat :=
  let h := FVal.ofInt (2 * x.field i)
  match crSigm (beta.mul h) with
  | { val := .fin _ m e, more := more } => Nat.min 65535 (roundShift 0 false m more (-(e + 16)) 0)
  | _ => 0

end Sys2Proof.Machine.Sfa

namespace Sys2Proof.Machine
namespace State

def sfa (s : State) (cl : Nat) : Sfa := (s.cluster cl).sfa
def modSfa (s : State) (cl : Nat) (f : Sfa → Sfa) : State := s.modCluster cl fun c => { c with sfa := f c.sfa }

/-! ### Ending commands and ownership -/

/-- A command leaves the queue: its pages are unpinned, its lines have landed, and its token falls. -/
def sfaDrop (s : State) (c : SfaCmd) (st : Nat) : State :=
  let s := (s.unpin (physPages c.pages)).landLines c.g c.t c.lines
  match c.tk with
  | some k => s.tokenDown (grpKey c.g c.t c.grp) k st
  | none => s

/-- R196: the running command ends with an outcome code. -/
def sfaDone (s : State) (cl code st : Nat) : State :=
  match (s.sfa cl).queue with
  | [] => s
  | c :: rest => (s.modSfa cl fun x => { x with queue := rest, code := code }).sfaDrop c st

/-- R195: ownership ends: every command falls with its token's status unchanged, and the contents become undefined
(log 11); no variable is loaded, and no store error has held one (R212). -/
def sfaEnd (s : State) (cl : Nat) : State :=
  let x := s.sfa cl
  if x.owner.isNone then s
  else
    let (i, s) := s.freeIdx
    let v := fun n => (Config.sfaLeft i n).toNat
    let s := s.modSfa cl fun y =>
      { sweep := BitVec.ofNat 32 (v 2 * 65536 + v 3), ncnt := v 4, csat := v 5 % 2 == 1, phys := v 7 % 2 == 1, seed := BitVec.ofNat 32 (v 8 * 65536 + v 9)
        code := y.code, draws := y.draws, cells := y.cells }
    x.queue.foldl (fun s c => s.sfaDrop c 0) s

/-! ### Submission -/

/-- R481: the N that sizes the arrays of a command issued now. -/
def sfaN (x : Sfa) : Option Nat :=
  match (x.queue.filter fun c => c.op == 0 && c.a != 0).getLast? with
  | some c => some (cardNvar c.card)
  | none => if x.cfg then some x.nvar else none

/-- A command of the issuing group. -/
def sfaCmd (s : State) (f : XF) (op : Nat) (tk : Bool) : SfaCmd :=
  { g := s.cur.g, t := s.cur.t, grp := s.cur.grp, op := op, tk := if tk then some f.tk.toNat else none, a := s.sreg f.sa
    b := s.sreg f.sb, imm := f.imm8, gen := (s.team s.curTeam).gen }

/-- R195: a command of a grid that does not own the array: its token rises and falls. -/
def sfaForeign (s : State) (f : XF) (tk : Bool) : Eff :=
  if !tk then { s := s }
  else if s.tokenRoom s.curGrp f.tk.toNat then { s := s.quickToken f.tk.toNat } else { s := s, fate := .stall }

/-- A command with address registers of a grid that does not own the array: its poisoned addresses trap all the same (log 38,
DESIGN CHOICE). -/
def sfaForeignAddr (s : State) (f : XF) (regs : List (BitVec 6)) : Eff :=
  match s.addrPois regs with
  | some t => { s := s, fate := .trap t }
  | none => s.sfaForeign f true

/-- R196, R197: a command enters the queue, with the global bytes that it reads and writes, after a failing page and then
after a poisoned address register among `regs` (R435). -/
def sfaEnter (s : State) (c : SfaCmd) (regs : List (BitVec 6)) (reads writes : List (Nat × Nat)) : Eff :=
  let cl := s.cur.cl
  let sp := reads.map (fun r => ({ at_ := r.1, n := r.2, acc := .load } : Span)) ++
    writes.map fun r => ({ at_ := r.1, n := r.2, acc := .store } : Span)
  match s.spanFail sp with
  | some a => { s := s, fate := .trap (Trap.scalar 0x0A s.cur.lanes 0 (w64 a)) }
  | none =>
    match s.addrPois regs with
    | some t => { s := s, fate := .trap t }
    | none =>
    let m := s.spanPins sp
    if 16 ≤ (s.sfa cl).queue.length || (c.tk.any fun k => !s.tokenRoom s.curGrp k) || !s.landRoom c.lines then
      { s := s, fate := .stall }
    else if !s.pinRoom m then s.pinStall
    else
      let (id, s) := ((s.touchSpans sp).pinAll m).fresh
      let s := s.wbRanges s.curCore (s.physRanges s.curPart reads)
      let s := match c.tk with
        | some k => s.tokenUp s.curGrp k
        | none => s
      let s := s.raiseLines s.cur.g s.cur.t c.lines
      { s := s.modSfa cl fun x =>
          { x with owner := some s.cur.g, queue := x.queue ++ [{ c with id := id, pages := m }] } }

/-- R197, R198: the card of a load as a copy reads it, past the core's L1: its qwords, and is one poisoned; or the trap. -/
def sfaCard (s : State) (r : BitVec 6) : Except Trap (List W64 × Bool) :=
  let va := s.sreg r
  let sp : List Span := [{ at_ := va.toNat, n := 64, acc := .load }]
  match s.spanFail sp with
  | some a => .error (Trap.scalar 0x0A s.cur.lanes 0 (w64 a))
  | none =>
    match s.addrPois [r] with
    | some t => .error t
    | none =>
      let bs := (s.wbRanges s.curCore (s.physRanges s.curPart [(va.toNat, 64)])).pinnedRead (s.spanPins sp) va.toNat 64
      .ok ((List.range 8).map (fun i => w64 (leNat (((bs.map Prod.fst).drop (8 * i)).take 8))), anyPois bs)

/-- R195, R197, R198: the effect of `sfaload` at issue; the card is read after the group's earlier accesses. -/
def effSfaload (f : XF) (s : State) : Eff :=
  let x := s.sfa s.cur.cl
  let va := s.sreg f.sa
  if va.toNat % 64 != 0 then { s := s, fate := .trap (Trap.scalar 0x09 s.cur.lanes 0 va) }
  else if va == 0 then
    match s.addrPois [f.sa] with
    | some t => { s := s, fate := .trap t }
    | none => if x.owner == some s.cur.g then s.sfaEnter (s.sfaCmd f 0 true) [] [] [] else s.sfaForeign f true
  else if x.owner.any fun g => g != s.cur.g then s.sfaForeignAddr f [f.sa]
  else
    match s.sfaCard f.sa with
    | .error t => { s := s, fate := .trap t }
    | .ok c =>
      if !s.earlierDone s.cur.g s.cur.t s.cur.grp s.nextId then { s := s, fate := .stall }
      else
        s.sfaEnter { s.sfaCmd f 0 true with card := c.1, cardPois := c.2 } []
          ((va.toNat, 64) :: if sfaCardOk c.1 then sfaArrays c.1 else []) []

/-- R203, R463: the effect of `sfaclamp` at issue. -/
def effSfaclamp (f : XF) (s : State) : Eff :=
  let x := s.sfa s.cur.cl
  if x.owner != some s.cur.g then s.sfaForeignAddr f [f.sa, f.sb]
  else
    let n := sfaN x
    let len := ceilDiv (n.getD 0) 8
    let rs := if f.imm8.getLsbD 0 then [] else [((s.sreg f.sa).toNat, len), ((s.sreg f.sb).toNat, len)]
    s.sfaEnter { s.sfaCmd f 1 true with n := n } [f.sa, f.sb] rs []

/-- R205, R463: the effect of `sfaseed` at issue. -/
def effSfaseed (f : XF) (s : State) : Eff :=
  if (s.sfa s.cur.cl).owner != some s.cur.g then s.sfaForeign f false else s.sfaEnter (s.sfaCmd f 2 false) [] [] []

/-- R201, R463: the effect of `sfasweep` at issue. -/
def effSfasweep (f : XF) (s : State) : Eff :=
  if (s.sfa s.cur.cl).owner != some s.cur.g then s.sfaForeign f true else s.sfaEnter (s.sfaCmd f 3 true) [] [] []

/-- R207: the bytes of a readout of N variables. -/
def sfaOutBytes (imm : BitVec 8) (n : Nat) : Nat := if imm.getLsbD 1 then 2 * n else ceilDiv n 8

/-- R207, R463: the effect of `sfaread` at issue; its address is judged for alignment before the ownership (log 38, DESIGN
CHOICE). -/
def effSfaread (f : XF) (s : State) : Eff :=
  let x := s.sfa s.cur.cl
  let va := s.sreg f.sa
  if va.toNat % 16 != 0 then { s := s, fate := .trap (Trap.scalar 0x09 s.cur.lanes 0 va) }
  else if x.owner != some s.cur.g then s.sfaForeignAddr f [f.sa]
  else
    let n := sfaN x
    let len := sfaOutBytes f.imm8 (n.getD 0)
    let out := if len == 0 then [] else [(va.toNat, len)]
    let c := { s.sfaCmd f 4 true with n := n }
    if f.imm8.getLsbD 0 then s.sfaEnter { c with lines := rangeLines s.curGrid.alloc out } [f.sa] [] []
    else s.sfaEnter c [f.sa] [] out

/-! ### Running -/

/-- R209: is the array's running command held: its team is being saved, is saved, or is being restored. -/
def sfaHeld (s : State) (c : SfaCmd) : Bool :=
  let st := (s.team (teamKey c.g c.t)).st
  st == .saving || st == .saved || st == .restoring

/-- The command at the head of the array, where it has an opcode and may run. -/
def sfaHead (s : State) (cl op : Nat) : Option SfaCmd :=
  match (s.sfa cl).queue with
  | [] => none
  | c :: _ => if c.op == op && !s.sfaHeld c && s.earlierDone c.g c.t c.grp c.id then some c else none

/-- R199: the entries of the neighbour table, row by row. -/
def sfaTable (s : State) (c : SfaCmd) : List PNat :=
  (List.range (cardNvar c.card * cardDeg c.card)).map fun i => pNum (s.pinnedRead c.pages (cardNbr c.card + 4 * i) 4)

/-- R199: the code of a load, and the array that it leaves. -/
def sfaLoad (s : State) (cl : Nat) (c : SfaCmd) : Nat × Sfa :=
  let x := s.sfa cl
  let n := cardNvar c.card
  let deg := cardDeg c.card
  let fail := { x with cfg := false, nvar := 0, ncol := 0 }
  if !sfaCardOk c.card then (3, fail)
  else
    let tab := s.sfaTable c
    let bias := (List.range n).map fun i => pNum (s.pinnedRead c.pages (cardBias c.card + 2 * i) 2)
    let init : List PNat := if cardInit c.card == 0 then [] else
      (List.range (ceilDiv n 8)).map fun i => pNum (s.pinnedRead c.pages (cardInit c.card + i) 1)
    let row := fun k => k / deg
    let idx := fun (e : PNat) => e.1 % 65536
    let put := (List.range tab.length).filter fun k => idx (tab.getD k (0, false)) != 65535
    let key := fun k => 32 * row k + k % deg
    let nbr := put.foldl (fun m k => SMap.put m (key k) (idx (tab.getD k (0, false)))) ([] : SMap Nat)
    let coup := put.foldl (fun m k => SMap.put m (key k) (BitVec.ofNat 8 ((tab.getD k (0, false)).1 / 65536))) ([] : SMap (BitVec 8))
    if tab.any fun e => e.1 / 16777216 != 0 then (3, fail)
    else if put.any fun k => n ≤ idx (tab.getD k (0, false)) || idx (tab.getD k (0, false)) == row k then (4, fail)
    else
      let cs := sfaColours nbr deg n
      if cs.any (7 < ·) then (2, fail)
      else if c.cardPois || (tab ++ bias ++ init).any Prod.snd then (9, fail)
      else
        let det := (s.grid c.g).det
        (0, { x with
          cfg := true, nvar := n, deg := deg, ncol := cs.foldl Nat.max 0 + 1, nbr := nbr, coup := coup
          bias := (List.range n).foldl (fun m i => SMap.set m 0 i (BitVec.ofNat 16 (bias.getD i (0, false)).1)) []
          colourOf := (List.range n).foldl (fun m i => SMap.set m 0 i (cs.getD i 0)) []
          st := (List.range n).foldl (fun m i =>
            SMap.set m false i ((init.getD (i / 8) (0, false)).1 / pow2 (i % 8) % 2 == 1)) []
          count := [], clamp := [], sweep := 0, ncnt := 0, csat := false, phys := !det
          seed := if det then 0 else x.seed, bad := [] })

/-- R199: is some data of a load poisoned. -/
def sfaLoadPois (s : State) (c : SfaCmd) : Bool :=
  c.cardPois || (sfaCardOk c.card && (sfaArrays c.card).any fun r => (s.pinnedRead c.pages r.1 r.2).any Prod.snd)

/-- R195, R199: a load at the head of the queue. -/
def sfaLoadRun (s : State) (cl : Nat) : State :=
  match s.sfaHead cl 0 with
  | none => s
  | some c =>
    if c.a == 0 then (s.modSfa cl fun x => { x with code := 0 }).sfaEnd cl
    else
      let r := s.sfaLoad cl c
      let st := if s.sfaLoadPois c then 3 else 0
      (s.modSfa cl fun _ => r.2).sfaDone cl r.1 st

/-- R197: bytes of a team's scratchpad as an array command reads them; those of a team that is gone are free (log 11). -/
def sfaSpad (s : State) (g t off n : Nat) : List PByte :=
  (List.range n).map fun i =>
    ({ s with free := s.free + i }.copyRead (.spad g t (off + i)) 1).getD 0 (0, false)

/-- R137: are the source lines of the command at the head of a queue present: only commands behind it keep their counts
up. -/
def spadReady (s : State) (cl g t : Nat) (rs : List (Nat × Nat)) : Bool :=
  let own := fun l => ((s.sfa cl).queue.filter fun c => c.g == g && c.t == t && c.lines.contains l).length
  s.reachable g t != some false &&
    (rangeLines (s.grid g).alloc rs).all fun l => (s.team (teamKey g t)).landing.get l 0 ≤ own l

/-- R203, R481: a clamp at the head of the queue: its arrays have the length that the queued N gave them. One whose mask or
values are poisoned takes effect with the bits as they are stored, and ends with code 0 (log 38, DESIGN CHOICE). -/
def sfaClampRun (s : State) (cl : Nat) : State :=
  match s.sfaHead cl 1 with
  | none => s
  | some c =>
    let x := s.sfa cl
    let len := ceilDiv (c.n.getD 0) 8
    let n := Nat.min (c.n.getD 0) x.nvar
    let sp := c.imm.getLsbD 0
    let rs := [(c.a.toNat, len), (c.b.toNat, len)]
    if !x.cfg || c.n.isNone then s.sfaDone cl 6 0
    else if sp && !s.spadReady cl c.g c.t rs then s
    else
      let rd := fun (s : State) (a : W64) =>
        if sp then s.sfaSpad c.g c.t a.toNat len else s.pinnedRead c.pages a.toNat len
      let m := rd s c.a
      let v := rd { s with free := s.free + len } c.b
      let on := fun (b : List PByte) i => (b.getD (i / 8) (0, false)).1.getLsbD (i % 8)
      let pois := (m ++ v).any Prod.snd
      let s := if sp then { s with free := s.free + 2 * len }.count cl 0x100 (rangeOver (s.grid c.g).alloc rs) else s
      let s := s.modSfa cl fun x =>
        { x with
          clamp := (List.range n).foldl (fun y i => SMap.set y false i (on m i)) x.clamp
          st := (List.range n).foldl (fun y i => if on m i then SMap.set y false i (on v i) else y) x.st }
      s.sfaDone cl 0 (if pois then 3 else 0)

/-- R205: a seed at the head of the queue; code 6 comes before code 7 (log 38, DESIGN CHOICE). -/
def sfaSeedRun (s : State) (cl : Nat) : State :=
  match s.sfaHead cl 2 with
  | none => s
  | some c =>
    if !(s.sfa cl).cfg then s.sfaDone cl 6 0
    else if c.imm.getLsbD 0 then
      if (s.grid c.g).det then s.sfaDone cl 7 0
      else (s.modSfa cl fun x => { x with phys := true }).sfaDone cl 0 0
    else (s.modSfa cl fun x => { x with phys := false, seed := c.a.lo, sweep := 0 }).sfaDone cl 0 0

/-- R213: a cell's monitor after one draw, with bias and stuck events. -/
def cellStep (m : Cell) (b : Bool) : Cell × Nat × Nat :=
  let run := if b == m.last then m.run + 1 else 1
  let stuck := run == 64
  let ones := m.ones + bit b
  let full := m.draws + 1 == 65536
  let bias := full && (ones < 32768 - 512 || 32768 + 512 < ones)
  ({ draws := if full then 0 else m.draws + 1, ones := if full then 0 else ones, last := b, run := if stuck then 0 else run },
    bit bias, bit stuck)

/-- R213: a field of 16 bits of a cluster's SFAHLTH rises, saturating. -/
def sfaHealth (s : State) (cl lo n : Nat) : State :=
  s.modCluster cl fun c =>
    let v := c.counters.get 0x200 0
    let old := v.bits (lo + 15) lo
    { c with counters := c.counters.set 0 0x200 (w64 (v.toNat - old * pow2 lo + Nat.min 65535 (old + n) * pow2 lo)) }

/-- R204, R213: one draw of the physical mode: the 16 bits, seen by their lane's monitors. -/
def cellDraw (s : State) (cl : Nat) : Nat × State :=
  let d := (s.sfa cl).draws
  let u := Config.cellDraw cl d
  let lane := Config.cellLane cl d % 512
  let s := s.modSfa cl fun x => { x with draws := d + 1 }
  (u.toNat, (List.range 16).foldl (fun s b =>
    let r := cellStep ((s.sfa cl).cells.get (16 * lane + b) {}) (u.getLsbD b)
    let s := s.modSfa cl fun x => { x with cells := x.cells.set {} (16 * lane + b) r.1 }
    (s.sfaHealth cl 32 r.2.1).sfaHealth cl 48 r.2.2) s)

/-- R201: one colour step of a sweep: every field from the states as they stood. -/
def sfaColour (s : State) (cl : Nat) (beta : FVal) (c : Nat) : State :=
  let x := s.sfa cl
  let vars := (List.range x.nvar).filter fun i =>
    x.colourOf.get i 0 == c && !x.clamp.get i false && !x.bad.get i false
  let s := vars.foldl (fun s i =>
    let (u, s) := if x.phys then s.cellDraw cl else (mix16 x.seed x.sweep (BitVec.ofNat 32 i), s)
    s.modSfa cl fun y => { y with st := y.st.set false i (u < x.threshold beta i) }) s
  s.count cl 0x208 vars.length

/-- R201: a sweep ends. -/
def sfaSweepEnd (x : Sfa) : Sfa :=
  let x :=
    if x.ncnt < 65535 then
      { x with ncnt := x.ncnt + 1
               count := x.st.foldl (fun m e => if e.2 then SMap.set m 0 e.1 (SMap.get m e.1 0 + 1) else m) x.count }
    else { x with csat := true }
  { x with sweep := x.sweep + 1, bad := [] }

/-- R201: the sweep count and β of a sweep command. -/
def sweepM (c : SfaCmd) : Nat := c.a.bits 15 0
def sweepBeta (c : SfaCmd) : FVal := decodeFloat 1 (c.b.bits 15 0)

/-- R201, R209: the next colour step of a sweep at the head of the queue; code 6 comes before code 5 (log 38, DESIGN CHOICE). -/
def sfaColourStep (s : State) (cl : Nat) : State :=
  match s.sfaHead cl 3 with
  | none => s
  | some c =>
    let x := s.sfa cl
    let beta := sweepBeta c
    if !x.cfg then s.sfaDone cl 6 0
    else if !beta.isFin || sweepM c == 0 then s.sfaDone cl 5 0
    else
      let s := s.sfaColour cl beta c.colour
      if c.colour + 1 < x.ncol then
        s.modSfa cl fun y => { y with queue := { c with colour := c.colour + 1 } :: y.queue.tail }
      else
        let s := s.modSfa cl sfaSweepEnd
        if c.done + 1 < sweepM c then
          s.modSfa cl fun y => { y with queue := { c with colour := 0, done := c.done + 1 } :: y.queue.tail }
        else s.sfaDone cl 0 0

/-- R207, R481: the bytes of a readout of N variables. -/
def sfaOut (x : Sfa) (imm : BitVec 8) (n : Nat) : List Byte :=
  if imm.getLsbD 1 then (List.range n).flatMap fun i => leBytes 2 (x.count.get i 0)
  else (List.range (ceilDiv n 8)).map fun b =>
    BitVec.ofNat 8 ((List.range 8).foldl (fun v i => v + pow2 i * bit (8 * b + i < n && x.st.get (8 * b + i) false)) 0)

/-- R207: a readout at the head of the queue; one for a team that has exited is dropped. -/
def sfaReadRun (s : State) (cl : Nat) : State :=
  match s.sfaHead cl 4 with
  | none => s
  | some c =>
    let x := s.sfa cl
    let tm := s.team (teamKey c.g c.t)
    let sp := c.imm.getLsbD 0
    let a := (s.grid c.g).alloc
    if !x.cfg || c.n.isNone then s.sfaDone cl 6 0
    else if sp && s.reachable c.g c.t == some false then s
    else
      let bs := sfaOut x c.imm (c.n.getD 0)
      let s := s.modSfa cl fun y =>
        if c.imm.getLsbD 2 then { y with count := [], ncnt := 0, csat := false } else y
      let s :=
        if !sp then s.pinnedPut c.g (coreKey tm.cl tm.co) c.pages c.a.toNat bs
        else if tm.gen != c.gen || tm.st == .exited || tm.st == .pending then
          s.count cl (if tm.st == .exited then 0x110 else 0x108) 1
        else
          ((List.range (ceilDiv bs.length 16)).foldl (fun s i =>
            s.engineWrite c.g c.t (c.a.toNat + 16 * i) ((bs.drop (16 * i)).take 16) false) s).count cl 0x100
            (rangeOver a [(c.a.toNat, bs.length)])
      (s.sfaDone cl 0 0).recheckAll

/-! ### Status -/

/-- R212: a status word as the issuing grid reads it. A held command other than a sweep shows RUN 1 and PAUSE 0, and a paused sweep
RUN 0 and PAUSE 1 (log 38, DESIGN CHOICE). -/
def sfaStatus (s : State) (cl g n : Nat) : W64 :=
  let x := s.sfa cl
  let own := x.owner == some g
  if n == 2 then (s.cluster cl).counters.get 0x200 0
  else if !own then (if n == 0 && x.owner.isSome then 2 else 0)
  else if n == 0 then
    let hd := x.queue.head?
    let sweep := hd.filter fun c => c.op == 3
    let pause := sweep.any s.sfaHeld
    let left := (sweep.map fun c => sweepM c - c.done).getD 0
    let col := (sweep.map SfaCmd.colour).getD 0
    w64 (x.nvar * pow2 50 + (x.ncol - 1) * pow2 47 + x.queue.length * pow2 42 + col * pow2 39 + left * pow2 23 +
      x.code * pow2 11 + bit x.pois * 1024 + bit x.csat * 512 + bit pause * 256 + bit (!x.phys) * 128 + bit x.cfg * 64 +
      bit (hd.isSome && !pause))
  else if n == 1 then w64 (x.sweep.toNat * pow2 32 + x.ncnt)
  else w64 x.seed.toNat

end State

/-! ### The words -/

/-- `sfaload` (R195, R198, R463). -/
def execSfaload (h : Hdr) (f : XF) (s : State) : Host.Outcome State Fault Refusal :=
  .next (s.accessWord h { sr := [f.sa.toNat], tw := f.tw } none fun _ s => s.effSfaload f)

/-- `sfaclamp` (R203, R463). -/
def execSfaclamp (h : Hdr) (f : XF) (s : State) : Host.Outcome State Fault Refusal :=
  .next (s.accessWord h { sr := [f.sa.toNat, f.sb.toNat], tw := f.tw } none fun _ s => s.effSfaclamp f)

/-- `sfaseed` (R205, R463). -/
def execSfaseed (h : Hdr) (f : XF) (s : State) : Host.Outcome State Fault Refusal :=
  .next (s.issueWord h { sr := [f.sa.toNat], tw := f.tw } fun _ s => s.effSfaseed f)

/-- `sfasweep` (R201, R463). -/
def execSfasweep (h : Hdr) (f : XF) (s : State) : Host.Outcome State Fault Refusal :=
  .next (s.issueWord h { sr := [f.sa.toNat, f.sb.toNat], tw := f.tw } fun _ s => s.effSfasweep f)

/-- `sfaread` (R207, R463). -/
def execSfaread (h : Hdr) (f : XF) (s : State) : Host.Outcome State Fault Refusal :=
  .next (s.accessWord h { sr := [f.sa.toNat], tw := f.tw } none fun _ s => s.effSfaread f)

/-- `sfastat` (R212, R463). -/
def execSfastat (h : Hdr) (f : XF) (s : State) : Host.Outcome State Fault Refusal :=
  .next (s.issueWord h { tw := f.tw } fun _ s =>
    { s := s.putS f.sc.toNat (s.sfaStatus s.cur.cl s.cur.g f.imm8.toNat) false })

/-- SFA_LOAD_RUN (R195, R199, R200). -/
def execSfaLoadRun (s : State) : Host.Outcome State Fault Refusal := .next (s.sfaLoadRun s.ev.cl)

/-- SFA_CLAMP_RUN (R203). -/
def execSfaClampRun (s : State) : Host.Outcome State Fault Refusal := .next (s.sfaClampRun s.ev.cl)

/-- SFA_SEED_RUN (R205). -/
def execSfaSeedRun (s : State) : Host.Outcome State Fault Refusal := .next (s.sfaSeedRun s.ev.cl)

/-- SFA_COLOUR_STEP (R201, R209). -/
def execSfaColourStep (s : State) : Host.Outcome State Fault Refusal := .next (s.sfaColourStep s.ev.cl)

/-- SFA_READ_RUN (R207). -/
def execSfaReadRun (s : State) : Host.Outcome State Fault Refusal := .next (s.sfaReadRun s.ev.cl)

end Sys2Proof.Machine
end

