-- ==== Sys2Proof/Machine/SideLog.lean ====
section
/-! DEFINITION. The replay of the side log (R157). -/

namespace Sys2Proof.Machine
namespace State

/-- R157: where a logged byte would be stored now, whatever the log holds. -/
def storePlace (s : State) (k p va : Nat) : Option (Nat × Nat) :=
  match s.tlbLookup k p va with
  | some e => if e.w then some (tlbPage e va * 65536 + va % 65536, e.mt) else none
  | none => none

/-- R157: one lane record replayed: of a store, the bytes that lie in the entry's page (R163, R480); those of a release of device
scope or wider are performed at their home slice (R191). Poison does not go to host memory (R263). -/
def replayRec (s : State) (k : Nat) (e : LogEntry) (r : LogRec) : State :=
  match s.storePlace k (s.grid e.g).part (e.page * 65536 + r.addr % 65536) with
  | none => s
  | some (pa, mt) =>
    if mt == 1 && r.pois then s.errorEvent e.g 4 0 e.t e.grp
    else if e.op == 0 then
      ((pieces 0 r.addr r.data.length).filter fun p => p.at_ / 65536 == e.page).foldl (fun s p =>
        let bs := (r.data.drop p.idx).take p.n
        let a := pa / 65536 * 65536 + p.at_ % 65536
        let s := s.glStore k a mt bs r.pois
        if mt == 1 then s.logLeak e.g 0 p.at_ p.n 0 else if e.wide then s.wbRange k a p.n else s) s
    else
      let lane : RmwLane := { lane := 0, data := r.data, cmp := r.cmp, pois := r.pois }
      (s.rmwAt k e.g (if mt == 1 then .host pa r.addr else .dev pa) r.addr e.op e.sz [lane]).1

/-- R262: the writes that the replay of a store's entry makes in a physical page. -/
def logWrites (e : LogEntry) (page : Nat) : List (Nat × List PByte) :=
  e.recs.flatMap fun r => ((pieces 0 r.addr r.data.length).filter fun p => p.at_ / 65536 == e.page).map fun p =>
    (page * 65536 + p.at_ % 65536, ((r.data.drop p.idx).take p.n).map fun b => (b, r.pois))

/-- The entries of a page in a core's side log. -/
def logOf (s : State) (k p page : Nat) : List LogEntry :=
  (s.core k).sideLog.filter fun e => e.page == page && (s.grid e.g).part == p

/-- R167, R177: is an operation that must come before an entry, at a place that its replay writes, still to be performed: in
flight, or in the float-atomic buffer at an address that now maps there. -/
def replayHeld (s : State) (k p page : Nat) : Bool :=
  match s.storePlace k p (page * 65536) with
  | none => false
  | some (base, mt) =>
    let place := fun (a va : Nat) (m : Nat) => if m == 1 then Place.host a va else Place.dev a
    (s.logOf k p page).any fun e =>
      let mine := fun (id g t grp : Nat) (fl : Bool) => id < e.id && s.keepOrder e.g e.t e.grp g t grp (fl && floatOp e.op)
      e.recs.any fun r =>
        ((pieces 0 r.addr r.data.length).filter fun w => w.at_ / 65536 == page).any fun w =>
          let w := (place (base + w.at_ % 65536) w.at_ mt, w.n)
          (s.flights.any fun f => mine f.id f.g f.t f.grp (isFloatRmw f.body) && (flightPlace f.body).any fun x => placesMeet x w) ||
            (s.core k).fbuf.any fun b => mine b.id b.g b.t b.grp true &&
              (s.storePlace k p b.addr).any fun x => placesMeet (place x.1 b.addr x.2, 4) w

/-- R157: the entries of one page replayed in the order they were logged, and freed, when the page translates writable and no
earlier operation at their places is out (R167). -/
def replayPage (s : State) (k p page : Nat) : State :=
  if (s.storePlace k p (page * 65536)).isNone || s.replayHeld k p page then s
  else
    let mine := fun (e : LogEntry) => e.page == page && (s.grid e.g).part == p
    let es := s.logOf k p page
    let s' := (s.modCore k fun c => { c with sideLog := c.sideLog.filter fun e => !mine e }).xlatTouch k p (page * 65536) .store
    es.foldl (fun s e =>
      let s := e.recs.foldl (fun s r => s.replayRec k e r) s
      match s.storePlace k p (page * 65536) with
      | some (pa, mt) => if e.op == 0 && mt != 1 then s.settleMarks k (logWrites e (pa / 65536)) else s
      | none => s) s'

/-- R156, R157: groups parked on the side log of a core, whose wait is over, issue again; the log of a team that is being restored
is still in its image (R129). -/
def wakeLog (s : State) (k : Nat) : State :=
  (s.groupsOfCore k).foldl (fun s gk =>
    let st := (s.team (gk / 32)).st
    match (s.group gk).park with
    | some (.sideLog need recs) =>
      if (st == .resident || st == .saving) && (if need == 0 then !s.teamLogged gk else s.logRoom k need recs) then s.wake gk
      else s
    | _ => s) s

/-- R157: a core retries every page that its log holds. -/
def retryLog (s : State) (k : Nat) : State :=
  let pages := (s.core k).sideLog.foldl (fun (l : List (Nat × Nat)) e =>
    let x := ((s.grid e.g).part, e.page)
    if l.contains x then l else l ++ [x]) []
  ((pages.foldl (fun s x => s.replayPage k x.1 x.2) s).wakeLog k).recheckAll

/-- The cores of a partition's clusters. -/
def coresOfPart (s : State) (p : Nat) : List Nat :=
  ((List.range 32).filter fun c => (s.part p).clusters.getLsbD c).flatMap fun c => (List.range 6).map fun co => coreKey c co

end State

/-- SIDE_LOG_RETRY (R157): at each multiple of 20 µs of the cluster's elapsed time. -/
def execSideLogRetry (s : State) : Host.Outcome State Fault Refusal :=
  .next (if (s.cluster s.ev.cl).elapsed % 20000 == 0 then s.retryLog (coreKey s.ev.cl s.ev.co) else s)

end Sys2Proof.Machine
end

