-- ==== Sys2Proof/Machine/Launch.lean ====
section
/-! DEFINITION. Launch records (R54 to R57), acceptance and end of a grid (R58, R75 to R77, R288), and the end of a grid by
recovery (R266). -/

namespace Sys2Proof.Machine

/-! ### The checks of R57 -/

/-- R230, R242: are format, scale and smoothing of a bound slot admitted. -/
def slotOk (f : BitVec 16) : Bool :=
  if !slotBound f then true
  else
    let t := slotFmt f
    let scl := slotScl f
    if t == 0 || t == 10 || t == 11 then scl == 0 && !slotSmth f
    else if t == 1 || t == 2 then scl == 0 || scl == 2
    else if (3 ≤ t && t ≤ 6) || t == 8 || t == 9 then true
    else t == 16 && scl == 3

/-- R56, check 2: reserved bits of a slot. -/
def slotClean (f : BitVec 16) : Bool := if slotBound f then (f.extractLsb' 0 7) == 0 else f == 0

/-- Checks 1 to 3. -/
def Grid.headOk (r : Grid) : Bool := (r.q 0).bits 63 56 == 1 && (r.q 0).bits 55 52 == 1
def Grid.clean (r : Grid) : Bool :=
  let z := fun i hi lo => (r.q i).bits hi lo == 0
  z 0 48 48 && z 0 41 40 && z 0 19 0 && z 1 63 57 && z 2 63 57 && z 3 29 0 && z 4 47 44 && z 4 26 0 && z 6 63 57 &&
    z 6 2 0 && z 8 63 57 && z 9 63 57 && z 9 15 0 && z 10 63 16 && z 14 63 13 && (List.range 8).all fun n => slotClean (r.slot n)
def Grid.countsOk (r : Grid) : Bool :=
  let h := (r.q 14).bits 12 8
  1 ≤ r.nteams && r.donev != 0 && (h == 0 || 16 ≤ h)
/-- Checks 4 to 7. -/
def Grid.rolesOk (r : Grid) : Bool :=
  let ok := fun g b c => g == 0 || (1 ≤ b && b ≤ c && c ≤ 32)
  1 ≤ r.ngroups && r.ngroups ≤ 24 && ok r.g0 r.b0 r.c0 && ok r.g1 r.b1 r.c1
def Grid.pwordOk (r : Grid) : Bool :=
  let f := r.pword.toNat / 4096
  let a := r.pword.toNat / 512 % 8
  2 ≤ f && f ≤ 12 && a ≤ 4 && f + a ≤ 16 && r.pword.toNat % 512 == 0
def Grid.smemOk (r : Grid) : Bool := r.smem * 1024 ≤ State.spadShare r.pword
def Grid.acctOk (r : Grid) : Bool := r.acct ≤ 16 && (r.acct == 0 || r.pword.toNat / 512 % 8 != 0)
/-- Check 9 (R89). -/
def Grid.saveOk (r : Grid) : Bool := State.footprint r ≤ r.savest * 65536

namespace State

/-- Check 8. -/
def pagesOk (s : State) (r : Grid) : Bool :=
  ((s.walk r.part r.entry).any fun l => l.x) && (s.walkFor r.part r.args false).isSome &&
    (s.walkFor r.part r.donea true).isSome && s.vaOk r.part r.savea (r.nteams * r.savest * 65536) true &&
    (r.sigbuf == 0 || s.vaOk r.part r.sigbuf (192 * r.nteams) true)

/-- R57: the code of the first check that fails, 0 when none does. -/
def recordCode (s : State) (r : Grid) : Nat :=
  if !r.headOk then 1
  else if !r.clean then 2
  else if !r.countsOk then 3
  else if !r.rolesOk then 4
  else if !r.pwordOk then 5
  else if !r.smemOk then 6
  else if !r.acctOk then 7
  else if !s.pagesOk r then 8
  else if !r.saveOk then 9
  else if !(s.part r.part).clsok.getLsbD r.opcls then 10
  else if !((List.range 8).all fun n => slotOk (r.slot n)) then 11
  else 0

/-! ### Acceptance -/

/-- R58: the physical pages of DONEA and SIGBUF. -/
def gridPages (s : State) (r : Grid) : List Nat :=
  let page := fun g => (s.walkFor r.part (g * 65536) true).map fun x => pltKey (x.1 / 65536) x.2
  (pagesOf r.donea 8).filterMap page ++ (if r.sigbuf == 0 then [] else (pagesOf r.sigbuf (192 * r.nteams)).filterMap page)

/-- R288: the instruction caches of a partition's cores discarded. -/
def dropIcaches (s : State) (p : Nat) : State :=
  (s.coresOfPart p).foldl (fun s k => s.modCore k fun c => { c with icache := [] }) s

/-- R278: does the partition's armed trace name the record. -/
def traceHit (s : State) (r : Grid) : Bool :=
  (s.page r.part).trca.getLsbD 63 && (s.page r.part).trca.bits 56 0 == r.entry

/-- R58: a grid accepted, with its pages pinned. -/
def acceptGrid (s : State) (r : Grid) : State :=
  let pages := s.gridPages r
  let hit := s.traceHit r
  let g := s.gridNext.toNat
  let r := { r with order := s.accepted, pages := pages, traced := hit }
  let s := { s with gridNext := s.gridNext + 1, accepted := s.accepted + 1, grids := s.grids.put g r }
  let s := if hit then s.modPage r.part fun y => { y with trca := y.trca &&& 0x7FFFFFFFFFFFFFFF } else s
  (s.pin pages).dropIcaches r.part

/-- R54: is there room in the launch table for one more grid of a partition. -/
def tableRoom (s : State) (p : Nat) : Bool :=
  s.grids.length < 256 && (s.grids.filter fun e => e.2.part == p).length < 64

/-- R55: the previous grid of a queue: the last one accepted from it, while that grid has not ended. -/
def lastOfQueue (s : State) (p q : Nat) : Option Nat :=
  (s.queue q).lastGrid.filter fun g => (s.grids.find g).any fun r => r.part == p && r.queue == q

/-- R54: the launch queues of a partition that hold a record, ascending. -/
def launchQueues (s : State) (p : Nat) : List Nat :=
  (s.queues.filter fun e => e.2.ownv && e.2.part == p && e.2.en && !e.2.halted && e.2.cons == 0 && s.qHeld e.1 != 0).map Prod.fst

/-- R54: the queue whose turn it is. -/
def launchQueue (s : State) (p : Nat) : Option Nat :=
  let l := s.launchQueues p
  match l.find? fun q => (s.part p).qnext ≤ q with
  | some q => some q
  | none => l.head?

/-- The record at an address, as a grid of a partition and queue. -/
def recordGrid (s : State) (p q a : Nat) : Grid :=
  { part := p, queue := q, record := (List.range 16).map fun i => s.vaQ p (a + 8 * i) }

/-- R54: the status of the head record written, and the head advanced. -/
def headDone (s : State) (p q a code : Nat) : State :=
  -- R152: the unit has read the record, beside its status
  let s := s.vaTouch p a 128 false
  let s := (s.vaWrite p (a + 120) (leBytes 8 code)).modPart p fun x => { x with qnext := q + 1 }
  s.deviceAdd p (s.queue q).heada.toNat 1

/-- R57: a record rejected. DONEV is not added where the page of DONEA is unmapped (R57), nor where it is mapped and not both
readable and writable: the model's choice (log 30, DESIGN CHOICE). -/
def rejectRecord (s : State) (r : Grid) (q a code : Nat) : State :=
  let s := s.modQueue q fun x =>
    { x with rej := if x.rej.toNat < 65535 then x.rej + 1 else x.rej, lastRej := BitVec.ofNat 8 code }
  let s := s.deviceAdd r.part r.donea r.donev
  s.headDone r.part q a code

/-- R54, R57, R58: the head record of a queue. -/
def consumeRecord (s : State) (p q : Nat) : State :=
  let x := s.queue q
  let h := (s.qHead q).toNat
  let a := x.slotAt h
  let r := s.recordGrid p q a
  let code := s.recordCode r
  let held := s.qHeld q
  let s := s.queueRead q
  if x.count < held then s.queueOverflow q
  else if !s.tableRoom p then s
  else
    if code != 0 then (s.rejectRecord r q a code).modQueue q fun x => { x with pushers := x.pushers.erase h }
    else if !s.pltRoom (s.gridPages r) then s
    else
      let by_ := x.pushers.find h
      let r := { r with parent := by_.map Prod.fst, root13 := (by_.map Prod.snd).getD (r.q 13)
                        after := if r.ser then s.lastOfQueue p q else none }
      let s := (s.acceptGrid r).modQueue q fun x =>
        { x with pushers := x.pushers.erase h, lastGrid := some s.gridNext.toNat }
      s.headDone p q a 0

/-- R54: one record of a partition's launch queues. -/
def launchConsume (s : State) (p : Nat) : State :=
  if (s.part p).stopping then s
  else match s.launchQueue p with
    | none => s
    | some q => s.consumeRecord p q

/-! ### The end of a grid -/

/-- R58: work of a grid outside its groups: side-log entries, buffered atomics, operations in flight and engine jobs. -/
def gridBusy (s : State) (g : Nat) : Bool :=
  (s.flights.any fun f => f.g == g) ||
  (s.cores.any fun e =>
    (e.2.sideLog.any fun x => x.g == g) || (e.2.fbuf.any fun x => x.g == g) || (e.2.engq.any fun x => x.g == g) ||
      (e.2.tts.any fun x => x.g == g) || e.2.nzsq.any fun x => x.g == g) ||
  (s.clusters.any fun e => e.2.sfa.queue.any fun x => x.g == g) ||
  s.colls.any fun e => e.2.g == g && e.2.status.isNone

/-- R58: has every team of a grid exited. -/
def teamsDone (s : State) (g : Nat) : Bool :=
  (s.teams.filter fun e => e.1 / 1048576 == g && e.2.st == .exited).length == (s.grid g).nteams

/-- R75, R195, R214: a grid leaves the launch table: its pages are unpinned and its units freed. -/
def dropGrid (s : State) (g : Nat) : State :=
  let r := s.grid g
  let s := s.unpin (r.pages ++ r.ckptPages)
  let s := (s.clusters.map Prod.fst).foldl (fun s cl =>
    let s := if (s.sfa cl).owner == some g then s.sfaEnd cl else s
    let s := if s.ownsCarafe cl g then s.carafeEnd cl else s
    s.modCluster cl fun c => { c with tasks := c.tasks.filter fun t => t.g != g }) s
  let s := s.modPage r.part fun y => { y with dbgPend := y.dbgPend.filter fun e => grpKeyGrid e.1 != g }
  { s with
    grids := s.grids.erase g
    teams := s.teams.filter fun e => e.1 / 1048576 != g
    groups := s.groups.filter fun e => grpKeyGrid e.1 != g }

/-- R58: DONEV added once every write of the grid is visible at system scope; R267: a system-scope release of the grid. -/
def addDone (s : State) (g : Nat) : State :=
  let r := s.grid g
  (((s.coresOfPart r.part).foldl wbCore s).logLeak g 2 r.donea 8 0).gridAdd g r.part r.donea r.donev

/-- R266: grids that wait for one grid wait for another in its place. -/
def repoint (s : State) (a b : Nat) : State :=
  let move := fun (x : Option Nat) => if x == some a then some b else x
  { s with
    grids := s.grids.map fun (e : Nat × Grid) => (e.1, { e.2 with parent := move e.2.parent, after := move e.2.after })
    queues := s.queues.map fun (e : Nat × Queue) => (e.1, { e.2 with lastGrid := move e.2.lastGrid }) }

/-- R266, R268, R269: the record of an aborted grid. -/
def abortRecord (s : State) (g : Nat) : State :=
  s.modPage (s.grid g).part fun y =>
    { y with trapq := y.trapq ++
        [{ g := g, t := 0, grp := 0, ident := s.identity g 0 0 0, cause := 0, kind := 4, flags := 0, pc := 0, mask := 0
           cycles := 0, elapsed := 0, detail := 0, detail2 := 0, addrs := [], hang := [] }] }

/-- R266: a grid that ends by recovery, once its teams are discarded and its jobs have ended: relaunched, or aborted. -/
def recoverGrid (s : State) (g : Nat) : State :=
  let r := s.grid g
  let new := match r.reca with
    | none => none
    | some a =>
      let x := s.recordGrid r.part r.queue a
      if s.recordCode x == 0 then
        some { x with parent := r.parent, root13 := if r.parent.isSome then r.root13 else x.q 13
                      after := if x.ser then r.after else none }
      else none
  match new with
  | some x =>
    let s := s.vaTouch r.part (r.reca.getD 0) 128 false
    let t := s.unpin (r.pages ++ r.ckptPages)
    if !t.pltRoom (t.gridPages x) then s
    else
      let n := s.gridNext.toNat
      (((s.dropGrid g).acceptGrid x).repoint g n).devCountPair 0x2018 1 0
  | none => (((s.addDone g).abortRecord g).dropGrid g).devCountPair 0x2018 0 1

/-- R266: a grid that is being relaunched or aborted: its teams are discarded at their run boundaries. -/
def endingStep (s : State) (g : Nat) : State :=
  let mine := (s.teams.filter fun e => e.1 / 1048576 == g).map Prod.fst
  if mine.any fun tk => s.teamRuns tk then s
  else
    let s := mine.foldl (fun s tk =>
      match (s.team tk).st with
      | .pending => s
      | .exited => s
      | _ => s.discardAll tk) s
    if s.gridBusy g then s else s.recoverGrid g

/-- R58, R75: a grid ends. -/
def gridEnd (s : State) (g : Nat) : State :=
  match s.grids.find g with
  | none => s
  | some r =>
    if r.ending then s.endingStep g
    else if s.teamsDone g && !s.gridBusy g then (s.addDone g).dropGrid g
    else s

/-- R264, R266: a control-state error ends a grid by recovery. -/
def controlError (s : State) (g : Nat) : State :=
  if (s.grids.find g).isNone then s
  else (s.errorEvent g 4 0).modGrid g fun r => { r with ending := true }

end State

/-- LAUNCH_RECORD_CONSUME (R54, R57, R58). -/
def execLaunchRecordConsume (s : State) : Host.Outcome State Fault Refusal := .next (s.launchConsume s.ev.p)

/-- GRID_END (R58, R75, R266). -/
def execGridEnd (s : State) : Host.Outcome State Fault Refusal := .next (s.gridEnd s.ev.g)

end Sys2Proof.Machine
end

