-- ==== Sys2Proof/Machine/Errors.lean ====
section
/-! DEFINITION. Soft errors in the storage arrays (R260 to R264). -/

namespace Sys2Proof.Machine
namespace State

/-- R264: the grids that a page-lock entry serves. -/
def gridsOfPage (s : State) (pg : Nat) : List Nat :=
  (s.grids.filter fun e =>
    e.2.pages.contains pg || e.2.ckptPages.contains pg ||
      (s.teams.any fun t => t.1 / 1048576 == e.1 && (physPages t.2.pinned).contains pg) ||
      (s.flights.any fun f => f.g == e.1 && f.pages.contains pg) ||
      (s.cores.any fun c => c.2.tts.any fun j => j.g == e.1 && (physPages j.pages).contains pg) ||
      (s.clusters.any fun c =>
        (c.2.sfa.queue.any fun j => j.g == e.1 && (physPages j.pages).contains pg) ||
          c.2.carafe.cfg.any fun j => j.grid == e.1 && (physPages j.pages).contains pg) ||
      s.colls.any fun c => c.2.g == e.1 && (physPages c.2.pages).contains pg).map Prod.fst

/-- R260: an error in an L1 sector that is not corrected: a clean one is dropped, a dirty one poisoned. -/
def l1Error (s : State) (k sec : Nat) : State :=
  match (s.core k).l1.find sec with
  | none => s
  | some x =>
    if x.dirty == 0 then (s.modCore k fun c => { c with l1 := c.l1.erase sec }).countPair (k / 6) 0x388 1 0
    else (s.modCore k fun c => { c with l1 := c.l1.put sec { x with pois := true } }).countPair (k / 6) 0x388 0 1

/-- Where the team of a soft error counts it. -/
def teamCl (s : State) (g t : Nat) : Nat := (s.team (teamKey g t)).cl

/-- R260, R262: words of a team's stores on its core poisoned. -/
def poisonTeam (s : State) (g t : Nat) (f : Team → Team) : State :=
  let x := s.team (teamKey g t)
  if x.st == .resident || x.st == .moving || x.st == .saving then s.modTeam (teamKey g t) f else s

/-- R260, R261: an error that is corrected. -/
def corrected (s : State) (cl : Nat) : ErrSite → State
  | .reg g t _ _ _ => s.countPair (s.teamCl g t) 0x380 1 0
  | .tile g t _ _ => s.countPair (s.teamCl g t) 0x380 1 0
  | .spad g t _ => s.countPair (s.teamCl g t) 0x380 1 0
  | .l1 c _ _ => s.countPair c 0x388 1 0
  | .l2 _ => s.devCountPair 0x2000 1 0
  | .hbm _ _ => s.devCountPair 0x2008 1 0
  | .slotTable c _ => s.countPair c 0x398 1 0
  | .coupling c _ _ =>
    s.modCluster c fun x =>
      let v := x.counters.get 0x200 0
      { x with counters := x.counters.set 0 0x200 (w64 (v.toNat - v.bits 31 16 * 65536 + Nat.min 65535 (v.bits 31 16 + 1) * 65536)) }
  | .control _ => s.countPair cl 0x398 1 0
  | .tlt g t => s.countPair (s.teamCl g t) 0x398 1 0
  | .plt _ => s.countPair cl 0x398 1 0
  | .icache c co n =>
    (s.modCore (coreKey c co) fun x => { x with icache := x.icache.eraseIdx n }).countPair c 0x390 1 0
  | .tlbCore c co n => (s.modCore (coreKey c co) fun x => { x with tlb := x.tlb.eraseIdx n }).countPair c 0x390 0 1
  | .tlbCluster c n => (s.modCluster c fun x => { x with tlb2 := x.tlb2.eraseIdx n }).countPair c 0x390 0 1
  | .queueEntry => s.devCount 0x2010 1

/-- R260, R262, R264: an error that is not. R213 speaks of an error in a variable's row during a sweep: that one which comes while
none runs sets POIS and counts at once, and holds the variable through the next sweep, is the model's choice (log 38, DESIGN
CHOICE). -/
def uncorrected (s : State) (cl : Nat) : ErrSite → State
  | .reg g t n v l =>
    let s := s.countPair (s.teamCl g t) 0x380 0 1
    if (s.groups.find (grpKey g t n)).isNone then s
    else s.modGroup (grpKey g t n) fun x =>
      { x with regs := { x.regs with vPois := x.regs.vPois.set 0 v (x.regs.vgetPois v ||| Mask.one l) } }
  | .tile g t a e =>
    (s.countPair (s.teamCl g t) 0x380 0 1).poisonTeam g t fun x => { x with tilePois := x.tilePois.put (1024 * a + e) true }
  | .spad g t w =>
    (s.countPair (s.teamCl g t) 0x380 0 1).poisonTeam g t fun x => { x with spadPois := x.spadPois.put w true }
  | .l1 c co sec => s.l1Error (coreKey c co) sec
  | .l2 sec => (s.loseSector sec).devCountPair 0x2000 0 1
  | .hbm sec _ =>
    ((s.loseSector (sec / 2 * 2)).loseSector (sec / 2 * 2 + 1)).devCountPair 0x2008 0 2
  | .slotTable c n => (s.closeSlot c n 3).countPair c 0x398 0 1
  | .coupling c v _ => (s.modSfa c fun x => { x with bad := x.bad.put v true, pois := true }).sfaHealth c 0 1
  | .control g => (s.countPair cl 0x398 0 1).controlError g
  | .tlt g t => (s.countPair (s.teamCl g t) 0x398 0 1).controlError g
  | .plt pg => (s.gridsOfPage pg).foldl controlError (s.countPair cl 0x398 0 1)
  | .icache c co n =>
    (s.modCore (coreKey c co) fun x => { x with icache := x.icache.eraseIdx n }).countPair c 0x390 1 0
  | .tlbCore c co n => (s.modCore (coreKey c co) fun x => { x with tlb := x.tlb.eraseIdx n }).countPair c 0x390 0 1
  | .tlbCluster c n => (s.modCluster c fun x => { x with tlb2 := x.tlb2.eraseIdx n }).countPair c 0x390 0 1
  | .queueEntry => s.devCount 0x2010 1

/-- R15, R260: is an error corrected: in HBM, where one symbol of the 64-byte access is wrong; elsewhere as the turn says
(log 48). -/
def errorFixed (s : State) : Bool :=
  match s.ev.site with
  | .hbm _ symbols => symbols ≤ 1
  | _ => s.ev.flag

end State

/-- SOFT_ERROR (R260, R264). -/
def execSoftError (s : State) : Host.Outcome State Fault Refusal :=
  .next (if s.errorFixed then s.corrected s.ev.cl s.ev.site else s.uncorrected s.ev.cl s.ev.site)

end Sys2Proof.Machine
end

