-- ==== Sys2Proof/Machine/System.lean ====
section
/-! DEFINITION. The system words (R360 to R370): the control registers, the words that groups issue, and the handler
interface of a partition's page with its commands. -/

namespace Sys2Proof.Machine

/-- R361: ctl.gstat of a group; while the run that a halt will end goes on, it is neither parked nor halted (R364). -/
def gstat (s : State) (gk : Nat) : W64 :=
  let x := s.group gk
  w64 ((if s.parked gk then State.parkCode x else 0) * 4096 + bit (x.halted && !s.inRun gk) * 2048 + bit x.srun * 1024 + bit x.sla * 512 + bit x.step * 256)

/-- R361: one half of a 128-bit mask. -/
def maskHalf (m : Mask) (hi : Bool) : W64 := if hi then m.extractLsb' 64 64 else m.extractLsb' 0 64

/-- One half of a mask replaced. -/
def putHalf (m : Mask) (hi : Bool) (v : W64) : Mask :=
  if hi then v ++ m.extractLsb' 0 64 else m.extractLsb' 64 64 ++ v

namespace State

/-- R361: a control register of a group, as `ctlrd` reads it; none where the number names none. -/
def ctlGet (s : State) (gk creg : Nat) : Option W64 :=
  let x := s.group gk
  let r := s.grid (grpKeyGrid gk)
  match creg with
  | 0x0000 => some (gstat s gk)
  | 0x0001 => some (w64 (x.budget + r.ceiling (grpKeyIdx gk) * 65536))
  | 0x0002 => some (s.team (gk / 32)).progress
  | 0x0003 => some (if r.reca.isSome then r.gen.setWidth 64 else 0)
  | 0x0004 => some (w64 ((List.range 8).foldl (fun v n => v + x.kc n * pow2 (8 * n)) 0))
  | 0x0005 => some (w64 ((List.range 8).foldl (fun v n => v + x.ks n * pow2 (2 * n)) 0))
  | 0x0006 => some (x.regs.q.setWidth 64)
  | 0x0007 => some x.sig
  | 0x0180 => some (maskHalf x.exited false)
  | 0x0181 => some (maskHalf x.exited true)
  | 0x0182 => some (maskHalf x.held false)
  | 0x0183 => some (maskHalf x.held true)
  | n =>
    if 0x0010 ≤ n && n ≤ 0x004F then some (x.regs.sget (n - 0x10))
    else if 0x0100 ≤ n && n ≤ 0x017F then
      let t := x.pcOf (n - 0x100)
      some (w64 (t % pow2 57 + pow2 61 * bit (pow2 57 ≤ t)))
    else if 0x0202 ≤ n && n ≤ 0x021F then some (maskHalf (x.regs.pget ((n - 0x200) / 2)) (n % 2 == 1))
    else if 0x4000 ≤ n && n < 0x4000 + 128 * x.budget then
      some ((x.regs.lane ((n - 0x4000) / 128) ((n - 0x4000) % 128)).setWidth 64)
    else none

/-- R361, R362: does a group have a control register that the handler may write. -/
def ctlWritable (s : State) (gk creg : Nat) : Bool :=
  let x := s.group gk
  creg == 2 || creg == 6 || creg == 7 || (0x10 ≤ creg && creg ≤ 0x4F) ||
    (0x100 ≤ creg && creg ≤ 0x17F && !x.exited.getLsbD (creg - 0x100)) || (0x202 ≤ creg && creg ≤ 0x21F) ||
    (0x4000 ≤ creg && creg < 0x4000 + 128 * x.budget)

/-- R362: a control register of a group written. -/
def ctlPut (s : State) (gk creg : Nat) (v : W64) : State :=
  let regs := fun (f : Regs → Regs) => s.modGroup gk fun x => { x with regs := f x.regs }
  if creg == 2 then s.modTeam (gk / 32) fun x => { x with progress := v }
  else if creg == 6 then regs fun r => { r with q := v.setWidth 7 }
  else if creg == 7 then s.modGroup gk fun x => { x with sig := v }
  else if creg ≤ 0x4F then regs fun r => r.sset (creg - 0x10) v 0
  else if creg ≤ 0x17F then s.modGroup gk fun x => x.setPc (Mask.one (creg - 0x100)) (v.bits 56 0)
  else if creg ≤ 0x21F then
    let n := (creg - 0x200) / 2
    regs fun r => r.pset n Mask.full (putHalf (r.pget n) (creg % 2 == 1) v)
  else
    let n := (creg - 0x4000) / 128
    let l := (creg - 0x4000) % 128
    regs fun r => r.vset n (Mask.one l) (splat v.lo) (r.vgetPois n)

/-! ### The groups that a command names -/

/-- R360: the groups that HSEL names: those of a grid of the partition that exist. -/
def named (s : State) (p : Nat) : List Nat :=
  let v := (s.page p).hsel
  let g := v.bits 63 40
  let t := v.bits 39 20
  let n := v.bits 19 15
  match s.grids.find g with
  | none => []
  | some r =>
    if r.part != p then []
    else
      let ts := if t == 0xFFFFF then List.range r.nteams else if t < r.nteams then [t] else []
      let ns := if n == 31 then List.range r.ngroups else if n < r.ngroups then [n] else []
      ts.flatMap fun t => ns.map fun n => grpKey g t n

/-- Is a group in a run. -/
def running (s : State) (gk : Nat) : Bool :=
  match (s.quad (4 * s.coreOfGrp gk + (s.group gk).quad)).run with
  | some r => r.grp == gk
  | none => false

/-- R361: may the handler reach a group's registers: it is resident, and trapped or halted. -/
def reachableCtl (s : State) (gk : Nat) : Bool :=
  let x := s.group gk
  (s.team (gk / 32)).st == .resident && (x.park == some .trap || (x.halted && !s.running gk))

/-- Is a group's record in its team's save image. -/
def savedGrp (s : State) (gk : Nat) : Bool :=
  let st := (s.team (gk / 32)).st
  st == .saved || st == .restoring

/-- R363: is a group parked with reason trap or halt. -/
def stoppedGrp (s : State) (gk : Nat) : Bool :=
  let x := s.group gk
  (s.groups.find gk).isSome && (x.park == some .trap || x.halted)

/-- R363: a group on a core resumed. -/
def resume (x : Group) : Group :=
  let trapped := x.park == some .trap
  let x := if trapped then { x with park := State.afterPark x, held := 0, bkptPass := x.trapCause == some 0x0E, trapCause := none } else x
  let x := { x with halted := false, park := if x.park == some Park.halt then none else x.park }
  match x.dbgPend with
  | some b => { x with step := b.getLsbD 0, sla := b.getLsbD 1, srun := b.getLsbD 2, dbgPend := none }
  | none => x

/-- R363: a saved group resumed in its image. -/
def resumeSaved (s : State) (gk : Nat) : State :=
  let tk := gk / 32
  let a := imageGroup gk
  let rd := fun o n => leNat (s.imgRead tk (a + o) n)
  let code := rd 0x6F9 1
  let flags := rd 0x6FA 1
  let pend := rd 0x730 8
  let low := if pend / 8 % 2 == 1 then
      pend % 2 + 2 * (pend / 2 % 2) + 4 * (pend / 4 % 2)
    else flags % 8
  let s := if code == 9 || code == 11 then s.imgWrite tk (a + 0x6F9) [0] else s
  let s := s.imgWrite tk (a + 0x6FA) (leBytes 1 (flags / 16 * 16 + low))
  let s := s.imgWrite tk (a + 0x730) (leBytes 1 (pend / 16 % 16 * 16))
  let s := if code == 9 then (List.range 128).foldl (fun s l =>
      let at_ := a + 0x200 + 8 * l + 7
      s.imgWrite tk at_ ((s.imgRead tk at_ 1).map fun b => b &&& 0xBF#8)) s
    else s
  s.modGroup gk resume

/-! ### Commands -/

/-- A command is refused, or ends. -/
def cmdRefuse (s : State) (p : Nat) : State := s.modPage p fun y => { y with herr := true, hbusy := false }
def cmdDone (s : State) (p : Nat) : State := s.modPage p fun y => { y with hbusy := false }

/-- R125: a command that names a group of a moving team waits. -/
def cmdWaits (s : State) (gs : List Nat) : Bool := gs.any fun gk => (s.team (gk / 32)).st == .moving

/-- R361, R362: does the access of a named group's register fail. -/
def cmdDenied (s : State) (op creg : Nat) (gs : List Nat) : Bool :=
  let still := gs.filter fun gk => (s.team (gk / 32)).st != .moving
  if op == 1 then gs.length != 1 || still.any fun gk => !s.reachableCtl gk || (s.ctlGet gk creg).isNone
  else if op == 2 then still.any fun gk => !s.reachableCtl gk || !s.ctlWritable gk creg
  else if op == 0 then !gs.any s.stoppedGrp
  else false

/-- R360: the bits of IMM that a handler opcode does not define. -/
def cmdImmBad (op imm : Nat) : Bool :=
  match op with
  | 4 => 4 ≤ imm
  | 7 => false
  | 8 => 4 ≤ imm
  | _ => imm != 0

/-- R360: is an opcode the handler's, and does its command name a group. -/
def handlerOp (op : Nat) : Bool := op ≤ 9 && op != 3
def namesGroup (op : Nat) : Bool := op == 0 || op == 1 || op == 2 || op == 4 || op == 9

/-- R360: HCMD written: its fields, and with GO a command issued or refused. While BUSY is 1 the fields stand, with GO or
without it: the model's choice (log 41, DESIGN CHOICE). -/
def hcmdWrite (s : State) (p : Nat) (v : W64) : State :=
  let y := s.page p
  let op := v.bits 47 38
  let creg := v.bits 63 48
  let gs := s.named p
  let s1 := s.modPage p fun y => { y with herr := y.herr && !v.getLsbD 2 }
  let bad := y.hbusy || !handlerOp op || v.bits 37 3 != 0 || y.hrsv || cmdImmBad op y.himm.toNat ||
    (namesGroup op && (gs.isEmpty || s.cmdDenied op creg gs))
  let s1 := if y.hbusy then s1 else
    s1.modPage p fun y => { y with hcreg := BitVec.ofNat 16 creg, hop := BitVec.ofNat 10 op }
  if !v.getLsbD 0 then s1
  else if bad then s1.modPage p fun y => { y with herr := true }
  else s1.modPage p fun y => { y with hbusy := true }

/-- R360: HIMM written. -/
def himmWrite (s : State) (p : Nat) (v : W64) : State :=
  s.modPage p fun y => { y with himm := v.lo, hrsv := v.hi != 0 }

/-- R360: the Y word of the command that a handler interface holds. -/
def handlerWord (y : Page) : Option Instr :=
  let h : Hdr := { bnd := false, la := 0, gn := false, grd := 0 }
  let f : YF := { sd := 0, sa := 0, creg := y.hcreg, imm := y.himm }
  match y.hop.toNat with
  | 0 => some (.trapret h f)
  | 1 => some (.ctlrd h f)
  | 2 => some (.ctlwr h f)
  | 4 => some (.smpctl h f)
  | 5 => some (.tlbinv h f)
  | 6 => some (.tlbinvall h f)
  | 7 => some (.cwb h f)
  | 8 => some (.cinv h f)
  | 9 => some (.halt h f)
  | _ => none

/-- R360, R370: a handler opcode from a group traps undefined-encoding. -/
def notForGroups (s : State) (h : Hdr) : State :=
  s.finish h { s := s, fate := .trap { cause := 0x01, mask := s.cur.lanes, detail := 0xE0 } }

/-- A handler command that names groups: it waits for a move, is refused, or takes effect. -/
def groupCommand (s : State) (p op creg : Nat) (f : List Nat → State → State) : State :=
  let gs := s.named p
  if s.cmdWaits gs then s else if gs.isEmpty || s.cmdDenied op creg gs then s.cmdRefuse p else f gs s

/-- R363. -/
def trapretDo (gs : List Nat) (s : State) : State :=
  gs.foldl (fun s gk =>
    if !s.stoppedGrp gk then s else if s.savedGrp gk then s.resumeSaved gk else s.modGroup gk resume) s

/-- R364: every named group is halted. -/
def haltDo (gs : List Nat) (s : State) : State :=
  gs.foldl (fun s gk =>
    if (s.groups.find gk).isNone then s
    else
      let s := s.modGroup gk fun x => { x with halted := true }
      if !s.savedGrp gk then s
      else
        let tk := gk / 32
        let a := imageGroup gk
        let s := if leNat (s.imgRead tk (a + 0x6F9) 1) == 0 then s.imgWrite tk (a + 0x6F9) [11] else s
        s.imgWrite tk (a + 0x6FA) ((s.imgRead tk (a + 0x6FA) 1).map fun b => b ||| 8#8)) s

/-- R366: the sampling controls of the named groups. -/
def smpctlDo (imm : BitVec 32) (gs : List Nat) (s : State) : State :=
  gs.foldl (fun s gk =>
    let s := s.modGroup gk fun x => { x with forced := x.forced || imm.getLsbD 0, excluded := imm.getLsbD 1 }
    if !s.savedGrp gk then s
    else
      let a := imageGroup gk + 0x6FA
      s.imgWrite (gk / 32) a ((s.imgRead (gk / 32) a 1).map fun b => (b &&& 0xEF#8) ||| (if imm.getLsbD 1 then 16#8 else 0#8))) s

/-- R367: TLB entries of a partition dropped on every core and cluster, and every side log of it retried. -/
def tlbDrop (s : State) (p : Nat) (f : TlbEntry → Bool) : State :=
  let keep := fun (l : List TlbEntry) => l.filter fun e => !(e.part == p && f e)
  let s := { s with
    cores := s.cores.map fun (e : Nat × Core) => (e.1, { e.2 with tlb := keep e.2.tlb })
    clusters := s.clusters.map fun (e : Nat × Cluster) => (e.1, { e.2 with tlb2 := keep e.2.tlb2 }) }
  (s.coresOfPart p).foldl retryLog s

/-- R367: does an entry map the page of an address. -/
def entryCovers (va : Nat) (e : TlbEntry) : Bool := e.block == bitsOf va 56 21 && e.valid.getLsbD (bitsOf va 20 16)

/-- R368: the pages of device memory, by number, that a range of virtual pages from an address maps to. -/
def cwbPages (s : State) (p : Nat) (imm : BitVec 32) (base : W64) : List Nat :=
  (List.range imm.toNat).filterMap fun i =>
    let va := (base.bits 63 16 + i) * 65536
    if pow2 57 ≤ va then none else (s.walk p va).bind fun l => if l.mt == 1 then none else some l.ppn

/-- R368: dirty sectors of the partition's cores written back: all, or those of a range of virtual pages. -/
def cwbDo (s : State) (p : Nat) (imm : BitVec 32) (base : W64) : State :=
  let ks := s.coresOfPart p
  if imm == 0 then ks.foldl wbCore s
  else
    let pages := s.cwbPages p imm base
    ks.foldl (fun s k => ((s.core k).l1.keys.filter fun sec => pages.contains (sec / 2048)).foldl (fun s sec => s.wbSector k sec) s) s

/-- R368: instruction caches discarded; L1s written back and invalidated. -/
def cinvDo (s : State) (p : Nat) (imm : BitVec 32) : State :=
  (s.coresOfPart p).foldl (fun s k =>
    let s := if imm.getLsbD 0 then s.modCore k fun c => { c with icache := [] } else s
    if imm.getLsbD 1 then s.flushCore k else s) s

end State

/-! ### The words -/

/-- `trapret` (R363). -/
def execTrapret (h : Hdr) (f : YF) (s : State) : Host.Outcome State Fault Refusal :=
  .next (match s.cur.handler with
    | none => s.notForGroups h
    | some p => s.groupCommand p 0 f.creg.toNat fun gs s => (s.trapretDo gs).cmdDone p)

/-- `ctlrd` (R361, R362). -/
def execCtlrd (h : Hdr) (f : YF) (s : State) : Host.Outcome State Fault Refusal :=
  .next (match s.cur.handler with
    | none => s.issueWord h {} fun _ s =>
      { s := s.putS f.sd.toNat ((s.ctlGet s.curGrp f.creg.toNat).getD 0) false }
    | some p => s.groupCommand p 1 f.creg.toNat fun gs s =>
      let v := (gs.head?.bind fun gk => s.ctlGet gk f.creg.toNat).getD 0
      (s.modPage p fun y => { y with hdata := v }).cmdDone p)

/-- `ctlwr` (R362). -/
def execCtlwr (h : Hdr) (f : YF) (s : State) : Host.Outcome State Fault Refusal :=
  .next (match s.cur.handler with
    | none => s.notForGroups h
    | some p => s.groupCommand p 2 f.creg.toNat fun gs s =>
      (gs.foldl (fun s gk => s.ctlPut gk f.creg.toNat (s.page p).hdata) s).cmdDone p)

/-- `sigrd` (R365). -/
def execSigrd (h : Hdr) (f : YF) (s : State) : Host.Outcome State Fault Refusal :=
  .next (s.issueWord h {} fun _ s =>
    let v := s.grp.sig
    let s := if f.imm.getLsbD 0 then s.modGrp fun x => { x with sig := 0 } else s
    { s := s.putS f.sd.toNat v false })

/-- `smpctl` (R366). -/
def execSmpctl (h : Hdr) (f : YF) (s : State) : Host.Outcome State Fault Refusal :=
  .next (match s.cur.handler with
    | none => s.notForGroups h
    | some p => s.groupCommand p 4 f.creg.toNat fun gs s => (s.smpctlDo f.imm gs).cmdDone p)

/-- `tlbinv` (R367). -/
def execTlbinv (h : Hdr) (_f : YF) (s : State) : Host.Outcome State Fault Refusal :=
  .next (match s.cur.handler with
    | none => s.notForGroups h
    | some p => (s.tlbDrop p (State.entryCovers (s.page p).hdata.toNat)).cmdDone p)

/-- `tlbinvall` (R367). -/
def execTlbinvall (h : Hdr) (_f : YF) (s : State) : Host.Outcome State Fault Refusal :=
  .next (match s.cur.handler with
    | none => s.notForGroups h
    | some p => (s.tlbDrop p fun _ => true).cmdDone p)

/-- `cwb` (R368). -/
def execCwb (h : Hdr) (f : YF) (s : State) : Host.Outcome State Fault Refusal :=
  .next (match s.cur.handler with
    | none => s.notForGroups h
    | some p => (s.cwbDo p f.imm (s.page p).hdata).cmdDone p)

/-- `cinv` (R368). -/
def execCinv (h : Hdr) (f : YF) (s : State) : Host.Outcome State Fault Refusal :=
  .next (match s.cur.handler with
    | none => s.notForGroups h
    | some p => (s.cinvDo p f.imm).cmdDone p)

/-- `halt` (R364): it ends when every named resident group has stopped. -/
def execHalt (h : Hdr) (f : YF) (s : State) : Host.Outcome State Fault Refusal :=
  .next (match s.cur.handler with
    | none => s.notForGroups h
    | some p => s.groupCommand p 9 f.creg.toNat fun gs s =>
      let s := s.haltDo gs
      if gs.any s.running then s else s.cmdDone p)

/-- `strict` (R369): the bits take effect at the group's next run start. -/
def execStrict (h : Hdr) (f : YF) (s : State) : Host.Outcome State Fault Refusal :=
  .next (s.issueWord h {} fun _ s => { s := s.modGrp fun x => { x with strictPend := some (f.imm.setWidth 2) } })

end Sys2Proof.Machine
end

