-- ==== Sys2Proof/Machine/Mailbox.lean ====
section
/-! DEFINITION. Partitions: the monitor's mailbox (R41, R42), stopping (R45), the services of an image (R43), and the
descriptors of queues (R50, R51). -/

namespace Sys2Proof.Machine
namespace State

/-! ### Queues -/

/-- R51: the pages of a queue's ring and counters, when all are mapped. -/
def queuePages (s : State) (x : Queue) : Option (List Nat) :=
  let l := (pagesOf x.base.toNat (x.count * x.size) ++ pagesOf x.heada.toNat 8 ++ pagesOf x.taila.toNat 8).map fun g =>
    s.walk x.part (g * 65536)
  if l.all Option.isSome then some (l.filterMap fun e => e.map fun x => pltKey x.ppn x.mt) else none

/-- R51: may a queue be enabled. -/
def queueFit (x : Queue) : Bool :=
  x.ownv && 4 ≤ x.log2n.toNat && x.log2n.toNat ≤ 16 && x.esz != 3 && x.cons != 3 && x.prod != 3 &&
    (x.cons != 0 || x.esz == 1) && (x.prod != 2 || x.esz == 2)

/-- R51: QEN set, or refused with ERR. -/
def queueOn (s : State) (q : Nat) : State :=
  let x := s.queue q
  let refuse := s.modQueue q fun x => { x with err := true }
  if !queueFit x then refuse
  else
    match s.queuePages x with
    | none => refuse
    | some l =>
      if !s.pltRoom l then refuse
      else
        ((s.queueRead q).pin l).modQueue q fun y =>
          { y with en := true, halted := false, rej := 0, pages := l, claim := s.qTail q, pop := s.qHead q, pushers := [] }

/-- R50, R413: QEN cleared. -/
def queueOff (s : State) (q : Nat) : State :=
  if !(s.queue q).en then s
  else
    let s := s.queueStop q
    (s.unpin (s.queue q).pages).modQueue q fun x => { x with en := false, halted := false, pages := [] }

/-- R50: QD0 written. -/
def qd0Write (s : State) (q : Nat) (v : W64) : State :=
  let x := s.queue q
  let base : W64 := v &&& 0x01FFFFFFFFFF0000
  let log2n : BitVec 8 := BitVec.ofNat 8 (v.bits 15 11)
  let esz : BitVec 4 := BitVec.ofNat 4 (v.bits 10 9)
  let cons : BitVec 4 := BitVec.ofNat 4 (v.bits 8 7)
  let prod : BitVec 4 := BitVec.ofNat 4 (v.bits 6 5)
  if x.en then
    let clash := base != x.base || log2n != x.log2n || esz != x.esz || cons != x.cons || prod != x.prod
    let s := if clash then s.modQueue q fun x => { x with err := true } else s
    if v.getLsbD 0 then s else s.queueOff q
  else
    let s := s.modQueue q fun x => { x with base := base, log2n := log2n, esz := esz, cons := cons, prod := prod }
    if v.getLsbD 0 then s.queueOn q else s

/-- R50: HEADA or TAILA written. -/
def qdCounter (s : State) (q : Nat) (head : Bool) (v : W64) : State :=
  let x := s.queue q
  let a : W64 := v &&& 0x01FFFFFFFFFFFFF8
  if x.en then (if a != (if head then x.heada else x.taila) then s.modQueue q fun x => { x with err := true } else s)
  else s.modQueue q fun x => if head then { x with heada := a } else { x with taila := a }

/-- R50: the flags of QD3 cleared. -/
def qd3Clear (s : State) (q : Nat) (v : W64) : State :=
  s.modQueue q fun x =>
    { x with drop := x.drop && !v.getLsbD 2, ovf := x.ovf && !v.getLsbD 1, err := x.err && !v.getLsbD 0 }

/-- R50: a descriptor's qword written by a function; the owner only by the physical one. -/
def qdWrite (s : State) (fn : Fn) (q off : Nat) (v : W64) : State :=
  match off with
  | 0x00 => s.qd0Write q v
  | 0x08 => s.qdCounter q true v
  | 0x10 => s.qdCounter q false v
  | 0x18 =>
    let s := s.qd3Clear q v
    if fn == .pf then s.modQueue q fun x => { x with owner := BitVec.ofNat 4 (v.bits 10 8), ownv := v.getLsbD 7 } else s
  | _ => s

/-- R44: a function's access to a queue's descriptor. -/
def queueAccess (s : State) (fn : Fn) (q : Nat) (f : State → State) : State :=
  if 4096 ≤ q || s.boot.recovery then s else if fnMay fn (s.queueOwner q) then f s else s.blockWrite fn

/-- R50: a descriptor's qword as it reads. -/
def qdRead (s : State) (q off : Nat) : W64 :=
  let x := s.queue q
  match off with
  | 0x00 => w64 (x.base.toNat + x.log2n.toNat * 2048 + x.esz.toNat * 512 + x.cons.toNat * 128 + x.prod.toNat * 32 + bit x.en)
  | 0x08 => x.heada
  | 0x10 => x.taila
  | 0x18 => w64 (x.rej.toNat * pow2 48 + x.lastRej.toNat * pow2 40 + x.owner.toNat * 256 + bit x.ownv * 128 + bit x.drop * 4 +
      bit x.ovf * 2 + bit x.err)
  | 0x20 => x.claim
  | 0x28 => x.pop
  | _ => 0

/-- R52: a write to a queue's doorbell page. R39: in recovery BAR2 is not exposed. -/
def doorbell (s : State) (fn : Fn) (q off : Nat) (v : W64) : State :=
  if 4096 ≤ q || s.boot.recovery then s
  else
    let x := s.queue q
    let mine := fnMay fn (s.queueOwner q)
    let s := if mine then s else s.blockWrite fn
    if off != 0 || v == 0 then s
    else if !mine || !x.en || x.prod != 0 || x.count < v.toNat then s.modQueue q fun x => { x with drop := true }
    else s.deviceAdd x.part x.taila.toNat v

/-! ### The mailbox -/

/-- R42: a command ends with a result code. -/
def mbEnd (s : State) (code : Nat) : State :=
  { s with mb := { s.mb with busy := false, result := BitVec.ofNat 8 code, done := true } }.send .msix0

/-- R42: a result register. -/
def mbRes (s : State) (n : Nat) (v : W64) : State := { s with mb := { s.mb with res := s.mb.res.put n v } }
def mbArg (s : State) (n : Nat) : W64 := s.mb.args.get n 0

/-- R37: does the partition monitor run: from phase 4 of the boot on, and not in recovery. -/
def monitorUp (s : State) : Bool := 4 ≤ s.boot.phase && !s.boot.recovery

/-- R42: a command that the mailbox holds is carried out by the monitor. A command that is written before the monitor runs (R37)
stays in progress until it does: the model's choice (log 34, DESIGN CHOICE). -/
def mbRun (s : State) (code : Nat) (f : Nat → State → State) : State :=
  let p := s.mb.runsPart
  if !s.monitorUp || !s.mb.busy || s.mb.runs.toNat != code || (s.part p).stopping then s
  else if s.mb.rsv then s.mbEnd 1
  else f p s

/-- R42: reserved bits of the arguments of CREATE and MODIFY. -/
def resReserved (s : State) : Bool :=
  (s.mbArg 0).bits 63 32 != 0 || (s.mbArg 1).bits 63 16 != 0 || (s.mbArg 4).bits 63 28 != 0 || (s.mbArg 4).bits 15 12 != 0 ||
    (s.mbArg 5).bits 63 48 != 0 || (s.mbArg 6).bits 63 16 != 0 || (s.mbArg 6).bits 7 4 != 0

/-- R42: the resources that the arguments name, laid into a partition. -/
def resPart (s : State) (x : Part) : Part :=
  { x with
    clusters := BitVec.ofNat 32 ((s.mbArg 0).bits 31 0), harts := BitVec.ofNat 16 ((s.mbArg 1).bits 15 0)
    base := (s.mbArg 2).toNat, size := (s.mbArg 3).toNat, qfirst := (s.mbArg 4).bits 11 0, qcount := (s.mbArg 4).bits 27 16
    ports := BitVec.ofNat 48 ((s.mbArg 5).bits 47 0), clsok := BitVec.ofNat 4 ((s.mbArg 6).bits 3 0)
    weight := BitVec.ofNat 8 ((s.mbArg 6).bits 15 8) }

/-- The other partitions. -/
def others (s : State) (p : Nat) : List Part := (s.parts.filter fun e => e.1 != p && e.2.exists_).map Prod.snd

/-- R42, result 3: a resource of another partition, hart 0 or a disabled cluster. -/
def resTaken (s : State) (p : Nat) (x : Part) : Bool :=
  x.harts.getLsbD 0 || (x.clusters &&& ~~~s.fuses.enabled) != 0 ||
    (s.others p).any fun y =>
      (x.clusters &&& y.clusters) != 0 || (x.harts &&& y.harts) != 0 || (x.ports &&& y.ports) != 0 ||
        (x.qcount != 0 && y.qcount != 0 && x.qfirst < y.qfirst + y.qcount && y.qfirst < x.qfirst + x.qcount)

/-- R42, result 4: a field out of range, no hart, or an overlap of HBM. -/
def resRange (s : State) (p : Nat) (x : Part) : Bool :=
  x.harts == 0 || x.base % 1073741824 != 0 || x.size == 0 || x.size % 1073741824 != 0 || devBytes < x.base + x.size ||
    4096 < x.qfirst + x.qcount || (s.others p).any fun y => x.base < y.base + y.size && y.base < x.base + x.size

/-- R42: the number of clusters of a partition. -/
def clusterCount (x : Part) : Nat := ((List.range 32).filter fun c => x.clusters.getLsbD c).length

/-- R93, R261: a cluster joins a partition: in no pool; its counters are reset by creation. -/
def joinPart (reset : Bool) (s : State) (cl : Nat) : State :=
  s.modCluster cl fun c => { c with pool := none, joining := none, freeFor := 0, counters := if reset then [] else c.counters }

/-- R42: CREATE. Where several results apply, CREATE and the other commands give the lowest code: the model's choice (log 34,
DESIGN CHOICE). -/
def mbCreate (p : Nat) (s : State) : State :=
  let x := s.resPart { exists_ := true }
  if s.resReserved then s.mbEnd 1
  else if (s.part p).exists_ then s.mbEnd 2
  else if s.resTaken p x then s.mbEnd 3
  else if s.resRange p x then s.mbEnd 4
  else
    let s := { s with parts := s.parts.put p x }
    let s := ((List.range 32).filter fun c => x.clusters.getLsbD c).foldl (joinPart true) s
    ((s.measureMonitor).mbRes 0 (w64 (clusterCount x))).mbEnd 0

/-- R42, R36: MODIFY. A trap hart that an image has named stands while the partition owns it (log 34). Virtual cluster numbers are by the
new mask (R60 calls them stable and R42 lets the clusters be replaced: log 34, DESIGN CHOICE). -/
def mbModify (p : Nat) (s : State) : State :=
  let old := s.part p
  let x := s.resPart old
  if s.resReserved then s.mbEnd 1
  else if !old.exists_ then s.mbEnd 2
  else if s.resTaken p x then s.mbEnd 3
  else if s.resRange p x then s.mbEnd 4
  else if old.running then s.mbEnd 5
  else
    let y : Part := { x with trapHart := old.trapHart.filter fun h => x.harts.getLsbD h }
    let s := { s with parts := s.parts.put p y }
    let s := ((List.range 32).filter fun c => x.clusters.getLsbD c && !old.clusters.getLsbD c).foldl (joinPart false) s
    (s.mbRes 0 (w64 (clusterCount x))).mbEnd 0

/-- A hart in VS-mode at an address of its partition's image, with a0 and a1. -/
def Hart.image (x : Hart) (p : Nat) (pc a0 a1 : W64) : Hart :=
  (({ x with running := true, mode := .vs, part := some p, pc := pc }).xset 10 a0).xset 11 a1

/-- R42, R35: START: the image runs in VS-mode on its lowest hart. -/
def mbStart (p : Nat) (s : State) : State :=
  let x := s.part p
  let a := (s.mbArg 0).toNat
  if !x.exists_ then s.mbEnd 2
  else if a < x.base || x.base + x.size ≤ a then s.mbEnd 4
  else if x.running then s.mbEnd 5
  else
    let s := s.modHart (lowHart x.harts) fun h => Hart.image h p (s.mbArg 0) (w64 p) (s.mbArg 1)
    (s.modPart p fun x => { x with running := true }).mbEnd 0

/-- R42: a hart of a running image starts another of its harts through SBI HSM, with a0 its number and a1 as given (the
register convention is SBI's: PRESUMED, log 14). -/
def hsmStart (s : State) (caller target : Nat) (pc a1 : W64) : State :=
  let c := s.hart caller
  match c.part with
  | none => s
  | some p =>
    if c.running && c.mode == .vs && (s.part p).harts.getLsbD target && (s.hart target).released &&
        !(s.hart target).running then
      s.modHart target fun h => Hart.image h p pc (w64 target) a1
    else s

/-- A hart of an image stops, through SBI HSM; R45: with its partition. -/
def Hart.halted (x : Hart) : Hart := { x with running := false, mode := .hs, part := none }
def hsmStop (s : State) (h : Nat) : State :=
  if (s.hart h).part.isSome && (s.hart h).mode == .vs then s.modHart h Hart.halted else s

/-- R35: an image's hart enters VU-mode for a user process, or comes back. -/
def hartMode (s : State) (h : Nat) (user : Bool) : State :=
  if (s.hart h).part.isSome && (s.hart h).running then s.modHart h fun x => { x with mode := if user then .vu else .vs }
  else s

/-- The control and status register that a hart in a mode writes under a number: none where the number's privilege field is
above the mode or its access field says read-only; in VS-mode a supervisor number names the VS copy (PRESUMED, log 14: RISC-V's
privileged architecture, which R35 names by its profile). -/
def csrWritten (m : Priv) (n : Nat) : Option Nat :=
  let level := match m with
    | .hs => 2
    | .vs => 1
    | .vu => 0
  if 4096 ≤ n || n / 1024 == 3 || level < n / 256 % 4 then none
  else if m == .vs && [0x100, 0x104, 0x105, 0x140, 0x141, 0x142, 0x143, 0x144, 0x14D, 0x180].contains n then some (n + 0x100)
  else some n

/-- R35: an instruction of a hart writes one of its registers; which one and what is the hart's own matter, within what its
privilege level may write (log 14). -/
def hartReg (s : State) (h : Nat) (r : HartReg) (v : W64) : State :=
  if !(s.hart h).running then s
  else s.modHart h fun x =>
    match r with
    | .pc => { x with pc := v }
    | .x n => if 1 ≤ n && n < 32 then x.xset n v else x
    | .f n => if n < 32 then { x with f := x.f.set 0 n v } else x
    | .v n i => if n < 32 && i < 1024 then { x with v := x.v.set 0 (1024 * n + i) v } else x
    | .csr n => match csrWritten x.mode n with
      | some n => { x with csr := x.csr.set 0 n v }
      | none => x

/-- R35: a trap taken to VS-mode, or to HS-mode: the pc, the cause and its value are saved, the status register keeps the mode and
the interrupt enable, and the hart goes on at the vector. Registers, their bits and the vectored mode are those of RISC-V's
privileged architecture and its hypervisor extension, which R35 names (PRESUMED, log 14). -/
def Hart.trapped (x : Hart) (vs : Bool) (cause tval : W64) : Hart :=
  let n := fun (r : Nat) => if vs then r + 0x100 else r
  let get := fun (r : Nat) => x.csr.get (n r) 0
  let st := get 0x100
  let st' := (st &&& ~~~0x122) ||| (if st.getLsbD 1 then 0x20 else 0) ||| (if x.mode == .vu then 0 else 0x100)
  let base := get 0x105 &&& ~~~3
  let hst := x.csr.get 0x600 0
  let hst' := if x.mode == .hs then hst &&& ~~~0x80
    else (hst &&& ~~~0x180) ||| 0x80 ||| (if x.mode == .vs then 0x100 else 0)
  let csr := ((((x.csr.set 0 (n 0x100) st').set 0 (n 0x141) x.pc).set 0 (n 0x142) cause).set 0 (n 0x143) tval)
  { x with
    csr := if vs then csr else csr.set 0 0x600 hst'
    mode := if vs then .vs else .hs
    pc := if (get 0x105).getLsbD 0 && cause.getLsbD 63 then base + 4 * (cause &&& 0x7FFFFFFFFFFFFFFF) else base }
def hartTrap (s : State) (h : Nat) (vs : Bool) (cause tval : W64) : State :=
  let x := s.hart h
  if !x.running || (vs && x.mode == .hs) then s else s.modHart h fun x => Hart.trapped x vs cause tval

/-- R35: `sret`, from VS-mode by the VS registers, from HS-mode to where its trap came from; VU-mode has no such instruction
(PRESUMED, log 14). -/
def Hart.returned (x : Hart) : Hart :=
  let vs := x.mode == .vs
  let n := fun (r : Nat) => if vs then r + 0x100 else r
  let st := x.csr.get (n 0x100) 0
  let hst := x.csr.get 0x600 0
  let virt := vs || hst.getLsbD 7
  let st' := (st &&& ~~~0x122) ||| (if st.getLsbD 5 then 2 else 0) ||| 0x20
  let csr := x.csr.set 0 (n 0x100) st'
  { x with
    csr := if vs then csr else csr.set 0 0x600 (hst &&& ~~~0x80)
    mode := if !virt then .hs else if st.getLsbD 8 then .vs else .vu
    pc := x.csr.get (n 0x141) 0 }
def hartSret (s : State) (h : Nat) : State :=
  if !(s.hart h).running || (s.hart h).mode == .vu then s else s.modHart h Hart.returned

/-- R35: a load of n bytes, at most 8, of device memory into x[rd], coherent with L2 (PRESUMED, log 14). -/
def hartLoad (s : State) (h rd pa n : Nat) (signed : Bool) : State :=
  let v := leNat (s.devRead pa n)
  s.hartReg h (.x rd) (w64 (if signed && n < 8 && pow2 (8 * n - 1) ≤ v then v + pow2 64 - pow2 (8 * n) else v))

/-- R13: a hart reads the mask of enabled clusters (how it does so is not stated: log 14). -/
def hartMask (s : State) (h rd : Nat) : State := s.hartReg h (.x rd) (s.fuses.enabled.setWidth 64)

/-- R42: STOP: the command ends when R45 is complete. -/
def mbStop (p : Nat) (s : State) : State :=
  let x := s.part p
  if !x.exists_ then s.mbEnd 2
  else if !x.running then s.mbEnd 0
  else s.modPart p fun x => { x with stopping := true }

/-- R42: DELETE. -/
def mbDelete (p : Nat) (s : State) : State :=
  let x := s.part p
  if !x.exists_ then s.mbEnd 2
  else if x.running then s.mbEnd 5
  else
    let s := s.unpin (x.page.ringPages ++ x.page.trcPages ++ x.page.sampPages)
    let s := { s with parts := s.parts.erase p }
    let s := ((List.range 32).filter fun c => x.clusters.getLsbD c).foldl
      (fun s cl => s.modCluster cl fun c => { c with pool := none, joining := none }) s
    (s.measureMonitor).mbEnd 0

/-- R42: SETWIN. -/
def mbSetwin (p : Nat) (s : State) : State :=
  let v := s.mbArg 0
  if v.bits 63 40 != 0 then s.mbEnd 1
  else if !(s.part p).exists_ then s.mbEnd 2
  else if v.bits 15 0 != 0 then s.mbEnd 4
  else { s with pfWbase := v }.mbEnd 0

/-- R42: QUERY. -/
def mbQuery (p : Nat) (s : State) : State :=
  let x := s.part p
  let st := if !x.exists_ then 0 else if x.running then 2 else 1
  let s := (s.mbRes 0 (w64 st)).mbRes 1 (if x.exists_ then x.clusters.setWidth 64 else 0)
  let s := s.mbRes 2 (if x.exists_ then x.blkacc else 0)
  (s.mbRes 3 (if x.exists_ then w64 (x.harts.toNat + 65536 * s.trapHartOf p) else 0)).mbEnd 0

/-- R42: MBCMD written: with GO a command starts, unless one is in progress. -/
def mbcmdWrite (s : State) (v : W64) : State :=
  if v.getLsbD 0 && s.mb.busy then s
  else
    let m := { s.mb with cmd := v.extractLsb' 56 8, part := v.extractLsb' 48 3 }
    if v.getLsbD 0 then
      { s with mb := { m with busy := true, runs := m.cmd, runsPart := m.part.toNat
                              rsv := v.bits 55 51 != 0 || v.bits 47 2 != 0 } }
    else { s with mb := m }

/-- R42: a register of the mailbox written. -/
def mbWrite (s : State) (off : Nat) (v : W64) : State :=
  if off == 0 then s.mbcmdWrite v
  else if off == 8 then { s with mb := { s.mb with done := s.mb.done && !v.getLsbD 0 } }
  else if off % 8 == 0 && 0x10 ≤ off && off < 0x50 then { s with mb := { s.mb with args := s.mb.args.put ((off - 0x10) / 8) v } }
  else s

/-- R42: a register of the mailbox as it reads. -/
def mbRead (s : State) (off : Nat) : W64 :=
  if off == 0 then w64 (s.mb.cmd.toNat * pow2 56 + s.mb.part.toNat * pow2 48 + 2 * bit s.mb.busy)
  else if off == 8 then w64 (s.mb.result.toNat * 256 + bit s.mb.done)
  else if off % 8 != 0 then 0
  else if 0x10 ≤ off && off < 0x50 then s.mbArg ((off - 0x10) / 8)
  else if 0x50 ≤ off && off < 0x70 then s.mb.res.get ((off - 0x50) / 8) 0
  else 0

/-! ### Stopping a partition (R45) -/

/-- The grids of a partition. -/
def gridsOf (s : State) (p : Nat) : List Nat := (s.grids.filter fun e => e.2.part == p).map Prod.fst

/-- R45, step 1: the teams and the units of a partition's grids: a team is discarded once its groups have come to the ends of
their runs, and a moving team when its pause has ended; what an exited team left in the side log, in the float-atomic buffer and in
the engines is dropped too (R157); true when the step is complete. -/
def stopWork (s : State) (p : Nat) : State × Bool :=
  let gs := s.gridsOf p
  let mine := (s.teams.filter fun e => gs.contains (e.1 / 1048576)).map Prod.fst
  let s := mine.foldl (fun s tk =>
    if s.teamRuns tk then s
    else
      match (s.team tk).st with
      | .pending | .moving => s
      | .exited => s.dropWork tk
      | _ => (s.breakSwap (coreKey (s.team tk).cl (s.team tk).co)).discardAll tk) s
  if mine.any fun tk => s.teamRuns tk || (s.team tk).st == .moving then (s, false)
  else
    let s := (s.clusters.map Prod.fst).foldl (fun s cl =>
      let s := if (s.sfa cl).owner.any gs.contains then s.sfaEnd cl else s
      if (s.carafe cl).cfg.any fun c => gs.contains c.grid then s.carafeEnd cl else s) s
    (s, gs.all fun g => !s.gridBusy g)

/-- R45, steps 2 to 4, and the harts. A trap hart that the image has named stands for the next image: the model's choice (log
34, DESIGN CHOICE). -/
def stopFinish (s : State) (p : Nat) : State :=
  let s := (s.gridsOf p).foldl dropGrid s
  let qs := (s.queues.filter fun e => e.2.ownv && e.2.part == p).map Prod.fst
  let s := qs.foldl queueOff s
  let s := ((List.range 48).filter fun n => (s.part p).ports.getLsbD n).foldl portOff s
  let s := ((List.range 16).filter fun h => (s.hart h).part == some p).foldl (fun s h => s.modHart h Hart.halted) s
  let s := s.modPart p fun x => { x with running := false, stopping := false }
  (s.modPage p fun y => { y with pmLeft := [], trapq := [], hbusy := false }).pmSettle p

/-- R45: a stop proceeds; with its last step the STOP command ends. -/
def partitionStopped (s : State) (p : Nat) : State :=
  if !(s.part p).stopping then s
  else
    let r := s.stopWork p
    if !r.2 then r.1
    else
      let s := r.1.stopFinish p
      if s.mb.busy && s.mb.runs == 4 && s.mb.runsPart == p then s.mbEnd 0 else s

/-! ### The services of an image (R43) -/

/-- R43: a call of an image's hart in VS-mode, by `ecall`: a7 (x17) holds the extension id, and a6 (x16) the function id, for
which `fid` stands. -/
def sbi (s : State) (h : Nat) (fid : W64 → Bool) (f : Nat → State → State) : State :=
  let x := s.hart h
  match x.part with
  | some p => if x.running && x.mode == .vs && x.x.get 17 0 == 0x09533941 && fid (x.x.get 16 0) then f p s else s
  | none => s

/-- R43: a call of the function `n`, with its argument in a0 (x10). -/
def sbiCall (s : State) (n : Nat) (f : W64 → Nat → State → State) : State :=
  s.sbi s.ev.hart (· == w64 n) (f ((s.hart s.ev.hart).x.get 10 0))

/-- R43: the answer of a call: an error code in a0 and a value in a1 of the hart that called. -/
def sbiAnswer (s : State) (e : Int) (v : W64) : State :=
  (s.modHart s.ev.hart fun x => (x.xset 10 (BitVec.ofInt 64 e)).xset 11 v).answer (.sbi e v)

/-- R43: the answer of a call that failed: the value in a1 is not stated (log 11). -/
def sbiFail (s : State) (e : Int) : State :=
  let (i, s) := s.freeIdx
  s.sbiAnswer e (Config.freeWord i)

/-- R43: GET_INFO. -/
def sbiInfo (sel : W64) (p : Nat) (s : State) : State :=
  let x := s.part p
  let ok := fun (v : Nat) => s.sbiAnswer 0 (w64 v)
  match sel.toNat with
  | 0 => ok x.base
  | 1 => ok x.size
  | 2 => ok (clusterCount x)
  | 3 => ok x.harts.toNat
  | 4 => ok (x.qfirst + x.qcount * 65536)
  | 5 => ok x.ports.toNat
  | 6 => ok p
  | _ => s.sbiFail (-3)

/-- R43, R151: SET_ROOT. -/
def sbiRoot (a : W64) (p : Nat) (s : State) : State :=
  if a.toNat % 16384 != 0 || !s.inHbm p a.toNat 16384 then s.sbiFail (-5)
  else ((s.modPart p fun x => { x with root := some a.toNat }).tlbDrop p fun _ => true).sbiAnswer 0 0

/-- R43: SET_TRAP_HART. -/
def sbiTrapHart (a : W64) (p : Nat) (s : State) : State :=
  if 16 ≤ a.toNat || !(s.part p).harts.getLsbD a.toNat then s.sbiFail (-3)
  else (s.modPart p fun x => { x with trapHart := some a.toNat }).sbiAnswer 0 0

/-- R43: SET_WBASE. -/
def sbiWbase (a : W64) (p : Nat) (s : State) : State :=
  if a.bits 15 0 != 0 || a.bits 63 57 != 0 then s.sbiFail (-3)
  else (s.modPart p fun x => { x with wbase := a }).sbiAnswer 0 0

/-- R43: GET_BLKACC. -/
def sbiBlkacc (p : Nat) (s : State) : State := s.sbiAnswer 0 (s.part p).blkacc

end State

/-- CREATE (R42). -/
def execCreate (s : State) : Host.Outcome State Fault Refusal := .next (s.mbRun 1 State.mbCreate)
/-- MODIFY (R42). -/
def execModify (s : State) : Host.Outcome State Fault Refusal := .next (s.mbRun 2 State.mbModify)
/-- START (R42). -/
def execStart (s : State) : Host.Outcome State Fault Refusal := .next (s.mbRun 3 State.mbStart)
/-- STOP (R42). -/
def execStop (s : State) : Host.Outcome State Fault Refusal := .next (s.mbRun 4 State.mbStop)
/-- PARTITION_STOPPED (R45). -/
def execPartitionStopped (s : State) : Host.Outcome State Fault Refusal := .next (s.partitionStopped s.ev.p)
/-- DELETE (R42). -/
def execDelete (s : State) : Host.Outcome State Fault Refusal := .next (s.mbRun 5 State.mbDelete)
/-- SETWIN (R42). -/
def execSetwin (s : State) : Host.Outcome State Fault Refusal := .next (s.mbRun 6 State.mbSetwin)
/-- QUERY (R42). -/
def execQuery (s : State) : Host.Outcome State Fault Refusal := .next (s.mbRun 7 State.mbQuery)
/-- MAILBOX_UNKNOWN_CMD (R42). -/
def execMailboxUnknownCmd (s : State) : Host.Outcome State Fault Refusal :=
  .next (if s.monitorUp && s.mb.busy && (s.mb.runs == 0 || 7 < s.mb.runs.toNat) then s.mbEnd 1 else s)

/-- GET_INFO (R43). -/
def execGetInfo (s : State) : Host.Outcome State Fault Refusal := .next (s.sbiCall 0 State.sbiInfo)
/-- SET_ROOT (R43). -/
def execSetRoot (s : State) : Host.Outcome State Fault Refusal := .next (s.sbiCall 1 State.sbiRoot)
/-- SET_TRAP_HART (R43). -/
def execSetTrapHart (s : State) : Host.Outcome State Fault Refusal := .next (s.sbiCall 2 State.sbiTrapHart)
/-- SET_WBASE (R43). -/
def execSetWbase (s : State) : Host.Outcome State Fault Refusal := .next (s.sbiCall 3 State.sbiWbase)
/-- GET_BLKACC (R43). -/
def execGetBlkacc (s : State) : Host.Outcome State Fault Refusal := .next (s.sbiCall 4 fun _ => State.sbiBlkacc)
/-- SBI_UNKNOWN_FUNCTION (R43). -/
def execSbiUnknownFunction (s : State) : Host.Outcome State Fault Refusal :=
  .next (s.sbi s.ev.hart (fun n => 4 < n.toNat) fun _ s => s.sbiFail (-2))

/-- QUEUE_ENABLE (R51). -/
def execQueueEnable (s : State) : Host.Outcome State Fault Refusal :=
  .next (if s.ev.v.getLsbD 0 && !(s.queue s.ev.q).en then s.queueAccess s.ev.fn s.ev.q fun s => s.qd0Write s.ev.q s.ev.v else s)
/-- QUEUE_DISABLE (R50, R413). -/
def execQueueDisable (s : State) : Host.Outcome State Fault Refusal :=
  .next (if !s.ev.v.getLsbD 0 && (s.queue s.ev.q).en then s.queueAccess s.ev.fn s.ev.q fun s => s.qd0Write s.ev.q s.ev.v else s)
/-- DOORBELL (R52). -/
def execDoorbell (s : State) : Host.Outcome State Fault Refusal := .next (s.doorbell s.ev.fn s.ev.q s.ev.off s.ev.v)

end Sys2Proof.Machine
end

