-- ==== Sys2Proof/Machine/Power.lean ====
section
/-! DEFINITION. Power, rails, temperature and the sideband (R16 to R26). -/

namespace Sys2Proof.Machine
namespace State

/-- R22: the operating maximum and the trip temperature, in 0.25 °C. -/
def maxTemp (s : State) : Int := if s.fuses.rGrade then 360 else 400
def tripTemp (s : State) : Int := if s.fuses.rGrade then 440 else 460

/-- R22: the maximum temperature of an HBM stack. -/
def hbmMax (s : State) : Int := if s.fuses.rGrade then 340 else 380

/-- R13: the enabled clusters. -/
def enabledClusters (s : State) : List Nat := (List.range 32).filter fun c => s.fuses.enabled.getLsbD c

/-- R22: the readings of the cores of the device. -/
def coreTemps (s : State) : List Int := s.enabledClusters.flatMap fun c => (s.cluster c).temps

/-- R22: every sensor's reading: cores, 64 L2 slices, 8 HBM stacks. -/
def allTemps (s : State) : List Int :=
  s.coreTemps ++ ((List.range 64).map fun i => s.power.l2Temp.get i 0) ++ (List.range 8).map fun i => s.power.hbmTemp.get i 0

/-- The highest of some readings. -/
def highest : List Int → Int
  | [] => 0
  | [a] => a
  | a :: l => if highest l < a then a else highest l
/-- The lowest of some readings. -/
def lowest : List Int → Int
  | [] => 0
  | [a] => a
  | a :: l => if a < lowest l then a else lowest l

/-- R26: bits of ALERT set. -/
def alert (s : State) (m : BitVec 3) : State := { s with power := { s.power with alert := s.power.alert ||| m } }

/-- R26: SMB_ALERT_N is low while any bit of ALERT is set. -/
def smbAlertN (s : State) : Bool := s.power.alert == 0

/-- R22: the limit of a sensor's table row: the operating maximum on the dies, the maximum of an HBM stack. -/
def limitOf (s : State) : Sensor → Int
  | .core _ _ => s.maxTemp
  | .l2 _ => s.maxTemp
  | .hbm _ => s.hbmMax

/-- R22, R23, R26: a reading of a sensor; a core at the operating maximum makes the barometer hold BUDGET at 3, and at a
sensor's limit ALERT bit 0 is set (which limits count is the model's reading, log 15). -/
def setTemp (s : State) (k : Sensor) (v : Int) : State :=
  let s := match k with
    | .core cl co =>
      let held := s.maxTemp ≤ v
      s.modCluster cl fun c =>
        { c with temps := c.temps.set co v, thold := c.thold || held, budget := if held then 3 else c.budget }
    | .l2 i => { s with power := { s.power with l2Temp := s.power.l2Temp.put i v } }
    | .hbm i => { s with power := { s.power with hbmTemp := s.power.hbmTemp.put i v } }
  if s.limitOf k ≤ v then s.alert 1 else s

/-- R20, R37: PWR_OK high: the device leaves reset, and hart 0 runs the boot ROM. -/
def powerOn (s : State) : State :=
  if s.power.pwrOk then s
  else
    { s with
      power := { s.power with pwrOk := true, clocksOn := true, state := 1 }
      boot := { s.boot with phase := 1 }
      harts := s.harts.put 0 { released := true, running := true } }

/-- R21: the device stops its clocks and holds itself in reset until PWR_OK has been low. -/
def holdReset (s : State) (code : BitVec 8) : State := { s with power := { s.power with clocksOn := false, state := code } }

/-- R21: a rail below 90 % of its nominal value while PWR_OK is high. R19: a rail that was commanded off is not meant. -/
def railFault (s : State) (r : Rail) : State :=
  let off := match r with
    | .vcore c => s.power.regOff.getLsbD c
    | _ => false
  if !s.power.pwrOk || off then s
  else
    let s := (s.holdReset 3).alert 2
    { s with power := { s.power with faultN := false } }

/-- R21: no state survives power-down; the fuses, the address pins, the image slot's flash and what lies outside the device
are not its state. -/
def powerDown (s : State) : State :=
  { State.reset with
    fuses := s.fuses, power := { smbAddr := s.power.smbAddr }, boot := { slot := s.boot.slot }, hostMem := s.hostMem, msgs := s.msgs, nextId := s.nextId, free := s.free
    agenda := s.agenda, ev := s.ev }

/-- R23: a core sensor at the operating maximum: the barometer holds BUDGET at 3. -/
def thermalHold (s : State) (cl co : Nat) (v : Int) : State := if s.maxTemp ≤ v then s.setTemp (.core cl co) v else s

/-- R23: the hold ends. -/
def thermalHoldEnd (s : State) (cl : Nat) : State :=
  if (s.cluster cl).temps.all fun v => v ≤ s.maxTemp - 12 then s.modCluster cl fun c => { c with thold := false } else s

/-- R23: a sensor at the trip temperature: THERMTRIP_N, and what R21 does: FAULT_N, no clocks, held in reset. -/
def thermalTrip (s : State) (k : Sensor) (v : Int) : State :=
  if s.tripTemp ≤ v then
    let s := ((s.setTemp k v).holdReset 4).alert 3
    { s with power := { s.power with thermTripN := false, faultN := false } }
  else s

/-- R23: the spread of the core temperatures is above 15 °C. -/
def spreadHigh (s : State) : Bool := 60 < highest s.coreTemps - lowest s.coreTemps

/-- R23: a spread that has lasted more than 1 s on an -R part is reported, once; it is a limit of R22 reached (log 15). -/
def thermalEvent (s : State) : State :=
  if s.fuses.rGrade && s.spreadHigh && 1000000000 < s.power.spreadFor && !s.power.spreadTold then
    { s with power := { s.power with thermEvents := s.power.thermEvents + 1, spreadTold := true } }.alert 1
  else s

/-! ### The sideband (R26) -/

/-- R26: one step of SMBus's CRC-8 (x^8 + x^2 + x + 1), most significant bit first (PRESUMED, log 15). -/
def pecStep : Nat → Byte → Byte
  | 0, c => c
  | n + 1, c => pecStep n (if c.getLsbD 7 then (c <<< 1) ^^^ 0x07 else c <<< 1)

/-- R26: the packet error code of the bytes of a transfer. -/
def smbPec (bs : List Byte) : Byte := bs.foldl (fun c b => pecStep 8 (c ^^^ b)) 0

/-- R26: the device's 7-bit address. -/
def smbSelf (s : State) : BitVec 7 := 0x60 + s.power.smbAddr.setWidth 7

/-- R26: a transfer addressed to the device takes its effect; another is not the device's. -/
def smbFor (s : State) (f : State → State) : State := if s.ev.smbTo == s.smbSelf then f s else s

/-- R26: a read of a code of `n` bytes, by the byte-read, word-read or (4 bytes, with their count) block-read protocol: the
value, and the packet error code over the whole transfer. -/
def smbRead (s : State) (code : Byte) (n : Nat) (v : W64) : State :=
  s.smbFor fun s =>
    let a : Byte := s.smbSelf.setWidth 8 <<< 1
    let body := (if n == 4 then [4#8] else []) ++ leBytes n v.toNat
    { s with power := { s.power with pec := smbPec ([a, code, a ||| 1] ++ body) } }.answer (.value v)

/-- R26: is the packet error code that came with a write of one byte right, or absent. -/
def pecRight (s : State) (code b : Byte) : Bool :=
  s.ev.pec.all fun c => c == smbPec [s.smbSelf.setWidth 8 <<< 1, code, b]

/-- R26: IDENT. -/
def identCode (s : State) : W64 :=
  (if s.fuses.grade28 then 0x5339001C else 0x53390020) ||| (if s.fuses.rGrade then 0x80000000 else 0)

/-- R26: TMAX, 16 bits signed. -/
def tmaxCode (s : State) : W64 := (BitVec.ofInt 16 (highest s.allTemps)).setWidth 64

end State

/-- PWR_OK_HIGH (R20). -/
def execPwrOkHigh (s : State) : Host.Outcome State Fault Refusal := .next s.powerOn

/-- PERST_N_DEASSERT (R20). -/
def execPerstNDeassert (s : State) : Host.Outcome State Fault Refusal :=
  .next (if s.power.pwrOk then { s with power := { s.power with perstOff := true, pcieUp := true } } else s)

/-- RAIL_FAULT (R21). -/
def execRailFault (s : State) : Host.Outcome State Fault Refusal := .next (s.railFault s.ev.rail)

/-- POWER_DOWN (R21). -/
def execPowerDown (s : State) : Host.Outcome State Fault Refusal := .next s.powerDown

/-- THERMAL_HOLD (R23). -/
def execThermalHold (s : State) : Host.Outcome State Fault Refusal := .next (s.thermalHold s.ev.cl s.ev.co s.ev.reading)

/-- THERMAL_HOLD_END (R23). -/
def execThermalHoldEnd (s : State) : Host.Outcome State Fault Refusal := .next (s.thermalHoldEnd s.ev.cl)

/-- THERMAL_TRIP (R23). -/
def execThermalTrip (s : State) : Host.Outcome State Fault Refusal := .next (s.thermalTrip s.ev.sensor s.ev.reading)

/-- THERMAL_EVENT (R23). -/
def execThermalEvent (s : State) : Host.Outcome State Fault Refusal := .next s.thermalEvent

/-- SVB_NAK (R18, R26). -/
def execSvbNak (s : State) : Host.Outcome State Fault Refusal := .next (s.alert 4)

/-- IDENT (R26). -/
def execIdent (s : State) : Host.Outcome State Fault Refusal := .next (s.smbRead 0 4 s.identCode)

/-- STATE (R26). -/
def execStateCode (s : State) : Host.Outcome State Fault Refusal := .next (s.smbRead 1 1 (s.power.state.setWidth 64))

/-- TMAX (R26). -/
def execTmax (s : State) : Host.Outcome State Fault Refusal := .next (s.smbRead 2 2 s.tmaxCode)

/-- PWR (R26). -/
def execPwr (s : State) : Host.Outcome State Fault Refusal := .next (s.smbRead 3 2 (s.power.watts.setWidth 64))

/-- PWR_REFRESH (R26): every 1 ms. -/
def execPwrRefresh (s : State) : Host.Outcome State Fault Refusal :=
  .next (if s.cleElapsed % 1000000 == 0 then { s with power := { s.power with watts := s.ev.w16 } } else s)

/-- CLMASK (R26). -/
def execClmask (s : State) : Host.Outcome State Fault Refusal := .next (s.smbRead 4 4 (s.fuses.enabled.setWidth 64))

/-- ALERT (R26): a read answers the flags; a write clears those it names; one with a wrong packet error code is NAKed. -/
def execAlertReg (s : State) : Host.Outcome State Fault Refusal :=
  .next (match s.ev.wr with
    | none => s.smbRead 5 1 (s.power.alert.setWidth 64)
    | some b => s.smbFor fun s =>
      if s.pecRight 5 b then { s with power := { s.power with alert := s.power.alert &&& ~~~(b.extractLsb' 0 3) } }
      else s.answer .nak)

/-- SMB_UNKNOWN_CODE (R26): any other code, or a write to a read-only one. -/
def execSmbUnknownCode (s : State) : Host.Outcome State Fault Refusal :=
  .next (s.smbFor fun s => if 5 < s.ev.code.toNat || (s.ev.flag && s.ev.code != 5) then s.answer .nak else s)

end Sys2Proof.Machine
end

