-- ==== Sys2Proof/Machine/Sched.lean ====
section
/-! DEFINITION. The dispatcher (R60 to R73), range-task splitting (R79), `yieldt` (R431), operating classes, pools and boost
(R91 to R95). -/

namespace Sys2Proof.Machine
namespace State

/-! ### Heads -/

/-- R72: is a grid held by SER, by its parent, or ending; a partition that stops places nothing (R45). -/
def gridHeld (s : State) (r : Grid) : Bool :=
  let live := fun (x : Option Nat) => x.any fun g => (s.grids.find g).isSome
  live r.parent || live r.after || r.ending || (s.part r.part).stopping

/-- R71: the lowest held team that has not started. -/
def heldPending (s : State) (g : Nat) : Option Nat :=
  ((s.teams.find? fun e => e.1 / 1048576 == g && e.2.st == .pending && e.2.held).map Prod.fst).map (· % 1048576)

/-- R65, R71, R73: may the dispatcher place or restore a team. -/
def eligible (s : State) (g t : Nat) : Bool :=
  let x := s.team (teamKey g t)
  (x.st == .pending || x.st == .saved) && !x.held &&
    !((s.grid g).det && (s.heldPending g).any fun h => h < t)

/-- R65: the head of a grid. -/
def headTeam (s : State) (g : Nat) : Option Nat :=
  (List.range (s.grid g).nteams).find? fun t => s.eligible g t

/-- R69, R70: the head as it stands; a new head's counts start at zero. -/
def headUpdate (s : State) (g : Nat) : State :=
  let h := s.headTeam g
  if h == (s.grid g).head then s
  else s.modGrid g fun r => { r with head := h, passed := 0, draining := false, headWait := 0 }

/-- R61: the teams of cohort c that may be placed or restored. -/
def cohortTeams (s : State) (g c : Nat) : List Nat :=
  let r := s.grid g
  ((List.range (Nat.min (c * r.coh + r.coh) r.nteams - c * r.coh)).map (c * r.coh + ·)).filter fun t => s.eligible g t

/-! ### Fit (R64) -/

/-- R93: the clusters of a partition's class pool, ascending. -/
def poolOf (s : State) (p c : Nat) : List Nat :=
  (List.range 32).filter fun cl => (s.part p).clusters.getLsbD cl && (s.cluster cl).pool == some c

/-- R64, R66: the registers of each group of a team that takes rows: the launch budget, or a saved team's current one. -/
def teamBudgets (s : State) (g t : Nat) : List (Nat × Nat) :=
  let r := s.grid g
  let tk := teamKey g t
  ((List.range r.ngroups).filter fun n => !((s.team tk).st == .saved && (s.group (tk * 32 + n)).gone)).map fun n =>
    (n, if (s.team tk).st == .saved
        then 8 * leNat (s.imgRead tk (imageGroup (tk * 32 + n) + 0x6FB) 1)
        else r.budget n)

/-- R64: free register bytes of a quadrant for a grid's partition word. -/
def rowsFor (s : State) (r : Grid) (qk : Nat) : Nat := rfQuarter r.pword - s.rowsUsed qk

/-- R125: is a core in a swap. -/
def inSwap (s : State) (k : Nat) : Bool := (s.cluster (k / 6)).swap.any fun w => w.hot == k % 6 || w.cool == k % 6

/-- R64: does a team fit on a core. -/
def fitsCore (s : State) (g t k : Nat) : Bool :=
  let r := s.grid g
  let w := (s.core k).pword
  let b := s.startQuad k
  let need := s.teamBudgets g t
  let on := s.coreTeams k
  let mine := fun d => need.filter fun e => (b + e.1) % 4 == d
  (w.isNone || w == some r.pword) && !s.inSwap k &&
    ((List.range 4).all fun d =>
      (s.quad (4 * k + d)).slots.length + (mine d).length ≤ 24 &&
        ((mine d).map fun e => 512 * e.2).foldl (· + ·) 0 ≤ s.rowsFor r (4 * k + d)) &&
    r.alloc + (on.map fun tk => (s.grid (tk / 1048576)).alloc).foldl (· + ·) 0 ≤ spadShare r.pword &&
    4096 * (r.acct + (on.map fun tk => (s.grid (tk / 1048576)).acct).foldl (· + ·) 0) ≤ accShare r.pword

/-- R64: the carafe and the field array of a cluster admit a grid. -/
def unitsAdmit (s : State) (g cl : Nat) : Bool :=
  let hasC := s.clusters.any fun e => e.2.carafe.cfg.any fun c => c.grid == g
  let hasS := s.clusters.any fun e => e.2.sfa.owner == some g
  (!hasC || ((s.carafe cl).cfg.all fun c => c.grid == g)) && (!hasS || ((s.sfa cl).owner.all fun o => o == g))

/-- R69: could a grid's head use a core. -/
def usable (s : State) (g k : Nat) : Bool :=
  let w := (s.core k).pword
  let r := s.grid g
  (w.isNone || w == some r.pword) && (s.poolOf r.part r.opcls).contains (k / 6)

/-- R69: does another grid's forced drain keep a core free. Of two draining heads, the earlier grid's goes first. -/
def reserved (s : State) (g k : Nat) : Bool :=
  let r := s.grid g
  s.grids.any fun e =>
    e.1 != g && e.2.part == r.part && e.2.opcls == r.opcls && e.2.draining && s.usable e.1 k &&
      (!r.draining || e.2.order < r.order)

/-- Free register bytes of a core for a grid. -/
def coreFree (s : State) (r : Grid) (k : Nat) : Nat := ((List.range 4).map fun d => s.rowsFor r (4 * k + d)).foldl (· + ·) 0

/-- R67: the core of a cluster for a team: the most free register bytes, the lowest number on a tie. -/
def chooseCore (s : State) (g t cl : Nat) : Option Nat :=
  let r := s.grid g
  let l := ((List.range 6).map fun co => coreKey cl co).filter fun k => s.fitsCore g t k && !s.reserved g k
  l.foldl (fun (b : Option Nat) k =>
    match b with
    | none => some k
    | some a => if s.coreFree r a < s.coreFree r k then some k else b) none

/-- R67, R129: a team placed or restored in a cluster. R133 makes a discarded team wait until no delivery is outstanding: that a
pending team which has not been placed before waits too is the model's choice (log 31, DESIGN CHOICE). -/
def putTeam (s : State) (g t cl : Nat) : Option State :=
  let x := s.team (teamKey g t)
  match s.chooseCore g t cl with
  | none => none
  | some k =>
    if x.st == .saved then some (s.beginRestore (teamKey g t) cl (k % 6))
    else if x.deliveries != 0 then none
    else some ((s.placeTeam g t cl (k % 6)).recheckTeam (teamKey g t))

/-- R64, R67: a cohort's teams placed in a cluster, each after the earlier ones. -/
def putCohort (s : State) (g cl : Nat) : List Nat → Option State
  | [] => some s
  | t :: rest =>
    match s.putTeam g t cl with
    | none => none
    | some s => s.putCohort g cl rest

/-- R66: is a saved team of a cohort of one kept at its home cluster. -/
def bound (s : State) (g t : Nat) : Bool :=
  let tk := teamKey g t
  let r := s.grid g
  let cl := (s.team tk).cl
  ((List.range r.ngroups).any fun n =>
    (List.range 8).any fun k => leNat (s.imgRead tk (imageGroup (tk * 32 + n) + 0x700 + k) 1) != 0) ||
  ((s.cluster cl).tasks.any fun x => x.owner / 32 == tk && x.cur < x.hi) ||
  (s.sfa cl).owner == some g && (s.sfa cl).queue.any fun c => c.g == g && c.t == t

/-- R61, R66: the clusters that a cohort may go to. -/
def cohortClusters (s : State) (g c : Nat) : List Nat :=
  let r := s.grid g
  let pool := s.poolOf r.part r.opcls
  match s.homeOf g c with
  | none => pool
  | some h =>
    let t := c * r.coh
    if r.coh == 1 && (s.team (teamKey g t)).st == .saved && !s.bound g t then pool else pool.filter fun cl => cl == h

/-- R67: a cohort of a grid placed in the lowest cluster where it fits. -/
def placeCohort (s : State) (g c : Nat) : Option State :=
  let l := s.cohortTeams g c
  if l.isEmpty then none
  else ((s.cohortClusters g c).filter fun cl => s.unitsAdmit g cl).findSome? fun cl => s.putCohort g cl l

/-! ### A decision -/

/-- The cores that gained a team between two states. -/
def gained (s t : State) : List Nat :=
  distinct ((t.teams.filter fun e =>
    (e.2.st == .resident || e.2.st == .restoring) && (s.team e.1).st != e.2.st).map fun e => coreKey e.2.cl e.2.co)

/-- R65: the grids of a grid's partition and class pool. -/
def poolGrids (s : State) (r : Grid) : List Nat :=
  (s.grids.filter fun e => e.2.part == r.part && e.2.opcls == r.opcls).map Prod.fst

/-- R69: the pass-over counts after a placement of grid g: of every waiting head that could use one of the cores. -/
def passOver (s : State) (g : Nat) (own : Bool) (cores : List Nat) (t : State) : State :=
  let r := s.grid g
  let bump := fun (e : Nat × Grid) =>
    let x := e.2
    if x.part == r.part && x.opcls == r.opcls && x.head.isSome && !s.gridHeld x && (own || e.1 != g) &&
        cores.any fun k => s.usable e.1 k
    then
      let n := x.passed + 1
      (e.1, { x with passed := n, draining := x.draining || x.age ≤ n })
    else e
  { t with grids := t.grids.map bump }

/-- R68, R72: the first later cohort of a grid that fits. -/
def laterCohort (s : State) (g c : Nat) : Option State :=
  let r := s.grid g
  ((List.range (ceilDiv r.nteams r.coh)).filter fun d => c < d).findSome? fun d => s.placeCohort g d

/-- R65, R72: the placement that the dispatcher would make for a grid, with the pass-overs that it counts; none when the
table's row says nothing. -/
def decision (s : State) (g : Nat) : Option State :=
  let r := s.grid g
  if s.gridHeld r then none
  else
    match r.head with
    | none => none
    | some h =>
      match s.placeCohort g (r.cohort h) with
      | some t => some (s.passOver g false (s.gained t) t)
      | none =>
        if r.det || r.draining then none
        else (s.laterCohort g (r.cohort h)).map fun t => s.passOver g true (s.gained t) t

/-- R65: is a grid's turn at a decision: no grid of its partition and pool accepted earlier has a cohort to place. -/
def myTurn (s : State) (g : Nat) : Bool :=
  let r := s.grid g
  (s.poolGrids r).all fun e => (s.grid e).order ≥ r.order || (s.decision e).isNone

/-- R65, R72: one decision about a grid: the heads of its partition and pool as they stand, the placement, and the heads
that it leaves. -/
def dispatch (s : State) (g : Nat) : State :=
  if (s.grids.find g).isNone then s
  else
    let gs := s.poolGrids (s.grid g)
    let s := gs.foldl headUpdate s
    if !s.myTurn g then s
    else
      match s.decision g with
      | some t => (gs.foldl headUpdate t).recheckAll
      | none => s

/-! ### Index-order eviction (R70) -/

/-- R70: does the head cohort of a grid fit now. That a cohort which meets R64's table and is kept off its cores by another grid's
reservation (R69), by a draft swap (R125) or by outstanding deliveries (R133) does not fit is the model's choice (log 31, DESIGN
CHOICE). -/
def headFits (s : State) (g : Nat) : Bool :=
  match (s.grid g).head with
  | none => true
  | some h => (s.placeCohort g ((s.grid g).cohort h)).isSome

/-- R70: teams that eviction may save: on each core in turn that the head could use, those above the head, highest first. -/
def evictable (s : State) (g h : Nat) : List Nat :=
  let r := s.grid g
  let cls := s.cohortClusters g (r.cohort h)
  (cls.flatMap fun cl => (List.range 6).map fun co => coreKey cl co).flatMap fun k =>
    if s.usable g k && !s.inSwap k then
      ((s.coreTeams k).filter fun tk => tk / 1048576 == g && h < tk % 1048576 && (s.team tk).st == .resident).reverse
    else []

/-- R70: one team saved for a head that has waited 100 µs; the next after a further 100 µs. -/
def evictFor (s : State) (g : Nat) : State :=
  match s.grids.find g with
  | none => s
  | some r0 =>
    if s.gridHeld r0 then s
    else
      let s := s.headUpdate g
      let r := s.grid g
      match r.head with
      | none => s
      | some h =>
        if r.headWait < 100000 || s.headFits g then s
        else
          let l := s.evictable g h
          let t := s.saveFirst .eviction l
          if l.any fun tk => (t.team tk).st == .saving then t.modGrid g fun r => { r with headWait := 0 } else t

/-! ### Range tasks (R79) -/

/-- R79: the groups of a grid that ask a core for work, when the core is idle for the grid. -/
def askers (s : State) (k g : Nat) : List Nat :=
  let gs := (s.groupsOfCore k).filter fun gk => grpKeyGrid gk == g && (s.team (gk / 32)).st == .resident
  let asks := fun gk => match (s.group gk).park with
    | some (.task _) => true
    | _ => false
  if gs.all asks then gs.foldl (fun l gk => (l.filter fun x => x < gk) ++ [gk] ++ l.filter fun x => gk < x) [] else []

/-- R79: the task to split: the largest remainder, the lowest lo on a tie. -/
def splitTask (s : State) (cl g : Nat) : Option Task :=
  ((s.cluster cl).tasks.filter fun t => t.g == g && !t.alone && t.cur < t.hi).foldl (fun (b : Option Task) t =>
    match b with
    | none => some t
    | some a => if a.hi - a.cur < t.hi - t.cur || (a.hi - a.cur == t.hi - t.cur && t.lo < a.lo) then some t else b) none

/-- R79: half of a task handed to an asking group. -/
def splitFor (s : State) (gk : Nat) : State :=
  let cl := s.coreOfGrp gk / 6
  let g := grpKeyGrid gk
  match (s.group gk).park, s.splitTask cl g with
  | some (.task sd), some t =>
    if t.hi - t.cur < 2 * t.chunk then s
    else
      let mid := t.cur + ceilDiv (t.hi - t.cur) 2
      let s := s.modCluster cl fun c =>
        let n := (c.tasks.filter fun x => !x.alone).length
        let new := { t with lo := mid, cur := mid, owner := gk, alone := decide (64 ≤ n)
                            chunk := if 64 ≤ n then t.hi - mid else t.chunk }
        { c with tasks := (c.tasks.map fun x => if x == t then { x with hi := mid } else x) ++ [new] }
      let s := s.modTeam (gk / 32) fun x => { x with taskUser := true }
      match s.fetchTask gk sd with
      | some s => s.wake gk
      | none => s
  | _, _ => s

/-- R79, R80: the splitter of a cluster serves a core idle for a grid. -/
def taskSplit (s : State) (cl co g : Nat) : State :=
  if (s.grid g).det then s else (s.askers (coreKey cl co) g).foldl splitFor s

/-! ### `yieldt` -/

/-- R431: does some head cohort of the partition and class pool wait for room on the issuing core. -/
def headWaits (s : State) : Bool :=
  let r := s.curGrid
  s.grids.any fun e =>
    let x := e.2
    x.part == r.part && x.opcls == r.opcls && x.head.isSome && !s.gridHeld x && s.usable e.1 s.curCore &&
      (x.draining || 1 ≤ x.passed)

/-- R431: the effect of `yieldt`. A team that is being saved already is not saved a second time: the group parks until it is
restored, and s[SD] then reads 1 (log 29, DESIGN CHOICE). -/
def effYieldt (s : State) (sd : Nat) : Eff :=
  if !s.headWaits then { s := s.putS sd 0 false, ends := true }
  else if (s.team s.curTeam).st == .saving then { s := s, fate := .park (.yield sd) }
  else if s.inSwap s.curCore then { s := s, fate := .stall }
  else
    let r := s.beginSave s.curTeam (.yieldt s.cur.grp)
    if r.2 then { s := r.1, fate := .park (.yield sd) }
    else match s.savePages s.curTeam with
      | .error _ => { s := r.1.putS sd 0 false, ends := true }
      | .ok _ => { s := r.1, fate := .stall }

/-! ### Operating classes (R91 to R95) -/

/-- R482: the fused minimum VOLT for a frequency code. -/
def vminOf (s : State) (f : Nat) : Nat := (s.fuses.vmin.getD (f - 24) 0).toNat

/-- R91: the code of a write of OPCLSn. -/
def opclsCode (s : State) (v : W64) : Nat :=
  let volt := v.bits 39 32
  let boost := v.bits 31 24
  let base := v.bits 23 16
  if volt < 110 then 1
  else if 170 < volt then 2
  else if boost < 24 || 62 < boost || base < 24 || 62 < base then 3
  else if boost < base then 4
  else if volt < s.vminOf boost then 5
  else 0

/-- R91: a write of OPCLSn. -/
def opclsWrite (s : State) (n : Nat) (v : W64) : State :=
  if 4 ≤ n then s
  else
    let c := s.opclsCode v
    let old := s.opClass n
    let new : OpClass :=
      if c == 0 then
        { volt := v.extractLsb' 32 8, fboost := v.extractLsb' 24 8, fbase := v.extractLsb' 16 8, stat := 0 }
      else { old with stat := BitVec.ofNat 4 c }
    { s with opcls := s.opcls.put n new }

/-- R93: is a cluster free. That a cluster which is still joining a pool is not free, and that the time for which it has been free
begins again when it joins, is the model's choice (log 32, DESIGN CHOICE). -/
def clusterFree (s : State) (cl : Nat) : Bool :=
  let c := s.cluster cl
  c.joining.isNone && c.tasks.isEmpty &&
    (c.carafe.cfg.all fun x => (s.grids.find x.grid).isNone) && (c.sfa.owner.all fun o => (s.grids.find o).isNone) &&
    s.teams.all fun e => e.2.cl != cl ||
      !(e.2.st == .resident || e.2.st == .moving || e.2.st == .saving || e.2.st == .saved || e.2.st == .restoring)

/-- R93: does a class have a head cohort that fits no cluster of its pool; what counts as not fitting is as for `headFits` (log 31,
DESIGN CHOICE). -/
def classWants (s : State) (p c : Nat) : Bool :=
  s.grids.any fun e =>
    e.2.part == p && e.2.opcls == c && !s.gridHeld e.2 &&
      match s.headTeam e.1 with
      | none => false
      | some h =>
        let l := s.cohortTeams e.1 (e.2.cohort h)
        (s.poolOf p c).all fun cl => !s.unitsAdmit e.1 cl || (s.putCohort e.1 cl l).isNone

/-- R93: the free cluster to reassign to a class. -/
def freeCluster (s : State) (p c : Nat) : Option Nat :=
  let mine := (List.range 32).filter fun cl => (s.part p).clusters.getLsbD cl && s.clusterFree cl
  match mine.find? fun cl => (s.cluster cl).pool.isNone with
  | some cl => some cl
  | none => mine.find? fun cl => (s.cluster cl).pool != some c && 50000 ≤ (s.cluster cl).freeFor

/-- R18: a voltage command on an island's bus. -/
def svbCommand (s : State) (cl : Nat) (v : BitVec 8) : State :=
  { s with power := { s.power with svb := s.power.svb.put (cl / 8) (BitVec.ofNat 16 (cl % 8 * 4096 + v.toNat)) } }

/-- R94: the last step: the cluster joins its pool. -/
def joinPool (s : State) (cl : Nat) : State :=
  s.modCluster cl fun c => { c with pool := c.joining, joining := none, freeFor := 0 }

/-- R94: the voltage command of a reassignment. -/
def startVoltage (s : State) (cl : Nat) : State :=
  (s.svbCommand cl (s.cluster cl).voltTo).modCluster cl fun c => { c with voltMoving := true }

/-- R94: the next step of a reassignment: voltage first when it rises, else the clock first. -/
def nextPointStep (s : State) (cl : Nat) : State :=
  let c := s.cluster cl
  if c.joining.isNone || c.relock.isSome || c.voltMoving then s
  else if c.volt.toNat < c.voltTo.toNat then s.startVoltage cl
  else if c.freq != c.freqTo then s.modCluster cl fun c => { c with relock := some c.elapsed }
  else if c.volt != c.voltTo then s.startVoltage cl
  else s.joinPool cl

/-- R93, R94: a cluster reassigned to a class. -/
def reassign (s : State) (cl c : Nat) : State :=
  let o := s.opClass c
  (s.modCluster cl fun x =>
    { x with pool := none, joining := some c, freeFor := 0, voltTo := o.volt, freqTo := o.fbase, fbase := o.fbase
             fboost := o.fboost, boosted := false }).nextPointStep cl

/-- The lowest cluster of a partition. -/
def lowCluster (s : State) (p : Nat) : Nat := ((List.range 32).find? fun cl => (s.part p).clusters.getLsbD cl).getD 0

/-- R93: the pool interval of a partition. -/
def poolInterval (s : State) (p : Nat) : State :=
  let now := (s.cluster (s.lowCluster p)).elapsed
  if now % 10000 != 0 || (s.part p).poolAt == some now || (s.part p).clusters == 0 then s
  else
    (List.range 4).foldl (fun s c =>
      if s.classWants p c then
        match s.freeCluster p c with
        | some cl => s.reassign cl c
        | none => s
      else s) (s.modPart p fun x => { x with poolAt := some now })

/-- R94: the regulator has settled. -/
def voltageSettled (s : State) (cl : Nat) : State :=
  if (s.cluster cl).voltMoving then
    (s.modCluster cl fun c => { c with volt := c.voltTo, voltMoving := false }).nextPointStep cl
  else s

/-- R94, R95: the relock ends: the clock runs at the new frequency. -/
def frequencyEnd (s : State) (cl : Nat) : State :=
  match (s.cluster cl).relock with
  | none => s
  | some t =>
    if (s.cluster cl).elapsed < t + 2000 then s
    else (s.modCluster cl fun c => { c with freq := c.freqTo, relock := none, dwell := 0 }).nextPointStep cl

/-- R95: has a cluster a resident team. -/
def clusterBusy (s : State) (cl : Nat) : Bool := s.teams.any fun e => e.2.cl == cl && e.2.st == .resident

/-- R95: tokens of a partition, in 1/256: refilled, then spent by its boosted clusters. -/
def refill (s : State) (p : Nat) : State :=
  let x := s.part p
  let sum := (s.parts.map fun e => e.2.weight.toNat).foldl (· + ·) 0
  let rate := Nat.min s.boostRate.toNat 32
  let gain := if x.weight == 0 then 0 else rate * x.weight.toNat * 256 / sum
  let spent := 256 * ((List.range 32).filter fun cl => x.clusters.getLsbD cl && (s.cluster cl).boosted).length
  s.modPart p fun y => { y with bucket := Nat.min (65535 * 256) (y.bucket + gain) - spent }

/-- R95: a cluster of a partition enters or leaves boost. -/
def boostStep (s : State) (p cl : Nat) : State :=
  let c := s.cluster cl
  let have_ := 256 ≤ (s.part p).bucket
  if c.dwell < 20000 || c.relock.isSome || c.pool.isNone then s
  else if c.boosted then
    if !have_ || !s.clusterBusy cl then
      s.modCluster cl fun c => { c with boosted := false, freqTo := c.fbase, relock := some c.elapsed }
    else s
  else if c.fbase.toNat < c.fboost.toNat && have_ && s.clusterBusy cl then
    s.modCluster cl fun c => { c with boosted := true, freqTo := c.fboost, relock := some c.elapsed }
  else s

/-- R95: one microsecond of boost. -/
def boostRefill (s : State) : State :=
  if s.cleElapsed % 1000 != 0 || s.boostAt == some s.cleElapsed then s
  else
    let ps := (s.parts.filter fun e => e.2.exists_).map Prod.fst
    let s := { ps.foldl refill s with boostAt := some s.cleElapsed }
    ps.foldl (fun s p => ((List.range 32).filter fun cl => (s.part p).clusters.getLsbD cl).foldl (fun s cl => s.boostStep p cl) s) s

end State

/-- DISPATCH_DECISION (R65, R67, R69, R72). -/
def execDispatchDecision (s : State) : Host.Outcome State Fault Refusal := .next (s.dispatch s.ev.g)

/-- INDEX_ORDER_EVICTION (R70). -/
def execIndexOrderEviction (s : State) : Host.Outcome State Fault Refusal := .next (s.evictFor s.ev.g)

/-- TASK_SPLIT (R79). -/
def execTaskSplit (s : State) : Host.Outcome State Fault Refusal := .next (s.taskSplit s.ev.cl s.ev.co s.ev.g)

/-- `yieldt` (R431). -/
def execYieldt (h : Hdr) (f : SF) (s : State) : Host.Outcome State Fault Refusal :=
  .next (s.issueWord h {} fun _ s => s.effYieldt f.sd.toNat)

/-- OPCLS_WRITE (R91). -/
def execOpclsWrite (s : State) : Host.Outcome State Fault Refusal := .next (s.opclsWrite s.ev.n s.ev.v)

/-- POOL_REASSIGN (R93, R94). -/
def execPoolReassign (s : State) : Host.Outcome State Fault Refusal := .next (s.poolInterval s.ev.p)

/-- BOOST_REFILL (R95). -/
def execBoostRefill (s : State) : Host.Outcome State Fault Refusal := .next s.boostRefill

/-- VOLTAGE_SETTLED (R94). -/
def execVoltageSettled (s : State) : Host.Outcome State Fault Refusal := .next (s.voltageSettled s.ev.cl)

/-- FREQUENCY_STEP_END (R94, R95). -/
def execFrequencyStepEnd (s : State) : Host.Outcome State Fault Refusal := .next (s.frequencyEnd s.ev.cl)

end Sys2Proof.Machine
end

