-- ==== Sys2Proof/Machine/HostIf.lean ====
section
/-! DEFINITION. Registers as software writes and reads them: the control window and doorbells of a function (R47, R52), a
partition's page and the device page (R82), a cluster's status block (R122); and the BAR4 window (R48). -/

namespace Sys2Proof.Machine
namespace State

/-! ### A partition's page -/

/-- R82: a register of a partition's page written; an unlisted offset ignores the write. -/
def pageWrite (s : State) (p off : Nat) (v : W64) : State :=
  let set := fun (f : Page → Page) => s.modPage p f
  match off with
  | 0x00 => set fun y => { y with pmreq0 := v }
  | 0x08 => s.pmreq1Write p v
  | 0x10 => set fun y => { y with pmErr := y.pmErr && !v.getLsbD 3, pmDone := y.pmDone && !v.getLsbD 2 }
  | 0x20 => s.ckpt0Write p v
  | 0x28 => set fun y => { y with ckpt1 := v &&& 0x01FFFFFFFFFFFF80 }
  | 0x30 => set fun y => { y with ckpt2 := v &&& 0x01FFFFFFFFFFF01F }
  | 0x38 => set fun y => { y with ckptErr := y.ckptErr && !v.getLsbD 0 }
  | 0x40 => s.trapRegWrite p 0x40 v
  | 0x48 => s.trapRegWrite p 0x48 v
  | 0x50 => s.trapRegWrite p 0x50 v
  | 0x60 => s.dbgselWrite p v
  | 0x80 => set fun y => { y with bkpt := y.bkpt.put 0 (v &&& 0x81FFFFFFFFFFFFFF) }
  | 0x88 => set fun y => { y with bkpt := y.bkpt.put 1 (v &&& 0x81FFFFFFFFFFFFFF) }
  | 0x90 => set fun y => { y with bkpt := y.bkpt.put 2 (v &&& 0x81FFFFFFFFFFFFFF) }
  | 0x98 => set fun y => { y with bkpt := y.bkpt.put 3 (v &&& 0x81FFFFFFFFFFFFFF) }
  | 0xA0 => s.sampcWrite p v
  | 0xA8 => set fun y => { y with sampb := v &&& 0x01FFFFFFFFFFF00F }
  | 0xC0 => s.trcaWrite p v
  | 0xC8 => set fun y => { y with trcb := v &&& 0xFFFFFFFFFFFFF00F }
  | 0x100 => set fun y => { y with hsel := v &&& 0xFFFFFFFFFFFF8000 }
  | 0x108 => s.hcmdWrite p v
  | 0x110 => s.himmWrite p v
  | 0x118 => set fun y => { y with hdata := v }
  | _ => s

/-- R92: PCTL. -/
def pctl (x : Part) : W64 := w64 (x.bucket / 256 * pow2 48 + x.weight.toNat * 256 + x.clsok.toNat)

/-- R82: a register of a partition's page as it reads. -/
def pageRead (s : State) (p off : Nat) : W64 :=
  let y := s.page p
  match off with
  | 0x00 => y.pmreq0
  | 0x08 => w64 (y.deadline.toNat * pow2 32 + y.force.toNat * 16 + y.op.toNat * 4)
  | 0x10 => w64 (y.ndrain * pow2 48 + y.ndisc * pow2 32 + y.nsave * 65536 + y.nlate * 256 + bit y.pmErr * 8 + bit y.pmDone * 4 +
      bit y.pmBusy * 2)
  | 0x18 => pctl (s.part p)
  | 0x20 => w64 (y.ckptGrid.toNat * pow2 40)
  | 0x28 => y.ckpt1
  | 0x30 => y.ckpt2
  | 0x38 => s.ckptStatus p
  | 0x40 => w64 (y.trapb.toNat + y.dropn * 256)
  | 0x48 => y.trapt
  | 0x50 => y.traph
  | 0x58 => (s.part p).blkacc
  | 0x60 => y.dbgsel
  | 0x80 => y.bkpt.get 0 0
  | 0x88 => y.bkpt.get 1 0
  | 0x90 => y.bkpt.get 2 0
  | 0x98 => y.bkpt.get 3 0
  | 0xA0 => y.sampc
  | 0xA8 => y.sampb
  | 0xB0 => y.sampn
  | 0xC0 => y.trca
  | 0xC8 => y.trcb
  | 0xD0 => y.trcn
  | 0x100 => y.hsel
  | 0x108 => w64 (y.hcreg.toNat * pow2 48 + y.hop.toNat * pow2 38 + bit y.herr * 4 + bit y.hbusy * 2)
  | 0x110 => y.himm.setWidth 64
  | 0x118 => y.hdata
  | _ => 0

/-! ### The device page -/

/-- R82, R92: the device page written. That the PCTL of a partition that does not exist takes no write is the model's choice
(log 36, DESIGN CHOICE). -/
def devPageWrite (s : State) (off : Nat) (v : W64) : State :=
  if off % 8 != 0 then s
  else if off < 0x20 then s.opclsWrite (off / 8) v
  else if off == 0x20 then { s with boostRate := v.extractLsb' 0 8 }
  else if off == 0x28 then
    { s with draftThresh := v.extractLsb' 32 8, draftInterval := v.extractLsb' 16 14, draftEn := v.getLsbD 0 }
  else if 0x100 ≤ off && off < 0x140 && (s.part ((off - 0x100) / 8)).exists_ then
    s.modPart ((off - 0x100) / 8) fun x => { x with weight := v.extractLsb' 8 8, clsok := v.extractLsb' 0 4 }
  else s

/-- R91: OPCLSn as it reads. -/
def opclsRead (s : State) (n : Nat) : W64 :=
  let x := s.opClass n
  w64 (x.volt.toNat * pow2 32 + x.fboost.toNat * pow2 24 + x.fbase.toNat * 65536 + x.stat.toNat)

/-- R82, R482: the device page as it reads. -/
def devPageRead (s : State) (off : Nat) : W64 :=
  if off % 8 != 0 then 0
  else if off < 0x20 then s.opclsRead (off / 8)
  else if off == 0x20 then s.boostRate.setWidth 64
  else if off == 0x28 then w64 (s.draftThresh.toNat * pow2 32 + s.draftInterval.toNat * 65536 + bit s.draftEn)
  else if 0x100 ≤ off && off < 0x140 then pctl (s.part ((off - 0x100) / 8))
  else if 0x200 ≤ off && off < 0x228 then
    w64 (leNat ((List.range 8).map fun i => s.fuses.vmin.getD (off - 0x200 + i) 0))
  else 0

/-! ### A cluster's status block -/

/-- R122, R164, R261: a register of a cluster's status block as it reads; R3: a disabled cluster has none. -/
def clusterRead (s : State) (cl off : Nat) : W64 :=
  let c := s.cluster cl
  if !s.fuses.enabled.getLsbD cl then 0
  else match off with
  | 0x000 => w64 (c.iest.toNat * pow2 48 + bit c.thold * 2048 + c.budget)
  | 0x008 => w64 ((List.range 4).foldl (fun v i => v + (c.stall.getD i 0).toNat * pow2 (16 * i)) 0)
  | 0x010 => w64 (c.swaps.toNat * pow2 32 + c.skips.toNat * 65536 + c.lastPause.toNat * 256)
  | 0x018 => w64 ((List.range 6).foldl (fun v i => v + (BitVec.ofInt 10 (c.temps.getD i 0)).toNat * pow2 (10 * i)) 0)
  | _ => c.counters.get off 0

/-- R44: the partition that owns a cluster. -/
def clusterOwner (s : State) (cl : Nat) : Option Nat :=
  (List.range 8).find? fun p => (s.part p).exists_ && (s.part p).clusters.getLsbD cl

/-! ### The control window -/

/-- R39: what a function exposes: in recovery, of the control window only its first MiB. -/
def exposed (s : State) (off : Nat) : Bool := !s.boot.recovery || off < 0x100000

/-- R47: a write to a function's control window. -/
def bar0Write (s : State) (fn : Fn) (off : Nat) (v : W64) : State :=
  if !s.exposed off then s
  else if off == 0x1000 then (if fn == .pf then s.rcvgo v else s)
  else if off < 0x100000 then s
  else if off < 0x200000 then (if fn == .pf then s.mbWrite (off - 0x100000) v else s)
  else if 0x1000000 ≤ off && off < 0x1040000 then
    let q := (off - 0x1000000) / 64
    s.queueAccess fn q fun s => s.qdWrite fn q (off % 64) v
  else if 0x2000000 ≤ off && off < 0x2000C00 then
    let n := (off - 0x2000000) / 64
    s.portAccess fn n fun s => if off % 64 == 0 then s.portWrite n v else s
  else if 0x3000000 ≤ off && off < 0x3008000 then
    if fnMay fn (s.clusterOwner ((off - 0x3000000) / 0x400)) then s else s.blockWrite fn
  else s

/-- R48: WBASE and W4MISS of a function. -/
def windowOf (s : State) (fn : Fn) : W64 × W64 :=
  match fnPart fn with
  | none => (s.pfWbase, s.pfW4miss)
  | some p => ((s.part p).wbase, (s.part p).w4miss)

/-- R47: a read of a function's control window. -/
def bar0Read (s : State) (fn : Fn) (off : Nat) : W64 :=
  if !s.exposed off then 0
  else if off == 0x1008 then s.boot.rcvst
  else if off < 0x100000 then s.devCounters.get off 0
  else if off < 0x200000 then (if fn == .pf then s.mbRead (off - 0x100000) else 0)
  else if 0x1000000 ≤ off && off < 0x1040000 then
    let q := (off - 0x1000000) / 64
    if fnMay fn (s.queueOwner q) then s.qdRead q (off % 64) else 0
  else if 0x2000000 ≤ off && off < 0x2000C00 then
    let n := (off - 0x2000000) / 64
    if fnMay fn (s.portOwner n) then s.portRead n (off % 64) else 0
  else if 0x3000000 ≤ off && off < 0x3008000 then
    let cl := (off - 0x3000000) / 0x400
    if fnMay fn (s.clusterOwner cl) then s.clusterRead cl (off % 0x400) else 0
  else if off == 0x3100000 then (s.windowOf fn).1
  else if off == 0x3100008 then (s.windowOf fn).2
  else 0

/-- R52: a read of a queue's doorbell page. -/
def doorbellRead (s : State) (fn : Fn) (q off : Nat) : W64 :=
  if 4096 ≤ q || s.boot.recovery || !fnMay fn (s.queueOwner q) then 0
  else if off == 8 then s.qTail q
  else if off == 0x10 then s.qHead q
  else 0

/-! ### All spaces -/

/-- R7, R47, R82, R122: a register written. -/
def regWrite (s : State) (sp : Space) (off : Nat) (v : W64) : State :=
  match sp with
  | .bar0 fn => s.bar0Write fn off v
  | .bar2 fn => s.doorbell fn (off / 4096) (off % 4096) v
  | .page p => if p < 8 then s.pageWrite p off v else s
  | .devPage => s.devPageWrite off v
  | .clusterBlock _ => s

/-- R52, R152: what a register read leaves: a queue's counter has been read in memory. -/
def regMark (s : State) (sp : Space) (off : Nat) : State :=
  match sp with
  | .bar2 fn =>
    let q := off / 4096
    if 4096 ≤ q || s.boot.recovery || !fnMay fn (s.queueOwner q) then s
    else if off % 4096 == 8 then s.tailRead q
    else if off % 4096 == 0x10 then s.headRead q
    else s
  | _ => s

/-- R7: a register read. -/
def regRead (s : State) (sp : Space) (off : Nat) : W64 :=
  match sp with
  | .bar0 fn => s.bar0Read fn off
  | .bar2 fn => s.doorbellRead fn (off / 4096) (off % 4096)
  | .page p => if p < 8 then s.pageRead p off else 0
  | .devPage => s.devPageRead off
  | .clusterBlock cl => s.clusterRead cl off

/-- R7: the flags of a register that are cleared by writing 1. -/
def w1cWrite (s : State) (sp : Space) (off : Nat) (v : W64) : State :=
  match sp with
  | .page p =>
    if 8 ≤ p then s
    else if off == 0x10 || off == 0x38 then s.pageWrite p off v
    else if off == 0x108 then s.modPage p fun y => { y with herr := y.herr && !v.getLsbD 2 }
    else s
  | .bar0 fn =>
    if !s.exposed off then s
    else if off == 0x100008 then (if fn == .pf then s.mbWrite 8 v else s)
    else if 0x1000000 ≤ off && off < 0x1040000 && off % 64 == 0x18 then
      let q := (off - 0x1000000) / 64
      s.queueAccess fn q fun s => s.qd3Clear q v
    else if 0x2000000 ≤ off && off < 0x2000C00 && off % 64 == 0 then
      let n := (off - 0x2000000) / 64
      s.portAccess fn n fun s => s.modPort n fun x => { x with err := x.err && !v.getLsbD 33 }
    else s
  | _ => s

/-! ### The BAR4 window (R48) -/

/-- R48: a miss counted. -/
def w4Miss (s : State) (fn : Fn) : State :=
  match fnPart fn with
  | none => { s with pfW4miss := satAdd64 s.pfW4miss 1 }
  | some p => if (s.part p).exists_ then s.modPart p fun x => { x with w4miss := satAdd64 x.w4miss 1 } else s

/-- R48: where each byte of an access lies: true and a host address for memory type 1, else a device address. An access of
which a byte is not mapped is a miss as a whole: the model's choice (log 36, DESIGN CHOICE). -/
def bar4Place (s : State) (fn : Fn) (off len : Nat) (write : Bool) : Option (List (Bool × Nat)) :=
  let a := (s.windowOf fn).1.toNat + off
  match fnPart fn with
  | none => if a + len ≤ devBytes then some ((List.range len).map fun i => (false, a + i)) else none
  | some p =>
    let l := (List.range len).map fun i => s.walkFor p (a + i) write
    if l.all Option.isSome then some (l.filterMap fun x => x.map fun y => (y.2 == 1, y.1)) else none

/-- R46: BAR4 is 256 GiB. -/
def bar4Bytes : Nat := 0x4000000000

/-- R48, R152: a virtual function's access goes through its partition's page tables: A, and for a write D, of its pages. -/
def bar4Mark (s : State) (fn : Fn) (off len : Nat) (write : Bool) : State :=
  match fnPart fn with
  | none => s
  | some p => (pagesOf ((s.windowOf fn).1.toNat + off) len).foldl (fun s g => s.setAD p (g * 65536) write) s

/-- R48: a host read. -/
def bar4Read (s : State) (fn : Fn) (off len : Nat) : State :=
  if bar4Bytes < off + len then s
  else if s.boot.recovery then
    (if fn == .pf then s.answer (.bytes (Memory.bytes s.boot.staged off len)) else s)
  else
    match s.bar4Place fn off len false with
    | none => (s.w4Miss fn).answer (.bytes (List.replicate len 0xFF))
    | some l =>
      (s.bar4Mark fn off len false).answer (.bytes (l.map fun x => Memory.byte (if x.1 then s.hostMem else s.mem) x.2))

/-- R48, R49: a host write, visible at system scope; a sector that it covers whole is no longer poisoned (R262). R39: in recovery it
goes to the staging area. -/
def bar4Write (s : State) (fn : Fn) (off : Nat) (data : List Byte) : State :=
  if bar4Bytes < off + data.length then s
  else if s.boot.recovery then
    (if fn == .pf && off + data.length ≤ 33554432 then
      { s with boot := { s.boot with staged := Memory.setBytes s.boot.staged off data } } else s)
  else
    match s.bar4Place fn off data.length true with
    | none => s.w4Miss fn
    | some l =>
      let s := (List.range data.length).foldl (fun s i =>
        match l[i]? with
        | some (true, a) => s.hostWrite a [data.getD i 0]
        | some (false, a) => s.devWrite a [data.getD i 0] false
        | none => s) (s.bar4Mark fn off data.length true)
      (s.settleHome (l.filterMap fun x => if x.1 then none else some (x.2, [(0, false)]))).recheckAll

end State

/-- BAR4_READ (R48). -/
def execBar4Read (s : State) : Host.Outcome State Fault Refusal := .next (s.bar4Read s.ev.fn s.ev.off s.ev.len)
/-- BAR4_WRITE (R48, R39). -/
def execBar4Write (s : State) : Host.Outcome State Fault Refusal := .next (s.bar4Write s.ev.fn s.ev.off s.ev.data)
/-- REGISTER_WRITE (R7, R44). -/
def execRegisterWrite (s : State) : Host.Outcome State Fault Refusal := .next (s.regWrite s.ev.space s.ev.off s.ev.v)
/-- W1C_CLEAR (R7). -/
def execW1cClear (s : State) : Host.Outcome State Fault Refusal := .next (s.w1cWrite s.ev.space s.ev.off s.ev.v)

end Sys2Proof.Machine
end

