-- ==== Sys2Proof/Machine/Scalar.lean ====
section
/-! DEFINITION. The scalar words of the S format at 0x000 to 0x01E (R338 to R345) and the pair word (R347). -/

namespace Sys2Proof.Machine

/-! ### Operations -/

/-- R339: high halves of the 128-bit products. -/
def smulhS (a b : W64) : W64 := ((a.signExtend 128 * b.signExtend 128) >>> 64).setWidth 64
def smulhU (a b : W64) : W64 := ((a.setWidth 128 * b.setWidth 128) >>> 64).setWidth 64
/-- R339: shifts by b modulo the width. -/
def sshlW {w : Nat} (a b : BitVec w) : BitVec w := a <<< (b.toNat % w)
def sshrW {w : Nat} (a b : BitVec w) : BitVec w := a >>> (b.toNat % w)
def ssarW {w : Nat} (a b : BitVec w) : BitVec w := a.sshiftRight (b.toNat % w)
def sminW {w : Nat} (a b : BitVec w) : BitVec w := if a.slt b then a else b
def sminuW {w : Nat} (a b : BitVec w) : BitVec w := if a.ult b then a else b
def smaxW {w : Nat} (a b : BitVec w) : BitVec w := if b.slt a then a else b
def smaxuW {w : Nat} (a b : BitVec w) : BitVec w := if b.ult a then a else b
/-- R340: quotients round towards zero, a remainder has the dividend's sign, and nothing traps. -/
def sdivW {w : Nat} (a b : BitVec w) : BitVec w := if b == 0 then BitVec.allOnes w else a.sdiv b
def sdivuW {w : Nat} (a b : BitVec w) : BitVec w := if b == 0 then BitVec.allOnes w else a.udiv b
def sremW {w : Nat} (a b : BitVec w) : BitVec w := if b == 0 then a else a.srem b
def sremuW {w : Nat} (a b : BitVec w) : BitVec w := if b == 0 then a else a.umod b

/-! ### Operands -/

/-- R338: the second operand. -/
def sopB (f : SF) (r : Regs) : W64 := if f.is then f.imm.signExtend 64 else r.sget f.sb.toNat

/-- The registers of an S word. -/
def sUses (f : SF) (a b : Bool) : Uses :=
  { sr := (if a then [f.sa.toNat] else []) ++ (if b && !f.is then [f.sb.toNat] else []) }

/-- R262: is some word that an S word reads poisoned; under W only the low halves are read. -/
def sPoison (f : SF) (r : Regs) (a b : Bool) : Bool :=
  let hit := fun (n : BitVec 6) => if f.w then (r.sgetPois n.toNat).getLsbD 0 else r.sgetPois n.toNat != 0
  (a && hit f.sa) || (b && !f.is && hit f.sb)

/-- R338: a result by W: 64-bit, or 32-bit on the low words, sign-extended. -/
def sValue (f : SF) (r : Regs) (op64 : W64 → W64 → W64) (op32 : W32 → W32 → W32) : W64 :=
  let a := r.sget f.sa.toNat
  let b := sopB f r
  if f.w then sx64 (op32 a.lo b.lo) else op64 a b

/-- R338, R339: a two-operand S word. -/
def sTwo (h : Hdr) (f : SF) (op64 : W64 → W64 → W64) (op32 : W32 → W32 → W32) (s : State) : State :=
  s.issueWord h (sUses f true true) fun _ s =>
    { s := s.putS f.sd.toNat (sValue f s.src op64 op32) (sPoison f s.src true true) }

/-- R340: a division, long-latency. -/
def sDivide (h : Hdr) (f : SF) (op64 : W64 → W64 → W64) (op32 : W32 → W32 → W32) (s : State) : State :=
  s.issueWord h (sUses f true true) fun _ s =>
    let p := sPoison f s.src true true
    let s1 := s.addDue h.la.toNat [(1, f.sd.toNat)]
      [.scal f.sd.toNat (sValue f s.src op64 op32) (if p then 3 else 0)] 0
    { s := if p && f.sd != 0 then s1.count s.cur.cl 0x3A0 2 else s1 }

/-- R339: a one-operand S word. -/
def sOne (h : Hdr) (f : SF) (op64 : W64 → W64) (op32 : W32 → W32) (s : State) : State :=
  s.issueWord h (sUses f true false) fun _ s =>
    let a := s.src.sget f.sa.toNat
    { s := s.putS f.sd.toNat (if f.w then sx64 (op32 a.lo) else op64 a) (sPoison f s.src true false) }

/-! ### The words -/

/-- `sadd` (R339). -/
def execSadd (h : Hdr) (f : SF) (s : State) : Host.Outcome State Fault Refusal :=
  .next (sTwo h f (· + ·) (· + ·) s)

/-- `ssub` (R339). -/
def execSsub (h : Hdr) (f : SF) (s : State) : Host.Outcome State Fault Refusal :=
  .next (sTwo h f (· - ·) (· - ·) s)

/-- `smul` (R339). -/
def execSmul (h : Hdr) (f : SF) (s : State) : Host.Outcome State Fault Refusal :=
  .next (sTwo h f (· * ·) (· * ·) s)

/-- `smulh` (R339). -/
def execSmulh (h : Hdr) (f : SF) (s : State) : Host.Outcome State Fault Refusal :=
  .next (sTwo h f smulhS mulhS s)

/-- `smulhu` (R339). -/
def execSmulhu (h : Hdr) (f : SF) (s : State) : Host.Outcome State Fault Refusal :=
  .next (sTwo h f smulhU mulhU s)

/-- `sdiv` (R340), long-latency. -/
def execSdiv (h : Hdr) (f : SF) (s : State) : Host.Outcome State Fault Refusal :=
  .next (sDivide h f sdivW sdivW s)

/-- `sdivu` (R340), long-latency. -/
def execSdivu (h : Hdr) (f : SF) (s : State) : Host.Outcome State Fault Refusal :=
  .next (sDivide h f sdivuW sdivuW s)

/-- `srem` (R340), long-latency. -/
def execSrem (h : Hdr) (f : SF) (s : State) : Host.Outcome State Fault Refusal :=
  .next (sDivide h f sremW sremW s)

/-- `sremu` (R340), long-latency. -/
def execSremu (h : Hdr) (f : SF) (s : State) : Host.Outcome State Fault Refusal :=
  .next (sDivide h f sremuW sremuW s)

/-- `sand` (R339). -/
def execSand (h : Hdr) (f : SF) (s : State) : Host.Outcome State Fault Refusal :=
  .next (sTwo h f (· &&& ·) (· &&& ·) s)

/-- `sor` (R339). -/
def execSor (h : Hdr) (f : SF) (s : State) : Host.Outcome State Fault Refusal :=
  .next (sTwo h f (· ||| ·) (· ||| ·) s)

/-- `sxor` (R339). -/
def execSxor (h : Hdr) (f : SF) (s : State) : Host.Outcome State Fault Refusal :=
  .next (sTwo h f (· ^^^ ·) (· ^^^ ·) s)

/-- `snot` (R339). -/
def execSnot (h : Hdr) (f : SF) (s : State) : Host.Outcome State Fault Refusal :=
  .next (sOne h f (~~~ ·) (~~~ ·) s)

/-- `sshl` (R339). -/
def execSshl (h : Hdr) (f : SF) (s : State) : Host.Outcome State Fault Refusal :=
  .next (sTwo h f sshlW sshlW s)

/-- `sshr` (R339). -/
def execSshr (h : Hdr) (f : SF) (s : State) : Host.Outcome State Fault Refusal :=
  .next (sTwo h f sshrW sshrW s)

/-- `ssar` (R339). -/
def execSsar (h : Hdr) (f : SF) (s : State) : Host.Outcome State Fault Refusal :=
  .next (sTwo h f ssarW ssarW s)

/-- `smin` (R339). -/
def execSmin (h : Hdr) (f : SF) (s : State) : Host.Outcome State Fault Refusal :=
  .next (sTwo h f sminW sminW s)

/-- `sminu` (R339). -/
def execSminu (h : Hdr) (f : SF) (s : State) : Host.Outcome State Fault Refusal :=
  .next (sTwo h f sminuW sminuW s)

/-- `smax` (R339). -/
def execSmax (h : Hdr) (f : SF) (s : State) : Host.Outcome State Fault Refusal :=
  .next (sTwo h f smaxW smaxW s)

/-- `smaxu` (R339). -/
def execSmaxu (h : Hdr) (f : SF) (s : State) : Host.Outcome State Fault Refusal :=
  .next (sTwo h f smaxuW smaxuW s)

/-- `scmp` (R341). -/
def execScmp (h : Hdr) (f : SF) (s : State) : Host.Outcome State Fault Refusal :=
  .next (s.issueWord h (sUses f true true) fun _ s =>
    let a := s.src.sget f.sa.toNat
    let b := sopB f s.src
    let c := if f.w then relBits f.cmp.toNat f.sg a.lo b.lo else relBits f.cmp.toNat f.sg a b
    let s := if sPoison f s.src true true then s.count s.cur.cl 0x3A0 1 else s
    { s := s.setQ f.qd.toNat c })

/-- `ssel` (R341): q7 selects a. -/
def execSsel (h : Hdr) (f : SF) (s : State) : Host.Outcome State Fault Refusal :=
  .next (s.issueWord h (sUses f true true) fun _ s =>
    let c := s.src.qget f.qd.toNat
    { s := s.putS f.sd.toNat (if c then s.src.sget f.sa.toNat else sopB f s.src) (sPoison f s.src true true) })

/-- `smov` (R342). -/
def execSmov (h : Hdr) (f : SF) (s : State) : Host.Outcome State Fault Refusal :=
  .next (s.issueWord h (sUses f (!f.is) false) fun _ s =>
    { s := s.putS f.sd.toNat (if f.is then f.imm.signExtend 64 else s.src.sget f.sa.toNat) (sPoison f s.src (!f.is) false) })

/-- `smovlo` (R342). -/
def execSmovlo (h : Hdr) (f : SF) (s : State) : Host.Outcome State Fault Refusal :=
  .next (s.issueWord h {} fun _ s => { s := s.putS f.sd.toNat (f.imm.setWidth 64) false })

/-- `smovhi` (R342): the low word of SD is kept. -/
def execSmovhi (h : Hdr) (f : SF) (s : State) : Host.Outcome State Fault Refusal :=
  .next (s.issueWord h { sr := [f.sd.toNat] } fun _ s =>
    let old := s.src.sget f.sd.toNat
    let mark := s.src.sgetPois f.sd.toNat &&& 1
    let s := s.modRegs fun r => r.sset f.sd.toNat (W64.ofHalves f.imm old.lo) mark
    { s := if mark == 0 || f.sd == 0 then s else s.count s.cur.cl 0x3A0 1 })

/-- `sbfx` (R343). -/
def execSbfx (h : Hdr) (f : SF) (s : State) : Host.Outcome State Fault Refusal :=
  .next (s.issueWord h (sUses f true false) fun _ s =>
    let n := f.fieldLen
    let x := (s.src.sget f.sa.toNat) >>> f.pos.toNat
    let up := x <<< (64 - n)
    { s := s.putS f.sd.toNat (if f.sg then up.sshiftRight (64 - n) else up >>> (64 - n)) (sPoison f s.src true false) })

/-- `sbfi` (R343). -/
def execSbfi (h : Hdr) (f : SF) (s : State) : Host.Outcome State Fault Refusal :=
  .next (s.issueWord h { sr := [f.sa.toNat, f.sd.toNat] } fun _ s =>
    let m := ((BitVec.allOnes 64) >>> (64 - f.fieldLen)) <<< f.pos.toNat
    let a := (s.src.sget f.sa.toNat) <<< f.pos.toNat
    let old := s.src.sget f.sd.toNat
    { s := s.putS f.sd.toNat ((old &&& ~~~m) ||| (a &&& m))
        (sPoison f s.src true false || s.src.sgetPois f.sd.toNat != 0) })

/-- `sclz` (R339). -/
def execSclz (h : Hdr) (f : SF) (s : State) : Host.Outcome State Fault Refusal :=
  .next (sOne h f (fun a => w64 (clz a)) (fun a => w32 (clz a)) s)

/-- `spopc` (R339). -/
def execSpopc (h : Hdr) (f : SF) (s : State) : Host.Outcome State Fault Refusal :=
  .next (sOne h f (fun a => w64 (popc a)) (fun a => w32 (popc a)) s)

/-- `slea` (R344): LEN = 0 takes b whole. -/
def execSlea (h : Hdr) (f : SF) (s : State) : Host.Outcome State Fault Refusal :=
  .next (s.issueWord h (sUses f true true) fun _ s =>
    let b := sopB f s.src
    let n := 64 - f.len.toNat
    let b' := if f.len == 0 then b else (b <<< n).sshiftRight n
    { s := s.putS f.sd.toNat (s.src.sget f.sa.toNat + (b' <<< f.pos.toNat)) (sPoison f s.src true true) })

/-- R60: the virtual number of a cluster in its partition: its place among the partition's clusters, ascending; after MODIFY
among the new ones, which is the model's choice (log 34, DESIGN CHOICE). -/
def State.virtualCluster (s : State) (p cl : Nat) : Nat :=
  ((List.range cl).filter fun c => (s.part p).clusters.getLsbD c).length

/-- R345: the value of a special name. -/
def State.special (s : State) (sel : Nat) : W64 :=
  let c := s.cur
  match sel with
  | 0x00 => w64 c.grp
  | 0x01 => w64 c.t
  | 0x02 => w64 c.g
  | 0x03 => w64 (s.curGrid.role c.grp)
  | 0x04 => w64 (s.curGrid.rank c.t)
  | 0x05 => w64 (s.virtualCluster s.curPart c.cl)
  | 0x06 => w64 c.co
  | 0x08 => s.cyclesOf s.curCore
  | 0x09 => s.elapsedOf c.cl
  | 0x0A => w64 (s.curGrid.opcls + 4 * bit (s.cluster c.cl).boosted + 256 * (s.cluster c.cl).freq.toNat)
  | _ => s.grp.sig

/-- `srd` (R345). -/
def execSrd (h : Hdr) (f : SF) (s : State) : Host.Outcome State Fault Refusal :=
  .next (s.issueWord h {} fun _ s => { s := s.putS f.sd.toNat (s.special f.imm.toNat) false })

/-! ### The pair word -/

/-- R347: the scalar half's operation, with W = 0. -/
def pairScalar (c : Nat) (a b : W64) : W64 :=
  match c with
  | 1 => a + b
  | 2 => a - b
  | 3 => a &&& b
  | 4 => a ||| b
  | 5 => a ^^^ b
  | 6 => sshlW a b
  | 7 => sshrW a b
  | 8 => ssarW a b
  | 9 => sminW a b
  | _ => smaxW a b

/-- R347: the float type of a vector half: TYP 0 is FP32, 2 and 3 the packed pairs. -/
def pairTy (f : PR) : Nat := if f.typ == 0 then 0 else f.typ.toNat - 1

/-- R347: the vector half's operation on one lane: to nearest even, subnormals kept. -/
def pairVector (f : PR) (a b c : W32) : W32 :=
  let t := pairTy f
  let two := fun (op : FVal → FVal → Approx) => elems2 t (fop2 t 0 f.sat false op) a b
  match f.vop.toNat with
  | 0x01 => satOp f.sat 0 (· + ·) a b
  | 0x02 => satOp f.sat 0 (· - ·) a b
  | 0x03 => a &&& b
  | 0x04 => a ||| b
  | 0x05 => a ^^^ b
  | 0x06 => minS a b
  | 0x07 => maxS a b
  | 0x08 => if f.bs then b else a
  | 0x09 => two (fsum 0)
  | 0x0A => two (fdiff 0)
  | 0x0B => two fprod
  | 0x0C => elems3 t (fma t 0 f.sat false) a b c
  | 0x0D => elems2 t (fexact2 t false FVal.minimum) a b
  | _ => elems2 t (fexact2 t false FVal.maximum) a b

/-- `shalf || vhalf` (R297, R347): both halves read before either writes. -/
def execPair (h : Hdr) (f : PR) (s : State) : Host.Outcome State Fault Refusal :=
  let sOn := f.sop != 0
  let vOn := f.vop != 0
  let mov := f.sop == 0x0B
  let rdA := sOn && !(mov && f.is)
  let rdB := sOn && !mov && !f.is
  let vA := vOn && !(f.vop == 0x08 && f.bs)
  let vB := vOn && !f.bs && f.vop != 0x08
  let vS := vOn && f.bs
  let fma3 := f.vop == 0x0C
  let u : Uses :=
    { sr := (if rdA then [f.sa.toNat] else []) ++ (if rdB then [f.sb.toNat] else []) ++
        (if vS then [f.vb.toNat % 64] else [])
      vr := (if vA then [f.va.toNat] else []) ++ (if vB then [f.vb.toNat] else []) ++
        (if fma3 then [f.vc.toNat] else [])
      vw := if vOn then [f.vd.toNat] else [] }
  .next (s.issueWord h u fun act s =>
    let r := s.src
    let a := r.sget f.sa.toNat
    let b := if f.is then f.imm.signExtend 64 else r.sget f.sb.toNat
    let res := if mov then (if f.is then b else a) else pairScalar f.sop.toNat a b
    let sp := (rdA && r.sgetPois f.sa.toNat != 0) || (rdB && r.sgetPois f.sb.toNat != 0)
    let x := r.varg f.va
    let y := if f.bs then r.bcast (f.vb.toNat % 64) else r.varg f.vb
    let z := r.varg f.vc
    let out : VArg :=
      { vals := (List.range 128).map fun l => if act.getLsbD l then pairVector f (x.at l) (y.at l) (z.at l) else 0
        pois := (if vA then x.pois else 0) ||| (if vB || vS then y.pois else 0) ||| (if fma3 then z.pois else 0) }
    let s := if sOn then s.putS f.sd.toNat res sp else s
    { s := if vOn then s.putV f.vd act out else s })

end Sys2Proof.Machine
end

