-- ==== Sys2Proof/Machine/TeamWords.lean ====
section
/-! DEFINITION. Register budgets, the baton, range tasks and progress (R425 to R430, R433). -/

namespace Sys2Proof.Machine
namespace State

/-- R425: the operand of a team word, as an unsigned 64-bit value. -/
def teamOperand (s : State) (f : SF) : Nat := if f.is then (f.imm.signExtend 64 : W64).toNat else (s.sreg f.sb).toNat

/-- R433: a target count that is not a multiple of 8 within 8 to 256. -/
def countDyn (n : Nat) : Option Nat := if n % 8 != 0 || n < 8 || 256 < n then some 0 else none

/-- What a word with one scalar operand reads. -/
def teamUses (f : SF) (dyn : Option Nat) : Uses := { sr := if f.is then [] else [f.sb.toNat], dyn := dyn }

/-- R116: is the issuing group the holder, and does it name a group of its team. -/
def passDyn (s : State) (f : SF) : Option Nat :=
  if (s.core s.curCore).baton != some s.curGrp || s.curGrid.ngroups ≤ s.teamOperand f then some 0 else none

/-- R116: the baton passed to a group of the same team. A group that has exited frees it at once, as an exiting holder does: the
model's choice (log 29, DESIGN CHOICE). -/
def passTo (s : State) (gk : Nat) : State :=
  let k := s.curCore
  let s := s.modCore k fun c => { c with baton := some gk, batonWait := c.batonWait.filter fun x => x != gk }
  let s := s.modGroup gk fun x => { x with batonDue := false }
  let s := match (s.group gk).park with
    | some (.baton _) => s.wake gk
    | _ => s
  if (s.group gk).gone then s.dropBaton k gk else s

/-- R427: registers at and above n are lost. -/
def dropRegs (s : State) (n : Nat) : State :=
  s.modRegs fun r => { r with v := r.v.filter fun e => e.1 < n, vPois := r.vPois.filter fun e => e.1 < n }

/-- R78: a task opened by the issuing group, which marks its team; beside 64 running tasks it is the group's own, and its one
chunk is the whole interval. -/
def openTask (s : State) (t : Task) : State :=
  let s := s.modTeam s.curTeam fun x => { x with taskUser := true }
  let s := s.modGrid s.cur.g fun r => { r with tasksOver := false }
  s.modCluster s.cur.cl fun c =>
    let full := 64 ≤ (c.tasks.filter fun x => !x.alone).length
    { c with tasks := c.tasks ++ [{ t with alone := full, chunk := if full then t.hi - t.cur else t.chunk }] }

end State

/-- `reggrow` (R426). -/
def execReggrow (h : Hdr) (f : SF) (s : State) : Host.Outcome State Fault Refusal :=
  let n := s.teamOperand f
  let b := s.grp.budget
  let top := s.curGrid.ceiling s.cur.grp
  let u := { State.teamUses f (State.countDyn n) with beyond := if b < n && top < n then [(n, top)] else [] }
  .next (s.issueWord h u fun _ s =>
    if n ≤ b then { s := s.putS f.sd.toNat 0 false }
    else if 512 * (n - b) ≤ s.rowsFree s.curQuad then
      { s := (s.modGrp fun x => { x with budget := n }).putS f.sd.toNat 0 false }
    else { s := s, fate := .park (.reggrow n f.sd.toNat) })

/-- `regshrink` (R427): once every result due has been written. -/
def execRegshrink (h : Hdr) (f : SF) (s : State) : Host.Outcome State Fault Refusal :=
  .next (s.issueWord h (State.teamUses f (State.countDyn (s.teamOperand f))) fun _ s =>
    let n := s.teamOperand f
    if s.grp.budget ≤ n then { s := s }
    else if !s.grp.due.isEmpty then { s := s, fate := .stall }
    else { s := ((s.modGrp fun x => { x with budget := n }).dropRegs n).grantRows s.curQuad 24 })

/-- `batget` (R116, R428). -/
def execBatget (h : Hdr) (_f : SF) (s : State) : Host.Outcome State Fault Refusal :=
  .next (s.issueWord h {} fun _ s =>
    let k := s.curCore
    match (s.core k).baton with
    | none => { s := s.modCore k fun c => { c with baton := some s.curGrp } }
    | some gk =>
      if gk == s.curGrp then { s := s }
      else { s := s.modCore k fun c => { c with batonWait := c.batonWait ++ [s.curGrp] }, fate := .park (.baton true) })

/-- `batpass` (R116, R428). -/
def execBatpass (h : Hdr) (f : SF) (s : State) : Host.Outcome State Fault Refusal :=
  .next (s.issueWord h (State.teamUses f (s.passDyn f)) fun _ s =>
    { s := s.passTo (s.curTeam * 32 + s.teamOperand f) })

/-- `tskget` (R429): the open form holds its chunk in IMM32. -/
def execTskget (h : Hdr) (f : SF) (s : State) : Host.Outcome State Fault Refusal :=
  let sd := f.sd.toNat
  .next (s.issueWord h { sr := [f.sa.toNat, f.sb.toNat] } fun _ s =>
    let gk := s.curGrp
    let x := (s.sreg f.sa).toNat
    let lo := x % pow2 32
    let hi := x / pow2 32
    let ask := fun (s : State) =>
      match s.fetchTask gk sd with
      | some s => ({ s := s } : Eff)
      | none => { s := s, fate := .park (.task sd) }
    if f.imm == 0 || (s.ownTask gk).isSome then ask s
    else if hi ≤ lo then { s := s.putTask gk sd 0 0 0 }
    else ask (s.openTask
      { entry := (s.sreg f.sb).toNat % pow2 57, lo := lo, cur := lo, hi := hi, chunk := f.imm.toNat % 65536, g := s.cur.g
        owner := gk }))

/-- `prog` (R430): the team's progress counter. -/
def execProg (h : Hdr) (f : SF) (s : State) : Host.Outcome State Fault Refusal :=
  .next (s.issueWord h (State.teamUses f none) fun _ s =>
    let v := w64 (s.teamOperand f)
    { s := s.modTeam s.curTeam fun x =>
        { x with progress := if f.sg then x.progress + v else if x.progress.toNat < v.toNat then v else x.progress } })

end Sys2Proof.Machine
end

