-- ==== Sys2Proof/Machine/Tree.lean ====
section
/-! DEFINITION. The tree instruction (R110 to R112, R307 to R311, R354 to R359). -/

namespace Sys2Proof.Machine

/-- A lane's private view: the registers and predicates that its path has written, and what it counted. -/
structure View where
  v : SMap (W32 × Bool) := []
  p : SMap Bool := []
  /-- R262: poisoned results and tests decided on poison. -/
  pois : Nat := 0
  deriving DecidableEq, Repr

/-- A memory arc on a path: its address sum, was a poisoned word used for it, and what a store writes. -/
structure ArcAcc where
  arc : Arc
  at_ : Nat
  bad : Bool
  data : List PByte
  deriving DecidableEq, Repr

/-- R311: the arc and what follows it, from test k decided c: a test, or a leaf. -/
def arcOf (shape k : Nat) (c : Bool) : Nat × Sum Nat Nat :=
  match shape, k, c with
  | 0, _, true => (0, .inr 0)
  | 0, _, false => (1, .inr 1)
  | 1, 0, true => (0, .inr 0)
  | 1, 0, false => (1, .inl 1)
  | 1, _, true => (2, .inr 1)
  | 1, _, false => (3, .inr 2)
  | 2, 0, true => (0, .inl 1)
  | 2, 0, false => (1, .inl 2)
  | 2, 1, true => (2, .inr 0)
  | 2, 1, false => (3, .inr 1)
  | 2, _, true => (4, .inr 2)
  | 2, _, false => (5, .inr 3)
  | _, 0, true => (0, .inr 0)
  | _, 0, false => (1, .inl 1)
  | _, 1, true => (2, .inr 1)
  | _, 1, false => (3, .inl 2)
  | _, _, true => (4, .inr 2)
  | _, _, false => (5, .inr 3)

/-- A register of a lane as its path sees it. -/
def View.reg (x : View) (r : Regs) (l n : Nat) : W32 × Bool :=
  match x.v.find n with
  | some w => w
  | none => (r.lane n l, (r.vgetPois n).getLsbD l)
/-- A predicate of a lane as its path sees it. -/
def View.pred (x : View) (r : Regs) (l n : Nat) : Bool :=
  match x.p.find n with
  | some b => b
  | none => (r.pget n).getLsbD l

/-- R308: a test on a view: its outcome, and did it read poison. -/
def testOn (t : Test) (x : View) (r : Regs) (l : Nat) : Bool × Bool :=
  if t.kind == 2 then (x.pred r l (t.va.toNat % 16) != (t.rel == 1), false)
  else
    let a := x.reg r l t.va.toNat
    let b : W32 × Bool := if t.kind == 0 then x.reg r l (t.b.toNat % 256)
      else
        (match t.typ.toNat with
        | 0 => t.b.signExtend 32
        | 1 => t.b.setWidth 32
        | _ => t.b.setWidth 32 <<< 16, false)
    let c := if t.typ == 2 then FVal.rel t.rel.toNat (f32 a.1) (f32 b.1) else relBits t.rel.toNat (t.typ == 0) a.1 b.1
    (c, a.2 || b.2)

/-- R309: the value of an arithmetic or move arc. -/
def arcValue (aop : Nat) (a b : W32) (imm : BitVec 8) : W32 :=
  let i : W32 := imm.signExtend 32
  let two := fun (op : FVal → FVal → Approx) => elems2 0 (fop2 0 0 false false op) a b
  match aop with
  | 0x01 => a + b
  | 0x02 => a - b
  | 0x03 => a &&& b
  | 0x04 => a ||| b
  | 0x05 => a ^^^ b
  | 0x06 => shlL a b
  | 0x07 => shrL a b
  | 0x08 => sarL a b
  | 0x09 => minS a b
  | 0x0A => maxS a b
  | 0x0B => a * b
  | 0x0C => a + i
  | 0x0D => i
  | 0x0E => a &&& i
  | 0x0F => a
  | 0x10 => two (fsum 0)
  | 0x11 => two (fdiff 0)
  | 0x12 => two fprod
  | 0x13 => min32 a b
  | 0x14 => max32 a b
  | 0x15 => elems1 0 (fexact1 0 false FVal.neg) a
  | _ => elems1 0 (fexact1 0 false FVal.abs) a

/-- R309: does an arc read VA, VB. -/
def arcReadsA (aop : Nat) : Bool := 1 ≤ aop && aop ≤ 0x16 && aop != 0x0D
def arcReadsB (aop : Nat) : Bool := (1 ≤ aop && aop ≤ 0x0B) || (0x10 ≤ aop && aop ≤ 0x14)

/-- R309: an arc without a memory access, applied to a view. -/
def arcApply (a : Arc) (x : View) (r : Regs) (l : Nat) : View :=
  let op := a.aop.toNat
  if op == 0 then x
  else if op == 0x17 || op == 0x18 then
    if a.vd.toNat % 16 == 0 then x else { x with p := x.p.put (a.vd.toNat % 16) (op == 0x17) }
  else if op ≤ 0x16 then
    let va := x.reg r l a.va.toNat
    let vb := x.reg r l a.b.toNat
    let m := (arcReadsA op && va.2) || (arcReadsB op && vb.2)
    { x with v := x.v.put a.vd.toNat (arcValue op va.1 vb.1 a.b, m), pois := x.pois + bit m }
  else x

/-- R309: the registers of a memory arc's data. -/
def arcRegs (a : Arc) : List Nat := if a.isWide then [a.vd.toNat, a.vd.toNat + 1] else [a.vd.toNat]

/-- R309: the access of a memory arc. -/
def arcAccess (a : Arc) (x : View) (r : Regs) (l : Nat) : ArcAcc :=
  let va := x.reg r l a.va.toNat
  let sb := a.b.toNat % 64
  { arc := a, at_ := (r.sget sb + sx64 va.1).toNat, bad := va.2 || r.sgetPois sb != 0
    data := if a.isStore then (arcRegs a).flatMap fun n =>
        let w := x.reg r l n
        (leBytes 4 w.1.toNat).map fun b => (b, w.2)
      else [] }

/-- What a lane's path comes to: its view, its access and its leaf. -/
structure Path where
  view : View
  acc : Option ArcAcc
  leaf : Nat
  deriving DecidableEq, Repr

end Sys2Proof.Machine

namespace Sys2Proof

open Machine

/-- Test k, arc k and leaf k of a tree. -/
def TF.test (f : TF) (k : Nat) : Test := [f.t0, f.t1, f.t2].getD k f.t0
def TF.arc (f : TF) (k : Nat) : Arc := f.arcs.getD k { aop := 0, vd := 0, va := 0, b := 0 }
def TF.leaf (f : TF) (k : Nat) : BitVec 15 := [f.l0, f.l1, f.l2, f.l3].getD k 0x4000

/-- R356, phase 1: a lane's path from test k; a path has at most three tests. -/
def TF.walk (f : TF) (r : Regs) (l : Nat) : Nat → Nat → View → Option ArcAcc → Path
  | 0, _, x, acc => { view := x, acc := acc, leaf := 0 }
  | fuel + 1, k, x, acc =>
    let c := testOn (f.test k) x r l
    let x := { x with pois := x.pois + bit c.2 }
    let n := arcOf f.shape.toNat k c.1
    let a := f.arc n.1
    let acc := if a.isMem then some (arcAccess a x r l) else acc
    let x := arcApply a x r l
    match n.2 with
    | .inl k => f.walk r l fuel k x acc
    | .inr j => { view := x, acc := acc, leaf := j }

/-- R311: the tests and arcs of the shape. -/
def TF.tests (f : TF) : List Test := [f.t0, f.t1, f.t2].take (shapeCounts f.shape).1
def TF.shapeArcs (f : TF) : List Arc := f.arcs.take (shapeCounts f.shape).2.2

/-- R358, R359: the registers that the tests and arcs of a tree name. -/
def TF.uses (f : TF) : Uses :=
  let arcs := f.shapeArcs
  let writes := fun (a : Arc) => (1 ≤ a.aop.toNat && a.aop.toNat ≤ 0x16)
  { vr := (f.tests.flatMap fun t => if t.kind == 2 then [] else t.va.toNat :: (if t.kind == 0 then [t.b.toNat % 256] else [])) ++
      arcs.flatMap fun a =>
        (if arcReadsA a.aop.toNat || a.isMem then [a.va.toNat] else []) ++
        (if arcReadsB a.aop.toNat then [a.b.toNat] else []) ++ (if a.isStore then arcRegs a else [])
    vw := arcs.flatMap fun a => if writes a then [a.vd.toNat] else if a.isLoad then arcRegs a else []
    sr := arcs.flatMap fun a => if a.isMem then [a.b.toNat % 64] else []
    pr := f.tests.flatMap fun t => if t.kind == 2 then [t.va.toNat % 16] else [] }

/-- R356: the registers and predicates that the arcs of a tree write. -/
def TF.results (f : TF) : List (Nat × Nat) :=
  distinct (f.uses.vw) |>.map (fun n => (0, n)) |>.append
    (distinct (f.shapeArcs.flatMap fun a => if a.aop == 0x17 || a.aop == 0x18 then [a.vd.toNat % 16] else []) |>.map fun n => (2, n))

end Sys2Proof

namespace Sys2Proof.Machine
namespace State

/-- The pieces of an access. -/
def arcPieces (l : Nat) (a : ArcAcc) : List Piece := pieces l a.at_ (if a.arc.isWide then 8 else 4)

/-- R356: the target of a leaf. -/
def leafTarget (s : State) (f : TF) (j : Nat) : Nat :=
  let next := (s.cur.pc + s.cur.len) % pow2 64
  let d := f.leaf j
  if d == 0x4000 then next else (w64 s.cur.pc + d.signExtend 64).toNat

/-- R356: the registers written by a set of lanes' views, one write for each register and predicate. -/
def viewWrites (f : TF) (paths : List (Nat × Path)) : List RegWr :=
  let at_ := fun (l : Nat) => (paths.find? fun e => e.1 == l).map Prod.snd
  f.results.map fun w =>
    if w.1 == 0 then
      let get := fun l => (at_ l).bind fun p => p.view.v.find w.2
      .vec w.2 (maskOf fun l => (get l).isSome) ((List.range 128).map fun l => ((get l).getD (0, false)).1)
        (maskOf fun l => ((get l).getD (0, false)).2)
    else
      let get := fun l => (at_ l).bind fun p => p.view.p.find w.2
      .pred w.2 (maskOf fun l => (get l).isSome) (maskOf fun l => (get l).getD false)

/-- R356: the effect of a tree. -/
def effTree (h : Hdr) (f : TF) (act : Mask) (s : State) : Eff :=
  let r := s.src
  let paths := act.lanes.map fun l => (l, f.walk r l 3 0 {} none)
  let accs := paths.filterMap fun e => e.2.acc.map fun a => (e.1, a)
  let glob := fun (load : Bool) => (accs.filter fun e => !e.2.arc.isSpad && e.2.arc.isLoad == load).flatMap fun e => arcPieces e.1 e.2
  let ld := s.lookup .load (glob true)
  let st := s.lookup .store (glob false)
  let dataOf := fun l => ((accs.find? fun e => e.1 == l).map fun e => e.2.data).getD []
  let leak := st.1.any fun q => q.mt == 1 && anyPois (pieceData (dataOf q.p.lane) q.p)
  let badLanes := maskOf fun l => (accs.any fun e => e.1 == l && e.2.bad) ||
    st.1.any fun q => q.p.lane == l && q.mt == 1 && anyPois (pieceData (dataOf l) q.p)
  let mis := accs.any fun e => (arcPieces e.1 e.2).length != 1
  let fault := lanesOf ld.2
  if !accs.isEmpty && s.acquireOut s.curGrp then { s := s, fate := .stall }
  else if badLanes != 0 then
    -- R111: a faulting lane's fault is recorded though nothing commits
    { s := if fault != 0 then s.modGrp fun x => { x with held := x.held ||| fault } else s
      fate := .trap (if fault != 0 then loadFault ld.2
        else
          { cause := 0x0B, mask := badLanes, detail := w64 (bit (!(accs.any fun e => e.2.bad) && leak))
            addrs := (accs.filter fun e => badLanes.getLsbD e.1).map fun e => (e.1, w64 e.2.at_) }) }
  else
    let sp := accs.filter fun e => e.2.arc.isSpad
    let spPieces := sp.flatMap fun e => arcPieces e.1 e.2
    let absent := s.absentLines spPieces
    if s.orderHeld .load ld.1 || s.orderHeld .store st.1 || s.bufferHeld st.2 then { s := s, fate := .stall }
    else if !absent.isEmpty then { s := s, fate := .retry (.line (s.touchedLines spPieces)) }
    else
      let wide := fun (w : Bool) => st.2.filter fun p => accs.any fun e => e.1 == p.lane && e.2.arc.isWide == w
      let need := logCost 0 2 (wide false)
      let need8 := logCost 0 3 (wide true)
      match if st.2.isEmpty || s.logRoom s.curCore (need.1 + need8.1) (need.2 + need8.2) then none
        else some (Park.sideLog (need.1 + need8.1) (need.2 + need8.2)) with
      | some w => { s := s.count s.cur.cl 0x128 1, fate := .retry w }
      | none =>
        let live := paths.filter fun e => !fault.getLsbD e.1
        let n := (live.map fun e => e.2.view.pois).foldl (· + ·) 0
        let s1 := s.countMisal mis
        let s1 := if n == 0 then s1 else s1.count s.cur.cl 0x3A0 n
        -- loads before stores (R356)
        let s1 := (s1.touchPages .load ld.1).countOver spPieces
        let okLoads := ld.1.filter fun q => !fault.getLsbD q.p.lane
        let g := s1.readGlobs okLoads
        let s1 := g.1
        let spLoads := s1.readSpads ((sp.filter fun e => e.2.arc.isLoad).flatMap fun e => arcPieces e.1 e.2)
        let loaded : SMap (List PByte) := g.2 ++ spLoads
        let regWrites := (distinct (f.shapeArcs.flatMap fun a => if a.isLoad then arcRegs a else [])).map fun v =>
          let get := fun l => match accs.find? fun e => e.1 == l with
            | some e => if e.2.arc.isLoad && (arcRegs e.2.arc).contains v && !fault.getLsbD l then
                (SMap.find loaded l).map fun x => (loadWords false x).getD (v - e.2.arc.vd.toNat) (0, false)
              else none
            | none => none
          RegWr.loaded v (maskOf fun l => (get l).isSome) ((List.range 128).map fun l => ((get l).getD (0, false)).1)
            (maskOf fun l => ((get l).getD (0, false)).2)
        let ws := viewWrites f live ++ regWrites
        let s1 := if f.arcs.any Arc.isLoad then s1.addDue h.la.toNat f.results ws 0
          else s1.modRegs fun r => ws.foldl Regs.write r
        -- stores, ascending lanes (R166)
        let s1 := (s1.touchPages .store st.1).countStored ((accs.filter fun e => e.2.arc.isStore).map fun e => e.2.data)
        let s1 := st.1.foldl (fun s q => s.writeGlob q (pieceData (dataOf q.p.lane) q.p)) s1
        let s1 := s1.settleMarks s.curCore
          ((st.1.filter fun q => q.mt != 1).map fun q => (q.pa, pieceData (dataOf q.p.lane) q.p))
        let s1 := (sp.filter fun e => e.2.arc.isStore).foldl (fun s e =>
          (arcPieces e.1 e.2).foldl (fun s p => s.writeSpad p (pieceData e.2.data p)) s) s1
        let rec_ := fun (l : Nat) =>
          ({ addr := ((accs.find? fun e => e.1 == l).map fun e => e.2.at_).getD 0, data := (dataOf l).map Prod.fst, cmp := []
             pois := anyPois (dataOf l) } : LogRec)
        let s1 := (s1.logPieces 0 2 (wide false) rec_ (wide true)).logPieces 0 3 (wide true) rec_
        -- leaves: the lanes of each move, and each taken leaf folds once, in leaf order (R276)
        let next := (s.cur.pc + s.cur.len) % pow2 64
        let lanesAt := fun j => maskOf fun l => live.any fun e => e.1 == l && e.2.leaf == j
        let s1 := (List.range 4).foldl (fun s j =>
          let m := lanesAt j
          if m == 0 then s
          else (s.modGrp fun x => if s.leafTarget f j == next then x else x.setPc m (s.leafTarget f j)).foldSig (s.cur.pc + j) m) s1
        let moved := fault ||| maskOf fun l => live.any fun e => e.1 == l && s.leafTarget f e.2.leaf != next
        if fault == 0 then { s := s1, moved := moved }
        else { s := s1.modGrp fun x => { x with held := x.held ||| fault }, moved := moved, fate := .after (loadFault ld.2) }

end State

/-- `tree` (R356). -/
def execTree (h : Hdr) (f : TF) (s : State) : Host.Outcome State Fault Refusal :=
  .next (s.issueWord h f.uses fun act s => State.effTree h f act s)

end Sys2Proof.Machine
end

