-- ==== Sys2Proof/Machine/Time.lean ====
section
/-! DEFINITION. Time passes (log 13): every counter of nanoseconds and of island clock edges moves on. -/

namespace Sys2Proof.Machine
namespace State

/-- R93, R95, R345: a cluster's counters. -/
def tickCluster (s : State) (ns cl : Nat) : State :=
  let free := s.clusterFree cl
  s.modCluster cl fun c =>
    { c with elapsed := c.elapsed + ns, dwell := c.dwell + ns, freeFor := if free then c.freeFor + ns else 0 }

/-- R345: island clock edges of a cluster's cores; a frequency code is in units of 25 MHz. -/
def tickCores (s : State) (ns cl : Nat) : State :=
  let f := (s.cluster cl).freq.toNat
  (List.range 6).foldl (fun s co => s.modCore (coreKey cl co) fun c => { c with edges40 := c.edges40 + f * ns }) s

/-- R352: what is left of a `runend` of a group whose team is resident; the last part of a cycle is RUNEND_EXPIRY's. -/
def tickGroup (s : State) (ns gk : Nat) (x : Group) : Group :=
  let t := s.team (gk / 32)
  if x.runendLeft == 0 || t.st != .resident then x
  else { x with runendLeft := Nat.max 1 (x.runendLeft - (s.cluster t.cl).freq.toNat * ns) }

/-- R87: the resident time of a team; a draft's move counts, time spent saved does not. -/
def tickTeam (ns : Nat) (x : Team) : Team :=
  if x.st == .resident || x.st == .moving then { x with elapsed := x.elapsed + w64 ns } else x

/-- R70: how long a grid's head has waited. -/
def tickGrid (s : State) (ns : Nat) (r : Grid) : Grid :=
  if r.head.isSome && !s.gridHeld r then { r with headWait := r.headWait + ns } else r

/-- R32, R33: a port's clock counts while the port is enabled; its stream entries come nearer in any case. -/
def tickPort (ns : Nat) (x : Port) : Port :=
  { x with
    cycles2 := if x.en then x.cycles2 + 7 * ns else x.cycles2
    entries := x.entries.map fun e => { e with left := e.left - ns } }

/-- R23: how long the spread has lasted. -/
def tickSpread (s : State) (ns : Nat) : State :=
  if s.spreadHigh then { s with power := { s.power with spreadFor := s.power.spreadFor + ns } }
  else { s with power := { s.power with spreadFor := 0, spreadTold := false } }

/-- Time passes. -/
def tick (s : State) (ns : Nat) : State :=
  let s := (s.streamsDue ns).portsWaiting
  let groups := s.groups.map fun (e : Nat × Group) => (e.1, s.tickGroup ns e.1 e.2)
  let teams := s.teams.map fun (e : Nat × Team) => (e.1, tickTeam ns e.2)
  let grids := s.grids.map fun (e : Nat × Grid) => (e.1, s.tickGrid ns e.2)
  let ports := s.ports.map fun (e : Nat × Port) => (e.1, tickPort ns e.2)
  let s := { s with groups := groups, teams := teams, grids := grids, ports := ports, cleElapsed := s.cleElapsed + ns }
  let s := s.enabledClusters.foldl (fun s cl => (s.tickCores ns cl).tickCluster ns cl) s
  s.tickSpread ns

end State
end Sys2Proof.Machine
end

