-- ==== Sys2Proof/Machine/Turn.lean ====
section
/-! DEFINITION. One turn of the agenda (log 1): what the next step of the machine is. -/

namespace Sys2Proof.Machine

/-- What a turn comes to: an instruction to be given its meaning, a state, or a stop. -/
inductive Todo
  | run (i : Instr) (s : State)
  | done (s : State)
  | stop (f : Fault)

/-- R20, R21, R26: the steps that a device without clocks takes: power, its rails and temperatures, and the sideband. -/
def clockless : Instr → Bool
  | .pwrOkHigh | .powerDown | .railFault | .thermalTrip | .svbNak | .ident | .stateCode | .tmax | .pwr
  | .clmask | .alertReg | .smbUnknownCode => true
  | _ => false

namespace State

/-- A quadrant's turn to issue. -/
def issueTurn (s : State) (cl co qd : Nat) : Todo :=
  if !s.power.clocksOn then .done s
  else
    match s.nextWord cl co qd with
    | (s', some i) => .run i s'
    | (s', none) => .done s'

/-- A step of the device outside a word. -/
def eventTurn (s : State) (i : Instr) (x : Ev) : Todo :=
  if i.hdr.isNone && (s.power.clocksOn || clockless i) then .run i { s with ev := x } else .done s

/-- R360: the command that a partition's handler interface holds. -/
def handlerTurn (s : State) (p : Nat) : Todo :=
  if !s.power.clocksOn || !(s.page p).hbusy then .done s
  else
    match handlerWord (s.page p) with
    | some i => .run i { s with cur := { s.cur with handler := some p } }
    | none => .done s

/-- A hart's store to device memory, which the cores then see (R36). -/
def hartStore (s : State) (pa : Nat) (data : List Byte) : Todo :=
  if devBytes < pa + data.length then .stop (.noSuchAddress pa)
  else if !s.power.clocksOn then .done s
  else .done (s.devWrite pa data false).recheckAll

/-- R21: a step that needs clocks; without them it does nothing. -/
def clocked (s : State) (f : State → State) : Todo := .done (if s.power.clocksOn then f s else s)

/-- The next turn: the agenda's first, or, with an empty agenda, the current quadrant's issue. -/
def nextTodo (s : State) : Todo :=
  match s.agenda with
  | [] => s.issueTurn s.cur.cl s.cur.co s.cur.qd
  | t :: rest =>
    let s := { s with agenda := rest }
    match t with
    | .issue cl co qd => s.issueTurn cl co qd
    | .event i x => s.eventTurn i x
    | .handler p => s.handlerTurn p
    | .tick ns => s.clocked fun s => s.tick ns
    | .sense k v => .done (s.setTemp k v)
    | .evict cl co sec => s.clocked fun s => s.dropSector (coreKey cl co) sec
    | .hartWrite pa data => s.hartStore pa data
    | .hsmStart c h pc a1 => s.clocked fun s => s.hsmStart c h pc a1
    | .hsmStop h => s.clocked fun s => s.hsmStop h
    | .hartMode h user => s.clocked fun s => s.hartMode h user
    | .hartClaim h => s.clocked fun s => s.modHart h fun x => { x with guestIrq := false }
    | .hartStop h subject pid tid => s.clocked fun s => s.answer (.bytes (s.hartIdentity h subject pid tid))
    | .hartReg h r v => s.clocked fun s => s.hartReg h r v
    | .hartTrap h vs cause tval => s.clocked fun s => s.hartTrap h vs cause tval
    | .hartSret h => s.clocked fun s => s.hartSret h
    | .hartLoad h rd pa n signed =>
      if devBytes < pa + n then .stop (.noSuchAddress pa) else s.clocked fun s => s.hartLoad h rd pa n signed
    | .hartMask h rd => s.clocked fun s => s.hartMask h rd
    | .read x => s.clocked fun s => (s.regMark x.space x.off).answer (.value (s.regRead x.space x.off))

end State
end Sys2Proof.Machine
end

