-- ==== Sys2Proof/Machine/Dispatch.lean ====
section
/-! DEFINITION. One arm for each instruction: a direct call of its meaning. -/

namespace Sys2Proof.Machine

/-- The meaning of an instruction: a group's word in the context `cur`, or a step of the device with the operands
that `ev` holds. -/
def exec (i : Instr) (s : State) : Host.Outcome State Fault Refusal :=
  match i with
  | .vadd h f => Sys2Proof.Machine.execVadd h f s
  | .vsub h f => Sys2Proof.Machine.execVsub h f s
  | .vmul h f => Sys2Proof.Machine.execVmul h f s
  | .vmulh h f => Sys2Proof.Machine.execVmulh h f s
  | .vmulhu h f => Sys2Proof.Machine.execVmulhu h f s
  | .vmad h f => Sys2Proof.Machine.execVmad h f s
  | .vand h f => Sys2Proof.Machine.execVand h f s
  | .vor h f => Sys2Proof.Machine.execVor h f s
  | .vxor h f => Sys2Proof.Machine.execVxor h f s
  | .vnot h f => Sys2Proof.Machine.execVnot h f s
  | .vshl h f => Sys2Proof.Machine.execVshl h f s
  | .vshr h f => Sys2Proof.Machine.execVshr h f s
  | .vsar h f => Sys2Proof.Machine.execVsar h f s
  | .vmin h f => Sys2Proof.Machine.execVmin h f s
  | .vminu h f => Sys2Proof.Machine.execVminu h f s
  | .vmax h f => Sys2Proof.Machine.execVmax h f s
  | .vmaxu h f => Sys2Proof.Machine.execVmaxu h f s
  | .vabs h f => Sys2Proof.Machine.execVabs h f s
  | .vneg h f => Sys2Proof.Machine.execVneg h f s
  | .vmov h f => Sys2Proof.Machine.execVmov h f s
  | .vsel h f => Sys2Proof.Machine.execVsel h f s
  | .vcmp h f => Sys2Proof.Machine.execVcmp h f s
  | .vpopc h f => Sys2Proof.Machine.execVpopc h f s
  | .vclz h f => Sys2Proof.Machine.execVclz h f s
  | .vfadd h f => Sys2Proof.Machine.execVfadd h f s
  | .vfsub h f => Sys2Proof.Machine.execVfsub h f s
  | .vfmul h f => Sys2Proof.Machine.execVfmul h f s
  | .vfma h f => Sys2Proof.Machine.execVfma h f s
  | .vfmin h f => Sys2Proof.Machine.execVfmin h f s
  | .vfmax h f => Sys2Proof.Machine.execVfmax h f s
  | .vfneg h f => Sys2Proof.Machine.execVfneg h f s
  | .vfabs h f => Sys2Proof.Machine.execVfabs h f s
  | .vfcmp h f => Sys2Proof.Machine.execVfcmp h f s
  | .vfclass h f => Sys2Proof.Machine.execVfclass h f s
  | .vfrnd h f => Sys2Proof.Machine.execVfrnd h f s
  | .vfdiv h f => Sys2Proof.Machine.execVfdiv h f s
  | .vexp2 h f => Sys2Proof.Machine.execVexp2 h f s
  | .vlog2 h f => Sys2Proof.Machine.execVlog2 h f s
  | .vrcp h f => Sys2Proof.Machine.execVrcp h f s
  | .vrsq h f => Sys2Proof.Machine.execVrsq h f s
  | .vsqrt h f => Sys2Proof.Machine.execVsqrt h f s
  | .vsinpi h f => Sys2Proof.Machine.execVsinpi h f s
  | .vcospi h f => Sys2Proof.Machine.execVcospi h f s
  | .vtanh h f => Sys2Proof.Machine.execVtanh h f s
  | .vsigm h f => Sys2Proof.Machine.execVsigm h f s
  | .vcvt h f => Sys2Proof.Machine.execVcvt h f s
  | .vshuf h f => Sys2Proof.Machine.execVshuf h f s
  | .vbcast h f => Sys2Proof.Machine.execVbcast h f s
  | .vlaneid h f => Sys2Proof.Machine.execVlaneid h f s
  | .vballot h f => Sys2Proof.Machine.execVballot h f s
  | .vany h f => Sys2Proof.Machine.execVany h f s
  | .vall h f => Sys2Proof.Machine.execVall h f s
  | .vred h f => Sys2Proof.Machine.execVred h f s
  | .vscan h f => Sys2Proof.Machine.execVscan h f s
  | .vfred h f => Sys2Proof.Machine.execVfred h f s
  | .vfscan h f => Sys2Proof.Machine.execVfscan h f s
  | .vcvtbsPack h f => Sys2Proof.Machine.execVcvtbsPack h f s
  | .vcvtbsUnpack h f => Sys2Proof.Machine.execVcvtbsUnpack h f s
  | .vaddImm h f => Sys2Proof.Machine.execVaddImm h f s
  | .vmulImm h f => Sys2Proof.Machine.execVmulImm h f s
  | .vandImm h f => Sys2Proof.Machine.execVandImm h f s
  | .vorImm h f => Sys2Proof.Machine.execVorImm h f s
  | .vxorImm h f => Sys2Proof.Machine.execVxorImm h f s
  | .vshlImm h f => Sys2Proof.Machine.execVshlImm h f s
  | .vshrImm h f => Sys2Proof.Machine.execVshrImm h f s
  | .vsarImm h f => Sys2Proof.Machine.execVsarImm h f s
  | .vminImm h f => Sys2Proof.Machine.execVminImm h f s
  | .vminuImm h f => Sys2Proof.Machine.execVminuImm h f s
  | .vmaxImm h f => Sys2Proof.Machine.execVmaxImm h f s
  | .vmaxuImm h f => Sys2Proof.Machine.execVmaxuImm h f s
  | .vcmpImm h f => Sys2Proof.Machine.execVcmpImm h f s
  | .vmovImm h f => Sys2Proof.Machine.execVmovImm h f s
  | .vfaddImm h f => Sys2Proof.Machine.execVfaddImm h f s
  | .vfmulImm h f => Sys2Proof.Machine.execVfmulImm h f s
  | .vfminImm h f => Sys2Proof.Machine.execVfminImm h f s
  | .vfmaxImm h f => Sys2Proof.Machine.execVfmaxImm h f s
  | .vfcmpImm h f => Sys2Proof.Machine.execVfcmpImm h f s
  | .vmovFloatImm h f => Sys2Proof.Machine.execVmovFloatImm h f s
  | .sadd h f => Sys2Proof.Machine.execSadd h f s
  | .ssub h f => Sys2Proof.Machine.execSsub h f s
  | .smul h f => Sys2Proof.Machine.execSmul h f s
  | .smulh h f => Sys2Proof.Machine.execSmulh h f s
  | .smulhu h f => Sys2Proof.Machine.execSmulhu h f s
  | .sdiv h f => Sys2Proof.Machine.execSdiv h f s
  | .sdivu h f => Sys2Proof.Machine.execSdivu h f s
  | .srem h f => Sys2Proof.Machine.execSrem h f s
  | .sremu h f => Sys2Proof.Machine.execSremu h f s
  | .sand h f => Sys2Proof.Machine.execSand h f s
  | .sor h f => Sys2Proof.Machine.execSor h f s
  | .sxor h f => Sys2Proof.Machine.execSxor h f s
  | .snot h f => Sys2Proof.Machine.execSnot h f s
  | .sshl h f => Sys2Proof.Machine.execSshl h f s
  | .sshr h f => Sys2Proof.Machine.execSshr h f s
  | .ssar h f => Sys2Proof.Machine.execSsar h f s
  | .smin h f => Sys2Proof.Machine.execSmin h f s
  | .sminu h f => Sys2Proof.Machine.execSminu h f s
  | .smax h f => Sys2Proof.Machine.execSmax h f s
  | .smaxu h f => Sys2Proof.Machine.execSmaxu h f s
  | .scmp h f => Sys2Proof.Machine.execScmp h f s
  | .ssel h f => Sys2Proof.Machine.execSsel h f s
  | .smov h f => Sys2Proof.Machine.execSmov h f s
  | .smovlo h f => Sys2Proof.Machine.execSmovlo h f s
  | .smovhi h f => Sys2Proof.Machine.execSmovhi h f s
  | .sbfx h f => Sys2Proof.Machine.execSbfx h f s
  | .sbfi h f => Sys2Proof.Machine.execSbfi h f s
  | .sclz h f => Sys2Proof.Machine.execSclz h f s
  | .spopc h f => Sys2Proof.Machine.execSpopc h f s
  | .slea h f => Sys2Proof.Machine.execSlea h f s
  | .srd h f => Sys2Proof.Machine.execSrd h f s
  | .reggrow h f => Sys2Proof.Machine.execReggrow h f s
  | .regshrink h f => Sys2Proof.Machine.execRegshrink h f s
  | .batget h f => Sys2Proof.Machine.execBatget h f s
  | .batpass h f => Sys2Proof.Machine.execBatpass h f s
  | .tskget h f => Sys2Proof.Machine.execTskget h f s
  | .prog h f => Sys2Proof.Machine.execProg h f s
  | .yieldt h f => Sys2Proof.Machine.execYieldt h f s
  | .pair h f => Sys2Proof.Machine.execPair h f s
  | .ld h f => Sys2Proof.Machine.execLd h f s
  | .st h f => Sys2Proof.Machine.execSt h f s
  | .sld h f => Sys2Proof.Machine.execSld h f s
  | .sst h f => Sys2Proof.Machine.execSst h f s
  | .atomAdd h f => Sys2Proof.Machine.execAtomAdd h f s
  | .atomMin h f => Sys2Proof.Machine.execAtomMin h f s
  | .atomMinu h f => Sys2Proof.Machine.execAtomMinu h f s
  | .atomMax h f => Sys2Proof.Machine.execAtomMax h f s
  | .atomMaxu h f => Sys2Proof.Machine.execAtomMaxu h f s
  | .atomAnd h f => Sys2Proof.Machine.execAtomAnd h f s
  | .atomOr h f => Sys2Proof.Machine.execAtomOr h f s
  | .atomXor h f => Sys2Proof.Machine.execAtomXor h f s
  | .atomExch h f => Sys2Proof.Machine.execAtomExch h f s
  | .atomCas h f => Sys2Proof.Machine.execAtomCas h f s
  | .atomFadd h f => Sys2Proof.Machine.execAtomFadd h f s
  | .atomFmin h f => Sys2Proof.Machine.execAtomFmin h f s
  | .atomFmax h f => Sys2Proof.Machine.execAtomFmax h f s
  | .ctradd h f => Sys2Proof.Machine.execCtradd h f s
  | .ctrwait h f => Sys2Proof.Machine.execCtrwait h f s
  | .ctrrd h f => Sys2Proof.Machine.execCtrrd h f s
  | .qpush h f => Sys2Proof.Machine.execQpush h f s
  | .qpop h f => Sys2Proof.Machine.execQpop h f s
  | .waitk h f => Sys2Proof.Machine.execWaitk h f s
  | .pf h f => Sys2Proof.Machine.execPf h f s
  | .fence h f => Sys2Proof.Machine.execFence h f s
  | .cpaG2S h f => Sys2Proof.Machine.execCpaG2S h f s
  | .cpaS2G h f => Sys2Proof.Machine.execCpaS2G h f s
  | .cpaG2G h f => Sys2Proof.Machine.execCpaG2G h f s
  | .cpaS2S h f => Sys2Proof.Machine.execCpaS2S h f s
  | .cpavGlobal h f => Sys2Proof.Machine.execCpavGlobal h f s
  | .cpavScratchpad h f => Sys2Proof.Machine.execCpavScratchpad h f s
  | .cptG2S h f => Sys2Proof.Machine.execCptG2S h f s
  | .cptS2G h f => Sys2Proof.Machine.execCptS2G h f s
  | .cpmGlobal h f => Sys2Proof.Machine.execCpmGlobal h f s
  | .cpmScratchpad h f => Sys2Proof.Machine.execCpmScratchpad h f s
  | .nop h f => Sys2Proof.Machine.execNop h f s
  | .bra h f => Sys2Proof.Machine.execBra h f s
  | .brq h f => Sys2Proof.Machine.execBrq h f s
  | .jmp h f => Sys2Proof.Machine.execJmp h f s
  | .jmpv h f => Sys2Proof.Machine.execJmpv h f s
  | .call h f => Sys2Proof.Machine.execCall h f s
  | .calli h f => Sys2Proof.Machine.execCalli h f s
  | .ret h f => Sys2Proof.Machine.execRet h f s
  | .exitWord h f => Sys2Proof.Machine.execExitWord h f s
  | .trapWord h f => Sys2Proof.Machine.execTrapWord h f s
  | .syscall h f => Sys2Proof.Machine.execSyscall h f s
  | .bkpt h f => Sys2Proof.Machine.execBkpt h f s
  | .runend h f => Sys2Proof.Machine.execRunend h f s
  | .tree h f => Sys2Proof.Machine.execTree h f s
  | .mma h f => Sys2Proof.Machine.execMma h f s
  | .maccld h f => Sys2Proof.Machine.execMaccld h f s
  | .maccst h f => Sys2Proof.Machine.execMaccst h f s
  | .mcvt h f => Sys2Proof.Machine.execMcvt h f s
  | .shpset h f => Sys2Proof.Machine.execShpset h f s
  | .smooth h f => Sys2Proof.Machine.execSmooth h f s
  | .ttq h f => Sys2Proof.Machine.execTtq h f s
  | .ttwait h f => Sys2Proof.Machine.execTtwait h f s
  | .nzscan h f => Sys2Proof.Machine.execNzscan h f s
  | .coll h f => Sys2Proof.Machine.execColl h f s
  | .collw h f => Sys2Proof.Machine.execCollw h f s
  | .crfcfg h f => Sys2Proof.Machine.execCrfcfg h f s
  | .crfroute h f => Sys2Proof.Machine.execCrfroute h f s
  | .crfdep h f => Sys2Proof.Machine.execCrfdep h f s
  | .crfstat h f => Sys2Proof.Machine.execCrfstat h f s
  | .crfdrop h f => Sys2Proof.Machine.execCrfdrop h f s
  | .sfaload h f => Sys2Proof.Machine.execSfaload h f s
  | .sfaclamp h f => Sys2Proof.Machine.execSfaclamp h f s
  | .sfaseed h f => Sys2Proof.Machine.execSfaseed h f s
  | .sfasweep h f => Sys2Proof.Machine.execSfasweep h f s
  | .sfaread h f => Sys2Proof.Machine.execSfaread h f s
  | .sfastat h f => Sys2Proof.Machine.execSfastat h f s
  | .trapret h f => Sys2Proof.Machine.execTrapret h f s
  | .ctlrd h f => Sys2Proof.Machine.execCtlrd h f s
  | .ctlwr h f => Sys2Proof.Machine.execCtlwr h f s
  | .sigrd h f => Sys2Proof.Machine.execSigrd h f s
  | .smpctl h f => Sys2Proof.Machine.execSmpctl h f s
  | .tlbinv h f => Sys2Proof.Machine.execTlbinv h f s
  | .tlbinvall h f => Sys2Proof.Machine.execTlbinvall h f s
  | .cwb h f => Sys2Proof.Machine.execCwb h f s
  | .cinv h f => Sys2Proof.Machine.execCinv h f s
  | .halt h f => Sys2Proof.Machine.execHalt h f s
  | .strict h f => Sys2Proof.Machine.execStrict h f s
  | .pwrOkHigh => Sys2Proof.Machine.execPwrOkHigh s
  | .perstNDeassert => Sys2Proof.Machine.execPerstNDeassert s
  | .railFault => Sys2Proof.Machine.execRailFault s
  | .powerDown => Sys2Proof.Machine.execPowerDown s
  | .thermalHold => Sys2Proof.Machine.execThermalHold s
  | .thermalTrip => Sys2Proof.Machine.execThermalTrip s
  | .thermalEvent => Sys2Proof.Machine.execThermalEvent s
  | .svbNak => Sys2Proof.Machine.execSvbNak s
  | .voltageSettled => Sys2Proof.Machine.execVoltageSettled s
  | .frequencyStepEnd => Sys2Proof.Machine.execFrequencyStepEnd s
  | .ident => Sys2Proof.Machine.execIdent s
  | .stateCode => Sys2Proof.Machine.execStateCode s
  | .tmax => Sys2Proof.Machine.execTmax s
  | .pwr => Sys2Proof.Machine.execPwr s
  | .pwrRefresh => Sys2Proof.Machine.execPwrRefresh s
  | .clmask => Sys2Proof.Machine.execClmask s
  | .alertReg => Sys2Proof.Machine.execAlertReg s
  | .smbUnknownCode => Sys2Proof.Machine.execSmbUnknownCode s
  | .portEnable => Sys2Proof.Machine.execPortEnable s
  | .portDisable => Sys2Proof.Machine.execPortDisable s
  | .portModeSet => Sys2Proof.Machine.execPortModeSet s
  | .portTrained => Sys2Proof.Machine.execPortTrained s
  | .dataFlitReceive => Sys2Proof.Machine.execDataFlitReceive s
  | .ackFlitReceive => Sys2Proof.Machine.execAckFlitReceive s
  | .replayRequest => Sys2Proof.Machine.execReplayRequest s
  | .ackTimer => Sys2Proof.Machine.execAckTimer s
  | .retrainDone => Sys2Proof.Machine.execRetrainDone s
  | .streamFlitReceive => Sys2Proof.Machine.execStreamFlitReceive s
  | .streamEntryWrite => Sys2Proof.Machine.execStreamEntryWrite s
  | .bootVerify => Sys2Proof.Machine.execBootVerify s
  | .configRequest => Sys2Proof.Machine.execConfigRequest s
  | .rcvgo => Sys2Proof.Machine.execRcvgo s
  | .getVersion => Sys2Proof.Machine.execGetVersion s
  | .getCapabilities => Sys2Proof.Machine.execGetCapabilities s
  | .negotiateAlgorithms => Sys2Proof.Machine.execNegotiateAlgorithms s
  | .getDigests => Sys2Proof.Machine.execGetDigests s
  | .getCertificate => Sys2Proof.Machine.execGetCertificate s
  | .challenge => Sys2Proof.Machine.execChallenge s
  | .getMeasurements => Sys2Proof.Machine.execGetMeasurements s
  | .spdmUnsupportedRequest => Sys2Proof.Machine.execSpdmUnsupportedRequest s
  | .create => Sys2Proof.Machine.execCreate s
  | .modify => Sys2Proof.Machine.execModify s
  | .start => Sys2Proof.Machine.execStart s
  | .stop => Sys2Proof.Machine.execStop s
  | .partitionStopped => Sys2Proof.Machine.execPartitionStopped s
  | .delete => Sys2Proof.Machine.execDelete s
  | .setwin => Sys2Proof.Machine.execSetwin s
  | .query => Sys2Proof.Machine.execQuery s
  | .mailboxUnknownCmd => Sys2Proof.Machine.execMailboxUnknownCmd s
  | .getInfo => Sys2Proof.Machine.execGetInfo s
  | .setRoot => Sys2Proof.Machine.execSetRoot s
  | .setTrapHart => Sys2Proof.Machine.execSetTrapHart s
  | .setWbase => Sys2Proof.Machine.execSetWbase s
  | .getBlkacc => Sys2Proof.Machine.execGetBlkacc s
  | .sbiUnknownFunction => Sys2Proof.Machine.execSbiUnknownFunction s
  | .bar4Read => Sys2Proof.Machine.execBar4Read s
  | .bar4Write => Sys2Proof.Machine.execBar4Write s
  | .registerWrite => Sys2Proof.Machine.execRegisterWrite s
  | .w1cClear => Sys2Proof.Machine.execW1cClear s
  | .queueEnable => Sys2Proof.Machine.execQueueEnable s
  | .queueDisable => Sys2Proof.Machine.execQueueDisable s
  | .doorbell => Sys2Proof.Machine.execDoorbell s
  | .launchRecordConsume => Sys2Proof.Machine.execLaunchRecordConsume s
  | .gridEnd => Sys2Proof.Machine.execGridEnd s
  | .dispatchDecision => Sys2Proof.Machine.execDispatchDecision s
  | .indexOrderEviction => Sys2Proof.Machine.execIndexOrderEviction s
  | .restoreComplete => Sys2Proof.Machine.execRestoreComplete s
  | .taskSplit => Sys2Proof.Machine.execTaskSplit s
  | .preempt => Sys2Proof.Machine.execPreempt s
  | .releaseHeld => Sys2Proof.Machine.execReleaseHeld s
  | .preemptEstimate => Sys2Proof.Machine.execPreemptEstimate s
  | .drainDeadline => Sys2Proof.Machine.execDrainDeadline s
  | .saveComplete => Sys2Proof.Machine.execSaveComplete s
  | .opclsWrite => Sys2Proof.Machine.execOpclsWrite s
  | .poolReassign => Sys2Proof.Machine.execPoolReassign s
  | .boostRefill => Sys2Proof.Machine.execBoostRefill s
  | .runStart => Sys2Proof.Machine.execRunStart s
  | .longLatencyResult => Sys2Proof.Machine.execLongLatencyResult s
  | .trapRecord => Sys2Proof.Machine.execTrapRecord s
  | .senioritySave => Sys2Proof.Machine.execSenioritySave s
  | .frost => Sys2Proof.Machine.execFrost s
  | .thaw => Sys2Proof.Machine.execThaw s
  | .barometerTick => Sys2Proof.Machine.execBarometerTick s
  | .stallSample => Sys2Proof.Machine.execStallSample s
  | .draftTick => Sys2Proof.Machine.execDraftTick s
  | .draftStop => Sys2Proof.Machine.execDraftStop s
  | .draftAbandon => Sys2Proof.Machine.execDraftAbandon s
  | .draftRelease => Sys2Proof.Machine.execDraftRelease s
  | .copyLanding => Sys2Proof.Machine.execCopyLanding s
  | .multicastDelivery => Sys2Proof.Machine.execMulticastDelivery s
  | .remoteAccess => Sys2Proof.Machine.execRemoteAccess s
  | .cpavCommit => Sys2Proof.Machine.execCpavCommit s
  | .tlbWalk => Sys2Proof.Machine.execTlbWalk s
  | .atomicExecute => Sys2Proof.Machine.execAtomicExecute s
  | .sideLogRetry => Sys2Proof.Machine.execSideLogRetry s
  | .atomicTokenPass => Sys2Proof.Machine.execAtomicTokenPass s
  | .sfaLoadRun => Sys2Proof.Machine.execSfaLoadRun s
  | .sfaClampRun => Sys2Proof.Machine.execSfaClampRun s
  | .sfaSeedRun => Sys2Proof.Machine.execSfaSeedRun s
  | .sfaColourStep => Sys2Proof.Machine.execSfaColourStep s
  | .sfaReadRun => Sys2Proof.Machine.execSfaReadRun s
  | .depositArrival => Sys2Proof.Machine.execDepositArrival s
  | .depositLanded => Sys2Proof.Machine.execDepositLanded s
  | .slotDeadline => Sys2Proof.Machine.execSlotDeadline s
  | .softError => Sys2Proof.Machine.execSoftError s
  | .ckpt0Go => Sys2Proof.Machine.execCkpt0Go s
  | .trapRingSet => Sys2Proof.Machine.execTrapRingSet s
  | .dbgselGo => Sys2Proof.Machine.execDbgselGo s
  | .traceArm => Sys2Proof.Machine.execTraceArm s
  | .samplingEnable => Sys2Proof.Machine.execSamplingEnable s
  | .sampleRecord => Sys2Proof.Machine.execSampleRecord s
  | .hangCheck => Sys2Proof.Machine.execHangCheck s
  | .icacheFill => Sys2Proof.Machine.execIcacheFill s
  | .runendExpiry => Sys2Proof.Machine.execRunendExpiry s
  | .matrixEngineExec => Sys2Proof.Machine.execMatrixEngineExec s
  | .macroOp => Sys2Proof.Machine.execMacroOp s
  | .nzsRun => Sys2Proof.Machine.execNzsRun s
  | .collFlitArrival => Sys2Proof.Machine.execCollFlitArrival s
  | .collStepTimeout => Sys2Proof.Machine.execCollStepTimeout s
  | .collResultTimeout => Sys2Proof.Machine.execCollResultTimeout s
  | .qpushSlotWrite => Sys2Proof.Machine.execQpushSlotWrite s
  | .qpopEntryCopy => Sys2Proof.Machine.execQpopEntryCopy s
  | .thermalHoldEnd => Sys2Proof.Machine.execThermalHoldEnd s

end Sys2Proof.Machine
end

