-- ==== Sys2Proof/Machine/Step.lean ====
section
/-! DEFINITION. One step of the machine, and a machine whose next step fetches a given instruction. -/

namespace Sys2Proof.Machine

/-- One step: the next turn, and the meaning of the instruction it comes to. -/
def step (s : State) : Host.Outcome State Fault Refusal :=
  match s.nextTodo with
  | .run i s' => exec i s'
  | .done s' => .next s'
  | .stop f => .fault f

/-- `s` with a program of one instruction in place: a partition with page tables that map virtual page 0 to physical page
5, a grid of one team of one group at address 0 (launch budget 256 registers, 64 KiB of scratchpad, 16 tiles), resident
in slot 0 of quadrant 0, and the instruction's bytes, most significant first, then zeros, at its PC (log 5). -/
def State.withFetchWord (s : State) (nbits w : Nat) : State :=
  let code := beBytes (nbits / 8) w ++ List.replicate 49 0
  let m := Memory.setBytes s.mem 0x10000 (leBytes 8 0x20001)
  let m := Memory.setBytes m 0x20000 (leBytes 8 0x30001)
  let m := Memory.setBytes m 0x30000 (leBytes 8 0x40001)
  let m := Memory.setBytes m 0x40000 (leBytes 8 0x5000F)
  let m := Memory.setBytes m 0x50000 (code.take 64)
  let grid : Grid :=
    { part := 0
      record := [w64 (1 * pow2 20), 0, 0, w64 (1 * pow2 59 + 32 * pow2 53 + 32 * pow2 47),
                 w64 (64 * pow2 32 + 16 * pow2 27), 0, 0, 0, 0, 0, 0, 0, 0, 0, 0, 0] }
  { s with
    power := { s.power with pwrOk := true, clocksOn := true }
    mem := m
    parts := SMap.put s.parts 0 { exists_ := true, running := true, clusters := 1, harts := 1, size := 0xA000000000,
                                  root := some 0x10000 }
    grids := SMap.put s.grids 0 grid
    teams := SMap.put s.teams (teamKey 0 0) { st := .resident, cl := 0, co := 0 }
    groups := SMap.put s.groups (grpKey 0 0 0) { budget := 256, pcs := [(0, Mask.full)] }
    quads := SMap.put s.quads 0 { slots := [(0, grpKey 0 0 0)] }
    cores := SMap.put s.cores 0 { pword := some 0, frost := false }
    agenda := []
    cur := { s.cur with cl := 0, co := 0, qd := 0 } }

end Sys2Proof.Machine
end

