-- ==== Sys2Proof/Safety.lean ====
section
/-! DEFINITION. What counts as a safe run, and the terms in which claims speak of one word: when it issues, and what it
leaves. -/

namespace Sys2Proof

/-- The machine goes on from a state for `n` steps, without a fault or a refusal. -/
def runsOn (s : Machine.State) : Nat → Bool
  | 0 => true
  | n + 1 =>
    match Machine.step s with
    | .next s' => runsOn s' n
    | .fault _ => false
    | .refused _ => false

namespace Machine

/-- Device and host memory are in canonical form. -/
abbrev State.MemWf (s : State) : Prop := Memory.wf s.mem = true ∧ Memory.wf s.hostMem = true

/-! ### When a word issues -/

/-- The state lets a word with header `h` and token-wait mask `tw` issue and go on to the next word: its group is awake and
under no step or strict control (R108, R109, R375), nothing makes it wait (R107, R293), and a scalar guard holds (R172). -/
structure State.Issues (s : State) (h : Hdr) (tw : BitVec 8) : Prop where
  awake : s.grp.park = none
  noStep : s.grp.step = false
  noStrictRun : s.grp.srun = false
  noStrictLook : s.grp.sla = false
  noWait : laBlocks s.grp s.cur.lanes = false
  guard : s.scalarGuard h = true
  tokens : s.grp.tokensDone tw = true

/-- The issuing word's team and group are numbers that the spec has: the widths of R59. -/
def State.Named (s : State) : Prop := s.cur.t < 1048576 ∧ s.cur.grp < 32

/-- R98: the v registers of a list lie below the group's budget. -/
def State.Below (s : State) (l : List (BitVec 8)) : Prop := ∀ n ∈ l, n.toNat < s.grp.budget

/-- R98: the registers VD, VA and, where it names a vector, VB of a V3 word lie below the budget. -/
def State.FitsV3 (s : State) (f : V3) : Prop := s.Below [f.vd, f.va] ∧ (f.bs = false → s.Below [f.vb])

/-- R98: the registers of a VI word lie below the budget. -/
def State.FitsVI (s : State) (f : VI) : Prop := s.Below [f.vd, f.va]

/-- R294: lane `l` of the second source of a V3 word, and its poison mark: a register, or with BS the low word of a scalar. -/
def State.srcB (s : State) (f : V3) (l : Nat) : W32 :=
  if f.bs then (s.src.sget (f.vb.toNat % 64)).lo else s.src.lane f.vb.toNat l
def State.srcBPois (s : State) (f : V3) (l : Nat) : Bool :=
  if f.bs then (s.src.sgetPois (f.vb.toNat % 64)).getLsbD 0 else (s.src.vgetPois f.vb.toNat).getLsbD l

/-- R338: the two operands of an S word, and is a word of theirs that it reads poisoned. -/
def State.sA (s : State) (f : SF) : W64 := s.src.sget f.sa.toNat
def State.sB (s : State) (f : SF) : W64 := if f.is then f.imm.signExtend 64 else s.src.sget f.sb.toNat
def State.sMark (s : State) (f : SF) (n : BitVec 6) : Bool :=
  if f.w then (s.src.sgetPois n.toNat).getLsbD 0 else s.src.sgetPois n.toNat != 0

/-! ### What a word leaves -/

/-- Nothing changed but the issuing group, its quadrant's run, and the marks that a word issued (R59, R124) and the counters
of its cluster (R261, R262). -/
structure State.OnlyGroup (s t : State) : Prop where
  others : ∀ gk, gk ≠ s.curGrp → t.group gk = s.group gk
  teams : ∀ k, { t.team k with placing := false } = { s.team k with placing := false }
  grids : ∀ g, { t.grid g with issued := false } = { s.grid g with issued := false }
  clusters : ∀ c, { t.cluster c with counters := [] } = { s.cluster c with counters := [] }
  quads : ∀ q, q ≠ s.curQuad → t.quad q = s.quad q
  device : t = { s with groups := t.groups, teams := t.teams, grids := t.grids, clusters := t.clusters, quads := t.quads }

/-- Every issuing lane stands at the next word. -/
def State.Passed (s t : State) : Prop :=
  ∀ l, l < 128 → s.cur.lanes.getLsbD l = true → s.grp.exited.getLsbD l = false →
    t.grp.pcOf l = (s.cur.pc + s.cur.len) % pow2 64

/-- The word takes its effect and goes on: it answers a next state in which its lanes stand at the next word, only its group
changed, and of the group only its registers, as `R` says. -/
def State.Yields (s : State) (i : Instr) (R : Regs → Prop) : Prop :=
  ∃ t, exec i s = .next t ∧ s.Passed t ∧ s.OnlyGroup t ∧ R t.grp.regs ∧
    t.grp = { countLa s.grp s.nextId s.cur.lanes with regs := t.grp.regs, pcs := t.grp.pcs }

/-- v[n] holds `val` and the marks `pois` in the active lanes; every other register and lane is as it was (R371). -/
def State.VecIs (s : State) (act : Mask) (n : Nat) (val : Nat → W32) (pois : Nat → Bool) (r : Regs) : Prop :=
  (∀ l, l < 128 → r.lane n l = if act.getLsbD l then val l else s.grp.regs.lane n l) ∧
  (∀ l, l < 128 → (r.vgetPois n).getLsbD l = if act.getLsbD l then pois l else (s.grp.regs.vgetPois n).getLsbD l) ∧
  (∀ m, m ≠ n → r.vget m = s.grp.regs.vget m ∧ r.vgetPois m = s.grp.regs.vgetPois m) ∧
  r = { s.grp.regs with v := r.v, vPois := r.vPois }

/-- p[n] holds `val` in the active lanes, and p0 still reads true; every other register and lane is as it was (R100). -/
def State.PredIs (s : State) (act : Mask) (n : Nat) (val : Nat → Bool) (r : Regs) : Prop :=
  (∀ l, l < 128 → (r.pget n).getLsbD l = if n = 0 then true else if act.getLsbD l then val l else (s.grp.regs.pget n).getLsbD l) ∧
  (∀ m, m ≠ n → r.pget m = s.grp.regs.pget m) ∧ r = { s.grp.regs with p := r.p }

/-- s[n] holds `val` and the marks `pois`, and s0 still reads zero; every other register is as it was (R338). -/
def State.ScalIs (s : State) (n : Nat) (val : W64) (pois : BitVec 2) (r : Regs) : Prop :=
  r.sget n = (if n = 0 then 0 else val) ∧ r.sgetPois n = (if n = 0 then 0 else pois) ∧
  (∀ m, m ≠ n → r.sget m = s.grp.regs.sget m ∧ r.sgetPois m = s.grp.regs.sgetPois m) ∧
  r = { s.grp.regs with s := r.s, sPois := r.sPois }

/-- q[n] holds `b`, and q7 still reads true; every other register is as it was. -/
def State.FlagIs (s : State) (n : Nat) (b : Bool) (r : Regs) : Prop :=
  r.qget n = (n == 7 || b) ∧ (∀ m, m ≠ n → m < 8 → r.qget m = s.grp.regs.qget m) ∧ r = { s.grp.regs with q := r.q }

/-- A two-source vector word: lane L of VD becomes `op a b` in the active lanes; marks pass on (R262). -/
def State.VecOp2 (s : State) (h : Hdr) (f : V3) (i : Instr) (op : W32 → W32 → W32) : Prop :=
  s.Yields i (s.VecIs (s.activeLanes h) f.vd.toNat (fun l => op (s.src.lane f.va.toNat l) (s.srcB f l))
    fun l => (s.src.vgetPois f.va.toNat).getLsbD l || s.srcBPois f l)

/-- A one-source vector word. -/
def State.VecOp1 (s : State) (h : Hdr) (f : V3) (i : Instr) (op : W32 → W32) : Prop :=
  s.Yields i (s.VecIs (s.activeLanes h) f.vd.toNat (fun l => op (s.src.lane f.va.toNat l))
    fun l => (s.src.vgetPois f.va.toNat).getLsbD l)

/-- A vector word with a source and an immediate. -/
def State.VecOpImm (s : State) (h : Hdr) (f : VI) (i : Instr) (op : W32 → W32 → W32) : Prop :=
  s.Yields i (s.VecIs (s.activeLanes h) f.vd.toNat (fun l => op (s.src.lane f.va.toNat l) f.imm)
    fun l => (s.src.vgetPois f.va.toNat).getLsbD l)

/-- A two-operand scalar word: s[SD] becomes `op64 a b`, or under W the sign-extended `op32` of the low words (R338). -/
def State.ScalOp2 (s : State) (f : SF) (i : Instr) (op64 : W64 → W64 → W64) (op32 : W32 → W32 → W32) : Prop :=
  s.Yields i (s.ScalIs f.sd.toNat
    (if f.w then (op32 (s.sA f).lo (s.sB f).lo).signExtend 64 else op64 (s.sA f) (s.sB f))
    (if s.sMark f f.sa || (!f.is && s.sMark f f.sb) then 3 else 0))

/-- A one-operand scalar word. -/
def State.ScalOp1 (s : State) (f : SF) (i : Instr) (op64 : W64 → W64) (op32 : W32 → W32) : Prop :=
  s.Yields i (s.ScalIs f.sd.toNat (if f.w then (op32 (s.sA f).lo).signExtend 64 else op64 (s.sA f))
    (if s.sMark f f.sa then 3 else 0))

/-- A long-latency word (R107): it goes on at once, no register has changed, and one result is due whose writes meet `W`
when its `left` outstanding parts have come. -/
def State.Defers (s : State) (h : Hdr) (i : Instr) (W : List RegWr → Prop) (left : Nat) : Prop :=
  ∃ t, exec i s = .next t ∧ s.Passed t ∧ t.grp.regs = s.grp.regs ∧
    ∃ d ∈ t.grp.due, d.id = s.nextId ∧ d.pc = s.cur.pc ∧ d.la = h.la.toNat ∧ d.mask = s.cur.lanes ∧ d.count = [] ∧
      W d.writes ∧ d.left = left

/-- A due write of v[n]: in the lanes of `act` the values `val` and the marks `pois`. -/
def VecWr (act : Mask) (n : Nat) (val : Nat → W32) (pois : Nat → Bool) (w : RegWr) : Prop :=
  ∃ vals pm, w = .vec n act vals pm ∧
    ∀ l, l < 128 → act.getLsbD l = true → vals.getD l 0 = val l ∧ pm.getLsbD l = pois l

/-- The word takes the effect that leads to the state `e` and goes on: the next state is `e` but for the marks of an issue,
and the issuing lanes stand at the next word. -/
def State.Takes (s : State) (i : Instr) (e : State) : Prop :=
  ∃ t, exec i s = .next t ∧ s.Passed t ∧ e.OnlyGroup t ∧
    t.grp = { countLa e.grp s.nextId s.cur.lanes with pcs := t.grp.pcs }

/-- As `Takes`, and the group is then parked for the reason `w` (R117). -/
def State.Parks (s : State) (i : Instr) (e : State) (w : Park) : Prop :=
  ∃ t, exec i s = .next t ∧ s.Passed t ∧ e.OnlyGroup t ∧
    t.grp = { countLa e.grp s.nextId s.cur.lanes with pcs := t.grp.pcs, park := some w, stepPend := none }

/-- The word takes no effect and its group traps (R268): it parks with reason trap, its lanes stand where they stood, no
register changed, and the last record that waits for the partition's ring names the cause, the word's address, and the lanes. -/
def State.Traps (s : State) (i : Instr) (cause : Nat) (m : Mask) (detail : W64) : Prop :=
  ∃ t, exec i s = .next t ∧ t.grp.park = some .trap ∧ t.grp.trapCause = some cause ∧ t.grp.regs = s.grp.regs ∧
    t.grp.pcs = s.grp.pcs ∧ t.mem = s.mem ∧
    ∃ r, (t.page s.curGrid.part).trapq = (s.page s.curGrid.part).trapq ++ [r] ∧ r.cause = cause ∧ r.kind = 0 ∧
      r.g = s.cur.g ∧ r.t = s.cur.t ∧ r.grp = s.cur.grp ∧ r.pc = w64 (s.cur.pc % pow2 57) ∧ r.mask = m ∧ r.detail = detail

/-! ### Words of the access layout -/

/-- A word of the access layout can take its effect for its active lanes: it issues, its v registers lie below the budget,
no acquire of its group is still to be performed and, for a release, nothing is left to wait for (R169), and its addresses
are formed from unpoisoned words (R263). -/
structure State.MemReady (s : State) (h : Hdr) (f : MF) (regs : List Nat) : Prop where
  issues : s.Issues h f.tw
  below : ∀ n ∈ regs, n < s.grp.budget
  noAcquire : s.acquireOut s.curGrp = false
  released : f.isRel = true → s.releaseWait f.scp.toNat = none
  clean : s.mPois f (s.activeLanes h) = 0

/-- The byte of device memory at `a` as core `k` sees it: its L1's valid byte, else the home slice's (R139). -/
def State.seen (s : State) (k a : Nat) : Byte :=
  let x := (s.core k).l1.get (a / 32) {}
  if x.valid.getLsbD (a % 32) then x.data.getD (a % 32) 0 else Memory.byte s.mem a

/-- R4: core `k`'s L1 has room for the lines of some pieces beside those that it holds. -/
def State.L1Fits (s : State) (k : Nat) (qs : List GPiece) : Prop :=
  (distinct (State.l1Lines (s.core k) ++ qs.flatMap fun q => linesOf q.pa q.p.n)).length ≤ 2048

/-- A piece covers a physical address. -/
def GPiece.Covers (q : GPiece) (a : Nat) : Prop := q.pa ≤ a ∧ a < q.pa + q.p.n

/-- The scratchpad after some pieces are written in order, each reduced against the allocation (R134), or dropped. -/
def spadAfter (alloc : Nat) (ps : List Piece) (data : Piece → List Byte) (m : Memory) : Memory :=
  ps.foldl (fun m p => match State.spReduce alloc p.at_ with
    | some o => Memory.setBytes m o (data p)
    | none => m) m

/-- R134: a scratchpad after pieces of bytes are written in order, each byte reduced against the allocation, or dropped. -/
def spadPut (alloc : Nat) (out : List (Nat × List Byte)) (m : Memory) : Memory :=
  out.foldl (fun m o => (List.range o.2.length).foldl (fun m i => match State.spReduce alloc (o.1 + i) with
    | some x => Memory.setByte m x (o.2.getD i 0)
    | none => m) m) m

/-- A word of the access layout goes on with no register changed, and the machine then meets `P`. -/
def State.Goes (s : State) (i : Instr) (P : State → Prop) : Prop :=
  ∃ t, exec i s = .next t ∧ s.Passed t ∧ t.grp.regs = s.grp.regs ∧ P t

/-- A step outside the words answers a next state that meets `P`. -/
def State.Then (s : State) (i : Instr) (P : State → Prop) : Prop := ∃ t, exec i s = .next t ∧ P t

/-- No group waits for a counter, so that no write wakes one. -/
def State.Calm (s : State) : Prop :=
  ∀ gk l want scp rmt, (s.group gk).park ≠ some (.counter l want scp rmt)

/-- Two states hold the same bytes, in device memory and in host memory. -/
def State.SameMem (t u : State) : Prop := t.mem = u.mem ∧ t.hostMem = u.hostMem

/-- Bytes put at a physical address of memory type `mt` (1: host memory). -/
def State.putPhys (u : State) (pa mt : Nat) (bs : List Byte) : State :=
  if mt = 1 then { u with hostMem := Memory.setBytes u.hostMem pa bs } else { u with mem := Memory.setBytes u.mem pa bs }

/-- R152, R413: bytes put at a slot that a partition's own tables map, A and D set in its leaf; where they map none, nothing. -/
def State.putAt (u : State) (p va : Nat) (bs : List Byte) : State :=
  match u.walkFor p va true with
  | some (pa, mt) => (u.vaTouch p va bs.length true).putPhys pa mt bs
  | none => u

/-- R169: the 8-byte counter at a virtual address of a partition rises by `n`. -/
def State.raised (u : State) (p va : Nat) (n : W64) : State := u.vaWrite p va (leBytes 8 (u.vaQ p va + n).toNat)

/-- An operation of the issuing group is sent out: a flight with the body `b`. -/
def State.Sends (s t : State) (b : Body) : Prop :=
  ∃ fl ∈ t.flights, fl.body = b ∧ s.nextId ≤ fl.id ∧ fl.g = s.cur.g ∧ fl.t = s.cur.t ∧ fl.grp = s.cur.grp ∧ fl.core = s.curCore

end Machine
end Sys2Proof
end

