-- ==== Sys2Proof/Certificates/Slice0/Obligations.lean ====
section
/-! DEFINITION. The statements for the provers. -/

open Sys2Proof Sys2Proof.Machine

/-- R376, R377: the two-source integer vector words without `.sat`, each with its operation on 32-bit lanes. -/
def Obligations.VectorIntegerTwoSource : Prop :=
  ∀ (s : State) (h : Hdr) (f : V3), s.Issues h 0 → s.FitsV3 f →
    let is := s.VecOp2 h f
    (f.sat = false →
      is (.vadd h f) (fun a b => a + b) ∧ is (.vsub h f) (fun a b => a - b) ∧ is (.vmul h f) (fun a b => a * b)) ∧
    is (.vmulh h f) (fun a b => BitVec.ofInt 32 (a.toInt * b.toInt / 4294967296)) ∧
    is (.vmulhu h f) (fun a b => BitVec.ofNat 32 (a.toNat * b.toNat / 4294967296)) ∧
    is (.vand h f) (fun a b => a &&& b) ∧ is (.vor h f) (fun a b => a ||| b) ∧ is (.vxor h f) (fun a b => a ^^^ b) ∧
    is (.vshl h f) (fun a b => a <<< (b.toNat % 32)) ∧ is (.vshr h f) (fun a b => a >>> (b.toNat % 32)) ∧
    is (.vsar h f) (fun a b => a.sshiftRight (b.toNat % 32)) ∧
    is (.vmin h f) (fun a b => BitVec.ofInt 32 (min a.toInt b.toInt)) ∧
    is (.vmax h f) (fun a b => BitVec.ofInt 32 (max a.toInt b.toInt)) ∧
    is (.vminu h f) (fun a b => BitVec.ofNat 32 (min a.toNat b.toNat)) ∧
    is (.vmaxu h f) (fun a b => BitVec.ofNat 32 (max a.toNat b.toNat))

/-- R377: `.sat` computes the exact result and clamps it, as INT32 or (TY 0x0B) as UINT32. -/
def Obligations.VectorSaturation : Prop :=
  ∀ (s : State) (h : Hdr) (f : V3), s.Issues h 0 → s.FitsV3 f → f.sat = true →
    let clamp := fun (lo hi v : Int) => BitVec.ofInt 32 (max lo (min hi v))
    let signed := fun (op : Int → Int → Int) (a b : W32) => clamp (-2147483648) 2147483647 (op a.toInt b.toInt)
    let unsigned := fun (op : Int → Int → Int) (a b : W32) => clamp 0 4294967295 (op a.toNat b.toNat)
    (f.ty = 0 →
      s.VecOp2 h f (.vadd h f) (signed (· + ·)) ∧ s.VecOp2 h f (.vsub h f) (signed (· - ·)) ∧
      s.VecOp2 h f (.vmul h f) (signed (· * ·)) ∧
      s.VecOp1 h f (.vabs h f) (fun a => clamp (-2147483648) 2147483647 |a.toInt|) ∧
      s.VecOp1 h f (.vneg h f) (fun a => clamp (-2147483648) 2147483647 (-a.toInt))) ∧
    (f.ty = 0x0B →
      s.VecOp2 h f (.vadd h f) (unsigned (· + ·)) ∧ s.VecOp2 h f (.vsub h f) (unsigned (· - ·)) ∧
      s.VecOp2 h f (.vmul h f) (unsigned (· * ·)))

/-- R376, R380: the integer vector words with one source or three, the moves, the select and the lane number. -/
def Obligations.VectorIntegerOneAndThreeSource : Prop :=
  ∀ (s : State) (h : Hdr) (f : V3), s.Issues h 0 → s.FitsV3 f →
    let a := fun l => s.src.lane f.va.toNat l
    let mark := fun l => (s.src.vgetPois f.va.toNat).getLsbD l
    let is := fun (i : Instr) (val : Nat → W32) (pois : Nat → Bool) =>
      s.Yields i (s.VecIs (s.activeLanes h) f.vd.toNat val pois)
    (s.Below [f.vc] → is (.vmad h f) (fun l => a l * s.srcB f l + s.src.lane f.vc.toNat l)
      (fun l => mark l || s.srcBPois f l || (s.src.vgetPois f.vc.toNat).getLsbD l)) ∧
    s.VecOp1 h f (.vnot h f) (fun x => ~~~x) ∧
    (f.sat = false → s.VecOp1 h f (.vabs h f) (fun x => if x.msb then 0 - x else x) ∧
      s.VecOp1 h f (.vneg h f) (fun x => 0 - x)) ∧
    s.VecOp1 h f (.vpopc h f) (fun x => BitVec.ofNat 32 ((List.range 32).countP fun i => x.getLsbD i)) ∧
    s.VecOp1 h f (.vclz h f) (fun x => BitVec.ofNat 32 (((List.range 32).find? fun i => x.getLsbD (31 - i)).getD 32)) ∧
    (f.bs = false → is (.vmov h f) a mark) ∧ (f.bs = true → is (.vmov h f) (s.srcB f) (s.srcBPois f)) ∧
    is (.vsel h f) (fun l => if (s.src.pget (f.imm8.toNat % 16)).getLsbD l then a l else s.srcB f l)
      (fun l => mark l || s.srcBPois f l) ∧
    is (.vlaneid h f) (fun l => BitVec.ofNat 32 l) (fun _ => false)

/-- R377, R379, R391: the vector words with an immediate, and their `.sat` forms: the exact result clamped as INT32 or, with TY
0x0B, as UINT32. -/
def Obligations.VectorImmediate : Prop :=
  ∀ (s : State) (h : Hdr) (f : VI), s.Issues h 0 → s.FitsVI f →
    let is := s.VecOpImm h f
    let clamp := fun (lo hi v : Int) => BitVec.ofInt 32 (max lo (min hi v))
    let signed := fun (op : Int → Int → Int) (a b : W32) => clamp (-2147483648) 2147483647 (op a.toInt b.toInt)
    let unsigned := fun (op : Int → Int → Int) (a b : W32) => clamp 0 4294967295 (op a.toNat b.toNat)
    (f.sat = false → is (.vaddImm h f) (fun a b => a + b) ∧ is (.vmulImm h f) (fun a b => a * b)) ∧
    (f.sat = true → f.ty = 0 → is (.vaddImm h f) (signed (· + ·)) ∧ is (.vmulImm h f) (signed (· * ·))) ∧
    (f.sat = true → f.ty = 0x0B → is (.vaddImm h f) (unsigned (· + ·)) ∧ is (.vmulImm h f) (unsigned (· * ·))) ∧
    is (.vandImm h f) (fun a b => a &&& b) ∧ is (.vorImm h f) (fun a b => a ||| b) ∧
    is (.vxorImm h f) (fun a b => a ^^^ b) ∧ is (.vshlImm h f) (fun a b => a <<< (b.toNat % 32)) ∧
    is (.vshrImm h f) (fun a b => a >>> (b.toNat % 32)) ∧ is (.vsarImm h f) (fun a b => a.sshiftRight (b.toNat % 32)) ∧
    is (.vminImm h f) (fun a b => BitVec.ofInt 32 (min a.toInt b.toInt)) ∧
    is (.vmaxImm h f) (fun a b => BitVec.ofInt 32 (max a.toInt b.toInt)) ∧
    is (.vminuImm h f) (fun a b => BitVec.ofNat 32 (min a.toNat b.toNat)) ∧
    is (.vmaxuImm h f) (fun a b => BitVec.ofNat 32 (max a.toNat b.toNat)) ∧
    is (.vfaddImm h f) (ival2 f (fsum f.rm.toNat)) ∧ is (.vfmulImm h f) (ival2 f fprod) ∧
    is (.vfminImm h f) (elems2 f.ty.toNat (fexact2 f.ty.toNat f.ftz FVal.minimum)) ∧
    is (.vfmaxImm h f) (elems2 f.ty.toNat (fexact2 f.ty.toNat f.ftz FVal.maximum)) ∧
    s.Yields (.vmovImm h f) (s.VecIs (s.activeLanes h) f.vd.toNat (fun _ => f.imm) fun _ => false) ∧
    s.Yields (.vmovFloatImm h f) (s.VecIs (s.activeLanes h) f.vd.toNat (fun _ => f.imm) fun _ => false)

/-- R378, R379, R386, R387, R391: the compares write the relation to PD in the active lanes. -/
def Obligations.VectorCompare : Prop :=
  ∀ (s : State) (h : Hdr),
    let rel := fun (c : Nat) (lt eq : Bool) => match c with
      | 0 => eq | 1 => !eq | 2 => lt | 3 => lt || eq | 4 => !(lt || eq) | _ => !lt
    let int := fun (c : BitVec 8) (a b : W32) => rel (c.toNat % 8)
      (if c.getLsbD 3 then decide (a.toNat < b.toNat) else decide (a.toInt < b.toInt)) (a == b)
    (∀ f : V3, s.Issues h 0 → s.FitsV3 f →
      let is := fun (i : Instr) (test : W32 → W32 → Bool) =>
        s.Yields i (s.PredIs (s.activeLanes h) f.pd.toNat fun l => test (s.src.lane f.va.toNat l) (s.srcB f l))
      (f.imm8.toNat % 8 ≤ 5 → is (.vcmp h f) (int f.imm8)) ∧ is (.vfcmp h f) (frel f.imm8 f.ftz) ∧
      (f.pd ≠ 0 → is (.vfclass h f) fun a _ => (BitVec.ofNat 8 (fclass 0 f.ftz a.toNat)) &&& f.imm8 != 0)) ∧
    (∀ f : VI, s.Issues h 0 → s.FitsVI f →
      let is := fun (i : Instr) (test : W32 → W32 → Bool) =>
        s.Yields i (s.PredIs (s.activeLanes h) f.pd.toNat fun l => test (s.src.lane f.va.toNat l) f.imm)
      (f.vd.toNat % 8 ≤ 5 → is (.vcmpImm h f) (int f.vd)) ∧ is (.vfcmpImm h f) (frel f.vd f.ftz))

/-- R384, R385, R387, R388: the float vector words that are not long-latency. -/
def Obligations.VectorFloat : Prop :=
  ∀ (s : State) (h : Hdr) (f : V3), s.Issues h 0 → s.FitsV3 f →
    let ty := f.ty.toNat
    let rm := f.rm.toNat
    s.VecOp2 h f (.vfadd h f) (fval2 f (fsum rm)) ∧ s.VecOp2 h f (.vfsub h f) (fval2 f (fdiff rm)) ∧
    s.VecOp2 h f (.vfmul h f) (fval2 f fprod) ∧
    (s.Below [f.vc] → s.Yields (.vfma h f) (s.VecIs (s.activeLanes h) f.vd.toNat
      (fun l => elems3 ty (fma ty rm f.sat f.ftz) (s.src.lane f.va.toNat l) (s.srcB f l) (s.src.lane f.vc.toNat l))
      fun l => (s.src.vgetPois f.va.toNat).getLsbD l || s.srcBPois f l || (s.src.vgetPois f.vc.toNat).getLsbD l)) ∧
    s.VecOp2 h f (.vfmin h f) (elems2 ty (fexact2 ty f.ftz FVal.minimum)) ∧
    s.VecOp2 h f (.vfmax h f) (elems2 ty (fexact2 ty f.ftz FVal.maximum)) ∧
    s.VecOp1 h f (.vfneg h f) (elems1 ty (fexact1 ty f.ftz FVal.neg)) ∧
    s.VecOp1 h f (.vfabs h f) (elems1 ty (fexact1 ty f.ftz FVal.abs)) ∧
    s.VecOp1 h f (.vfrnd h f) (elems1 ty (fexact1 ty f.ftz (fintegral rm))) ∧
    (f.pd = 0 → s.VecOp1 h f (.vfclass h f) (elems1 ty (fclass ty f.ftz)))


/-- R107, R255, R383, R389, R390, R392: the long-latency vector words: the result is due, and no register changes yet. -/
def Obligations.VectorLongLatency : Prop :=
  ∀ (s : State) (h : Hdr) (f : V3), s.Issues h 0 → s.Below [f.vd, f.va] →
    let ty := f.ty.toNat
    let rm := f.rm.toNat
    let act := s.activeLanes h
    let a := s.src.varg f.va
    let mark := fun l => (s.src.vgetPois f.va.toNat).getLsbD l
    let writes := fun (i : Instr) (val : Nat → W32) (pois : Nat → Bool) =>
      s.Defers h i (fun ws => ∃ w, ws = [w] ∧ VecWr act f.vd.toNat val pois w) 0
    let one := fun (i : Instr) (op : FVal → Approx) =>
      writes i (fun l => elems1 ty (fop1 ty rm f.sat f.ftz op) (s.src.lane f.va.toNat l)) mark
    let reduce := fun (i : Instr) (value : Nat → W32) =>
      s.Defers h i (fun ws => ∃ w l, ws = w :: l ∧
        VecWr act f.vd.toNat (fun _ => value 128) (fun _ => prefixPois act a 128) w ∧
        l = if f.imm8.getLsbD 5 then
          [.scal (f.vb.toNat % 64) ((value 128).setWidth 64) (if prefixPois act a 128 then 1 else 0)] else []) 0
    let scan := fun (i : Instr) (value : Nat → W32) =>
      let n := fun l => if f.imm8.getLsbD 4 then l else l + 1
      writes i (fun l => value (n l)) (fun l => prefixPois act a (n l))
    (s.FitsV3 f → writes (.vfdiv h f) (fun l => fval2 f FVal.div (s.src.lane f.va.toNat l) (s.srcB f l))
      (fun l => mark l || s.srcBPois f l)) ∧
    one (.vexp2 h f) crExp2 ∧ one (.vlog2 h f) crLog2 ∧ one (.vrcp h f) crRcp ∧ one (.vrsq h f) crRsq ∧
    one (.vsqrt h f) crSqrt ∧ one (.vsinpi h f) crSinPi ∧ one (.vcospi h f) crCosPi ∧ one (.vtanh h f) crTanh ∧
    one (.vsigm h f) crSigm ∧
    reduce (.vred h f) (redValue f act a) ∧ reduce (.vfred h f) (fredValue f act a) ∧
    scan (.vscan h f) (redValue f act a) ∧ scan (.vfscan h f) (fredValue f act a)

/-- R251, R383: the tree of `vred` gives the plain sum, minimum, maximum (signed and unsigned), and, or, xor of its active
lanes; with no active lane, the identity of its operation. -/
def Obligations.ReductionTree : Prop :=
  ∀ (f : V3) (act : Mask) (a : VArg) (n : Nat), n ≤ 128 →
    let l := ((List.range n).filter fun l => act.getLsbD l).map fun l => a.at l
    (f.imm8.toNat % 16 = 0 → redValue f act a n = l.foldl (· + ·) 0) ∧
    (f.imm8.toNat % 16 = 1 →
      redValue f act a n = l.foldl (fun x y => BitVec.ofInt 32 (min x.toInt y.toInt)) 0x7FFFFFFF) ∧
    (f.imm8.toNat % 16 = 2 →
      redValue f act a n = l.foldl (fun x y => BitVec.ofNat 32 (min x.toNat y.toNat)) 0xFFFFFFFF) ∧
    (f.imm8.toNat % 16 = 3 →
      redValue f act a n = l.foldl (fun x y => BitVec.ofInt 32 (max x.toInt y.toInt)) 0x80000000) ∧
    (f.imm8.toNat % 16 = 4 →
      redValue f act a n = l.foldl (fun x y => BitVec.ofNat 32 (max x.toNat y.toNat)) 0) ∧
    (f.imm8.toNat % 16 = 5 → redValue f act a n = l.foldl (· &&& ·) 0xFFFFFFFF) ∧
    (f.imm8.toNat % 16 = 6 → redValue f act a n = l.foldl (· ||| ·) 0) ∧
    (f.imm8.toNat % 16 = 7 → redValue f act a n = l.foldl (· ^^^ ·) 0)

/-- R380, R381, R382, R394, R395, R397: lane movement, the group-wide tests, and the conversions that write at once. -/
def Obligations.VectorMovesAndConversions : Prop :=
  ∀ (s : State) (h : Hdr) (f : V3), s.Issues h 0 →
    let act := s.activeLanes h
    let a := fun l => s.src.lane f.va.toNat l
    let mark := fun l => (s.src.vgetPois f.va.toNat).getLsbD l
    let n := f.imm8.toNat
    let sb := f.vb.toNat % 64
    let is := fun (i : Instr) (val : Nat → W32) (pois : Nat → Bool) =>
      s.FitsV3 f → s.Yields i (s.VecIs act f.vd.toNat val pois)
    let alone := fun (i : Instr) (val : Nat → W32) (pois : Nat → Bool) =>
      s.Below [f.vd, f.va] → s.Yields i (s.VecIs act f.vd.toNat val pois)
    (n = 0 → is (.vshuf h f) (fun l => if (s.srcB f l).toNat < 128 then a (s.srcB f l).toNat else 0)
      (fun l => ((s.srcB f l).toNat < 128 && mark (s.srcB f l).toNat) || s.srcBPois f l)) ∧
    (1 ≤ n → n < 128 → alone (.vshuf h f) (fun l => a ((l + n) % 128)) (fun l => mark ((l + n) % 128))) ∧
    (128 ≤ n → alone (.vshuf h f) (fun l => a (l ^^^ (n - 128))) (fun l => mark (l ^^^ (n - 128)))) ∧
    (f.bs = false → alone (.vbcast h f) (fun _ => a n) (fun _ => mark n)) ∧
    (f.bs = true → alone (.vbcast h f) (fun _ => a ((s.src.sget sb).toNat % 128))
      (fun _ => mark ((s.src.sget sb).toNat % 128) || (s.src.sgetPois sb).getLsbD 0)) ∧
    (let p := act &&& s.src.pget (f.va.toNat % 16)
     let sd := f.vd.toNat % 64
     (sd % 2 = 0 → s.Yields (.vballot h f) fun r =>
        r.sget sd = (if sd = 0 then 0 else p.setWidth 64) ∧ r.sget (sd + 1) = (p >>> 64).setWidth 64 ∧ r.sgetPois sd = 0 ∧ r.sgetPois (sd + 1) = 0 ∧
        (∀ m, m ≠ sd → m ≠ sd + 1 → r.sget m = s.grp.regs.sget m ∧ r.sgetPois m = s.grp.regs.sgetPois m) ∧
        r = { s.grp.regs with s := r.s, sPois := r.sPois }) ∧
     s.Yields (.vany h f) (s.FlagIs (f.vd.toNat % 8) ((List.range 128).any fun l => p.getLsbD l)) ∧
     s.Yields (.vall h f) (s.FlagIs (f.vd.toNat % 8)
       ((List.range 128).all fun l => !act.getLsbD l || (s.src.pget (f.va.toNat % 16)).getLsbD l))) ∧
    (let y := fun l => convert f.ty.toNat f.rm.toNat f.sat f.ftz (stochDraw (s.src.sget sb) l (n / 16))
       (laneElem f.ty2.toNat (n % 16) f.ftz (a l))
     let sp := f.bs && s.src.sgetPois sb != 0
     (fmtBits f.ty.toNat < 32 → s.Below [f.vc] → alone (.vcvt h f) (fun l => laneMerge f.ty.toNat (n / 16) (y l) (s.src.lane f.vc.toNat l))
       (fun l => mark l || (s.src.vgetPois f.vc.toNat).getLsbD l || sp)) ∧
     (32 ≤ fmtBits f.ty.toNat → alone (.vcvt h f) (fun l => w32 (y l)) (fun l => mark l || sp)))

/-- R396, R397: the block conversions of a bound slot: a pack's codes and its four scales are due; an unpack's values are
written at once. -/
def Obligations.BlockConversions : Prop :=
  ∀ (s : State) (h : Hdr) (f : V3), s.Issues h 0 → s.Below [f.vd, f.va] →
    let slot := s.fslot f.slot
    let ty := slotFmt slot
    let sb := f.vb.toNat % 64
    let act := s.activeLanes h
    (s.slotUnbound f.slot true = none → packFmt ty = true → (slotSmth slot = true ∨ f.imm8 = 0) →
      let xs := packSources s f act (slotSmth slot)
      let block := packBlock ty (slotScl slot) f.rm.toNat (s.src.sget (f.vc.toNat % 64)) xs
      let bytes := packCodes ty ((List.range 4).flatMap fun b => (block b).2)
      s.Defers h (.vcvtbsPack h f) (fun ws => ∃ w v m, ws = [w, .scal sb v m] ∧
        (∃ pois, VecWr Mask.full f.vd.toNat (fun l => w32 (leNat ((bytes.drop (4 * l)).take 4))) pois w) ∧
        v = w64 (leNat ((List.range 4).map fun b => BitVec.ofNat 8 (block b).1))) 0) ∧
    (s.slotUnbound f.slot true = none → (packFmt ty = true ∨ ty = 0x10) →
      let bytes := (s.src.vget f.va.toNat).flatMap fun w => leBytes 4 w.toNat
      let scale := fun l => if slotBlock slot then bitsOf (s.src.sget sb).toNat (8 * (l / 32) + 7) (8 * (l / 32)) else 127
      let bits := if ty = 0x10 then 2 else fmtBits ty
      let mark := fun l => (s.src.vgetPois f.va.toNat).getLsbD l
      s.Yields (.vcvtbsUnpack h f) (s.VecIs act f.vd.toNat
        (fun l => if scale l = 0xFF then 0x7FC00000 else
          w32 (encodeWide 0 f.rm.toNat false false false { val := (unpackElem ty bytes l).scale ((scale l : Int) - 127) }))
        fun l => (slotBlock slot && (s.src.sgetPois sb).getLsbD 0) || mark (l * bits / 32) || mark ((l * bits + bits - 1) / 32)))

/-- R338, R339: the scalar words with two operands. -/
def Obligations.ScalarTwoOperand : Prop :=
  ∀ (s : State) (h : Hdr) (f : SF), s.Issues h 0 →
    let is := s.ScalOp2 f
    is (.sadd h f) (fun a b => a + b) (fun a b => a + b) ∧ is (.ssub h f) (fun a b => a - b) (fun a b => a - b) ∧
    is (.smul h f) (fun a b => a * b) (fun a b => a * b) ∧
    is (.smulh h f) (fun a b => BitVec.ofInt 64 (a.toInt * b.toInt / 18446744073709551616))
      (fun a b => BitVec.ofInt 32 (a.toInt * b.toInt / 4294967296)) ∧
    is (.smulhu h f) (fun a b => BitVec.ofNat 64 (a.toNat * b.toNat / 18446744073709551616))
      (fun a b => BitVec.ofNat 32 (a.toNat * b.toNat / 4294967296)) ∧
    is (.sand h f) (fun a b => a &&& b) (fun a b => a &&& b) ∧ is (.sor h f) (fun a b => a ||| b) (fun a b => a ||| b) ∧
    is (.sxor h f) (fun a b => a ^^^ b) (fun a b => a ^^^ b) ∧
    is (.sshl h f) (fun a b => a <<< (b.toNat % 64)) (fun a b => a <<< (b.toNat % 32)) ∧
    is (.sshr h f) (fun a b => a >>> (b.toNat % 64)) (fun a b => a >>> (b.toNat % 32)) ∧
    is (.ssar h f) (fun a b => a.sshiftRight (b.toNat % 64)) (fun a b => a.sshiftRight (b.toNat % 32)) ∧
    is (.smin h f) (fun a b => BitVec.ofInt 64 (min a.toInt b.toInt)) (fun a b => BitVec.ofInt 32 (min a.toInt b.toInt)) ∧
    is (.smax h f) (fun a b => BitVec.ofInt 64 (max a.toInt b.toInt)) (fun a b => BitVec.ofInt 32 (max a.toInt b.toInt)) ∧
    is (.sminu h f) (fun a b => BitVec.ofNat 64 (min a.toNat b.toNat)) (fun a b => BitVec.ofNat 32 (min a.toNat b.toNat)) ∧
    is (.smaxu h f) (fun a b => BitVec.ofNat 64 (max a.toNat b.toNat)) (fun a b => BitVec.ofNat 32 (max a.toNat b.toNat))

/-- R340: division never traps: by zero the quotient is all ones and the remainder the dividend; the result is due. -/
def Obligations.ScalarDivision : Prop :=
  ∀ (s : State) (h : Hdr) (f : SF), s.Issues h 0 →
    let is := fun (i : Instr) (op64 : W64 → W64 → W64) (op32 : W32 → W32 → W32) =>
      s.Defers h i (fun ws => ws = [.scal f.sd.toNat
        (if f.w then (op32 (s.sA f).lo (s.sB f).lo).signExtend 64 else op64 (s.sA f) (s.sB f))
        (if s.sMark f f.sa || (!f.is && s.sMark f f.sb) then 3 else 0)]) 0
    is (.sdiv h f) (fun a b => if b = 0 then -1 else BitVec.ofInt 64 (a.toInt.tdiv b.toInt))
      (fun a b => if b = 0 then -1 else BitVec.ofInt 32 (a.toInt.tdiv b.toInt)) ∧
    is (.sdivu h f) (fun a b => if b = 0 then -1 else BitVec.ofNat 64 (a.toNat / b.toNat))
      (fun a b => if b = 0 then -1 else BitVec.ofNat 32 (a.toNat / b.toNat)) ∧
    is (.srem h f) (fun a b => if b = 0 then a else BitVec.ofInt 64 (a.toInt.tmod b.toInt))
      (fun a b => if b = 0 then a else BitVec.ofInt 32 (a.toInt.tmod b.toInt)) ∧
    is (.sremu h f) (fun a b => if b = 0 then a else BitVec.ofNat 64 (a.toNat % b.toNat))
      (fun a b => if b = 0 then a else BitVec.ofNat 32 (a.toNat % b.toNat))

/-- R339, R341 to R345: the other scalar words. -/
def Obligations.ScalarOther : Prop :=
  ∀ (s : State) (h : Hdr) (f : SF), s.Issues h 0 →
    let a := s.sA f
    let b := s.sB f
    let mA := s.sMark f f.sa
    let mAB := mA || (!f.is && s.sMark f f.sb)
    let is := fun (i : Instr) (v : W64) (m : Bool) => s.Yields i (s.ScalIs f.sd.toNat v (if m then 3 else 0))
    let old := s.src.sget f.sd.toNat
    let rel := fun (lt eq : Bool) => match f.cmp.toNat with
      | 0 => eq | 1 => !eq | 2 => lt | 3 => lt || eq | 4 => !(lt || eq) | _ => !lt
    s.ScalOp1 f (.snot h f) (fun a => ~~~a) (fun a => ~~~a) ∧
    s.ScalOp1 f (.sclz h f) (fun a => BitVec.ofNat 64 (((List.range 64).find? fun i => a.getLsbD (63 - i)).getD 64))
      (fun a => BitVec.ofNat 32 (((List.range 32).find? fun i => a.getLsbD (31 - i)).getD 32)) ∧
    s.ScalOp1 f (.spopc h f) (fun a => BitVec.ofNat 64 ((List.range 64).countP fun i => a.getLsbD i))
      (fun a => BitVec.ofNat 32 ((List.range 32).countP fun i => a.getLsbD i)) ∧
    (f.cmp.toNat ≤ 5 → s.Yields (.scmp h f) (s.FlagIs f.qd.toNat
      (if f.w then rel (if f.sg then decide (a.lo.toInt < b.lo.toInt) else decide (a.lo.toNat < b.lo.toNat)) (a.lo == b.lo)
       else rel (if f.sg then decide (a.toInt < b.toInt) else decide (a.toNat < b.toNat)) (a == b)))) ∧
    is (.ssel h f) (if s.src.qget f.qd.toNat then a else b) mAB ∧
    (f.is = true → is (.smov h f) (f.imm.signExtend 64) false) ∧ (f.is = false → is (.smov h f) a mA) ∧
    is (.smovlo h f) (f.imm.setWidth 64) false ∧
    s.Yields (.smovhi h f) (s.ScalIs f.sd.toNat (f.imm ++ old.setWidth 32) (s.src.sgetPois f.sd.toNat &&& 1)) ∧
    (f.pos.toNat + f.fieldLen ≤ 64 →
      let x := (a >>> f.pos.toNat).setWidth f.fieldLen
      is (.sbfx h f) (if f.sg then x.signExtend 64 else x.setWidth 64) mA ∧
      ∃ v : W64, is (.sbfi h f) v (mA || s.src.sgetPois f.sd.toNat != 0) ∧
        ∀ i, i < 64 → v.getLsbD i =
          if f.pos.toNat ≤ i ∧ i < f.pos.toNat + f.fieldLen then a.getLsbD (i - f.pos.toNat) else old.getLsbD i) ∧
    is (.slea h f)
      (a + ((if f.len = 0 then b else (b.setWidth f.len.toNat).signExtend 64) <<< f.pos.toNat)) mAB ∧
    (let read := fun (sel : Nat) (v : W64) => f.imm.toNat = sel → is (.srd h f) v false
     read 0x00 (w64 s.cur.grp) ∧ read 0x01 (w64 s.cur.t) ∧ read 0x02 (w64 s.cur.g) ∧
     read 0x03 (if s.cur.grp < s.curGrid.g0 then 0 else 1) ∧ read 0x04 (w64 (s.cur.t % s.curGrid.coh)) ∧
     read 0x05 (w64 (s.virtualCluster s.curPart s.cur.cl)) ∧ read 0x06 (w64 s.cur.co) ∧
     read 0x08 (w64 ((s.core s.curCore).edges40 / 40)) ∧ read 0x09 (w64 (s.cluster s.cur.cl).elapsed) ∧
     read 0x0A (w64 (s.curGrid.opcls + 4 * bit (s.cluster s.cur.cl).boosted + 256 * (s.cluster s.cur.cl).freq.toNat)) ∧
     read 0x0B s.grp.sig)

/-- R347: the pair word: both halves read before either writes. -/
def Obligations.PairWord : Prop :=
  ∀ (s : State) (h : Hdr) (f : PR), s.Issues h 0 →
    (f.vop ≠ 0 → s.Below [f.vd, f.va] ∧ (f.bs = false → s.Below [f.vb]) ∧ (f.vop = 0x0C → s.Below [f.vc])) →
    let a := s.src.sget f.sa.toNat
    let b := if f.is then f.imm.signExtend 64 else s.src.sget f.sb.toNat
    let res := if f.sop = 0x0B then (if f.is then b else a) else pairScalar f.sop.toNat a b
    let y := fun l => if f.bs then (s.src.sget (f.vb.toNat % 64)).lo else s.src.lane f.vb.toNat l
    s.Yields (.pair h f) fun r =>
      (f.sop = 0 → r.s = s.grp.regs.s ∧ r.sPois = s.grp.regs.sPois) ∧
      (f.sop ≠ 0 → ∃ m r', s.ScalIs f.sd.toNat res m r' ∧ r.s = r'.s ∧ r.sPois = r'.sPois) ∧
      (f.vop = 0 → r.v = s.grp.regs.v ∧ r.vPois = s.grp.regs.vPois) ∧
      (f.vop ≠ 0 → ∃ m r', s.VecIs (s.activeLanes h) f.vd.toNat
        (fun l => pairVector f (s.src.lane f.va.toNat l) (y l) (s.src.lane f.vc.toNat l)) m r' ∧
        r.v = r'.v ∧ r.vPois = r'.vPois) ∧
      r.p = s.grp.regs.p ∧ r.q = s.grp.regs.q

/-- R276, R348, R349, R352: the control words: the active lanes stand at the target and the others at the next word; a branch
folds the lanes that left the sequence into the path signature; calls write the link. -/
def Obligations.ControlTransfer : Prop :=
  ∀ (s : State) (h : Hdr) (f : CF), s.Issues h 0 →
    let act := s.activeLanes h
    let next := (s.cur.pc + s.cur.len) % pow2 64
    let goes := fun (i : Instr) (target : Nat → Nat) (R : Regs → Prop) =>
      ∃ t, exec i s = .next t ∧
        (∀ l, l < 128 → s.cur.lanes.getLsbD l = true → s.grp.exited.getLsbD l = false →
          t.grp.pcOf l = if act.getLsbD l then target l else next) ∧
        t.grp.sig = rotl64 s.grp.sig 5 ^^^ mixSig s.cur.pc (act &&& maskOf fun l => target l != next) ∧
        R t.grp.regs ∧ t.grp.exited = s.grp.exited ∧ (s.curGrid.traced = false → t.mem = s.mem)
    let same := fun (r : Regs) => r = s.grp.regs
    let disp := (w64 s.cur.pc + f.disp.signExtend 64).toNat
    let link := s.ScalIs f.sx.toNat (w64 (s.cur.pc + s.cur.len)) 0
    let clean := s.src.sgetPois f.sa.toNat = 0 ∨ act = 0
    s.Takes (.nop h f) s ∧
    goes (.bra h f) (fun _ => disp) same ∧
    goes (.brq h f) (fun _ => if s.src.qget f.qc.toNat != f.qn then disp else next) same ∧
    (clean → goes (.jmp h f) (fun _ => (s.src.sget f.sa.toNat).toNat) same) ∧
    (s.Below [f.va] → act &&& s.src.vgetPois f.va.toNat = 0 →
      goes (.jmpv h f) (fun l => (w64 s.cur.pc + (s.src.lane f.va.toNat l).signExtend 64).toNat) same) ∧
    goes (.call h f) (fun _ => disp) link ∧
    (clean → goes (.calli h f) (fun _ => (s.src.sget f.sa.toNat).toNat) link) ∧
    (clean → goes (.ret h f) (fun _ => (s.src.sget f.sa.toNat).toNat) same) ∧
    s.Takes (.runend h f) (s.modGrp fun x => { x with runendLeft := 40 * (f.disp.toNat % 256) })

/-- R99, R351: `exit`: the active lanes have exited; while a lane of the group has not, nothing else changes; the last lane
ends the group, which gives up its slot. -/
def Obligations.ExitWord : Prop :=
  ∀ (s : State) (h : Hdr) (f : CF), s.Issues h 0 →
    let gone := s.grp.exited ||| s.activeLanes h
    ∃ t, exec (.exitWord h f) s = .next t ∧ t.grp.exited = gone ∧
      (gone ≠ Mask.full → (s.modGrp fun x => { x with exited := gone }).OnlyGroup t ∧ t.grp.regs = s.grp.regs ∧
        ∀ l, l < 128 → s.cur.lanes.getLsbD l = true → gone.getLsbD l = false →
          t.grp.pcOf l = (s.cur.pc + s.cur.len) % pow2 64) ∧
      (gone = Mask.full → t.grp.due = [] ∧ t.grp.park = none ∧
        ∀ n gk, (n, gk) ∈ (t.quad (4 * s.coreOfGrp s.curGrp + s.grp.quad)).slots → gk ≠ s.curGrp)

/-- R268, R349, R350: `trap`, `syscall` and `bkpt` take their effect and then trap: the lanes stand at the next word, the
group parks with reason trap, and the record that waits names the cause, the word's address, the active lanes and the
immediate. -/
def Obligations.TrapWords : Prop :=
  ∀ (s : State) (h : Hdr) (f : CF), s.Issues h 0 → s.Named →
    let enters := fun (i : Instr) (cause : Nat) (detail : W64) =>
      ∃ t, exec i s = .next t ∧ s.Passed t ∧ t.grp.park = some .trap ∧ t.grp.trapCause = some cause ∧
        t.grp.regs = s.grp.regs ∧ t.mem = s.mem ∧
        ∃ r, (t.page s.curGrid.part).trapq = (s.page s.curGrid.part).trapq ++ [r] ∧ r.cause = cause ∧ r.kind = 0 ∧
          r.g = s.cur.g ∧ r.t = s.cur.t ∧ r.grp = s.cur.grp ∧ r.pc = w64 (s.cur.pc % pow2 57) ∧
          r.mask = s.activeLanes h ∧ r.detail = detail
    enters (.trapWord h f) 0x10 (w64 (f.disp.toNat % 65536)) ∧ enters (.syscall h f) 0x0F (w64 (f.disp.toNat % 65536)) ∧
    enters (.bkpt h f) 0x0E 0

/-- R78, R114, R116, R425 to R431: register budgets, the baton, range tasks, progress and the yield of a team. (That the `yieldt` of
a team whose save has begun parks its group and begins no second save is log 29, DEDUCED.) -/
def Obligations.TeamWords : Prop :=
  ∀ (s : State) (h : Hdr) (f : SF), s.Issues h 0 → s.Named →
    let n := if f.is then (f.imm.signExtend 64 : W64).toNat else (s.src.sget f.sb.toNat).toNat
    let sd := f.sd.toNat
    let count := n % 8 = 0 ∧ 8 ≤ n ∧ n ≤ 256
    let top := s.curGrid.ceiling s.cur.grp
    let baton := (s.core s.curCore).baton
    let hold := s.modCore s.curCore fun c => { c with baton := some s.curGrp }
    let wait := s.modCore s.curCore fun c => { c with batonWait := c.batonWait ++ [s.curGrp] }
    (count → n ≤ s.grp.budget → s.Yields (.reggrow h f) (s.ScalIs sd 0 0)) ∧
    (count → s.grp.budget < n → n ≤ top → 512 * (n - s.grp.budget) ≤ s.rowsFree s.curQuad →
      s.Takes (.reggrow h f) (s.modGrp fun x => { x with budget := n, regs := x.regs.sset sd 0 0 })) ∧
    (count → s.grp.budget < n → n ≤ top → s.rowsFree s.curQuad < 512 * (n - s.grp.budget) →
      s.Parks (.reggrow h f) s (.reggrow n sd)) ∧
    (count → s.grp.budget < n → top < n →
      s.Traps (.reggrow h f) 0x05 (s.activeLanes h) (w64 (n % 65536 + top % 65536 * 65536))) ∧
    (count → s.grp.budget ≤ n → s.Takes (.regshrink h f) s) ∧
    (count → n < s.grp.budget → s.grp.due = [] →
      ∃ t, exec (.regshrink h f) s = .next t ∧ s.Passed t ∧ t.grp.budget = n ∧
        ∀ m, t.grp.regs.vget m = if m < n then s.grp.regs.vget m else zeroLanes) ∧
    (baton = none → s.Takes (.batget h f) hold) ∧ (baton = some s.curGrp → s.Takes (.batget h f) s) ∧
    ((∃ gk, gk ≠ s.curGrp ∧ baton = some gk) → s.Parks (.batget h f) wait (.baton true)) ∧
    (baton = some s.curGrp → n < s.curGrid.ngroups → (s.group (s.curTeam * 32 + n)).gone = false →
      ∃ t, exec (.batpass h f) s = .next t ∧ s.Passed t ∧ (t.core s.curCore).baton = some (s.curTeam * 32 + n)) ∧
    (let x := (s.src.sget f.sa.toNat).toNat
     let lo := x % pow2 32
     let hi := x / pow2 32
     let full := 64 ≤ ((s.cluster s.cur.cl).tasks.filter fun x => !x.alone).length
     let e := if full then hi else Nat.min (lo + f.imm.toNat % 65536) hi
     f.imm ≠ 0 → s.ownTask s.curGrp = none →
      (hi ≤ lo → s.Takes (.tskget h f) (s.putTask s.curGrp sd 0 0 0)) ∧
      (lo < hi → s.coreOfGrp s.curGrp / 6 = s.cur.cl →
        ∃ t, exec (.tskget h f) s = .next t ∧ s.Passed t ∧
        t.grp.regs = (s.grp.regs.sset sd (w64 (lo + e * pow2 32)) 0).sset (sd + 1)
          (w64 ((s.src.sget f.sb.toNat).toNat % pow2 57)) 0)) ∧
    (∀ task, s.ownTask s.curGrp = some task →
      ∃ t, exec (.tskget h f) s = .next t ∧ s.Passed t ∧
        t.grp.regs = (s.grp.regs.sset sd (w64 (task.cur + Nat.min (task.cur + task.chunk) task.hi * pow2 32)) 0).sset (sd + 1)
          (w64 task.entry) 0) ∧
    (f.imm = 0 → s.ownTask s.curGrp = none → (s.curGrid.det || s.curGrid.tasksOver) = false →
      s.Parks (.tskget h f) s (.task sd)) ∧
    (f.imm = 0 → s.ownTask s.curGrp = none → (s.curGrid.det || s.curGrid.tasksOver) = true →
      s.Takes (.tskget h f) (s.putTask s.curGrp sd 0 0 0)) ∧
    (s.headWaits = false → s.Yields (.yieldt h f) (s.ScalIs sd 0 0)) ∧
    (s.headWaits = true → (s.team s.curTeam).st = .saving → s.Parks (.yieldt h f) s (.yield sd)) ∧
    (s.headWaits = true → (s.team s.curTeam).st ≠ .saving → s.inSwap s.curCore = false → ∀ l, s.savePages s.curTeam = .ok l →
      s.pltRoom (physPages l) = true → s.Parks (.yieldt h f) (s.beginSave s.curTeam (.yieldt s.cur.grp)).1 (.yield sd)) ∧
    s.Takes (.prog h f) (s.modTeam s.curTeam fun x =>
      { x with progress := if f.sg then x.progress + w64 n else if x.progress.toNat < (w64 n).toNat then w64 n else x.progress })

/-- R276, R356: a tree without a memory arc: each lane walks its own path on a private view, its registers and predicates
become its view's, and it stands at its leaf's target; the other issuing lanes go to the next word. -/
def Obligations.TreeRegisters : Prop :=
  ∀ (s : State) (h : Hdr) (f : TF), s.Issues h 0 → (∀ n ∈ f.uses.vw ++ f.uses.vr, n < s.grp.budget) →
    (∀ a ∈ f.arcs, a.isMem = false) →
    let act := s.activeLanes h
    let path := fun l => f.walk s.src l 3 0 {} none
    ∃ t, exec (.tree h f) s = .next t ∧
      (∀ l, l < 128 → s.cur.lanes.getLsbD l = true → s.grp.exited.getLsbD l = false →
        t.grp.pcOf l = if act.getLsbD l then s.leafTarget f (path l).leaf else (s.cur.pc + s.cur.len) % pow2 64) ∧
      (∀ n l, l < 128 → t.grp.regs.lane n l =
        if act.getLsbD l then (((path l).view.v.find n).map Prod.fst).getD (s.grp.regs.lane n l) else s.grp.regs.lane n l) ∧
      (∀ n l, l < 128 → (t.grp.regs.pget n).getLsbD l =
        if act.getLsbD l then ((path l).view.p.find n).getD ((s.grp.regs.pget n).getLsbD l)
        else (s.grp.regs.pget n).getLsbD l) ∧
      t.grp.regs = { s.grp.regs with v := t.grp.regs.v, vPois := t.grp.regs.vPois, p := t.grp.regs.p } ∧
      (s.curGrid.traced = false → t.mem = s.mem)

/-- R110, R154, R166, R356: a tree with memory arcs whose accesses all translate, are present and unpoisoned: the lanes stand
at their leaves; with a load arc every result of the tree is due, a lane's loaded words after what its path wrote, and no register
changes yet; then the stores to the scratchpad and to global pages of memory type 0 are made. (Loads return the bytes held at
issue: log 6.) -/
def Obligations.TreeMemory : Prop :=
  ∀ (s : State) (h : Hdr) (f : TF), s.Issues h 0 → (∀ n ∈ f.uses.vw ++ f.uses.vr, n < s.grp.budget) →
    s.acquireOut s.curGrp = false →
    let act := s.activeLanes h
    let path := fun l => f.walk s.src l 3 0 {} none
    let accs := act.lanes.filterMap fun l => (path l).acc.map fun a => (l, a)
    let glob := fun (load : Bool) => (accs.filter fun e => !e.2.arc.isSpad && e.2.arc.isLoad == load).flatMap fun e =>
      State.arcPieces e.1 e.2
    let sp := accs.filter fun e => e.2.arc.isSpad
    let ld := (s.lookup .load (glob true)).1
    let st := (s.lookup .store (glob false)).1
    let marks := ((act.lanes.map fun l => (path l).view.pois)).foldl (· + ·) 0
    let s1 := s.countMisal (accs.any fun e => (State.arcPieces e.1 e.2).length != 1)
    let s2 := ((if marks = 0 then s1 else s1.count s.cur.cl 0x3A0 marks).touchPages .load ld).countOver
      (sp.flatMap fun e => State.arcPieces e.1 e.2)
    let loaded := (s2.readGlobs ld).2 ++
      (s2.readGlobs ld).1.readSpads ((sp.filter fun e => e.2.arc.isLoad).flatMap fun e => State.arcPieces e.1 e.2)
    let before := (s2.readGlobs ld).1.touchPages .store st
    let stored := fun (l : Nat) => (((path l).acc.map ArcAcc.data).getD [])
    (∀ e ∈ accs, e.2.bad = false ∧ anyPois e.2.data = false) → (s.lookup .load (glob true)).2 = [] →
    (s.lookup .store (glob false)).2 = [] → s.orderHeld .load (s.lookup .load (glob true)).1 = false →
    s.orderHeld .store (s.lookup .store (glob false)).1 = false →
    s.absentLines (sp.flatMap fun e => State.arcPieces e.1 e.2) = [] →
    ∃ t, exec (.tree h f) s = .next t ∧
      (∀ l, l < 128 → s.cur.lanes.getLsbD l = true → s.grp.exited.getLsbD l = false →
        t.grp.pcOf l = if act.getLsbD l then s.leafTarget f (path l).leaf else (s.cur.pc + s.cur.len) % pow2 64) ∧
      (f.arcs.any Arc.isLoad = true → t.grp.regs = s.grp.regs ∧
        ∃ d ∈ t.grp.due, d.id = s.nextId ∧ d.la = h.la.toNat ∧ d.mask = s.cur.lanes ∧ d.dst = f.results ∧ d.left = 0 ∧
          let r := d.writes.foldl Regs.write s.grp.regs
          (∀ n l, l < 128 → (∀ a, act.getLsbD l = true → (path l).acc = some a → a.arc.isLoad = true → n ∉ arcRegs a.arc) →
            r.lane n l = if act.getLsbD l then (((path l).view.v.find n).map Prod.fst).getD (s.grp.regs.lane n l) else s.grp.regs.lane n l) ∧
          (∀ l a i, l < 128 → act.getLsbD l = true → (path l).acc = some a → a.arc.isLoad = true →
            i < (arcRegs a.arc).length → r.lane (a.arc.vd.toNat + i) l =
              ((loadWords false (SMap.get loaded l [])).getD i (0, false)).1) ∧
          ∀ n l, l < 128 → (r.pget n).getLsbD l =
            if act.getLsbD l then ((path l).view.p.find n).getD ((s.grp.regs.pget n).getLsbD l)
            else (s.grp.regs.pget n).getLsbD l) ∧
      (s.curGrid.traced = false → (s.core s.curCore).writeThrough = false → (∀ q ∈ st, q.mt = 0) →
        (before.L1Fits s.curCore st → ∀ a, (∀ q ∈ st, ¬ q.Covers a) → t.seen s.curCore a = before.seen s.curCore a) ∧
        (∀ q i, q ∈ st → i < q.p.n → (∀ q' ∈ st, q' ≠ q → ¬ q'.Covers (q.pa + i)) →
          t.seen s.curCore (q.pa + i) = ((stored q.p.lane).getD (q.p.idx + i) (0, false)).1) ∧ t.hostMem = s.hostMem) ∧
      (t.team s.curTeam).spad =
        (sp.filter fun e => e.2.arc.isStore).foldl (fun m e => spadAfter s.curGrid.alloc (State.arcPieces e.1 e.2)
          (fun p => (State.pieceData e.2.data p).map Prod.fst) m) (s.team s.curTeam).spad

/-- R107, R134, R138, R154, R163, R403: `ld`, wherever it goes: its registers are due, with the bytes that the L1, the
scratchpad or, for a remote or absent team, the other side gives. (A local load returns the bytes held at issue: log 6.) -/
def Obligations.LaneLoad : Prop :=
  ∀ (s : State) (h : Hdr) (f : MF), s.MemReady h f (f.addrRegs ++ f.dataRegs) → s.activeLanes h ≠ 0 →
    let act := s.activeLanes h
    let ps := s.mPieces f act
    let due := fun (res : SMap (List PByte)) => s.Defers h (.ld h f) (fun ws =>
      ws = vecWrites f.vd.toNat f.dataRegs.length act (res.map fun e => (e.1, loadWords f.sx e.2))) 0
    (s.mTarget f = .glob → (s.lookup .load ps).2 = [] → s.orderHeld .load (s.lookup .load ps).1 = false →
      due ((((s.countMisal (ps.any fun p => p.n != f.size)).acquireNow f).touchPages .load (s.lookup .load ps).1).readGlobs
        (s.lookup .load ps).1).2) ∧
    (s.mTarget f = .own → s.absentLines ps = [] → due (s.readSpads ps)) ∧
    (∀ u, s.mTarget f = .rem u → ∃ t, exec (.ld h f) s = .next t ∧ s.Passed t ∧ t.grp.regs = s.grp.regs ∧
      (∃ d ∈ t.grp.due, d.id = s.nextId ∧ d.left = 1 ∧ d.writes = [] ∧ d.dst = f.dataRegs.map fun r => (0, r)) ∧
      s.Sends t (.remLoad u f.size (act.lanes.map fun l => (l, s.mSum f l)) s.nextId f.vd.toNat false f.sx)) ∧
    (s.mTarget f = .gone → due (act.lanes.map fun l => (l, List.replicate f.size (0, false))))

/-- R139, R154, R166, R403, R404: stores to global pages of memory type 0: the bytes of the pieces, in lane order, and no
other byte of device memory change as the core sees it, while its L1 has room for their lines (R4: else it gives up a line, and
sees memory in that line's stead). -/
def Obligations.GlobalStore : Prop :=
  ∀ (s : State) (h : Hdr) (f : MF),
    (s.core s.curCore).writeThrough = false → f.ord = 0 → s.mTarget f = .glob → s.activeLanes h ≠ 0 →
    let store := fun (i : Instr) (regs : List Nat) (ps : List Piece) (data : Nat → List PByte) =>
      let r := s.lookup .store ps
      s.MemReady h f regs → r.2 = [] → (∀ q ∈ r.1, q.mt = 0) → s.orderHeld .store r.1 = false →
      let before := s.touchPages .store r.1
      s.Goes i fun t =>
        (s.L1Fits s.curCore r.1 → ∀ a, (∀ q ∈ r.1, ¬ q.Covers a) → t.seen s.curCore a = before.seen s.curCore a) ∧
        (∀ q i, q ∈ r.1 → i < q.p.n → (∀ q' ∈ r.1, q' ≠ q → ¬ q'.Covers (q.pa + i)) →
          t.seen s.curCore (q.pa + i) = ((data q.p.lane).getD (q.p.idx + i) (0, false)).1) ∧ t.hostMem = s.hostMem
    store (.st h f) (f.addrRegs ++ f.dataRegs) (s.mPieces f (s.activeLanes h))
      (fun l => laneData s.src f.dataRegs f.size l) ∧
    (f.sz.toNat ≤ 3 → store (.sst h f) [] (s.scalarPieces f (s.activeLanes h) f.size)
      (fun _ => State.scalarData s.src (f.vd.toNat % 64) f.size))

/-- R134, R163, R166, R403, R404: stores to the team's own scratchpad: the pieces are written in order at their reduced
offsets, and no other byte of any memory changes. -/
def Obligations.ScratchpadStore : Prop :=
  ∀ (s : State) (h : Hdr) (f : MF), s.mTarget f = .own → s.activeLanes h ≠ 0 →
    let store := fun (i : Instr) (regs : List Nat) (ps : List Piece) (data : Piece → List PByte) =>
      s.MemReady h f regs → s.absentLines ps = [] →
      s.Goes i fun t =>
        (t.team s.curTeam).spad = spadAfter s.curGrid.alloc ps
          (fun p => (State.pieceData (data p) p).map Prod.fst) (s.team s.curTeam).spad ∧
        (f.ord = 0 → t.mem = s.mem ∧ t.hostMem = s.hostMem ∧
          ∀ k, k ≠ s.curTeam → (t.team k).spad = (s.team k).spad)
    store (.st h f) (f.addrRegs ++ f.dataRegs) (s.mPieces f (s.activeLanes h))
      (fun p => laneData s.src f.dataRegs f.size p.lane) ∧
    (f.sz.toNat ≤ 3 → store (.sst h f) [] (s.scalarPieces f (s.activeLanes h) f.size)
      (fun _ => State.scalarData s.src (f.vd.toNat % 64) f.size))

/-- R138, R150, R404, R411: stores to another team and to a team that is not there, and the scalar loads and counter reads,
wherever they go. (Reads of local memory return the bytes held at issue: log 6.) -/
def Obligations.RemoteStoreAndScalarLoad : Prop :=
  ∀ (s : State) (h : Hdr) (f : MF), s.activeLanes h ≠ 0 →
    let act := s.activeLanes h
    let sd := f.vd.toNat % 64
    let a := s.mSum f 0
    let ps := s.scalarPieces f act f.size
    let runs := fun (ps : List Piece) (data : Piece → List PByte) => ps.map fun p => (p.at_, State.pieceData (data p) p)
    let put := fun (i : Instr) (bs : List PByte) => s.Defers h i (fun ws =>
      ws = [.scal sd (loadScalar f.sx bs).1 (loadScalar f.sx bs).2]) 0
    let later := fun (i : Instr) (b : Body) => s.Goes i fun t =>
      (∃ d ∈ t.grp.due, d.id = s.nextId ∧ d.left = 1 ∧ d.writes = [] ∧ d.dst = [(1, sd)]) ∧ s.Sends t b
    (s.MemReady h f (f.addrRegs ++ f.dataRegs) →
      (∀ u, s.mTarget f = .rem u → s.Goes (.st h f) fun t =>
        s.Sends t (.remStore u (runs (s.mPieces f act) fun p => laneData s.src f.dataRegs f.size p.lane))) ∧
      (s.mTarget f = .gone → s.Goes (.st h f) fun t => (t.team s.curTeam).spad = (s.team s.curTeam).spad)) ∧
    (s.MemReady h f [] → f.sz.toNat ≤ 3 →
      (∀ u, s.mTarget f = .rem u → s.Goes (.sst h f) fun t =>
        s.Sends t (.remStore u (runs ps fun _ => State.scalarData s.src sd f.size))) ∧
      (s.mTarget f = .gone → s.Goes (.sst h f) fun t => (t.team s.curTeam).spad = (s.team s.curTeam).spad) ∧
      (s.mTarget f = .glob → (s.lookup .load ps).2 = [] → s.orderHeld .load (s.lookup .load ps).1 = false →
        put (.sld h f) ((((((s.countMisal (a % f.size != 0)).acquireNow f).touchPages .load
          (s.lookup .load ps).1).readGlobs (s.lookup .load ps).1).2.map Prod.snd).getD 0 [])) ∧
      (s.mTarget f = .own → s.absentLines ps = [] → put (.sld h f) (((s.readSpads ps).map Prod.snd).getD 0 [])) ∧
      (∀ u, s.mTarget f = .rem u → later (.sld h f) (.remLoad u f.size [(0, a)] s.nextId sd true f.sx)) ∧
      (s.mTarget f = .gone → put (.sld h f) (List.replicate f.size (0, false)))) ∧
    (s.MemReady h f [] → a % 8 = 0 →
      let ps := s.scalarPieces f act 8
      (∀ q, s.mTarget f = .glob → s.lookup .load ps = ([q], []) →
        later (.ctrrd h f) (.ctrRead (.glob a) (State.GPiece.place q) s.nextId sd)) ∧
      (s.mTarget f = .own → s.absentLines ps = [] → put (.ctrrd h f) (((s.readSpads ps).map Prod.snd).getD 0 [])) ∧
      (∀ u, s.mTarget f = .rem u → later (.ctrrd h f) (.remLoad u 8 [(0, a)] s.nextId sd true f.sx)) ∧
      (s.mTarget f = .gone → put (.ctrrd h f) (List.replicate 8 (0, false))))

/-- R170, R409, R410, R415, R416, R417: counter adds and waits, token waits, prefetches and fences. -/
def Obligations.CountersAndWaits : Prop :=
  ∀ (s : State) (h : Hdr) (f : MF), s.Named →
    let act := s.activeLanes h
    let a := s.mSum f 0
    let ps := s.scalarPieces f act 8
    let v := s.ctrOperand f
    let lane : RmwLane := { lane := 0, data := leBytes 8 v.1.toNat, cmp := [], pois := v.2 }
    (s.MemReady h f [] → a % 8 = 0 → act ≠ 0 →
      (∀ q, s.mTarget f = .glob → s.lookup .store ps = ([q], []) → (q.mt = 1 → v.2 = false) →
        s.Goes (.ctradd h f) fun t => s.Sends t (.rmw (State.GPiece.place q) a 14 3 [lane] none 0)) ∧
      (∀ o, s.mTarget f = .own → s.absentLines ps = [] → State.spReduce s.curGrid.alloc a = some o →
        s.Goes (.ctradd h f) fun t => (t.team s.curTeam).spad = Memory.setBytes (s.team s.curTeam).spad o
          (leBytes 8 ((leNat (Memory.bytes (s.team s.curTeam).spad o 8) + v.1.toNat) % pow2 64))) ∧
      (∀ u, s.mTarget f = .rem u →
        s.Goes (.ctradd h f) fun t => s.Sends t (.remRmw u a 14 3 [lane] none 0)) ∧
      (s.mTarget f = .gone → s.Goes (.ctradd h f) fun t => (t.team s.curTeam).spad = (s.team s.curTeam).spad) ∧
      ((s.team s.curTeam).st = .resident → s.rankHeld s.curGrp (s.ctrLoc f) = false →
        let parked := some (Park.counter (s.ctrLoc f) v.1 f.scp.toNat f.rmt)
        let reads := fun (w : W64) => s.Goes (.ctrwait h f) fun t =>
          t.grp.park = if v.1.toNat ≤ w.toNat then State.afterPark s.grp else parked
        let held := fun (u : Nat) => match State.spReduce s.curGrid.alloc a with
          | some o => w64 (leNat (Memory.bytes (s.team (teamKey s.cur.g u)).spad o 8))
          | none => 0
        (∀ q w, s.mTarget f = .glob → s.lookup .load ps = ([q], []) → s.orderHeld .load [q] = false →
          (((s.touchPages .load [q]).counterStep s.curGrp (.glob a)).promoteFor s.curGrp f.rmt).counterValue s.curPart
            (.glob a) = some w → reads w) ∧
        let present := s.counterAbsent (s.ctrLoc f) = false
        (s.mTarget f = .own → present → reads (held s.cur.t)) ∧
        (∀ u, s.mTarget f = .rem u → (s.team (teamKey s.cur.g u)).st = .resident → present → reads (held u)) ∧
        (∀ u, s.mTarget f = .rem u → s.counterAbsent (s.ctrLoc f) = true → s.Goes (.ctrwait h f) fun t => t.grp.park = parked) ∧
        (s.mTarget f = .gone → (s.team (teamKey s.cur.g s.curGrid.nteams)).st = .pending → reads 0))) ∧
    (s.Issues h 0 → s.grp.tokensDone f.tw = true → s.Takes (.waitk h f) s) ∧
    (s.Issues h 0 → s.grp.tokensDone f.tw = false → s.Parks (.waitk h f) s (.token f.tw)) ∧
    (s.Issues h f.tw → (∀ n ∈ f.addrRegs, n < s.grp.budget) → s.mPois f act = 0 →
      let ps : List Piece := act.lanes.map fun l => { lane := l, idx := 0, at_ := s.mSum f l, n := 1 }
      s.Goes (.pf h f) fun t => t.hostMem = s.hostMem ∧ (s.L1Fits s.curCore (s.lookup .load ps).1 →
        t.mem = s.mem ∧ ∀ a, t.seen s.curCore a = s.seen s.curCore a)) ∧
    (s.Issues h f.tw → s.acquireOut s.curGrp = false → s.releaseWait f.scp.toNat = none →
      s.Takes (.fence h f) ((s.releaseBy s.curGrp f.scp.toNat).acquireBy s.curGrp f.scp.toNat false))

/-- R160, R161, R405, R406: what each operation of the atomics, and a counter's add (14), leaves in a location of 4 or 8 bytes,
and for a compare and swap of 16; a float addition is RNE32 of the sum, with subnormals kept. -/
def Obligations.AtomicOperations : Prop :=
  (∀ (n : Nat) (x y c : BitVec (8 * n)), n = 4 ∨ n = 8 →
    let now := fun (op : Nat) => rmwNew op n (leBytes n x.toNat) (leBytes n y.toNat) (leBytes n c.toNat)
    let is := fun (op : Nat) (v : BitVec (8 * n)) => now op = leBytes n v.toNat
    is 1 (x + y) ∧ is 2 (if y.toInt < x.toInt then y else x) ∧ is 3 (if y.toNat < x.toNat then y else x) ∧
    is 4 (if x.toInt < y.toInt then y else x) ∧ is 5 (if x.toNat < y.toNat then y else x) ∧
    is 6 (x &&& y) ∧ is 7 (x ||| y) ∧ is 8 (x ^^^ y) ∧ is 9 y ∧ is 14 (x + y)) ∧
  (∀ (n : Nat) (x y c : BitVec (8 * n)), n = 4 ∨ n = 8 ∨ n = 16 →
    rmwNew 10 n (leBytes n x.toNat) (leBytes n y.toNat) (leBytes n c.toNat) = leBytes n (if x = c then y else x).toNat) ∧
  ∀ (x y c : W32),
    let now := fun (op : Nat) => rmwNew op 4 (leBytes 4 x.toNat) (leBytes 4 y.toNat) (leBytes 4 c.toNat)
    now 11 = leBytes 4 (rne32 (FVal.add 0 (f32 x) (f32 y))).toNat ∧
    now 12 = leBytes 4 (rne32 ((f32 x).minimum (f32 y))).toNat ∧
    now 13 = leBytes 4 (rne32 ((f32 x).maximum (f32 y))).toNat

/-- R134, R160, R161, R405 to R408: the atomics: on the own scratchpad the lanes act in order at once; elsewhere an operation for
each location is sent to its executing unit. With a result, the old values are due: those of the own scratchpad at once, as each
lane found them; zero for a team that is not there; elsewhere a part for each location (O47 gives them). -/
def Obligations.Atomics : Prop :=
  ∀ (s : State) (h : Hdr) (f : MF), s.activeLanes h ≠ 0 →
    let act := s.activeLanes h
    let n := f.size
    let ps : List Piece := act.lanes.map fun l => { lane := l, idx := 0, at_ := s.mSum f l, n := n }
    let result := fun (t : State) (left : Nat) (old : Nat → List Byte) => f.sx = false →
      ∃ d ∈ t.grp.due, d.id = s.nextId ∧ d.left = left ∧
        d.dst = (List.range (Nat.max 1 (n / 4))).map (fun i => (0, f.vd.toNat + i)) ∧
        (left ≠ 0 → d.writes = []) ∧
        (left = 0 → ∀ i l, i < Nat.max 1 (n / 4) → l < 128 →
          (d.writes.foldl Regs.write s.grp.regs).lane (f.vd.toNat + i) l =
            if act.getLsbD l then w32 (leNat (((old l).drop (4 * i)).take 4)) else s.grp.regs.lane (f.vd.toNat + i) l)
    let later := fun (t : State) (left : Nat) => result t left fun _ => []
    let dst := if f.sx then none else some s.nextId
    let acts := fun (i : Instr) (op : Nat) =>
      s.MemReady h f (f.addrRegs ++ f.atomRegs (op == 10) ++ (if f.sx then [] else f.atomRegs false)) →
      (∀ p ∈ ps, p.at_ % n = 0) →
      let after := fun (ps : List Piece) => ps.foldl (fun m p => match State.spReduce s.curGrid.alloc p.at_ with
        | some o => Memory.setBytes m o (rmwNew op n (Memory.bytes m o n) (s.rmwLane f op p.lane).data (s.rmwLane f op p.lane).cmp)
        | none => m) (s.team s.curTeam).spad
      let found := fun (l : Nat) => match State.spReduce s.curGrid.alloc (s.mSum f l) with
        | some o => Memory.bytes (after (ps.takeWhile fun p => p.lane != l)) o n
        | none => List.replicate n 0
      (s.mTarget f = .own → s.absentLines ps = [] → s.Goes i fun t =>
        (t.team s.curTeam).spad = after ps ∧ result t 0 found) ∧
      (s.mTarget f = .glob → (s.lookup .store ps).2 = [] →
        (∀ q ∈ (s.lookup .store ps).1, q.mt = 1 → (s.rmwLane f op q.p.lane).pois = false) →
        let locs := State.byKey ((s.lookup .store ps).1.map fun q => (2 * q.pa + bit (q.mt == 1), q.p.lane))
        ((11 ≤ op → s.curGrid.det = false) ∨ s.floatWay (!f.sx) act.count = .direct) →
          s.Goes i fun t => later t locs.length ∧ ∀ e ∈ locs,
            let va := s.mSum f (e.2.getD 0 0)
            s.Sends t (.rmw (if e.1 % 2 == 1 then .host (e.1 / 2) va else .dev (e.1 / 2)) va op f.sz.toNat
              (e.2.map (s.rmwLane f op)) dst f.vd.toNat)) ∧
      (s.mTarget f = .glob → 11 ≤ op → s.curGrid.det = true → f.sx = true → s.floatWay false act.count = .buffer →
        s.Goes i fun t => ∃ es, (t.core s.curCore).fbuf = (s.core s.curCore).fbuf ++ es ∧
          es.map FloatEntry.addr = act.lanes.map (s.mSum f) ∧
          es.map FloatEntry.operand = act.lanes.map fun l => w32 (leNat (s.rmwLane f op l).data)) ∧
      (∀ u, s.mTarget f = .rem u →
        let locs := State.byKey (act.lanes.map fun l => ((State.spReduce s.curGrid.alloc (s.mSum f l)).getD (s.mSum f l), l))
        s.Goes i fun t => later t locs.length ∧
          ∀ e ∈ locs, s.Sends t (.remRmw u e.1 op f.sz.toNat (e.2.map (s.rmwLane f op)) dst f.vd.toNat)) ∧
      (s.mTarget f = .gone → s.Goes i fun t => result t 0 (fun _ => List.replicate n 0) ∧ (t.team s.curTeam).spad = (s.team s.curTeam).spad)
    acts (.atomAdd h f) 1 ∧ acts (.atomMin h f) 2 ∧ acts (.atomMinu h f) 3 ∧ acts (.atomMax h f) 4 ∧
    acts (.atomMaxu h f) 5 ∧ acts (.atomAnd h f) 6 ∧ acts (.atomOr h f) 7 ∧ acts (.atomXor h f) 8 ∧
    acts (.atomExch h f) 9 ∧ acts (.atomCas h f) 10 ∧ acts (.atomFadd h f) 11 ∧ acts (.atomFmin h f) 12 ∧
    acts (.atomFmax h f) 13

/-- R53, R76, R412 to R414: `qpush` and `qpop`, with an entry in global memory or in the scratchpad: a claim is taken; a
first claim with room writes the slot's bytes at slot i mod 2^LOG2N and raises the tail by 1 at once, with its status, another
parks the group; a pop is sent to its entry's place and its status is due (O47 gives its landing); a queue that refuses, or one
found over-full (R53), gives code 1. -/
def Obligations.QueueWords : Prop :=
  ∀ (s : State) (h : Hdr) (f : MF), s.Issues h f.tw → s.Named → s.acquireOut s.curGrp = false →
    s.activeLanes h ≠ 0 → (s.team s.curTeam).st = .resident →
    let act := s.activeLanes h
    let k := s.curCore
    let v := s.src.sget (f.vd.toNat % 64)
    let q := v.toNat
    let x := s.queue q
    let at_ := s.entryAt f
    let ps := State.entryPieces at_ x.size
    let r : State × List PByte := match s.xlat k s.curPart at_ .load with
      | some (pa, mt) =>
        if f.spc = 0 then
          let y := (s.xlatTouch k s.curPart at_ .load).glLoad k pa mt x.size
          (y.1, State.loadMarks k pa mt y)
        else (s.countOver ps, (s.readSpads ps).get 0 [])
      | none => (s.countOver ps, (s.readSpads ps).get 0 [])
    let i := x.claim.toNat
    let st := f.rk.toNat
    let lines := if f.spc = 0 then [] else distinct (ps.flatMap fun p => match State.spReduce s.curGrid.alloc p.at_ with
      | some o => linesOf o p.n
      | none => [])
    let room := (r.1.releaseBy s.curGrp 5).pushRoom q i
    let dst : Place := match s.xlat k s.curPart at_ .store with
      | some (pa, mt) => if f.spc = 0 then (if mt = 1 then .host pa at_ else .dev pa) else .spad s.cur.g s.cur.t at_
      | none => .spad s.cur.g s.cur.t at_
    (s.entryTrap f act v .load = none → s.releaseWait 5 = none →
      (s.queueRefuses v true = true → ∃ t, exec (.qpush h f) s = .next t ∧ s.Passed t ∧
        s.ScalIs st 1 0 t.grp.regs ∧ t.queue q = x) ∧
      (s.queueRefuses v true = false → (f.spc ≠ 0 → s.absentLines ps = []) →
        (anyPois r.2 = true → ∀ pa, s.walkFor x.part (x.slotAt i) true ≠ some (pa, 1)) →
        (s.flights.any (State.isPush q) = false → room = true →
          ∃ t, exec (.qpush h f) s = .next t ∧ s.Passed t ∧ s.ScalIs st (w64 (i * 256)) 0 t.grp.regs ∧
            (t.queue q).claim = x.claim + 1 ∧ t.flights.any (State.isPush q) = false ∧
            (s.Calm → s.curGrid.reca = none → t.SameMem
              ((((r.1.releaseBy s.curGrp 5).headRead q).putAt x.part (x.slotAt i) (r.2.map Prod.fst)).raised
                x.part x.taila.toNat 1))) ∧
        (s.flights.any (State.isPush q) = true ∨ room = false → ∃ t, exec (.qpush h f) s = .next t ∧ s.Passed t ∧
          t.grp.regs = s.grp.regs ∧ t.grp.park = some (.queue q false i st (.glob x.heada.toNat)) ∧
          (t.queue q).claim = x.claim + 1 ∧ s.Sends t (.push q i r.2 st)))) ∧
    (s.entryTrap f act v .store = none →
      (s.queueRefuses v false = true → s.Defers h (.qpop h f) (fun ws => ws = [.scal st 1 0]) 0) ∧
      (s.queueRefuses v false = false → x.count < s.qHeld q → ∃ t, exec (.qpop h f) s = .next t ∧ s.Passed t ∧
        (t.queue q).ovf = true ∧ (t.queue q).halted = true ∧
        ∃ d ∈ t.grp.due, d.writes = [.scal st 1 0] ∧ d.left = 0 ∧ d.pc = s.cur.pc) ∧
      (s.queueRefuses v false = false → s.qHeld q ≤ x.count → s.landRoom lines = true →
        let y := if f.spc = 0 then s.xlatTouch k s.curPart at_ .store else s
        ∃ t, exec (.qpop h f) s = .next t ∧ s.Passed t ∧ t.grp.regs = s.grp.regs ∧ (t.queue q).pop = x.pop + 1 ∧
          (∃ d ∈ t.grp.due, d.id = s.nextId ∧ d.left = 1 ∧ d.dst = [(1, st)]) ∧
          s.Sends t (.pop q x.pop.toNat dst lines st s.nextId) ∧
          t.grp.park = if x.pop.toNat < (y.qTail q).toNat then none
            else some (.queue q true x.pop.toNat st (.glob x.taila.toNat))))

/-- R142 to R149, R419 to R423: the copies: a submission with room in its channel and tables raises its token and sends one
transfer operation for each pair of lines, a multicast a delivery for each rank of its mask, with the runs of its plan at the
reduced offsets; a copy of nothing leaves the token as it was. -/
def Obligations.Copies : Prop :=
  ∀ (s : State) (h : Hdr) (f : CP), s.Issues h f.tw → s.Named → s.acquireOut s.curGrp = false →
    s.tokenRoom s.curGrp f.tk.toNat = true → (s.team s.curTeam).st = .resident →
    let act := s.activeLanes h
    let k := s.curCore
    let es := s.laneElems f act
    let last := (s.core k).copyLast
    let gen := (s.team s.curTeam).gen
    let token := fun (t : State) (n : Nat) => t.grp.kc f.tk.toNat = s.grp.kc f.tk.toNat + n
    let sent := fun (t : State) (b : Body) => s.Sends t b ∧ ∃ fl ∈ t.flights, fl.body = b ∧ fl.tk = some f.tk.toNat
    let idle := fun (i : Instr) => act = 0 → s.Goes i fun t => token t 0 ∧ t.flights = s.flights
    let lane := fun (i : Instr) (gs gd : Bool) =>
      let p := s.copyPlan gs gd es
      idle i ∧
      (s.copyTrap f gs gd es (s.copyPois f act) = none → act ≠ 0 → s.landRoom p.lines = true →
        s.channelRoom k p.ops.length = true → s.pltRoom p.pages = true →
        (p.ops = [] → s.Goes i fun t => token t 0 ∧ t.flights = s.flights) ∧
        (p.ops ≠ [] → s.Goes i fun t => token t 1 ∧ t.plt = (s.pin p.pages).plt ∧
          ∀ n, n < p.ops.length → sent t (.copy (p.ops.getD n []) ((last + 1 + n) % 8) gen)))
    let checked := fun (i : Instr) (gs : Bool) =>
      let p := s.copyPlan gs true es
      let ver := (s.src.sget f.se.toNat).toNat
      let want := s.src.sgetPois (f.se.toNat + 1) != 0
      idle i ∧
      ∀ v, s.copyTrap f gs true es 0 = none → ver % 8 = 0 → s.copySide true .store ver = some v →
        s.copyPois f act = 0 → s.src.sgetPois f.se.toNat = 0 → (want = true → ∀ pa va, v ≠ .host pa va) → act ≠ 0 →
        s.channelRoom k p.ops.length = true → s.pltRoom (distinct (p.pages ++ State.placePage v)) = true →
        s.Goes i fun t => token t 1 ∧ sent t (.cpav p.ops.flatten v (s.src.sget (f.se.toNat + 1)) want
          (es.all fun e => e.dst / 65536 == ver / 65536) (s.nextChannels k p.ops.length))
    let tile := fun (i : Instr) (gs : Bool) =>
      let es := s.cptElems f (act.lanes.getD 0 0)
      let p := s.copyPlan gs (!gs) es
      let st := (s.src.sget (f.se.toNat + 1)).toNat
      s.cptDyn h f = none → s.grp.entering = none → idle i ∧
      (act ≠ 0 →
      (s.src.sget f.ssrc.toNat + f.off.signExtend 64).toNat % f.size = 0 → (s.src.sget f.sdst.toNat).toNat % f.size = 0 →
      st % pow2 32 % f.size = 0 → st / pow2 32 % f.size = 0 → s.copyFails gs (!gs) es = [] →
      (∀ n ∈ [f.ssrc.toNat, f.sdst.toNat, f.se.toNat + 1], s.src.sgetPois n = 0) →
      (s.src.sgetPois f.se.toNat).getLsbD 0 = false →
      s.landRoom p.lines = true → s.pltRoom p.pages = true → s.channelRoom k p.ops.length = true →
      (p.ops = [] → s.Goes i fun t => token t 0 ∧ t.flights = s.flights) ∧
      (p.ops ≠ [] → s.Goes i fun t => token t 1 ∧
        ∀ n, n < p.ops.length → sent t (.copy (p.ops.getD n []) ((last + 1 + n) % 8) gen)))
    let multi := fun (i : Instr) (gs : Bool) =>
      let p := s.copyPlan gs false es
      let ranks := (List.range 16).filter fun r => ((s.src.sget f.se.toNat).toNat % 65536).testBit r
      let us := ranks.filterMap s.cpmTeam
      idle i ∧
      (s.copyTrap f gs false es (s.copyPois f act) = none → (s.src.sgetPois f.se.toNat).getLsbD 0 = false → act ≠ 0 →
        s.pltRoom p.pages = true →
        (us = [] → s.Goes i fun t => token t 0 ∧ t.flights = s.flights) ∧
        (us ≠ [] → s.channelRoom k p.ops.length = true → s.Goes i fun t => token t 1 ∧ ∀ u ∈ us,
          sent t (.mcast u (s.team (teamKey s.cur.g u)).gen (s.deliveryRuns p) none false (s.nextChannels k p.ops.length)
            p.past)))
    (s.Below [f.vsrc, f.vdst] →
      lane (.cpaG2S h f) true false ∧ lane (.cpaS2G h f) false true ∧ lane (.cpaG2G h f) true true ∧
      lane (.cpaS2S h f) false false ∧ checked (.cpavGlobal h f) true ∧ checked (.cpavScratchpad h f) false ∧
      multi (.cpmGlobal h f) true ∧ multi (.cpmScratchpad h f) false) ∧
    tile (.cptG2S h f) true ∧ tile (.cptS2G h f) false

/-- R434, R436 to R440, R443, R446, R447: the matrix words enter the engine queue with a snapshot of the shape record, the
smoothing binding and their scalar operands; with TK counted, their token rises, and the lines a move will write start
landing. (That a shape record keeps the marks of the registers it is set from, for which an `mma` that forms an address from it
traps, is log 20, DEDUCED.) -/
def Obligations.MatrixWords : Prop :=
  ∀ (s : State) (h : Hdr) (f : XF), s.Issues h f.tw → (s.team s.curTeam).st = .resident →
    let k := s.curCore
    let sh := shapeOf (s.shapeWords f.shp)
    let fa := s.fslot f.fsa
    let fb := s.fslot f.fsb
    let ty := slotFmt fa
    let sa := s.sreg f.sa
    let sb := s.sreg f.sb
    let tk := if f.imm8.getLsbD 7 then some f.tk.toNat else none
    let acct := s.curGrid.acct
    let enters := fun (i : Instr) (ranges : List (Nat × Nat)) =>
      let lines := rangeLines s.curGrid.alloc ranges
      s.acquireOut s.curGrp = false → ((s.core k).baton = none ∨ (s.core k).baton = some s.curGrp) →
      (s.core k).engq.length < 16 →
      (∀ n, tk = some n → s.tokenRoom s.curGrp n = true) → s.landRoom lines = true →
      s.Goes i fun t =>
        (t.core k).engq = (s.core k).engq ++
          [{ g := s.cur.g, t := s.cur.t, grp := s.cur.grp, word := i, shape := s.shapeWords f.shp, smooth := s.grp.smooth
             sa := sa, sb := sb, sc := s.sreg f.sc, tk := tk, lines := lines, gen := (s.team s.curTeam).gen, id := s.nextId }] ∧
        (∀ n, t.grp.kc n = s.grp.kc n + if tk = some n then 1 else 0) ∧
        (∀ l, (t.team s.curTeam).landing.get l 0 = (s.team s.curTeam).landing.get l 0 + if l ∈ lines then 1 else 0) ∧
        (t.team s.curTeam).spad = (s.team s.curTeam).spad ∧ (t.team s.curTeam).tiles = (s.team s.curTeam).tiles
    let moves := fun (i : Instr) (kind size : Nat) (ranges : List (Nat × Nat)) =>
      sb.bits 63 48 = 0 → sb.bits 47 32 ≠ 0 → sh.fits = true → sa.toNat % size = 0 → sb.bits 31 0 % size = 0 →
      s.src.sgetPois f.sa.toNat = 0 → s.src.sgetPois f.sb.toNat = 0 →
      (kind = 2 → slotBlock fa = true → s.src.sgetPois f.sc.toNat = 0) → enters i ranges
    (f.acd.toNat < acct → (f.afa = true → f.aca.toNat < acct) → s.matUnbound f = none → aSlotFmt ty = true →
      bSlotFmt (slotFmt fb) = true → sh.okMma fa fb f.spa f.afa = true → (s.shapePois f = none → enters (.mma h f) []) ∧
      ∀ tr, s.acquireOut s.curGrp = false → s.shapePois f = some tr → s.Traps (.mma h f) 0x0B s.cur.lanes tr.detail) ∧
    (f.acd.toNat < acct → moves (.maccld h f) 1 4 []) ∧
    (f.aca.toNat < acct → moves (.maccst h f) 0 4 ((region sh).map fun e => (moveAt sa sb 4 e.1 e.2, 4))) ∧
    (f.aca.toNat < acct → slotBound fa = true → aSlotFmt ty = true → slotSmth fa = false →
      (f.sat = true → ty = 1 ∨ ty = 2) → (slotBlock fa = false → f.sc = 0) → (fmtBits ty < 8 → sb.bits 47 32 = 1) →
      moves (.mcvt h f) 2 (if fmtBits ty < 8 then 1 else fmtBits ty / 8)
        (moveRanges sh sa sb (s.sreg f.sc) 2 ty (slotBlock fa))) ∧
    (let part := if f.imm8 = 1 then 3 else 0
     s.Goes (.shpset h f) fun t =>
      (∀ j, t.grp.shp.get j 0 =
        if j = 6 * f.shp.toNat + part then sa else if j = 6 * f.shp.toNat + part + 1 then sb
        else if j = 6 * f.shp.toNat + part + 2 then s.sreg f.sc else s.grp.shp.get j 0) ∧
      (∀ j, t.grp.shpPois.get j 0 =
        if j = 6 * f.shp.toNat + part then s.src.sgetPois f.sa.toNat
        else if j = 6 * f.shp.toNat + part + 1 then s.src.sgetPois f.sb.toNat
        else if j = 6 * f.shp.toNat + part + 2 then s.src.sgetPois f.sc.toNat else s.grp.shpPois.get j 0)) ∧
    (f.imm8 ≠ 1 → sa.hi = 0 → sa.toNat % 4 = 0 → s.src.sgetPois f.sa.toNat = 0 →
      s.Goes (.smooth h f) fun t => t.grp.smooth = some sa.lo) ∧
    (f.imm8 = 1 → s.Goes (.smooth h f) fun t => t.grp.smooth = none)

/-- R175, R434, R449, R452 to R455, R459: tile tasks, scans and collectives: a submission with room raises its token and
joins its queue; a card outside the limits gives code 1, an unbound slot code 3 whatever its page count (log 42); `ttwait` and
`collw` go on at once or park. -/
def Obligations.TileScanCollectiveWords : Prop :=
  ∀ (s : State) (h : Hdr) (f : XF), s.Issues h 0 → s.Named →
    (s.team s.curTeam).st = .resident →
    let ready := s.grp.tokensDone f.tw = true
    let clear := s.acquireOut s.curGrp = false
    let k := s.curCore
    let sa := s.sreg f.sa
    let sb := s.sreg f.sb
    let n := (s.sreg f.sc).toNat
    let code := fun (v : W64) (t : State) => s.ScalIs f.sc.toNat v 0 t.grp.regs
    let answers := fun (i : Instr) (P : State → Prop) => ∃ t, exec i s = .next t ∧ s.Passed t ∧ P t
    (∀ s1 q, ready → clear → (s.core k).tts.length < 32 → s.cleanRecord f.sa 192 64 = .ok (s1, q) →
      let c : Card := { q := q }
      let sp := c.spans s.curGrid
      let m := s.spanPins sp
      (c.fieldsOk s.curGrid = false → answers (.ttq h f) fun t => code 1 t ∧ (t.core k).tts = (s.core k).tts) ∧
      (c.fieldsOk s.curGrid = true → c.slotsBad s.curGrid s.grp.smooth = true →
        answers (.ttq h f) fun t => code 3 t ∧ (t.core k).tts = (s.core k).tts) ∧
      (c.fieldsOk s.curGrid = true → c.slotsBad s.curGrid s.grp.smooth = false →
        (distinct (sp.flatMap fun x => pagesOf x.at_ x.n)).length ≤ 1024 → s.spanFail sp = none →
        s.tokenRoom s.curGrp f.tk.toNat = true → s.pinRoom m = true →
        answers (.ttq h f) fun t => code 0 t ∧ t.grp.kc f.tk.toNat = s.grp.kc f.tk.toNat + 1 ∧
          ∃ id, (t.core k).tts = (s.core k).tts ++
            [{ g := s.cur.g, t := s.cur.t, grp := s.cur.grp, tk := f.tk.toNat, addr := sa.toNat, card := q
               smooth := s.grp.smooth, i := 0, j := 0, c := 0, phase := 0, pages := m
               edges := ((s.core k).tts.filter fun j => j.g == s.cur.g && j.t == s.cur.t && jobEdge c { q := j.card }).map
                 TileJob.id
               id := id }])) ∧
    (ready → s.Takes (.ttwait h f) (s.dropJobSectors s.curGrp f.tw)) ∧
    (s.grp.tokensDone f.tw = false → s.Parks (.ttwait h f) s (.tileWait f.tw)) ∧
    (let size := State.scanSize f
     let bm := f.imm8.getLsbD 3
     let lines := rangeLines s.curGrid.alloc [(sb.toNat, State.scanBytes n bm)]
     ready → clear → 1 ≤ n → n ≤ 65536 → sa.toNat % size = 0 → sb.toNat % 4 = 0 → s.addrPois [f.sa, f.sb] = none →
     (s.core k).nzsq.length < 8 → s.tokenRoom s.curGrp f.tk.toNat = true → s.landRoom lines = true →
     s.Goes (.nzscan h f) fun t => t.grp.kc f.tk.toNat = s.grp.kc f.tk.toNat + 1 ∧
       (t.core k).nzsq = (s.core k).nzsq ++
        [{ g := s.cur.g, t := s.cur.t, grp := s.cur.grp, tk := f.tk.toNat, src := sa.toNat, dst := sb.toNat, n := n
           size := size, float := f.imm8.getLsbD 2, bitmap := bm, lines := lines, gen := (s.team s.curTeam).gen
           id := s.nextId }]) ∧
    (∀ s0 q, ready → clear → s.cleanRecord f.sa 64 64 = .ok (s0, q) → ∀ x,
      let c : Coll :=
        { part := s.curPart, g := s.cur.g, t := s.cur.t, grp := s.cur.grp, tk := f.tk.toNat, desc := q, peers := []
          pages := [], started := s.cleElapsed }
      let sp : List Span := [{ at_ := c.stata, n := 8, acc := .store }, { at_ := c.cnta, n := 8, acc := .store }]
      let pt : Span := { at_ := c.peersA, n := 4 * c.nrank, acc := .load }
      let s1 := s0.wbRanges k (s0.physRanges s.curPart [(c.peersA, 4 * c.nrank)])
      let bs := s1.pinnedRead (s1.spanPins [pt]) c.peersA (4 * c.nrank)
      let peers := (List.range c.nrank).map fun r => w32 (leNat (((bs.drop (4 * r)).take 4).map Prod.fst))
      let m := s.spanPins c.spans
      let s2 := ((s1.touchSpans (pt :: c.spans)).pinAll m).wbRanges k
        (s1.physRanges s.curPart [(c.src, c.srcBytes)])
      s.freeHandle s.curPart = some x → s.tokenRoom s.curGrp f.tk.toNat = true → s.accessesOut s.curGrp = false →
      (c.fieldsOk = false → s.spanFail sp = none → s.pinRoom (s.spanPins sp) = true →
        answers (.coll h f) fun t => code (w64 x) t ∧ t.grp.kc f.tk.toNat = s.grp.kc f.tk.toNat ∧
          (t.coll (16 * s.curPart + x)).bind Coll.status = some 2) ∧
      (c.fieldsOk = true → s.spanFail [pt] = none → (∀ e ∈ peers, Coll.peerOk e = true) →
        (∀ r, r < c.nrank → r ≠ c.me → s.portOwner (Coll.peerPort { c with peers := peers } r) = some s.curPart) →
        s.spanFail c.spans = none → s.pinRoom m = true → anyPois (s2.pinnedRead m c.src c.srcBytes ++ bs) = false →
        answers (.coll h f) fun t => code (w64 x) t ∧ ∃ y, t.coll (16 * s.curPart + x) = some y ∧ y.desc = q ∧
          y.peers = peers ∧ y.g = s.cur.g ∧ y.t = s.cur.t ∧ y.grp = s.cur.grp ∧ y.tk = f.tk.toNat ∧
          (y.status = none → t.grp.kc f.tk.toNat = s.grp.kc f.tk.toNat + 1))) ∧
    (ready → sa.toNat < 16 →
      let x := s.coll (16 * s.curPart + sa.toNat)
      let mine := fun (c : Coll) => c.g = s.cur.g ∧ c.t = s.cur.t ∧ c.orphan = false
      ((∀ c, x = some c → ¬ mine c) → answers (.collw h f) (code 3)) ∧
      (∀ c v, x = some c → mine c → c.status = some v → answers (.collw h f) (code v)) ∧
      (∀ c, x = some c → mine c → c.status = none → s.Parks (.collw h f) s (.coll sa.toNat f.sc.toNat)))

/-- R214 to R219, R224, R228, R460 to R462: the carafe words: a configuration is recorded or refused with its code, routes
claim slots and their codes are due, deposits are sent or dropped, or trap where their source is not aligned to the element of the
target's configuration, whoever owns it, and the status and the drop answer. -/
def Obligations.CarafeWords : Prop :=
  ∀ (s : State) (h : Hdr) (f : XF), s.Issues h f.tw → s.Named → (s.team s.curTeam).st = .resident →
    let cl := s.cur.cl
    let x := s.carafe cl
    let mine := x.cfg.any fun c => c.grid == s.cur.g
    let clear := s.acquireOut s.curGrp = false
    let tk := f.tk.toNat
    let still := fun (t : State) => t.grp.kc tk = s.grp.kc tk
    let due := fun (t : State) (W : List RegWr → Prop) =>
      ∃ d ∈ t.grp.due, s.nextId ≤ d.id ∧ d.pc = s.cur.pc ∧ d.mask = s.cur.lanes ∧ W d.writes ∧ d.left = 0
    (clear → s.tokenRoom s.curGrp tk = true → s.sreg f.sa = 0 → s.src.sgetPois f.sa.toNat = 0 →
      s.Goes (.crfcfg h f) fun t => still t ∧ ((mine = true ∨ x.cfg = none) → (t.carafe cl).cfg = none ∧ (t.carafe cl).code = 0) ∧
        (mine = false → x.cfg.isSome = true → (t.carafe cl).cfg = x.cfg)) ∧
    (∀ s1 q pois, clear → s.tokenRoom s.curGrp tk = true → s.sreg f.sa ≠ 0 → s.recordAt f.sa 64 64 false = .ok (s1, q, pois) →
      let q := if s.curGrid.det then q.set 0 (q.getD 0 0 ||| 0x4000000000) else q
      let c : CrfCfg := { grid := s.cur.g, record := q, pages := [] }
      let refused := fun (n : Nat) => s.Goes (.crfcfg h f) fun t =>
        still t ∧ (t.carafe cl).code = n ∧ (t.carafe cl).cfg = x.cfg ∧ (t.carafe cl).slots = x.slots
      (mine = false → x.cfg.isSome = true → s.Goes (.crfcfg h f) fun t => still t ∧ t.carafe cl = x) ∧
      let busy := x.slots.any fun e => State.slotOpen e.2
      (mine = true → busy = true → refused 2) ∧
      ((mine = true ∧ busy = false) ∨ x.cfg = none →
        (c.fieldsOk = false → refused 3) ∧ (c.fieldsOk = true → 134217728 < c.region → refused 4) ∧
        (c.fieldsOk = true → c.region ≤ 134217728 → pois = true → refused 9) ∧
        (c.fieldsOk = true → c.region ≤ 134217728 → pois = false → s.spanFail c.spans = none →
          s.pinRoom (s.spanPins c.spans) = true →
          s.Goes (.crfcfg h f) fun t => still t ∧ (t.carafe cl).cfg = some { c with pages := s.spanPins c.spans } ∧
            (t.carafe cl).slots = [] ∧ (t.carafe cl).code = 0 ∧ (t.carafe cl).next = c.tbase ∧ (t.carafe cl).rcnt = 0))) ∧
    (let vx := f.acd.toNat * 16 + f.aca.toNat
     let act := s.activeLanes h
     let off := fun (l : Nat) => (s.sreg f.sa + (s.src.lane vx l).signExtend 64).toNat
     let codes := fun (t : State) (code : Nat → W32) => due t fun ws => ∃ w, ws = [w] ∧ VecWr act f.imm8.toNat code (fun _ => false) w
     clear → vx < s.grp.budget → f.imm8.toNat < s.grp.budget → s.src.sgetPois f.sa.toNat = 0 →
     act &&& s.src.vgetPois vx = 0 →
     (∀ l, l < 128 → act.getLsbD l = true → off l % 64 = 0) →
      (mine = false → s.Goes (.crfroute h f) fun t => codes t fun _ => 4) ∧
      (∀ c ns, x.cfg = some c → mine = true →
        let rs := State.routeCodes x c [] (act.lanes.map fun l => s.routeAt l (off l))
        let takers := (rs.filter fun e => e.2 == 0).map Prod.fst
        s.absentLines (act.lanes.map fun l => { lane := l, idx := 0, at_ := off l, n := 64 }) = [] →
        State.routeSlots x c takers = some ns →
        s.Goes (.crfroute h f) fun t =>
          codes t (fun l => w32 (((rs.find? fun e => e.1.lane == l).map Prod.snd).getD 0)) ∧
          ∀ i, i < takers.length → ∀ r n, takers[i]? = some r → ns[i]? = some n →
            ∃ y, (t.carafe cl).slots.find n = some y ∧ y.tok = r.tok ∧ y.k = r.k ∧ y.ids = r.ids ∧ y.gates = r.gates ∧
              y.closed = none ∧ y.have_ = 0)) ∧
    (let b := s.sreg f.sb
     let c := s.sreg f.sc
     let base := (s.sreg f.sa).toNat
     let target := (s.physCluster s.curPart (c.bits 4 0)).getD 0
     let sends := fun (hid size : Nat) (body : List (Place × Nat) → Body) =>
       let sp : List Span := if f.imm8.getLsbD 0 then [] else [{ at_ := base, n := hid * size, acc := .load }]
       let m := s.spanPins sp
       base % size = 0 → s.spanFail sp = none → s.src.sgetPois f.sa.toNat = 0 → s.pinRoom m = true →
       s.Goes (.crfdep h f) fun t => t.grp.kc tk = s.grp.kc tk + 1 ∧
         s.Sends t (body (s.depSource m (f.imm8.getLsbD 0) base hid size))
     clear → s.depDyn f = none → s.tokenRoom s.curGrp tk = true →
      (c.getLsbD 15 = true → s.src.sgetPois f.sb.toNat = 0 → s.src.sgetPois f.sc.toNat = 0 →
        let size := fmtBits (carafeFmt (b.bits 39 36)) / 8
        sends (b.bits 55 40) size fun src =>
          .peerSend (c.bits 37 32) (c.bits 27 16) (c.bits 4 0) (b.bits 31 0) (b.bits 34 32) base src false) ∧
      (∀ k, c.getLsbD 15 = false → (s.carafe target).cfg = some k → k.grid = s.cur.g →
        sends k.hid (fmtBits k.dfmt / 8) fun src => .deposit target (b.bits 31 0) (b.bits 34 32) k.hid k.dfmt src none) ∧
      (c.getLsbD 15 = false → (s.carafe target).cfg.any (fun k => k.grid == s.cur.g) = false → s.src.sgetPois f.sa.toNat = 0 →
        (∀ k, (s.carafe target).cfg = some k → base % (fmtBits k.dfmt / 8) = 0 ∧ (f.imm8.getLsbD 0 = false →
          s.spanFail [{ at_ := base, n := k.hid * (fmtBits k.dfmt / 8), acc := .load }] = none)) →
        s.Goes (.crfdep h f) fun t => still t ∧ t.flights = s.flights) ∧
      ∀ k, c.getLsbD 15 = false → (s.carafe target).cfg = some k → base % (fmtBits k.dfmt / 8) ≠ 0 →
        s.Traps (.crfdep h f) 0x09 s.cur.lanes (s.sreg f.sa)) ∧
    s.Yields (.crfstat h f) (s.ScalIs f.sc.toNat (s.crfStatus cl s.cur.g f.imm8.toNat) 0) ∧
    ((s.sreg f.sa).hi = 0 →
      let v := (s.sreg f.sa).lo.toNat
      let answer := fun (n : Nat) => s.Goes (.crfdrop h f) fun t => due t fun ws => ws = [.scal f.sc.toNat (w64 n) 0]
      (mine = false → answer 4) ∧
      let held := (State.slotOf x v).any fun e => State.slotOpen e.2
      (mine = true → held = false → answer 1) ∧ (mine = true → held = true → answer 0))

/-- R194 to R198, R203, R205, R207, R212, R463: the words of the stochastic field array: a command of the owner with room
enters the queue and raises its token; a load takes a free array; a command of another grid does nothing; the status reads. -/
def Obligations.StochasticFieldWords : Prop :=
  ∀ (s : State) (h : Hdr) (f : XF), s.Issues h f.tw → s.Named → (s.team s.curTeam).st = .resident →
    let cl := s.cur.cl
    let x := s.sfa cl
    let tk := f.tk.toNat
    let sa := s.sreg f.sa
    let sb := s.sreg f.sb
    let clean := fun (l : List (BitVec 6)) => s.acquireOut s.curGrp = false ∧ ∀ n ∈ l, s.src.sgetPois n.toNat = 0
    let count := fun (t : State) (c : Option Nat) => ∀ n, t.grp.kc n = s.grp.kc n + if c = some n then 1 else 0
    let span := fun (acc : State.Acc) (rs : List (Nat × Nat)) => rs.map fun r => ({ at_ := r.1, n := r.2, acc := acc } : Span)
    let enters := fun (i : Instr) (c : SfaCmd) (reads writes : List (Nat × Nat)) =>
      let sp := span .load reads ++ span .store writes
      s.spanFail sp = none → x.queue.length < 16 → (∀ n, c.tk = some n → s.tokenRoom s.curGrp n = true) →
      s.landRoom c.lines = true → s.pinRoom (s.spanPins sp) = true →
      s.Goes i fun t => count t c.tk ∧ (t.sfa cl).owner = some s.cur.g ∧
        ∃ id, (t.sfa cl).queue = x.queue ++ [{ c with id := id, pages := s.spanPins sp }]
    let foreign := fun (i : Instr) => x.owner ≠ some s.cur.g → s.tokenRoom s.curGrp tk = true →
      s.Goes i fun t => count t none ∧ t.sfa cl = x
    let cmd := fun (op : Nat) (tk : Option Nat) =>
      ({ g := s.cur.g, t := s.cur.t, grp := s.cur.grp, op := op, tk := tk, a := sa, b := sb, imm := f.imm8
         gen := (s.team s.curTeam).gen } : SfaCmd)
    let own := x.owner = some s.cur.g
    (sa = 0 → clean [f.sa] → foreign (.sfaload h f) ∧ (own → enters (.sfaload h f) (cmd 0 (some tk)) [] [])) ∧
    (sa ≠ 0 → sa.toNat % 64 = 0 → s.acquireOut s.curGrp = false → (x.owner.isSome = true → clean [f.sa] → foreign (.sfaload h f)) ∧
      ∀ c, x.owner = none ∨ own → s.sfaCard f.sa = .ok c → s.earlierDone s.cur.g s.cur.t s.cur.grp s.nextId = true →
        enters (.sfaload h f) { cmd 0 (some tk) with card := c.1, cardPois := c.2 }
          ((sa.toNat, 64) :: if sfaCardOk c.1 then sfaArrays c.1 else []) []) ∧
    (clean [f.sa, f.sb] → foreign (.sfaclamp h f) ∧ (own →
      let len := ceilDiv ((State.sfaN x).getD 0) 8
      enters (.sfaclamp h f) { cmd 1 (some tk) with n := State.sfaN x }
        (if f.imm8.getLsbD 0 then [] else [(sa.toNat, len), (sb.toNat, len)]) [])) ∧
    (foreign (.sfaseed h f) ∧ (own → enters (.sfaseed h f) (cmd 2 none) [] [])) ∧
    (foreign (.sfasweep h f) ∧ (own → enters (.sfasweep h f) (cmd 3 (some tk)) [] [])) ∧
    (sa.toNat % 16 = 0 → clean [f.sa] → foreign (.sfaread h f) ∧ (own →
      let len := State.sfaOutBytes f.imm8 ((State.sfaN x).getD 0)
      let out := if len = 0 then [] else [(sa.toNat, len)]
      (f.imm8.getLsbD 0 = true → enters (.sfaread h f)
        { cmd 4 (some tk) with n := State.sfaN x, lines := rangeLines s.curGrid.alloc out } [] []) ∧
      (f.imm8.getLsbD 0 = false → enters (.sfaread h f) { cmd 4 (some tk) with n := State.sfaN x } [] out))) ∧
    s.Yields (.sfastat h f) (s.ScalIs f.sc.toNat (s.sfaStatus cl s.cur.g f.imm8.toNat) 0)

/-- R360 to R370: the commands of the handler interface take effect on every group that HSEL names and end with BUSY clear;
a handler's word issued by a group traps undefined-encoding; the words for groups read and set their own controls. (That a scalar
that `ctlwr` writes ends unpoisoned is log 41 and log 20, DEDUCED; a lane of a v register keeps its mark, R362.) -/
def Obligations.SystemWords : Prop :=
  ∀ (s : State) (h : Hdr) (f : YF),
    let creg := f.creg.toNat
    (s.cur.handler = none → s.Issues h 0 → s.Named →
      s.Yields (.ctlrd h f) (s.ScalIs f.sd.toNat ((s.ctlGet s.curGrp creg).getD 0) 0) ∧
      (∃ t, exec (.sigrd h f) s = .next t ∧ s.Passed t ∧ s.ScalIs f.sd.toNat s.grp.sig 0 t.grp.regs ∧
        t.grp.sig = if f.imm.getLsbD 0 then 0 else s.grp.sig) ∧
      s.Takes (.strict h f) (s.modGrp fun x => { x with strictPend := some (f.imm.setWidth 2) }) ∧
      let bars := fun (i : Instr) => s.Traps i 0x01 s.cur.lanes 0xE0
      bars (.trapret h f) ∧ bars (.ctlwr h f) ∧ bars (.smpctl h f) ∧ bars (.tlbinv h f) ∧ bars (.tlbinvall h f) ∧
      bars (.cwb h f) ∧ bars (.cinv h f) ∧ bars (.halt h f)) ∧
    (∀ p, s.cur.handler = some p →
      let gs := s.named p
      let ends := fun (i : Instr) (P : State → Prop) => ∃ t, exec i s = .next t ∧ (t.page p).hbusy = false ∧ P t
      let named := fun (op : Nat) (i : Instr) (P : State → Prop) =>
        gs ≠ [] → s.cmdWaits gs = false → s.cmdDenied op creg gs = false → ends i P
      let v := (s.page p).hdata
      named 0 (.trapret h f) (fun t => ∀ gk ∈ gs, s.stoppedGrp gk = true → s.savedGrp gk = false →
        t.group gk = State.resume (s.group gk)) ∧
      named 1 (.ctlrd h f) (fun t => ∃ gk w, gs = [gk] ∧ s.ctlGet gk creg = some w ∧ (t.page p).hdata = w) ∧
      named 2 (.ctlwr h f) (fun t => ∀ gk ∈ gs,
        let r := (t.group gk).regs
        (creg = 0x02 → (t.team (gk / 32)).progress = v) ∧ (creg = 0x06 → r.q = v.setWidth 7) ∧
        (creg = 0x07 → (t.group gk).sig = v) ∧
        (0x10 < creg → creg ≤ 0x4F → r.sget (creg - 0x10) = v ∧ r.sgetPois (creg - 0x10) = 0) ∧
        (0x100 ≤ creg → creg ≤ 0x17F → (t.group gk).pcOf (creg - 0x100) = v.toNat % pow2 57) ∧
        (0x202 ≤ creg → creg ≤ 0x21F → maskHalf (r.pget ((creg - 0x200) / 2)) (creg % 2 == 1) = v) ∧
        (0x4000 ≤ creg → r.lane ((creg - 0x4000) / 128) ((creg - 0x4000) % 128) = v.lo ∧
          r.vgetPois ((creg - 0x4000) / 128) = (s.group gk).regs.vgetPois ((creg - 0x4000) / 128))) ∧
      named 4 (.smpctl h f) (fun t => ∀ gk ∈ gs, s.savedGrp gk = false →
        (t.group gk).forced = ((s.group gk).forced || f.imm.getLsbD 0) ∧ (t.group gk).excluded = f.imm.getLsbD 1) ∧
      (gs.any s.running = false → named 9 (.halt h f) fun t => ∀ gk ∈ gs, (s.groups.find gk).isSome = true →
        (t.group gk).halted = true) ∧
      ((∀ k ∈ s.coresOfPart p, (s.core k).sideLog = []) →
        let left := fun (t : State) (out : TlbEntry → Bool) => ∀ k,
          (t.core k).tlb = (s.core k).tlb.filter fun e => !(e.part == p && out e)
        ends (.tlbinv h f) (fun t => left t (State.entryCovers v.toNat)) ∧ ends (.tlbinvall h f) (fun t => left t fun _ => true)) ∧
      (let dirty := fun (k a : Nat) => ((s.core k).l1.get (a / 32) {}).dirty.getLsbD (a % 32)
       let ks := s.coresOfPart p
       let takes := fun (sec : Nat) => f.imm = 0 ∨ sec / 2048 ∈ s.cwbPages p f.imm v
       ends (.cwb h f) fun t =>
        (∀ k ∈ ks, ∀ sec x, takes sec → (t.core k).l1.find sec = some x → x.dirty = 0) ∧
        (∀ k ∈ ks, ∀ a, takes (a / 32) → dirty k a = true → (∀ j ∈ ks, j ≠ k → dirty j a = false) →
          Memory.byte t.mem a = s.l1Byte k a) ∧
        ∀ a, ¬ takes (a / 32) → Memory.byte t.mem a = Memory.byte s.mem a) ∧
      ends (.cinv h f) fun t => ∀ k ∈ s.coresOfPart p, (f.imm.getLsbD 0 = true → (t.core k).icache = []) ∧
        (f.imm.getLsbD 1 = true → (t.core k).l1 = []))

/-- R20 to R23, R26, R94, R95: power, rails and temperature: leaving reset, the faults that stop the clocks, the thermal hold and
its end, and the steps of a cluster's operating point. (Which bit of ALERT each of the hold, the trip and the spread sets, that a
trip drives FAULT_N, and what outlives a power-down are log 15.) -/
def Obligations.PowerAndTemperature : Prop :=
  ∀ (s : State),
    let e := s.ev
    let x := s.cluster e.cl
    let max : Int := if s.fuses.rGrade then 360 else 400
    let trip : Int := if s.fuses.rGrade then 440 else 460
    (s.power.pwrOk = false → s.Then .pwrOkHigh fun t =>
      t.power.pwrOk = true ∧ t.power.clocksOn = true ∧ t.power.state = 1 ∧ t.boot.phase = 1 ∧ t.mem = s.mem) ∧
    (s.power.pwrOk = true → s.Then .perstNDeassert fun t => t.power.perstOff = true ∧ t.power.pcieUp = true) ∧
    (s.power.pwrOk = true → (∀ c, e.rail = .vcore c → s.power.regOff.getLsbD c = false) → s.Then .railFault fun t =>
      t.power.clocksOn = false ∧ t.power.state = 3 ∧ t.power.faultN = false ∧ t.power.alert = s.power.alert ||| 2) ∧
    (s.Then .powerDown fun t => t.power = { State.reset.power with smbAddr := s.power.smbAddr } ∧ t.mem = [] ∧ t.groups = [] ∧ t.teams = [] ∧ t.grids = [] ∧
      t.parts = [] ∧ t.queues = [] ∧ t.fuses = s.fuses ∧ t.hostMem = s.hostMem ∧ t.boot.slot = s.boot.slot) ∧
    (max ≤ e.reading → s.Then .thermalHold fun t => (t.cluster e.cl).thold = true ∧ (t.cluster e.cl).budget = 3 ∧
      t.power.alert = s.power.alert ||| 1) ∧
    ((∀ v ∈ x.temps, v ≤ max - 12) → s.Then .thermalHoldEnd fun t => (t.cluster e.cl).thold = false) ∧
    ((∃ v ∈ x.temps, max - 12 < v) → s.Then .thermalHoldEnd fun t => t = s) ∧
    (trip ≤ e.reading → s.Then .thermalTrip fun t =>
      t.power.clocksOn = false ∧ t.power.state = 4 ∧ t.power.thermTripN = false ∧ t.power.faultN = false ∧
      t.power.alert = s.power.alert ||| 3) ∧
    (s.fuses.rGrade = true → (∃ a ∈ s.coreTemps, ∃ b ∈ s.coreTemps, 60 < a - b) → 1000000000 < s.power.spreadFor →
      s.power.spreadTold = false → s.Then .thermalEvent fun t => t.power.thermEvents = s.power.thermEvents + 1 ∧
        t.power.alert = s.power.alert ||| 1) ∧
    (s.Then .svbNak fun t => t.power.alert = s.power.alert ||| 4) ∧
    (∀ c, x.voltMoving = true → x.joining = some c → x.relock = none →
      (x.freq ≠ x.freqTo → s.Then .voltageSettled fun t =>
        (t.cluster e.cl).volt = x.voltTo ∧ (t.cluster e.cl).relock = some x.elapsed) ∧
      (x.freq = x.freqTo → s.Then .voltageSettled fun t =>
        (t.cluster e.cl).volt = x.voltTo ∧ (t.cluster e.cl).pool = some c ∧ (t.cluster e.cl).joining = none)) ∧
    (∀ n, x.relock = some n → n + 2000 ≤ x.elapsed → s.Then .frequencyStepEnd fun t =>
      (t.cluster e.cl).freq = x.freqTo ∧ (t.cluster e.cl).relock = none ∧ (t.cluster e.cl).dwell = 0)

/-- R26: the sideband's commands to the device's address: a read answers its bytes and their packet error code, ALERT is
cleared by a write unless its packet error code is wrong, another code is NAKed; and SMB_ALERT_N is low while a flag is set. (The
code over a transfer is SMBus's, the model's choice: log 15.) -/
def Obligations.Sideband : Prop :=
  ∀ (s : State), s.ev.smbTo = 0x60 + s.power.smbAddr.setWidth 7 →
    let a : Byte := s.ev.smbTo.setWidth 8 <<< 1
    let reads := fun (code : Byte) (body : List Byte) (i : Instr) (v : W64) => s.Then i fun t =>
      t = { s with power := { s.power with pec := State.smbPec ([a, code, a ||| 1] ++ body) } }.answer (.value v)
    let byte := fun (code : Byte) (i : Instr) (v : W64) => reads code (leBytes 1 v.toNat) i v
    let word := fun (code : Byte) (i : Instr) (v : W64) => reads code (leBytes 2 v.toNat) i v
    let block := fun (code : Byte) (i : Instr) (v : W64) => reads code (4 :: leBytes 4 v.toNat) i v
    block 0 .ident (if s.fuses.grade28 then (if s.fuses.rGrade then 0xD339001C else 0x5339001C)
      else if s.fuses.rGrade then 0xD3390020 else 0x53390020) ∧
    byte 1 .stateCode (s.power.state.setWidth 64) ∧ word 3 .pwr (s.power.watts.setWidth 64) ∧
    block 4 .clmask (s.fuses.enabled.setWidth 64) ∧
    (∃ v ∈ s.allTemps, (∀ w ∈ s.allTemps, w ≤ v) ∧ word 2 .tmax ((BitVec.ofInt 16 v).setWidth 64)) ∧
    (s.cleElapsed % 1000000 = 0 → s.Then .pwrRefresh fun t => t = { s with power := { s.power with watts := s.ev.w16 } }) ∧
    (s.ev.wr = none → byte 5 .alertReg (s.power.alert.setWidth 64)) ∧
    (∀ b, s.ev.wr = some b →
      ((∀ c, s.ev.pec = some c → c = State.smbPec [a, 5, b]) → s.Then .alertReg fun t =>
        (∀ i, i < 3 → t.power.alert.getLsbD i = (s.power.alert.getLsbD i && !b.getLsbD i)) ∧
        (t.smbAlertN = true ↔ ∀ i, i < 3 → t.power.alert.getLsbD i = false)) ∧
      (∀ c, s.ev.pec = some c → c ≠ State.smbPec [a, 5, b] → s.Then .alertReg fun t => t = s.answer .nak)) ∧
    (5 < s.ev.code.toNat ∨ (s.ev.flag = true ∧ s.ev.code ≠ 5) → s.Then .smbUnknownCode fun t => t = s.answer .nak)

/-- R27 to R34: the ports: what EN and the mode do, what a link accepts, acknowledges and sends again, and the stream entries
of fixed latency. (These are log 44, DESIGN CHOICE: the numbers at enable, a change of mode while EN is 1, the wait of an enable for
the page-lock table, the refusal of a ring that is not writable or of another owner, ACKV of a flit sent again, DROPFULL for a queue
that is disabled or stopped, the entry of a port that has been disabled meanwhile, and that an accepted flit of VC 0 or 1 goes
nowhere.) -/
def Obligations.Ports : Prop :=
  ∀ (s : State),
    let n := s.ev.n
    let x := s.port n
    let f := s.ev.flit
    let is := fun (i : Instr) (P : Port → Prop) => s.Then i fun t => P (t.port n)
    let acked := fun (o : OutFlit) => State.OutFlit.seal { o with ackseq := x.rxSeq - 1, ackv := x.accept != 0 }
    let sent := fun (y : Port) (ftype : Nat) (seq : BitVec 8) => ∃ o ∈ y.sent, o.ftype = ftype ∧ o.ackseq = seq
    let up := x.en = true ∧ x.up = true
    (n < 48 → s.boot.recovery = false → State.fnMay s.ev.fn (s.portOwner n) = true →
      (x.en = false → x.stream = false → is .portEnable fun y => y.en = true ∧ y.accept = 0 ∧ y.replay = 0 ∧ y.txSeq = 0 ∧
        y.rxSeq = 0 ∧ y.retry = [] ∧ y.rx = []) ∧
      (x.en = false → x.stream = true → s.streamRing n = none → is .portEnable fun y => y.en = false ∧ y.err = true) ∧
      (∀ m, x.en = false → x.stream = true → s.streamRing n = some m →
        (s.pltRoom m = true → is .portEnable fun y => y.en = true ∧ y.pages = m ∧ y.accept = 0) ∧
        (s.pltRoom m = false → is .portEnable fun y => y.en = false ∧ y.enWait = true ∧ y.err = x.err)) ∧
      (x.en = true → is .portDisable fun y => y.en = false ∧ y.up = false ∧ y.width = 0 ∧ y.retry = [] ∧ y.rx = []) ∧
      (x.en = false → x.up = false → is .portModeSet fun y => y.stream = s.ev.flag) ∧
      (x.en = true → x.up = false → x.stream = true → s.ev.flag = false → is .portModeSet fun y =>
        y.stream = false ∧ y.en = true ∧ y.up = false ∧ y.err = x.err) ∧
      (x.up = true → x.stream ≠ s.ev.flag → is .portModeSet fun y => y.err = true ∧ y.stream = x.stream)) ∧
    (x.en = true → x.up = false → x.retraining = false → is .portTrained fun y =>
      y.up = true ∧ y.width = if s.ev.flag then 2 else 1) ∧
    (up → x.stream = false →
      (f.sound = true → f.validData = true → f.seq = x.rxSeq → x.rx.length < Config.rxRoom → f.vc = 2 →
        is .dataFlitReceive fun y => y.rxSeq = x.rxSeq + 1 ∧ y.accept = satAdd64 x.accept 1 ∧ y.rx = x.rx ++ [f] ∧
          (x.backlog = [] → (x.unacked < 15 → y.unacked = x.unacked + 1) ∧
            (x.unacked = 15 → sent y 2 x.rxSeq ∧ y.unacked = 0))) ∧
      (f.sound = true → f.validData = true → f.seq = x.rxSeq → x.rx.length < Config.rxRoom → f.vc ≠ 2 →
        s.Then .dataFlitReceive fun t => (t.port n).rxSeq = x.rxSeq + 1 ∧ (t.port n).accept = satAdd64 x.accept 1 ∧
          (t.port n).rx = x.rx ∧ (f.vc ≠ 3 → t.flights = s.flights) ∧
          (x.backlog = [] → (x.unacked < 15 → (t.port n).unacked = x.unacked + 1) ∧
            (x.unacked = 15 → sent (t.port n) 2 x.rxSeq ∧ (t.port n).unacked = 0)) ∧
          let b := fun (i k : Nat) => leNat ((f.payload.drop i).take k)
          let data := (f.payload.drop 16).take (f.len.toNat - 16)
          ∀ p cl, f.vc = 3 → s.portOwner n = some p → s.physCluster p (b 5 1) = some cl → s.carafeOf p cl = true →
            16 < f.len.toNat → b 10 6 = 0 → b 4 1 ≤ 7 → b 6 2 < b 8 2 → (b 6 2 + 1 = b 8 2 ∨ f.len = 240) →
            (∀ y ∈ s.flights, ∀ m src c t j k ch v, y.body ≠ .peerDeposit m src c t j k ch v) →
            ∃ y, t.flights = s.flights ++ [y] ∧
              y.body = .peerDeposit n f.src.toNat cl (b 0 4) (b 4 1) (b 8 2) [(b 6 2, data)] none) ∧
      (f.sound = false → is .dataFlitReceive fun y => sent y 3 x.rxSeq ∧ y.dropBad = satAdd64 x.dropBad 1 ∧
        y.rxSeq = x.rxSeq ∧ y.accept = x.accept ∧ y.rx = x.rx) ∧
      (f.sound = true → f.validData = true → f.seq ≠ x.rxSeq → is .dataFlitReceive fun y => sent y 3 x.rxSeq ∧
        y.rxSeq = x.rxSeq ∧ y.accept = x.accept ∧ y.rx = x.rx) ∧
      (∀ i, f.sound = true → f.ftype = 2 → f.ackv = true → x.backlog = [] → x.retry.findIdx? (fun o => o.seq == f.ackseq) = some i →
        is .ackFlitReceive fun y => y.retry = x.retry.drop (i + 1) ∧
          y.replays = if (x.retry.take (i + 1)).any fun o => o.seq == x.replaySeq then 0 else x.replays) ∧
      (f.sound = false → (is .ackFlitReceive fun y => y.dropBad = satAdd64 x.dropBad 1 ∧ y.retry = x.retry) ∧
        is .replayRequest fun y => y.dropBad = satAdd64 x.dropBad 1 ∧ y.sent = x.sent) ∧
      (f.sound = true → f.ftype = 3 →
        let again := x.retry.dropWhile fun o => o.seq != f.ackseq
        again ≠ [] →
          (x.replays < 7 → is .replayRequest fun y => y.sent = x.sent ++ again.map acked ∧ y.replay = satAdd64 x.replay again.length) ∧
          (x.replays = 7 → x.replaySeq = f.ackseq → is .replayRequest fun y =>
            y.sent = x.sent ++ again.map acked ∧ y.retraining = true ∧ y.up = false)) ∧
      (x.unacked ≠ 0 → is .ackTimer fun y => sent y 2 (x.rxSeq - 1) ∧ y.unacked = 0)) ∧
    (x.en = true → x.retraining = true → x.backlog = [] → is .retrainDone fun y =>
      y.up = true ∧ y.width = (if s.ev.flag then 2 else 1) ∧ y.retraining = false ∧ y.sent = x.sent ++ x.retry.map acked) ∧
    (up → x.stream = true →
      let good := f.sound = true ∧ f.ftype = 5 ∧ 1 ≤ f.len.toNat ∧ f.len.toNat ≤ 240
      (good → s.streamRoom n = true → is .streamFlitReceive fun y => y.accept = satAdd64 x.accept 1 ∧
        ∃ b, y.entries = x.entries ++ [{ queue := x.queue.toNat, bytes := b, left := 410 }] ∧ b.take f.len.toNat = (f.payload.take f.len.toNat ++
          List.replicate 240 0).take f.len.toNat) ∧
      (good → s.streamRoom n = false → is .streamFlitReceive fun y => y.dropFull = satAdd64 x.dropFull 1 ∧ y.entries = x.entries) ∧
      (¬ good → is .streamFlitReceive fun y => y.dropBad = satAdd64 x.dropBad 1 ∧ y.entries = x.entries)) ∧
    (∀ e rest, x.entries = e :: rest →
      let q := s.queue e.queue
      let p := q.owner.toNat % 8
      let before := s.modPort n fun y => { y with entries := rest }
      (e.left = 0 → s.Then .streamEntryWrite fun t =>
        t = (before.vaWrite p (q.base.toNat + (s.vaQ p q.taila.toNat).toNat % 2 ^ q.log2n.toNat * 256) e.bytes).deviceAdd p
          q.taila.toNat 1) ∧
      (e.left ≠ 0 → s.Then .streamEntryWrite fun t => t = s))

/-- R37 to R40: boot, recovery and attestation. (The bytes of measurement block 2 are log 7, DESIGN CHOICE; the order in which
the codes 3, 1 and 2 of RCVST are judged is log 33, DEDUCED; that SPDM is answered in every phase of the boot and in recovery is log
33, DESIGN CHOICE.) -/
def Obligations.BootAndAttestation : Prop :=
  ∀ (s : State),
    let b := s.boot
    let good := fun (x : List (Nat × Byte)) =>
      Config.imageFormed x = true ∧ Config.imageSigned x = true ∧ s.fuses.minVer ≤ Config.imageVersion x
    let code := fun (x : List (Nat × Byte)) (n : Nat) =>
      (Config.imageFormed x = false ∧ n = 3) ∨ (Config.imageFormed x = true ∧ Config.imageSigned x = false ∧ n = 1) ∨
      (Config.imageFormed x = true ∧ Config.imageSigned x = true ∧ Config.imageVersion x < s.fuses.minVer ∧ n = 2)
    let spdm := fun (i : Instr) (r : Reply) =>
      (s.ev.fn = .pf → s.Then i fun t => t.reply = r ∧ t.boot = b) ∧
      (∀ n, s.ev.fn = .vf n → s.Then i fun t => t.reply = .none ∧ t.boot = b)
    (b.phase = 1 → Config.romIntact = true → good b.slot → s.Then .bootVerify fun t =>
      t.boot.phase = 5 ∧ t.boot.recovery = false ∧ t.power.state = 2 ∧
        t.boot.meas.get 2 [] = leBytes 48 (Config.sha384 (b.slot.flatMap fun e => [e.1, e.2.toNat])).toNat ++
          leBytes 8 (Config.imageVersion b.slot) ∧
        (t.hart 0).running = true ∧ (t.hart 0).mode = .hs ∧ (∀ h, h < 16 → (t.hart h).released = true) ∧
        (∀ n, (t.port n).en = false ∧ (t.port n).up = false) ∧
        (s.fuses.grade28 = true → ∀ c, c < 32 → s.fuses.enabled.getLsbD c = false → t.power.regOff.getLsbD c = true)) ∧
    (b.phase = 1 → Config.romIntact = true → ¬ good b.slot → s.Then .bootVerify fun t =>
      t.boot.phase = 2 ∧ t.boot.recovery = true ∧ t.power.state = 5) ∧
    (b.phase < 5 → s.Then .configRequest fun t => t.reply = .retry) ∧
    (5 ≤ b.phase → s.Then .configRequest fun t => ∃ v, t.reply = .value v) ∧
    (b.recovery = true → s.ev.v.getLsbD 0 = true →
      (good b.staged → s.Then .rcvgo fun t => t.boot.slot = b.staged ∧ t.boot.recovery = false ∧ t.boot.phase = 1 ∧
        t.power.state = 1) ∧
      (∀ n, code b.staged n → s.Then .rcvgo fun t => t.boot.rcvst = BitVec.ofNat 64 n ∧ t.boot.slot = b.slot ∧
        t.boot.recovery = true)) ∧
    spdm .getVersion (.spdmVersion 1 3 (Config.spdmBody 1 0)) ∧ spdm .getCapabilities (.bytes (Config.spdmBody 2 0)) ∧
    spdm .negotiateAlgorithms (.spdmAlgorithms .ecdsaP384 .sha384 (Config.spdmBody 3 0)) ∧
    spdm .getDigests (.bytes (Config.spdmBody 4 0)) ∧ spdm .getCertificate (.bytes (Config.spdmBody 5 0)) ∧
    spdm .challenge (.bytes (Config.spdmBody 6 0)) ∧
    spdm .getMeasurements (.bytes (Config.spdmBody 7 s.ev.index ++ b.meas.get s.ev.index [])) ∧
    spdm .spdmUnsupportedRequest .unsupported

/-- R41, R42, R45: the mailbox: each command's result and effect, and the end of a partition. (Of several results that hold the
lowest is given, and that a command written before the monitor runs waits for it, is log 34, DESIGN CHOICE; that a0 and a1 are x10
and x11 is log 14, PRESUMED from RISC-V.) -/
def Obligations.Mailbox : Prop :=
  ∀ (s : State),
    let p := s.mb.runsPart
    let x := s.part p
    let y := s.resPart { exists_ := true }
    let z := s.resPart x
    let runs := fun (i : Instr) (code n : Nat) (P : State → Prop) =>
      s.monitorUp = true → s.mb.busy = true → s.mb.runs.toNat = code → x.stopping = false → s.mb.rsv = false → s.Then i fun t =>
        t.mb.busy = false ∧ t.mb.done = true ∧ t.mb.result.toNat = n ∧ t.msgs = s.msgs ++ [.msix0] ∧ P t
    let same := fun (t : State) => t.parts = s.parts
    let arg := s.mbArg 0
    (s.resReserved = true → runs .create 1 1 same ∧ runs .modify 2 1 same) ∧
    (s.resReserved = false →
      (x.exists_ = true → runs .create 1 2 same) ∧
      (x.exists_ = false → s.resTaken p y = true → runs .create 1 3 same) ∧
      (x.exists_ = false → s.resTaken p y = false → s.resRange p y = true → runs .create 1 4 same) ∧
      (x.exists_ = false → s.resTaken p y = false → s.resRange p y = false → runs .create 1 0 fun t =>
        t.part p = y ∧ t.trapHartOf p = State.lowHart y.harts ∧ t.mb.res.get 0 0 = w64 (State.clusterCount y) ∧
        ∀ c, c < 32 → y.clusters.getLsbD c = true → (t.cluster c).pool = none ∧ (t.cluster c).counters = []) ∧
      (x.exists_ = false → runs .modify 2 2 same) ∧
      (x.exists_ = true → s.resTaken p z = true → runs .modify 2 3 same) ∧
      (x.exists_ = true → s.resTaken p z = false → s.resRange p z = true → runs .modify 2 4 same) ∧
      (x.exists_ = true → s.resTaken p z = false → s.resRange p z = false → x.running = true → runs .modify 2 5 same) ∧
      (x.exists_ = true → s.resTaken p z = false → s.resRange p z = false → x.running = false → runs .modify 2 0 fun t =>
        (t.part p).clusters = z.clusters ∧ (t.part p).harts = z.harts ∧ (t.part p).base = z.base ∧ (t.part p).size = z.size ∧
          (t.part p).exists_ = true ∧ (t.part p).harts.getLsbD (t.trapHartOf p) = true ∧
          (x.trapHart = none → t.trapHartOf p = State.lowHart z.harts))) ∧
    (x.exists_ = false → runs .start 3 2 same ∧ runs .stop 4 2 same ∧ runs .delete 5 2 same) ∧
    (x.exists_ = true →
      let a := arg.toNat
      (a < x.base ∨ x.base + x.size ≤ a → runs .start 3 4 same) ∧
      (x.base ≤ a → a < x.base + x.size → x.running = true → runs .start 3 5 same) ∧
      (x.base ≤ a → a < x.base + x.size → x.running = false → runs .start 3 0 fun t => (t.part p).running = true ∧
        let y := t.hart (State.lowHart x.harts)
        y.running = true ∧ y.mode = .vs ∧ y.part = some p ∧ y.pc = arg ∧ y.xget 10 = w64 p ∧ y.xget 11 = s.mbArg 1) ∧
      (x.running = false → runs .stop 4 0 same) ∧
      (x.running = true → s.monitorUp = true → s.mb.busy = true → s.mb.runs = 4 → x.stopping = false → s.mb.rsv = false →
        s.Then .stop fun t => (t.part p).stopping = true ∧ t.mb.busy = true) ∧
      (x.running = true → runs .delete 5 5 same) ∧
      (x.running = false → runs .delete 5 0 fun t => (t.part p).exists_ = false)) ∧
    (arg.bits 63 40 ≠ 0 → runs .setwin 6 1 same) ∧
    (arg.bits 63 40 = 0 → x.exists_ = true → arg.bits 15 0 = 0 → runs .setwin 6 0 fun t => t.pfWbase = arg) ∧
    (runs .query 7 0 fun t => t.parts = s.parts ∧
      t.mb.res.get 0 0 = (if x.exists_ then (if x.running then 2 else 1) else 0) ∧
      t.mb.res.get 1 0 = (if x.exists_ then x.clusters.setWidth 64 else 0)) ∧
    (s.monitorUp = true → s.mb.busy = true → (s.mb.runs = 0 ∨ 7 < s.mb.runs.toNat) → s.Then .mailboxUnknownCmd fun t =>
      t.mb.busy = false ∧ t.mb.result = 1 ∧ t.mb.done = true) ∧
    (s.monitorUp = false → ∀ i ∈ [Instr.create, .modify, .start, .stop, .delete, .setwin, .query, .mailboxUnknownCmd],
      s.Then i fun t => t = s) ∧
    (∀ q, s.ev.p = q → (s.part q).stopping = true → (s.stopWork q).2 = true → s.Then .partitionStopped fun t =>
      (t.part q).running = false ∧ (t.part q).stopping = false)

/-- R43: the services of an image: the extension in a7, the function in a6, the argument in a0; the error code returns in a0 and
the value in a1. (That a7, a6, a0 and a1 are x17, x16, x10 and x11 is log 14, PRESUMED from RISC-V; the value that a failing call
leaves in a1 is free: log 11.) -/
def Obligations.ImageServices : Prop :=
  ∀ (s : State) (p : Nat), (s.hart s.ev.hart).part = some p → (s.hart s.ev.hart).running = true →
    (s.hart s.ev.hart).mode = .vs → (s.hart s.ev.hart).xget 17 = 0x09533941 →
    let x := s.part p
    let a := (s.hart s.ev.hart).xget 10
    let fid := ((s.hart s.ev.hart).xget 16).toNat
    let answers := fun (e : Int) (v : W64) (t : State) => t.reply = .sbi e v ∧
      (t.hart s.ev.hart).xget 10 = BitVec.ofInt 64 e ∧ (t.hart s.ev.hart).xget 11 = v
    let tells := fun (i : Instr) (e : Int) (v : W64) => s.Then i fun t => answers e v t ∧ t.parts = s.parts
    let fails := fun (i : Instr) (e : Int) => s.Then i fun t => t.parts = s.parts ∧ ∃ v, answers e v t
    (fid = 0 →
    (a = 0 → tells .getInfo 0 (w64 x.base)) ∧ (a = 1 → tells .getInfo 0 (w64 x.size)) ∧
    (a = 2 → tells .getInfo 0 (w64 ((List.range 32).countP fun c => x.clusters.getLsbD c))) ∧
    (a = 3 → tells .getInfo 0 (x.harts.setWidth 64)) ∧ (a = 4 → tells .getInfo 0 (w64 (x.qfirst + x.qcount * 65536))) ∧
    (a = 5 → tells .getInfo 0 (x.ports.setWidth 64)) ∧ (a = 6 → tells .getInfo 0 (w64 p)) ∧
    (6 < a.toNat → fails .getInfo (-3))) ∧
    (fid = 1 → (a.toNat % 16384 = 0 → s.inHbm p a.toNat 16384 = true → s.Then .setRoot fun t =>
      (t.part p).root = some a.toNat ∧ answers 0 0 t) ∧
    (a.toNat % 16384 ≠ 0 ∨ s.inHbm p a.toNat 16384 = false → fails .setRoot (-5))) ∧
    (fid = 2 → (a.toNat < 16 → x.harts.getLsbD a.toNat = true → s.Then .setTrapHart fun t =>
      t.trapHartOf p = a.toNat ∧ answers 0 0 t) ∧
    (16 ≤ a.toNat ∨ x.harts.getLsbD a.toNat = false → fails .setTrapHart (-3))) ∧
    (fid = 3 → (a.bits 15 0 = 0 → a.bits 63 57 = 0 → s.Then .setWbase fun t => (t.part p).wbase = a ∧ answers 0 0 t) ∧
    (a.bits 15 0 ≠ 0 ∨ a.bits 63 57 ≠ 0 → fails .setWbase (-3))) ∧
    (fid = 4 → tells .getBlkacc 0 x.blkacc) ∧ (4 < fid → fails .sbiUnknownFunction (-2))

/-- R7, R39, R44, R47 to R53, R82: the host interface: the memory window, registers as they are written, the flags cleared by
writing 1, the queues' enables and doorbells. (A partly mapped access to BAR4 as one miss, one beyond 256 GiB, and which functions
reach a queue are log 36; BAR4 in recovery is log 33.) -/
def Obligations.HostInterface : Prop :=
  ∀ (s : State),
    let e := s.ev
    let v := e.v
    let q := s.queue e.q
    let at_ := s.pfWbase.toNat + e.off
    let window := 274877906944
    let may := e.q < 4096 ∧ s.boot.recovery = false ∧ State.fnMay e.fn (s.queueOwner e.q) = true
    let fields := { q with
      base := v &&& 0x01FFFFFFFFFF0000, log2n := BitVec.ofNat 8 (v.bits 15 11), esz := BitVec.ofNat 4 (v.bits 10 9)
      cons := BitVec.ofNat 4 (v.bits 8 7), prod := BitVec.ofNat 4 (v.bits 6 5) }
    let page := fun (p off : Nat) (P : Page → Prop) =>
      p < 8 → e.space = .page p → e.off = off → s.Then .registerWrite fun t => P (t.page p)
    let clears := fun (p off : Nat) (P : Page → Prop) =>
      p < 8 → e.space = .page p → e.off = off → s.Then .w1cClear fun t => P (t.page p)
    (s.boot.recovery = false → e.fn = .pf → s.Calm →
      (window < e.off + e.len → s.Then .bar4Read fun t => t = s) ∧
      (window < e.off + e.data.length → s.Then .bar4Write fun t => t = s) ∧
      (e.off + e.len ≤ window → at_ + e.len ≤ devBytes → s.Then .bar4Read fun t =>
        t.reply = .bytes ((List.range e.len).map fun i => Memory.byte s.mem (at_ + i)) ∧ t.mem = s.mem) ∧
      (e.off + e.len ≤ window → devBytes < at_ + e.len → s.Then .bar4Read fun t =>
        t.reply = .bytes (List.replicate e.len 0xFF) ∧ t.pfW4miss = satAdd64 s.pfW4miss 1) ∧
      (e.off + e.data.length ≤ window → at_ + e.data.length ≤ devBytes → s.Then .bar4Write fun t => t.mem = Memory.setBytes s.mem at_ e.data ∧
        t.hostMem = s.hostMem) ∧
      (e.off + e.data.length ≤ window → devBytes < at_ + e.data.length → s.Then .bar4Write fun t =>
        t.mem = s.mem ∧ t.pfW4miss = satAdd64 s.pfW4miss 1)) ∧
    (∀ p, s.boot.recovery = false → State.fnPart e.fn = some p →
      (e.off + e.len ≤ window →
        (∀ l, s.bar4Place e.fn e.off e.len false = some l → s.Then .bar4Read fun t =>
          ∃ bs : List Byte, t.reply = .bytes bs ∧ bs.length = e.len ∧ ∀ i pa mt, i < e.len →
            s.walkFor p ((s.windowOf e.fn).1.toNat + e.off + i) false = some (pa, mt) →
            bs.getD i 0 = Memory.byte (if mt = 1 then s.hostMem else s.mem) pa) ∧
        (s.bar4Place e.fn e.off e.len false = none → s.Then .bar4Read fun t =>
          t.reply = .bytes (List.replicate e.len 0xFF) ∧ t.mem = s.mem ∧
            ((s.part p).exists_ = true → (t.part p).w4miss = satAdd64 (s.part p).w4miss 1))) ∧
      (∀ l, e.off + e.data.length ≤ window → s.bar4Place e.fn e.off e.data.length true = some l → l.Nodup → s.Calm →
        s.Then .bar4Write fun t =>
          let before := s.bar4Mark e.fn e.off e.data.length true
          (∀ i pa mt, i < e.data.length → s.walkFor p ((s.windowOf e.fn).1.toNat + e.off + i) true = some (pa, mt) →
            Memory.byte (if mt = 1 then t.hostMem else t.mem) pa = e.data.getD i 0) ∧
          (∀ a, (false, a) ∉ l → Memory.byte t.mem a = Memory.byte before.mem a) ∧
          ∀ a, (true, a) ∉ l → Memory.byte t.hostMem a = Memory.byte s.hostMem a) ∧
      (e.off + e.data.length ≤ window → s.bar4Place e.fn e.off e.data.length true = none → s.Then .bar4Write fun t =>
        t.mem = s.mem ∧ t.hostMem = s.hostMem ∧
          ((s.part p).exists_ = true → (t.part p).w4miss = satAdd64 (s.part p).w4miss 1))) ∧
    (s.boot.recovery = true → e.fn = .pf →
      (e.off + e.len ≤ window → s.Then .bar4Read fun t => t.reply = .bytes (Memory.bytes s.boot.staged e.off e.len)) ∧
      (e.off + e.data.length ≤ 33554432 → s.Then .bar4Write fun t =>
        t.boot.staged = Memory.setBytes s.boot.staged e.off e.data ∧ t.mem = s.mem)) ∧
    (∀ p, page p 0x00 (fun y => y.pmreq0 = v) ∧ page p 0x28 (fun y => y.ckpt1 = v &&& 0x01FFFFFFFFFFFF80) ∧
      page p 0x30 (fun y => y.ckpt2 = v &&& 0x01FFFFFFFFFFF01F) ∧ page p 0xA8 (fun y => y.sampb = v &&& 0x01FFFFFFFFFFF00F) ∧
      page p 0xC8 (fun y => y.trcb = v &&& 0xFFFFFFFFFFFFF00F) ∧ page p 0x100 (fun y => y.hsel = v &&& 0xFFFFFFFFFFFF8000) ∧
      page p 0x110 (fun y => y.himm = v.lo) ∧ page p 0x118 (fun y => y.hdata = v) ∧
      (∀ n, n < 4 → page p (0x80 + 8 * n) (fun y => y.bkpt.get n 0 = v &&& 0x81FFFFFFFFFFFFFF)) ∧
      page p 0x58 (fun y => y = s.page p) ∧
      clears p 0x10 (fun y => y.pmErr = ((s.page p).pmErr && !v.getLsbD 3) ∧ y.pmDone = ((s.page p).pmDone && !v.getLsbD 2)) ∧
      clears p 0x38 (fun y => y.ckptErr = ((s.page p).ckptErr && !v.getLsbD 0)) ∧
      clears p 0x108 (fun y => y.herr = ((s.page p).herr && !v.getLsbD 2))) ∧
    (e.space = .devPage → e.off = 0x20 → s.Then .registerWrite fun t => t.boostRate = v.setWidth 8) ∧
    (∀ c, e.space = .clusterBlock c → s.Then .registerWrite fun t => t = s) ∧
    (may → v.getLsbD 0 = true → q.en = false →
      (State.queueFit fields = false → s.Then .queueEnable fun t => (t.queue e.q).en = false ∧ (t.queue e.q).err = true) ∧
      (∀ l, State.queueFit fields = true → (s.modQueue e.q fun _ => fields).queuePages fields = some l → s.pltRoom l = true →
        s.Then .queueEnable fun t => (t.queue e.q).en = true ∧ (t.queue e.q).base = fields.base ∧
          (t.queue e.q).claim = s.vaQ fields.part fields.taila.toNat ∧
          (t.queue e.q).pop = s.vaQ fields.part fields.heada.toNat)) ∧
    (may → v.getLsbD 0 = false → q.en = true → s.Then .queueDisable fun t => (t.queue e.q).en = false) ∧
    (e.q < 4096 → s.boot.recovery = false → e.off = 0 → v ≠ 0 →
      (State.fnMay e.fn (s.queueOwner e.q) = true → q.en = true → q.prod = 0 → v.toNat ≤ q.count → s.Then .doorbell fun t =>
        t = s.deviceAdd q.part q.taila.toNat v) ∧
      (State.fnMay e.fn (s.queueOwner e.q) = false ∨ q.en = false ∨ q.prod ≠ 0 ∨ q.count < v.toNat → s.Then .doorbell fun t =>
        (t.queue e.q).drop = true ∧ t.mem = s.mem))

/-- R54, R57, R58, R60 to R73, R75, R79, R91, R93, R95: launch records, the end of a grid, the dispatcher's decisions, the
split of a range task, the operating classes, the reassignment of a free cluster to a class that wants one, and the refill of the
boost tokens. (That a decision does nothing unless it is its grid's turn and the heads are settled is log 31, DEDUCED.) -/
def Obligations.LaunchAndDispatch : Prop :=
  ∀ (s : State),
    let p := s.ev.p
    let g := s.ev.g
    let r := s.grid g
    (∀ q, (s.part p).stopping = false → s.launchQueue p = some q → s.qHeld q ≤ (s.queue q).count → s.tableRoom p = true →
      let a := (s.queue q).slotAt (s.qHead q).toNat
      let x := s.recordGrid p q a
      let n := s.recordCode x
      (n ≠ 0 → s.Then .launchRecordConsume fun t => t.grids = s.grids ∧ (t.queue q).lastRej = BitVec.ofNat 8 n ∧
        (t.queue q).rej.toNat = min 65535 ((s.queue q).rej.toNat + 1)) ∧
      (n = 0 → s.pltRoom (s.gridPages x) = true → s.Then .launchRecordConsume fun t =>
        t.gridNext = s.gridNext + 1 ∧ ∃ y, t.grids.find s.gridNext.toNat = some y ∧ y.record = x.record ∧ y.part = p ∧
          y.queue = q ∧ y.order = s.accepted)) ∧
    ((s.grids.find g).isSome = true → r.ending = false → s.teamsDone g = true → s.gridBusy g = false →
      s.Then .gridEnd fun t => t.grids.find g = none ∧ (∀ x, (t.teams.find (teamKey g x)).isSome = true → 1048576 ≤ x)) ∧
    let settled := (s.poolGrids r).foldl State.headUpdate s = s
    (∀ h t, (s.grids.find g).isSome = true → s.gridHeld r = false → settled → s.myTurn g = true → r.head = some h →
      s.placeCohort g (r.cohort h) = some t → s.Then .dispatchDecision fun u =>
        ∀ x ∈ s.cohortTeams g (r.cohort h), (u.team (teamKey g x)).st = .resident ∨ (u.team (teamKey g x)).st = .restoring) ∧
    ((s.grids.find g).isSome = true → settled →
      (s.myTurn g = false → s.Then .dispatchDecision fun u => u = s) ∧
      (s.gridHeld r = true → s.Then .dispatchDecision fun u => u = s) ∧
      ∀ h, r.head = some h → s.placeCohort g (r.cohort h) = none → (r.det = true ∨ r.draining = true) →
        s.Then .dispatchDecision fun u => u = s) ∧
    (∀ h tk l pages, (s.grids.find g).isSome = true → s.gridHeld r = false → s.headUpdate g = s → r.head = some h →
      100000 ≤ r.headWait → s.headFits g = false → s.evictable g h = tk :: l → s.savePages tk = .ok pages →
      s.pltRoom (physPages pages) = true → s.Then .indexOrderEviction fun u => (u.team tk).st = .saving ∧ (u.team tk).cause = some .eviction) ∧
    (∀ gk sd t, r.det = false → s.askers (coreKey s.ev.cl s.ev.co) g = [gk] → (s.group gk).park = some (.task sd) →
      s.coreOfGrp gk / 6 = s.ev.cl → grpKeyGrid gk = g → s.splitTask s.ev.cl g = some t → 2 * t.chunk ≤ t.hi - t.cur →
      s.ownTask gk = none → 0 < t.chunk → t.owner ≠ gk → (s.group gk).stepPend = none →
      ((s.cluster s.ev.cl).tasks.filter fun x => !x.alone).length < 64 →
      s.Then .taskSplit fun u =>
        let mid := t.cur + ceilDiv (t.hi - t.cur) 2
        (u.group gk).park = State.afterPark (s.group gk) ∧ (u.group gk).regs.sget sd = (if sd = 0 then 0 else
          w64 (mid + Nat.min (mid + t.chunk) t.hi * pow2 32)) ∧
        ∃ x ∈ (u.cluster s.ev.cl).tasks, x = { t with hi := mid }) ∧
    (∀ n, s.ev.n = n → n < 4 →
      let v := s.ev.v
      let volt := v.bits 39 32
      let boost := v.bits 31 24
      let base := v.bits 23 16
      let ok := 110 ≤ volt ∧ volt ≤ 170 ∧ 24 ≤ base ∧ base ≤ boost ∧ boost ≤ 62 ∧ s.vminOf boost ≤ volt
      (ok → s.Then .opclsWrite fun t => (t.opClass n).volt.toNat = volt ∧ (t.opClass n).fboost.toNat = boost ∧
        (t.opClass n).fbase.toNat = base ∧ (t.opClass n).stat = 0) ∧
      (¬ ok → s.Then .opclsWrite fun t => (t.opClass n).volt = (s.opClass n).volt ∧ (t.opClass n).stat ≠ 0)) ∧
    (let now := (s.cluster (s.lowCluster p)).elapsed
     let s1 := s.modPart p fun x => { x with poolAt := some now }
     let mine := fun (cl : Nat) => cl < 32 ∧ (s.part p).clusters.getLsbD cl = true ∧ s.clusterFree cl = true
     let rested := fun (c cl : Nat) => (s.cluster cl).pool ≠ some c ∧ 50000 ≤ (s.cluster cl).freeFor
     now % 10000 = 0 → (s.part p).poolAt ≠ some now → (s.part p).clusters ≠ 0 →
      (s.Then .poolReassign fun t =>
        (t.part p).poolAt = some now ∧ ((∀ c, c < 4 → s1.classWants p c = false) → t = s1)) ∧
      ∀ c cl, c < 4 → (∀ d, d < c → s1.classWants p d = false) → s1.classWants p c = true → mine cl →
        ((s.cluster cl).pool = none ∧ (∀ d, d < cl → mine d → (s.cluster d).pool ≠ none) ∨
          (∀ d, mine d → (s.cluster d).pool ≠ none) ∧ rested c cl ∧ ∀ d, d < cl → mine d → ¬ rested c d) →
        s.Then .poolReassign fun t =>
          let x := t.cluster cl
          x.voltTo = (s.opClass c).volt ∧ x.freqTo = (s.opClass c).fbase ∧ x.fbase = (s.opClass c).fbase ∧
          x.fboost = (s.opClass c).fboost ∧ x.boosted = false ∧
          (x.pool = none ∧ x.joining = some c ∨
            x.pool = some c ∧ x.joining = none ∧ x.volt = (s.opClass c).volt ∧ x.freq = (s.opClass c).fbase)) ∧
    (s.cleElapsed % 1000 = 0 → s.boostAt ≠ some s.cleElapsed → (s.parts.map Prod.fst).Nodup → s.Then .boostRefill fun t =>
      t.boostAt = some s.cleElapsed ∧ ∀ n, (s.part n).exists_ = true →
        let x := s.part n
        let sum := (s.parts.map fun e => e.2.weight.toNat).foldl (· + ·) 0
        let gain := if x.weight = 0 then 0 else min s.boostRate.toNat 32 * x.weight.toNat * 256 / sum
        let spent := 256 * (List.range 32).countP fun cl => x.clusters.getLsbD cl && (s.cluster cl).boosted
        (t.part n).bucket = min (65535 * 256) (x.bucket + gain) - spent)

/-- R83 to R90, R115, R129: pre-emption requests, the estimator, saves and restores, and the seniority rule. -/
def Obligations.Preemption : Prop :=
  ∀ (s : State),
    let p := s.ev.p
    let v := s.ev.v
    let y := s.page p
    let tk := teamKey s.ev.g s.ev.t
    let x := s.team tk
    let saves := fun (i : Instr) (tk : Nat) (c : SaveCause) => ∀ pages, s.savePages tk = .ok pages → s.pltRoom (physPages pages) = true →
      s.Then i fun t => (t.team tk).st = .saving ∧ (t.team tk).cause = some c ∧ (t.team tk).pinned = pages
    (v.getLsbD 0 = true → v.bits 3 2 ≠ 1 → s.pmRefused p (v.bits 3 2) = true → s.Then .preempt fun t =>
      (t.page p).pmErr = true ∧ (t.page p).pmBusy = y.pmBusy ∧ t.teams = s.teams) ∧
    (v.getLsbD 0 = true → v.bits 3 2 = 0 → s.pmRefused p 0 = false → s.Then .preempt fun t =>
      (∀ k ∈ s.pmNamed p, (s.team k).st = .pending ∨ (s.team k).st = .saved → (t.team k).held = true) ∧
      ((∀ k ∈ s.pmNamed p, (s.team k).st ≠ .resident ∧ (s.team k).st ≠ .moving ∧ (s.team k).st ≠ .saving ∧
          (s.team k).st ≠ .restoring) →
        (t.page p).pmDone = true ∧ (t.page p).pmBusy = false ∧ t.msgs = s.msgs ++ [.hart (s.trapHartOf p)]) ∧
      ((∃ k ∈ s.pmNamed p, (s.team k).st = .resident) → (t.page p).pmDone = false ∧ (t.page p).pmBusy = true)) ∧
    (v.getLsbD 0 = true → v.bits 3 2 = 1 → s.pmRefused p 1 = false → s.Then .releaseHeld fun t =>
      (∀ k ∈ s.pmNamed p, (t.team k).held = false) ∧ (t.page p).pmDone = true ∧ (t.page p).pmBusy = false ∧
      t.msgs = s.msgs ++ [.hart (s.trapHartOf p)]) ∧
    (∀ k, y.pmBusy = true → (y.pmAt.find s.ev.cl).isSome = true → y.pmLeft = [k] → (s.team k).cl = s.ev.cl →
      (s.team k).st = .resident → (s.team k).cause = none → (s.team k).choice = none →
      (s.estimate p k = .drain → s.Then .preemptEstimate fun t => (t.team k).cause = some .drain ∧
        (t.team k).drainAt = some (y.pmAt.get s.ev.cl 0 + y.deadline.toNat) ∧ (t.team k).st = .resident) ∧
      (s.estimate p k = .save → saves .preemptEstimate k .preempt) ∧
      (s.estimate p k = .discard → s.teamRuns k = true → s.Then .preemptEstimate fun t => (t.team k).choice = some .discard ∧
        (t.team k).st = .resident) ∧
      (s.estimate p k = .discard → s.teamRuns k = false → s.Then .preemptEstimate fun t => (t.team k).st = .pending ∧
        (t.team k).held = true ∧ (t.team k).gen = (s.team k).gen + 1)) ∧
    (∀ d, x.drainAt = some d → x.st = .resident → x.cause = some .drain → d ≤ (s.cluster x.cl).elapsed →
      saves .drainDeadline tk .drain) ∧
    (x.st = .saving → s.stopped tk = true → s.Then .saveComplete fun t => (t.team tk).st = .saved ∧
      (t.team tk).spad = [] ∧ (x.cause = some .preempt → (t.team tk).held = true)) ∧
    (x.st = .restoring → s.Then .restoreComplete fun t => (t.team tk).st = .resident ∧ (t.team tk).cause = none ∧
      (t.team tk).held = false) ∧
    (let k := coreKey s.ev.cl s.ev.co
     ∀ w a l, s.seniorMost ((s.groupsOfCore k).filter fun gk => (s.team (gk / 32)).st == .resident &&
        match (s.group gk).park with
        | some (.reggrow ..) => true
        | _ => false) = some w →
      (∀ gk ∈ s.groupsOfCore k, s.parked gk = true) → (s.cluster s.ev.cl).swap = none → s.ev.co < 6 →
      (∀ u ∈ s.coreTeams k, (s.team u).st = .resident) →
      s.leastSenior ((s.coreTeams k).filter fun u => u != w / 32) = a :: l →
      saves .senioritySave a .seniority)

/-- R107, R118, R119, R121, R152, R268, R269, R286, R351, R352, R372, R399: the steps of a core beside its words: a run starts, a
result is written, a record goes to its slot of the ring and the ring's tail rises by 1, frost and thaw, the barometer and the stall
ratios, fetch and walk, and `runend`'s end. (Of the records that wait, the first raised goes first: log 35, DEDUCED. That a scalar of
a cycle's secondary word stays over a result of its primary word that comes due later is log 19, DEDUCED. That `runend`'s time ends
with the last of its parts is log 13, and that a fetched block is ground from the first offset at which it was entered is log 22. That
a saved group's result waits for its restore is log 29, DEDUCED.) -/
def Obligations.CoreSteps : Prop :=
  ∀ (s : State),
    let k := coreKey s.ev.cl s.ev.co
    let gk := grpKey s.ev.g s.ev.t s.ev.grp
    let x := s.group gk
    let c := s.cluster s.ev.cl
    let p := s.ev.p
    (∀ n w a b, (s.quad (4 * k + s.ev.qd)).run = none → s.winner k s.ev.qd = some (n, w) →
      State.streamsOf (State.takeControls (s.group w)) = some (a, b) →
      s.Then .runStart fun t => ∃ r, (t.quad (4 * k + s.ev.qd)).run = some r ∧ r.grp = w ∧ r.prim = a ∧ r.sec = b ∧
        (t.quad (4 * k + s.ev.qd)).last = n) ∧
    (∀ r, (s.quad (4 * k + s.ev.qd)).run = some r → s.Then .runStart fun t => t = s) ∧
    (State.atImage (s.team (gk / 32)) = true → s.Then .longLatencyResult fun t => t = s) ∧
    (∀ d, State.atImage (s.team (gk / 32)) = false → (x.due.find? fun e => e.id == s.ev.id && e.left == 0) = some d →
      s.Then .longLatencyResult fun t =>
      let mine := fun (e : Nat × Nat × Nat × Nat) => e.1 == gk && e.2.1 ≤ s.ev.id && s.ev.id < e.2.2.1
      let skip := ((s.quad (4 * s.coreOfGrp gk + x.quad)).skips.filter mine).map fun e => e.2.2.2
      (t.group gk).regs = d.writes.foldl (State.dueWrite x skip) x.regs ∧
      ((∀ w ∈ d.writes, ∃ n m vals pois, w = .loaded n m vals pois) →
        ∀ n l, l < 128 → x.exited.getLsbD l = true → (t.group gk).regs.lane n l = x.regs.lane n l) ∧
      (∀ n ∈ skip, (t.group gk).regs.sget n = x.regs.sget n) ∧
      (t.group gk).due = x.due.filter (fun e => e.id != s.ev.id) ∧ ∀ j, j ≠ gk → t.group j = s.group j) ∧
    (∀ r rest, s.Calm → (s.page p).trapq = r :: rest → s.recordReady r = true → s.ringFree p ≠ 0 → s.Then .trapRecord fun t =>
      (t.page p).trapq = rest ∧ .hart (s.trapHartOf p) ∈ t.msgs ∧
      let y := s.page p
      let u := s.ringRead p
      let tail := y.trapt.bits 56 3 * 8
      ∃ b : List Byte,
        t.SameMem ((u.vaWrite p (y.trapb.bits 56 16 * 65536 + 2048 * ((u.vaQ p tail).toNat % pow2 (y.trapb.bits 3 0))) b).raised
          p tail 1) ∧
        (r.ident.length = 16 → b.length = 2048 ∧ b.take 16 = r.ident ∧
          let is := fun (at_ n v : Nat) => leNat ((b.drop at_).take n) = v % pow2 (8 * n)
          is 16 1 r.cause ∧ is 17 1 r.kind ∧ is 18 1 r.flags ∧ is 19 5 0 ∧ is 24 8 r.pc.toNat ∧ is 32 16 r.mask.toNat ∧
          is 48 8 r.cycles.toNat ∧ is 56 8 r.elapsed.toNat ∧ is 64 8 r.detail.toNat ∧ is 72 8 r.detail2.toNat ∧ is 80 48 0 ∧
          (∀ l, l < 128 → is (128 + 8 * l) 8 (if r.mask.getLsbD l then
            (((r.addrs.find? fun a => a.1 == l).map Prod.snd).getD 0).toNat else 0)) ∧
          b.drop 1152 = (r.hang ++ List.replicate 896 0).take 896)) ∧
    (s.ringFree p = 0 → s.Then .trapRecord fun t => t = if (s.page p).trapq.any s.recordReady then s.ringRead p else s) ∧
    (s.mayFrost k = true → s.Then .frost fun t => (t.core k).frost = true) ∧
    (s.mayThaw k = true → s.Then .thaw fun t => (t.core k).frost = false) ∧
    (c.elapsed % 1000 = 0 → c.baroAt ≠ some c.elapsed → s.Then .barometerTick fun t =>
      (t.cluster s.ev.cl).iest = s.ev.w16 ∧ (t.cluster s.ev.cl).budget =
        if c.thold then 3 else if 1600 < s.ev.w16.toNat then max 3 (c.budget - 1)
        else if s.ev.w16.toNat < 1440 then min 8 (c.budget + 1) else c.budget) ∧
    (c.elapsed % 10000 = 0 → c.stallAt ≠ some c.elapsed → s.Then .stallSample fun t =>
      (t.cluster s.ev.cl).stall = [s.ev.r0, s.ev.r1, s.ev.r2, s.ev.r3]) ∧
    ((s.core k).tlb.any (fun e => State.tlbHolds e p s.ev.va) = true → s.Then .tlbWalk fun t => t = s) ∧
    (∀ e, (s.core k).tlb.any (fun e => State.tlbHolds e p s.ev.va) = false → s.tlbLookup k p s.ev.va = some e →
      s.Then .tlbWalk fun t => t = s.tlbTouch k e s.ev.va) ∧
    (s.ev.va < pow2 57 → s.Then .icacheFill fun t => ∃ l rest, (t.core k).icache = l :: rest ∧ l.part = p ∧
      l.block = s.ev.va / 128 ∧ l.first = s.ev.va % 128 ∧ (t.core k).icache.length ≤ 256) ∧
    (x.runendLeft = 1 → s.Then .runendExpiry fun t => (t.group gk).runendLeft = 0) ∧
    (x.runendLeft ≠ 1 → s.Then .runendExpiry fun t => t = s)

/-- R123 to R126: the draft: a tick that finds a pair begins a swap, which stops, is abandoned in time, or is released with
the teams exchanged. -/
def Obligations.Draft : Prop :=
  ∀ (s : State),
    let cl := s.ev.cl
    let c := s.cluster cl
    let at_ := fun (co : Nat) => coreKey cl co
    (c.elapsed % (c.interval * 1000) = 0 → c.draftAt ≠ some c.elapsed →
      (∀ h k, s.draftEn = true → c.swap = none → s.draftPair cl = some (h, k) → s.Then .draftTick fun t =>
        (t.cluster cl).swap = some { hot := h, cool := k, decided := c.elapsed, pausing := false } ∧ (t.core (at_ h)).writeThrough = true ∧
        (t.core (at_ k)).writeThrough = true ∧ (t.cluster cl).lastPair = some (h, k)) ∧
      (s.draftEn = false → s.Then .draftTick fun t => (t.cluster cl).swap = c.swap ∧ (t.cluster cl).lastPair = none ∧
        (t.cluster cl).interval = max 100 (min 10000 s.draftInterval.toNat))) ∧
    (∀ w, c.swap = some w → w.pausing = false → c.elapsed ≤ w.decided + 10000 → s.swapStopped (at_ w.hot) = true →
      s.swapStopped (at_ w.cool) = true → s.Then .draftStop fun t =>
        (t.cluster cl).swap = some { w with pausing := true, paused := c.elapsed } ∧
        ∀ tk ∈ s.coreTeams (at_ w.hot) ++ s.coreTeams (at_ w.cool), (t.team tk).st = .moving) ∧
    (∀ w, c.swap = some w → w.pausing = false → w.decided + 10000 ≤ c.elapsed → s.Then .draftAbandon fun t =>
      (t.cluster cl).swap = none ∧ (t.core (at_ w.hot)).writeThrough = false ∧
      (t.core (at_ w.cool)).writeThrough = false ∧ (t.cluster cl).skips.toNat = min 65535 (c.skips.toNat + 1)) ∧
    (∀ w, c.swap = some w → w.pausing = true → w.hot ≠ w.cool → w.hot < 6 → w.cool < 6 →
      s.Then .draftRelease fun t => (t.cluster cl).swap = none ∧
        (t.cluster cl).lastPause.toNat = min 255 ((c.elapsed - w.paused) / 20) ∧
        (∀ tk ∈ s.coreTeams (at_ w.hot), (t.team tk).st = .resident ∧ (t.team tk).co = w.cool) ∧
        (∀ tk ∈ s.coreTeams (at_ w.cool), (t.team tk).st = .resident ∧ (t.team tk).co = w.hot) ∧
        (∀ d, d < 4 → (t.quad (4 * at_ w.hot + d)).slots = (s.quad (4 * at_ w.cool + d)).slots ∧
          (t.quad (4 * at_ w.cool + d)).slots = (s.quad (4 * at_ w.hot + d)).slots))

/-- R137, R143 to R150, R174: a transfer operation, a versioned copy and a multicast delivery reach their destinations; a
delivery first reads its sources' bytes, then raises its lines, then lands. -/
def Obligations.Transfers : Prop :=
  ∀ (s : State) (f : Flight), s.flight s.ev.id = some f → f.id = s.ev.id → s.Calm → s.memPois = [] →
    let tk := teamKey f.g f.t
    let gk := grpKey f.g f.t f.grp
    let x := s.team tk
    let k := s.coreOfGrp gk
    let gone := fun (t : State) => t.flights = s.flights.filter fun y => y.id != f.id
    let last := (∀ y ∈ s.flights, y.cmd = f.cmd → y.id = f.id) ∧ (s.groups.find gk).isSome = true
    let token := fun (t : State) (st : Nat) => ∀ n, f.tk = some n → last →
      (t.group gk).kc n = (s.group gk).kc n - 1 ∧ (t.group gk).ks n = max ((s.group gk).ks n) st
    f.grp < 32 → x.st = .resident → (s.core k).doneJobs = [] →
    (∀ pb pa n c gen, f.body = .copy [(.dev pb, .dev pa, n)] c gen → s.inChannel f = true →
      s.sourcesReady f [(.dev pb, n)] = true → s.Then .copyLanding fun t => gone t ∧ token t 0 ∧
        ∀ i, i < n → Memory.byte t.mem (pa + i) = Memory.byte s.mem (pb + i)) ∧
    (∀ pb o a n c gen, f.body = .copy [(.dev pb, .spad f.g f.t o, n)] c gen → s.inChannel f = true →
      s.sourcesReady f [(.dev pb, n)] = true →
      (x.gen = gen → State.spReduce (s.grid f.g).alloc o = some a → s.Then .copyLanding fun t => gone t ∧ token t 0 ∧
        (t.team tk).spad = Memory.setBytes x.spad a (Memory.bytes s.mem pb n)) ∧
      (x.gen ≠ gen → s.Then .copyLanding fun t => gone t ∧ (t.team tk).spad = x.spad)) ∧
    (∀ pb pa n pv want pois inPage c, f.body = .cpav [(.dev pb, .dev pa, n)] (.dev pv) want pois inPage c →
      s.sourcesReady f [(.dev pb, n)] = true → (s.core k).l1 = [] →
      let now := leNat (Memory.bytes s.mem pv 8)
      (inPage = false → s.Then .cpavCommit fun t => gone t ∧ token t 2 ∧ t.mem = s.mem) ∧
      (inPage = true → now ≠ want.toNat → s.Then .cpavCommit fun t => gone t ∧ token t 1 ∧ t.mem = s.mem) ∧
      (inPage = true → now = want.toNat → (pa + n ≤ pv ∨ pv + 8 ≤ pa) → s.Then .cpavCommit fun t => gone t ∧ token t 0 ∧
        (pois = true → t.memPois.get (pv / 32) false = true) ∧ leNat (Memory.bytes t.mem pv 8) = (want.toNat + 1) % pow2 64 ∧
        ∀ i, i < n → Memory.byte t.mem (pa + i) = Memory.byte s.mem (pb + i))) ∧
    (∀ u gen runs data raised cs past, f.body = .mcast u gen runs data raised cs past →
      let ku := teamKey f.g u
      let y := s.team ku
      let lines := fun (d : List (Nat × List PByte)) => distinct (d.flatMap fun e => linesOf e.1 e.2.length)
      (data = none → s.sourcesReady f (runs.map fun r => (r.1, r.2.2)) = true → s.Then .multicastDelivery fun t =>
        t.flight f.id = some { f with
          body := .mcast u gen runs (some (runs.map fun r => (r.2.1, s.copyRead r.1 r.2.2))) raised cs past }) ∧
      (∀ d, data = some d → y.st = .exited ∨ y.st = .pending → s.Then .multicastDelivery fun t => gone t ∧
        (t.team ku).deliveries = y.deliveries - 1 ∧ (t.team ku).spad = y.spad) ∧
      (∀ d, data = some d → y.st = .resident → y.gen = gen → raised = false →
        (∀ l ∈ lines d, y.landing.get l 0 < 7) → s.Then .multicastDelivery fun t =>
          t.flight f.id = some { f with body := .mcast u gen runs data true cs past } ∧
          ∀ l ∈ lines d, (t.team ku).landing.get l 0 = y.landing.get l 0 + 1) ∧
      (∀ a bs, data = some [(a, bs.map fun b => (b, false))] → y.st = .resident → y.gen = gen → raised = true →
        s.Then .multicastDelivery fun t => gone t ∧ (t.team ku).spad = Memory.setBytes y.spad a bs ∧
          (t.team ku).deliveries = y.deliveries - 1))

/-- R53, R138, R150, R156, R157, R160, R257, R258, R407, R411, R413, R414: operations out of a group are performed: remote
accesses, atomics at their executing unit, with the old values that they return, counter reads, the side log's retry, which stores
the logged bytes, the float-atomic token, and the queues. -/
def Obligations.Operations : Prop :=
  ∀ (s : State), s.Calm →
    let k := coreKey s.ev.cl s.ev.co
    (∀ f, s.flight s.ev.id = some f → f.id = s.ev.id → f.acq = none → f.tk = none →
      let gk := grpKey f.g f.t f.grp
      let gone := fun (t : State) => t.flights = s.flights.filter fun y => y.id != f.id
      let due := fun (t : State) (id : Nat) (w : List RegWr) => (s.groups.find gk).isSome = true →
        (t.group gk).due = (s.group gk).due.map fun d =>
          if d.id = id then { d with writes := d.writes ++ w, left := d.left - 1 } else d
      let free := fun (u : Nat) (os : List (Nat × Nat)) =>
        s.remFirst f u = true ∧ (s.team (teamKey f.g u)).st = .resident ∧ s.remAbsent f.g u os = false
      (∀ u a bs o, f.body = .remStore u [(a, bs.map fun b => (b, false))] → free u [(a, bs.length)] →
        State.spReduce (s.grid f.g).alloc a = some o → s.Then .remoteAccess fun t => gone t ∧
          (t.team (teamKey f.g u)).spad = Memory.setBytes (s.team (teamKey f.g u)).spad o bs) ∧
      (∀ u a op sz l d vd o, f.body = .remRmw u a op sz [l] d vd → free u [(a, pow2 sz)] →
        State.spReduce (s.grid f.g).alloc a = some o → o + pow2 sz ≤ (s.grid f.g).alloc → a + pow2 sz ≤ pow2 64 →
        s.Then .remoteAccess fun t => gone t ∧
          (t.team (teamKey f.g u)).spad = Memory.setBytes (s.team (teamKey f.g u)).spad o
            (rmwNew op (pow2 sz) (Memory.bytes (s.team (teamKey f.g u)).spad o (pow2 sz)) l.data l.cmp) ∧
          let old := s.remBytes f.g u a (pow2 sz)
          ∀ id, d = some id → due t id (State.rmwWrites vd (pow2 sz) [(l.lane, old.map fun b => (b.1, anyPois old))])) ∧
      (∀ u n a d sd sx, f.body = .remLoad u n [(0, a)] d sd true sx → free u [(a, n)] →
        s.Then .remoteAccess fun t => gone t ∧ due t d [.scal sd (loadScalar sx (s.remBytes f.g u a n)).1
          (loadScalar sx (s.remBytes f.g u a n)).2]) ∧
      (∀ u n offs d vd sx, f.body = .remLoad u n offs d vd false sx → free u (offs.map fun o => (o.2, n)) →
        s.Then .remoteAccess fun t => gone t ∧ due t d (vecWrites vd (Nat.max 1 (n / 4))
          (maskOf fun l => offs.any fun o => o.1 == l) (offs.map fun o => (o.1, loadWords sx (s.remBytes f.g u o.2 n))))) ∧
      (∀ u runs, f.body = .remStore u runs → s.remFirst f u = true → (s.team (teamKey f.g u)).st = .exited →
        s.Then .remoteAccess fun t => gone t ∧ (t.team (teamKey f.g u)).spad = (s.team (teamKey f.g u)).spad) ∧
      (∀ pa va op sz ls dst vd, f.body = .rmw (.dev pa) va op sz ls dst vd → s.rmwFirst f (.dev pa, pow2 sz) = true →
        (s.core (s.coreOfGrp gk)).l1 = [] → s.Then .atomicExecute fun t => gone t ∧
          let old := Memory.bytes s.mem pa (pow2 sz)
          t.mem = Memory.setBytes s.mem pa (ls.foldl (fun b l => rmwNew op (pow2 sz) b l.data l.cmp) old) ∧
          ∀ l id, ls = [l] → dst = some id →
            due t id (State.rmwWrites vd (pow2 sz) [(l.lane, old.map fun b => (b, s.devPois pa (pow2 sz)))])) ∧
      (∀ loc pa d sd, f.body = .ctrRead loc (.dev pa) d sd → s.rmwFirst f (.dev pa, 8) = true →
        (s.core (s.coreOfGrp gk)).l1 = [] →
        s.devPois pa 8 = false → s.Then .atomicExecute fun t => gone t ∧ t.mem = s.mem ∧
          due t d [.scal sd (w64 (leNat (Memory.bytes s.mem pa 8))) 0])) ∧
    (∀ e r, (s.cluster s.ev.cl).elapsed % 20000 = 0 → (s.core k).sideLog = [e] →
      s.storePlace k (s.grid e.g).part (e.page * 65536) = some r → s.replayHeld k (s.grid e.g).part e.page = false →
      s.Then .sideLogRetry fun t => (t.core k).sideLog = [] ∧
        ∀ x, e.op = 0 → e.recs = [x] → r.2 = 0 → 0 < x.data.length → x.addr % x.data.length = 0 → x.addr / 65536 = e.page →
          x.addr % 65536 + x.data.length ≤ 65536 →
          ∀ i, i < x.data.length → t.seen k (r.1 + x.addr % 65536 + i) = x.data.getD i 0) ∧
    (∀ e, (s.cluster s.ev.cl).elapsed % 20000 = 0 → (s.core k).sideLog = [e] →
      s.storePlace k (s.grid e.g).part (e.page * 65536) = none →
      s.Then .sideLogRetry fun t => (t.core k).sideLog = [e]) ∧
    (let g := s.ev.g
     let r := s.grid g
     let x := s.team (teamKey g r.token)
     (s.grids.find g).isSome = true → r.det = true → r.token < r.nteams → x.st = .exited →
     ((s.core (coreKey x.cl x.co)).fbuf.all fun e => !(e.g == g && e.t == r.token)) = true →
      (s.floatsDone g r.token = true → s.Then .atomicTokenPass fun t => (t.grid g).token = r.token + 1) ∧
      (s.floatsDone g r.token = false → s.Then .atomicTokenPass fun t => t = s)) ∧
    (∀ f i entry st, s.flights.find? (State.isPush s.ev.q) = some f → f.body = .push s.ev.q i entry st →
      f.grp < 32 → (s.team (teamKey f.g f.t)).st = .resident → s.pushRoom s.ev.q i = true → s.Then .qpushSlotWrite fun t =>
        let x := s.queue s.ev.q
        (0 < st → (t.group (grpKey f.g f.t f.grp)).regs.sget st = w64 (i * 256)) ∧
        t.flights = s.flights.filter (fun y => y.id != f.id) ∧
        ((s.grid f.g).reca = none → (s.core (s.coreOfGrp (grpKey f.g f.t f.grp))).l1 = [] →
          t.SameMem (((s.headRead s.ev.q).putAt x.part (x.slotAt i) (entry.map Prod.fst)).raised x.part x.taila.toNat 1))) ∧
    (∀ f i dst lines st d, s.flights.find? (State.isPop s.ev.q) = some f → f.body = .pop s.ev.q i dst lines st d →
      (s.team (teamKey f.g f.t)).st = .resident →
      (s.qHeld s.ev.q ≤ (s.queue s.ev.q).count → i < (s.qTail s.ev.q).toNat → s.Then .qpopEntryCopy fun t =>
        let x := s.queue s.ev.q
        let u := s.queueRead s.ev.q
        let a := x.slotAt i
        let bytes := match u.walkFor x.part a false with
          | some (pa, mt) => Memory.bytes (if mt = 1 then u.hostMem else u.mem) pa x.size
          | none => List.replicate x.size 0
        let ends := fun (w : State) => t.SameMem ((w.vaTouch x.part a x.size false).raised x.part x.heada.toNat 1)
        let gk := grpKey f.g f.t f.grp
        t.flights = s.flights.filter (fun y => y.id != f.id) ∧
        ((s.groups.find gk).isSome = true → (t.group gk).due = (s.group gk).due.map fun e =>
          if e.id = d then { e with writes := e.writes ++ [.scal st (w64 (i * 256)) 0], left := e.left - 1 } else e) ∧
        ((s.grid f.g).reca = none → f.grp < 32 → s.memPois = [] →
          (∀ pa, dst = .dev pa → (s.core (s.coreOfGrp gk)).l1 = [] → ends (u.putPhys pa 0 bytes)) ∧
          (∀ pa va, dst = .host pa va → ends (u.putPhys pa 1 bytes)) ∧
          (∀ off, dst = .spad f.g f.t off → ends u ∧ (t.team (teamKey f.g f.t)).spad =
            spadAfter (s.grid f.g).alloc (State.entryPieces off x.size) (fun p => (bytes.drop p.idx).take 4)
              (s.team (teamKey f.g f.t)).spad))) ∧
      ((s.queue s.ev.q).count < s.qHeld s.ev.q → s.Then .qpopEntryCopy fun t =>
        (t.queue s.ev.q).ovf = true ∧ (t.queue s.ev.q).halted = true))

/-- R436, R441, R446, R447, R451, R453, R454, R456 to R458: the engines: the head of the engine queue, a macro-op of a tile
task, a scan, and the collectives' flits and limits: a step's result is written to DST, and the last one's end writes the status and
counts. (That the limit for a result counts from the collective's start, at the home rank too, where it closes the step, is log
39. That a scan runs past landing counts that itself or a later command of its queue raised on its source lines is log 28,
DEDUCED. That a flit's TAG marks a partial result, from which MISS and PSTEPS are taken, is log 39, DEDUCED.) -/
def Obligations.Engines : Prop :=
  ∀ (s : State),
    let k := coreKey s.ev.cl s.ev.co
    (∀ w rest f, (s.core k).engq = w :: rest → State.matFields w.word = some f →
      let z := s.mxOf w f
      let tk := teamKey w.g w.t
      let alloc := (s.grid w.g).alloc
      let runs := fun (P : Team → Prop) => s.Then .matrixEngineExec fun t => (t.core k).engq = rest ∧ P (t.team tk)
      (s.core k).frost = false → (s.team tk).gen = w.gen → (s.team tk).st = .resident → (s.core k).tts = [] → z.h.fits = true →
      s.engineReady k w (State.engineReads z w) = true →
        (∀ h, w.word = .mma h f → runs fun x => x.spad = (s.team tk).spad ∧ ∀ i j, i < z.h.m → j < z.h.n →
          let v := z.element (if f.afa then z.convRow i else []) i j
          x.tiles.get (z.dst i j) 0 = v.1 ∧ x.tilePois.get (z.dst i j) false = v.2) ∧
        (∀ h, w.word = .maccld h f → runs fun x => x.spad = (s.team tk).spad ∧ ∀ i j, i < z.h.m → j < z.h.n →
          x.tiles.get (tileKey z.h f.acd.toNat i j) 0 = w32 (z.rd (moveAt w.sa w.sb 4 i j) 4).1) ∧
        (∀ h, w.word = .maccst h f → runs fun x => x.tiles = (s.team tk).tiles ∧
          x.spad = spadPut alloc ((maccstOut z w.sa w.sb).map fun o => (o.1, o.2.1)) (s.team tk).spad) ∧
        (∀ h, w.word = .mcvt h f → runs fun x => x.tiles = (s.team tk).tiles ∧
          x.spad = spadPut alloc ((mcvtOut z w.sa w.sb w.sc).map fun o => (o.1, o.2.1)) (s.team tk).spad)) ∧
    (∀ j, (s.core k).frost = false → s.jobTurn k = some j → (s.core k).engq = [] → j.mixed = false → j.phase < 2 → s.Then .macroOp fun t =>
      (∀ e ∈ s.jobTile j, ∀ e' ∈ s.jobTile j, e.1 = e'.1 → e = e') →
        ∀ e ∈ s.jobTile j, (t.team (teamKey j.g j.t)).tiles.get e.1 0 = e.2.1) ∧
    (s.jobTurn k = none → s.Then .macroOp fun t => t = s) ∧
    (∀ c rest, (s.core k).nzsq = c :: rest →
      let x := s.team (teamKey c.g c.t)
      let alloc := (s.grid c.g).alloc
      let own := fun l => ((c :: rest).filter fun e => e.g == c.g && e.t == c.t && e.lines.contains l).length
      (s.core k).frost = false → x.gen = c.gen → x.st = .resident →
      (rangeLines alloc [(c.src, c.n * c.size)]).all (fun l => x.landing.get l 0 ≤ own l) = true →
      s.earlierDone c.g c.t c.grp c.id = true → s.Then .nzsRun fun t => (t.core k).nzsq = rest ∧ (t.team (teamKey c.g c.t)).spad =
        spadPut alloc ((State.scanOut c (State.scanHits alloc x c)).map fun o => (o.1, o.2.1)) x.spad) ∧
    let lands := fun (c : Coll) (n : Nat) (bs : List Byte) (t : State) =>
      let at_ := fun (j : Nat) => pinnedPlace c.pages (c.dstAt n + j)
      (∀ j, j < bs.length → ∃ pa, at_ j = some (.dev pa)) →
      (∀ i j, i < bs.length → j < bs.length → at_ i = at_ j → i = j) →
      ∀ j pa, j < bs.length → at_ j = some (.dev pa) → Memory.byte t.mem pa = bs.getD j 0
    (∀ i f key c, s.collFlit s.ev.n = some (i, f, key) → s.coll key = some c →
      let n := leNat ((f.payload.drop 4).take 2)
      let idx := leNat ((f.payload.drop 8).take 2)
      let late := c.status.isSome ∨ c.steps ≤ n ∨ c.closed.get n false = true ∨ c.ended.get n false = true
      (late → s.Then .collFlitArrival fun t => t.colls = s.colls ∧ (t.port s.ev.n).rx = (s.port s.ev.n).rx.eraseIdx i ∧
        t.devCounters.get 0x2020 0 = satAdd64 (s.devCounters.get 0x2020 0) 1) ∧
      let got := (c.got.get n []).put idx ((f.payload.drop 16).take (f.len.toNat - 16))
      (∀ bs, ¬late → c.home n ≠ c.me → idx < c.flitsOf n → c.joined n got = some bs →
        let marks := if f.tag = 0 then c.mark else c.mark.put n f.tag.toNat
        let mark := marks.get n 0
        let u := ((s.modPort s.ev.n fun x => { x with rx := x.rx.eraseIdx i }).setColl key
          { c with got := c.got.put n got, mark := marks }).stepEnd key n mark (some bs)
        (s.Then .collFlitArrival fun t => ∃ d, t.coll key = some d ∧ d.ended.get n false = true) ∧
        ((∃ j, j < c.steps ∧ j ≠ n ∧ c.ended.get j false = false) → s.Then .collFlitArrival fun t => t = u) ∧
        (s.Calm → c.takes n = true → (c.kind ≤ 2 ∨ mark = 0) → lands c n bs u) ∧
        ((∀ j, j < c.steps → j = n ∨ c.ended.get j false = true) →
          let parts := c.psteps + if mark = 0 then 0 else 1
          let miss := if mark ≠ 0 ∧ c.psteps = 0 then mark - 1 else c.miss
          let v := w64 (min parts (pow2 32 - 1) * pow2 32 + miss * pow2 24 + if parts = 0 then 0 else 1)
          s.Then .collFlitArrival fun t => (∃ d, t.coll key = some d ∧ d.status = some v) ∧
            t.mem = ((u.pinnedWrite c.g c.pages c.stata (leBytes 8 v.toNat) false 2).gridAdd c.g c.part c.cnta 1).mem ∧
            ∀ pa, pinnedPlace c.pages c.stata = some (.dev pa) → Memory.bytes (u.pinnedWrite c.g c.pages c.stata
              (leBytes 8 v.toNat) false 2).mem pa 8 = leBytes 8 v.toNat))) ∧
    (∀ c n key, s.ev.p * 16 + s.ev.handle = key → s.coll key = some c → c.status = none →
      (let step := s.ev.step
       let data := (List.range c.nrank).map (c.held step)
       let bs := if c.kind ≤ 2 then c.result step data else (c.held step c.me).getD []
       let whole := ∀ r, r < c.nrank → c.gives r step = true → (c.held step r).isSome = true
       s.Calm → c.firstAt.find step = some n → c.home step = c.me → c.closed.get step false = false →
        n + c.tlim ≤ s.cleElapsed → c.takes step = true → (c.kind ≤ 2 ∨ whole) →
        (∃ j, j < c.steps ∧ j ≠ step ∧ c.ended.get j false = false) → s.Then .collStepTimeout (lands c step bs)) ∧
      (c.firstAt.find s.ev.step = some n → c.home s.ev.step = c.me → c.closed.get s.ev.step false = false →
        n + c.tlim ≤ s.cleElapsed → s.Then .collStepTimeout fun t =>
          ∃ d, t.coll key = some d ∧ d.closed.get s.ev.step false = true) ∧
      (s.ev.step < c.steps → c.ended.get s.ev.step false = false → c.started + 4 * c.tlim ≤ s.cleElapsed →
        s.Then .collResultTimeout fun t => ∃ d, t.coll key = some d ∧ d.ended.get s.ev.step false = true ∧
          d.psteps = c.psteps + 1))

/-- R195, R199 to R207: the stochastic field array runs the head of its queue; a clamp takes its mask and values from global
memory or the scratchpad, and a readout writes the states or the counts to either. (That a clamp leaves alone the variables beyond
the lesser of the N it was queued with and the N loaded, the order of the codes, and a poisoned clamp's code 0 are log 38, DESIGN
CHOICE.) -/
def Obligations.StochasticFieldRuns : Prop :=
  ∀ (s : State) (c : SfaCmd) (rest : List SfaCmd),
    let cl := s.ev.cl
    let x := s.sfa cl
    let tm := s.team (teamKey c.g c.t)
    x.queue = c :: rest → s.sfaHeld c = false → s.earlierDone c.g c.t c.grp c.id = true →
    let ends := fun (i : Instr) (code : Nat) (P : Sfa → Prop) => s.Then i fun t =>
      (t.sfa cl).queue = rest ∧ (t.sfa cl).code = code ∧ P (t.sfa cl)
    (c.op = 0 → c.a = 0 → x.owner.isSome = true → s.Then .sfaLoadRun fun t =>
      (t.sfa cl).owner = none ∧ (t.sfa cl).queue = [] ∧ (t.sfa cl).cfg = false ∧ (t.sfa cl).code = 0) ∧
    (c.op = 0 → c.a ≠ 0 → sfaCardOk c.card = false → ends .sfaLoadRun 3 fun y => y.cfg = false) ∧
    (c.op = 0 → c.a ≠ 0 → sfaCardOk c.card = true → (s.sfaLoad cl c).1 = 0 → ends .sfaLoadRun 0 fun y =>
      y.cfg = true ∧ y.nvar = cardNvar c.card ∧ y.deg = cardDeg c.card ∧ y.clamp = [] ∧ y.count = [] ∧ y.sweep = 0 ∧
      (cardInit c.card = 0 → ∀ i, y.st.get i false = false) ∧ y.phys = !(s.grid c.g).det ∧
      ∀ i j, i < y.nvar → j < y.nvar → i ≠ j → sfaAdjacent y.nbr y.deg (max i j) (min i j) = true →
        y.colourOf.get i 0 ≠ y.colourOf.get j 0) ∧
    (c.op = 1 → (x.cfg = false ∨ c.n = none) → ends .sfaClampRun 6 fun y => y.clamp = x.clamp ∧ y.st = x.st) ∧
    (let n := c.n.getD 0
     let len := ceilDiv n 8
     let sets := fun (bit : W64 → Nat → Bool) => ends .sfaClampRun 0 fun y =>
      (∀ i, i < Nat.min n x.nvar →
        y.clamp.get i false = bit c.a i ∧ y.st.get i false = if bit c.a i then bit c.b i else x.st.get i false) ∧
      ∀ i, Nat.min n x.nvar ≤ i → y.clamp.get i false = x.clamp.get i false ∧ y.st.get i false = x.st.get i false
     c.op = 1 → x.cfg = true → c.n.isSome = true →
      (c.imm.getLsbD 0 = false → sets fun a i => ((s.pinnedRead c.pages a.toNat len).getD (i / 8) (0, false)).1.getLsbD (i % 8)) ∧
      (c.imm.getLsbD 0 = true → tm.st = .resident → s.spadReady cl c.g c.t [(c.a.toNat, len), (c.b.toNat, len)] = true →
        sets fun a i => (match State.spReduce (s.grid c.g).alloc (a.toNat + i / 8) with
          | some o => Memory.byte tm.spad o
          | none => 0).getLsbD (i % 8))) ∧
    (c.op = 2 → x.cfg = true → c.imm.getLsbD 0 = false → ends .sfaSeedRun 0 fun y =>
      y.seed = c.a.lo ∧ y.phys = false ∧ y.sweep = 0) ∧
    (c.op = 2 → x.cfg = true → c.imm.getLsbD 0 = true → (s.grid c.g).det = true → ends .sfaSeedRun 7 fun y => y.phys = x.phys) ∧
    (c.op = 2 → x.cfg = true → c.imm.getLsbD 0 = true → (s.grid c.g).det = false → ends .sfaSeedRun 0 fun y => y.phys = true) ∧
    (c.op = 2 → x.cfg = false → ends .sfaSeedRun 6 fun y => y.seed = x.seed) ∧
    (let beta := State.sweepBeta c
     c.op = 3 → x.cfg = true → x.phys = false → beta.isFin = true → 0 < State.sweepM c →
      s.Then .sfaColourStep fun t => ∀ i,
        (t.sfa cl).st.get i false =
          if i < x.nvar ∧ x.colourOf.get i 0 = c.colour ∧ x.clamp.get i false = false ∧ x.bad.get i false = false
          then decide (mix16 x.seed x.sweep (BitVec.ofNat 32 i) < x.threshold beta i) else x.st.get i false) ∧
    (c.op = 3 → x.cfg = true → (State.sweepBeta c).isFin = false ∨ State.sweepM c = 0 → ends .sfaColourStep 5 fun y =>
      y.st = x.st) ∧
    (let n := c.n.getD 0
     let len := State.sfaOutBytes c.imm n
     let left := fun (y : Sfa) => y.st = x.st ∧ if c.imm.getLsbD 2 then y.count = [] ∧ y.ncnt = 0 ∧ y.csat = false
       else y.count = x.count ∧ y.ncnt = x.ncnt ∧ y.csat = x.csat
     let out := fun (j : Nat) (v : Byte) => if c.imm.getLsbD 1 then v = (leBytes 2 (x.count.get (j / 2) 0)).getD (j % 2) 0
       else ∀ b, b < 8 → v.getLsbD b = (decide (8 * j + b < n) && x.st.get (8 * j + b) false)
     let place := fun (j : Nat) => pinnedPlace c.pages (c.a.toNat + j)
     c.op = 4 → x.cfg = true → c.n.isSome = true →
      (c.imm.getLsbD 0 = false → ends .sfaReadRun 0 left) ∧
      (c.imm.getLsbD 0 = false → s.Calm → (∀ j, j < len → ∃ pa, place j = some (.dev pa)) →
        (∀ i j, i < len → j < len → place i = place j → i = j) →
        s.Then .sfaReadRun fun t => ∀ j pa, j < len → place j = some (.dev pa) → out j (Memory.byte t.mem pa)) ∧
      (c.imm.getLsbD 0 = true → tm.st = .resident → tm.gen = c.gen → ends .sfaReadRun 0 left ∧
        s.Then .sfaReadRun fun t => ∃ bs : List Byte, bs.length = len ∧ (∀ j, j < len → out j (bs.getD j 0)) ∧
          (t.team (teamKey c.g c.t)).spad = spadPut (s.grid c.g).alloc
            ((List.range (ceilDiv len 16)).map fun i => (c.a.toNat + 16 * i, (bs.drop (16 * i)).take 16)) tm.spad)) ∧
    (c.op = 4 → (x.cfg = false ∨ c.n = none) → ends .sfaReadRun 6 fun y => y.count = x.count)

/-- R219 to R225, R262: deposits arrive, are judged, and land: their elements stand in the data region at their position, in FP32, and
their bit is set; the last one closes its slot, whose row is formed, element by element, as the gated sum of the deposits and, where
one is missing, of what stands for it, with one rounding for each step, and with REL = 0 is written and released at once, with REL = 1
kept for its turn; and a slot closes at its deadline. (A deposit that would send poison to host memory is R263's.) -/
def Obligations.CarafeSteps : Prop :=
  ∀ (s : State),
    (∀ f cl tok pos hid fmt src k, s.flight s.ev.id = some f → f.id = s.ev.id →
      f.body = .deposit cl tok pos hid fmt src none → s.sourcesReady f src = true → (s.carafe cl).cfg = some k →
      let ok := k.grid = f.g ∧ k.hid = hid ∧ k.dfmt = fmt
      let judged := ({ s with free := s.free + 128 } : State).judge f.id cl tok pos
      (∀ n, ok → judged true = .ok n → s.Then .depositArrival fun t =>
        t.flight f.id = some { f with body := .deposit cl tok pos hid fmt src (some (n, s.depRead fmt src)) }) ∧
      (∀ off, ok → judged true = .error off → s.Then .depositArrival fun t =>
        t.flights = s.flights.filter (fun y => y.id != f.id) ∧
        (t.cluster cl).counters.get off 0 = satAdd64 ((s.cluster cl).counters.get off 0) 1)) ∧
    (∀ f cl tok pos hid fmt src n data k slot x, s.flight s.ev.id = some f → f.id = s.ev.id →
      f.body = .deposit cl tok pos hid fmt src (some (n, data)) → (s.carafe cl).cfg = some k →
      (s.carafe cl).slots.find? (fun e => e.2.stamp == n && e.2.closed.isNone) = some (slot, x) → pos < 8 →
      (∀ d, x.deadline = some d → (s.cluster cl).elapsed ≤ d) →
      let ps := State.elemPieces (State.elemAt k slot pos 0) 4 data
      let y := { x with
        have_ := x.have_ ||| BitVec.ofNat 8 (pow2 pos)
        dataPois := (List.range k.hid).foldl (fun m e => SMap.set m false (16384 * pos + e) (data.getD e (0, false)).2) x.dataPois }
      let s1 := (s.writePieces k.grid k.pages ps).modCarafe cl fun c => { c with slots := c.slots.put slot y }
      let at_ := fun (e i : Nat) => pinnedPlace k.pages (State.elemAt k slot pos e + i)
      State.leaksPois k.pages ps = false →
      (k.fieldsOk = true → data.length = k.hid → (∀ e i, e < k.hid → i < 4 → ∃ pa, at_ e i = some (.dev pa)) →
        (∀ e i e' i', e < k.hid → i < 4 → e' < k.hid → i' < 4 → at_ e i = at_ e' i' → e = e' ∧ i = i') →
        ∀ e i pa, e < k.hid → i < 4 → at_ e i = some (.dev pa) →
          Memory.byte s1.mem pa = (leBytes 4 (data.getD e (0, false)).1.toNat).getD i 0) ∧
      ((∃ j, j < x.k ∧ j ≠ pos ∧ x.have_.getLsbD j = false) →
        s.Then .depositLanded fun t => t = s1.landed f 0 ∧ t.flights = s.flights.filter (fun y => y.id != f.id) ∧
          (t.carafe cl).slots.find slot = some y ∧ y.have_.getLsbD pos = true ∧ y.closed = none) ∧
      ((∀ j, j < x.k → j = pos ∨ x.have_.getLsbD j = true) →
        let row := s1.formRow k slot y
        s.Then .depositLanded fun t => t = (s1.closeSlot cl slot 0).landed f 0 ∧ (∀ z ∈ t.flights, z.id ≠ f.id) ∧
          (k.rel = false → (t.carafe cl).slots.find slot = none ∧
            (t.carafe cl).rcnt = ((s.carafe cl).rcnt + 1) % pow2 32 ∧
            let r := k.tokIdx x.tok % k.rows
            let a := k.stata + r / 4
            let s2 := (s1.modCarafe cl fun c => { c with slots := c.slots.put slot { y with closed := some 0, row := row } }).writeRow
              cl k r row
            t = (((((s2.pinnedWrite k.grid k.pages a (leBytes 1 (leNat ((s2.pinnedRead k.pages a 1).map Prod.fst))) false 3).gridAdd
              k.grid (s.grid k.grid).part k.rela 1).count cl 0x308 1).modCarafe cl fun c =>
                { c with slots := c.slots.erase slot, rcnt := (c.rcnt + 1) % pow2 32 }).wakeCarafe cl).landed f 0) ∧
          (k.rel = true → (∀ e ∈ (s1.carafe cl).slots, e.2.tok ≠ (s.carafe cl).next) →
            (t.carafe cl).slots.find slot = some { y with closed := some 0, row := row } ∧ t.mem = s1.mem))) ∧
    (∀ k slot (x : CrfSlot), 0 < x.k → (s.formRow k slot x).length = k.hid ∧ ∀ e, e < k.hid →
      let word := fun (a : Nat) => f32 (w32 (leNat ((s.pinnedRead k.pages a 4).map Prod.fst)))
      let there := fun (j : Nat) => x.have_.getLsbD j
      let term := fun (j : Nat) => (f32 (x.gates.getD j 0)).mul (if there j then word (k.dataa + (slot * k.kmax + j) * k.hid * 4 + 4 * e)
        else if k.subst then word (k.falla + 4 * e) else FVal.zero false)
      let v := (s.formRow k slot x).getD e (0, false)
      (∃ acc : Nat → W32, acc 0 = rne32 (term 0) ∧ (∀ j, acc (j + 1) = rne32 (FVal.add 0 (f32 (acc j)) (term (j + 1)))) ∧
        v.1 = w32 (convert k.ofmt 0 k.osat false 0 (f32 (acc (x.k - 1))))) ∧
      (v.2 = true ↔ x.gatePois = true ∨ ∃ j, j < x.k ∧
        (there j = true ∧ x.dataPois.get (16384 * j + e) false = true ∨
          there j = false ∧ k.subst = true ∧ anyPois (s.pinnedRead k.pages (k.falla + 4 * e) 4) = true))) ∧
    (∀ cl k r row, k.fieldsOk = true → row.length = k.hid →
      let size := fmtBits k.ofmt / 8
      let at_ := fun (e i : Nat) => pinnedPlace k.pages (k.rowa + r * k.rstr + size * e + i)
      (∀ e i, e < k.hid → i < size → ∃ pa, at_ e i = some (.dev pa)) →
      (∀ e i e' i', e < k.hid → i < size → e' < k.hid → i' < size → at_ e i = at_ e' i' → e = e' ∧ i = i') →
      ∀ e i pa, e < k.hid → i < size → at_ e i = some (.dev pa) →
        Memory.byte (s.writeRow cl k r row).mem pa = (leBytes size (row.getD e (0, false)).1.toNat).getD i 0) ∧
    (let cl := s.ev.cl
     ∀ x d, (s.carafe cl).slots.find s.ev.slot = some x → x.deadline = some d → x.closed = none →
      (d < (s.cluster cl).elapsed ∨ (d = (s.cluster cl).elapsed ∧ s.depositComing cl x.tok = false) →
        s.Then .slotDeadline fun t => t = s.closeSlot cl s.ev.slot 1) ∧
      ((s.cluster cl).elapsed < d ∨ (d = (s.cluster cl).elapsed ∧ s.depositComing cl x.tok = true) →
        s.Then .slotDeadline fun t => t = s))

/-- R260 to R264: soft errors in the arrays: a corrected one is counted; one that is not poisons, drops or ends what the
spec says, with each poisoned sector counted. (More than two wrong symbols of an HBM access count as two do: log 48, DESIGN
CHOICE.) -/
def Obligations.SoftErrors : Prop :=
  ∀ (s : State),
    let is := fun (site : ErrSite) (fixed : Bool) (P : State → Prop) => s.ev.site = site → s.ev.flag = fixed → s.Then .softError P
    let pair := fun (t : State) (cl off hi lo : Nat) =>
      (t.cluster cl).counters.get off 0 = addPair ((s.cluster cl).counters.get off 0) hi lo
    let dev := fun (t : State) (off hi lo : Nat) => t.devCounters.get off 0 = addPair (s.devCounters.get off 0) hi lo
    (∀ g t n v l, is (.reg g t n v l) true (fun u => pair u (s.team (teamKey g t)).cl 0x380 1 0 ∧ u.groups = s.groups) ∧
      (l < 128 → (s.groups.find (grpKey g t n)).isSome = true → is (.reg g t n v l) false fun u =>
        pair u (s.team (teamKey g t)).cl 0x380 0 1 ∧
        ((u.group (grpKey g t n)).regs.vgetPois v).getLsbD l = true ∧
        (u.group (grpKey g t n)).regs.v = (s.group (grpKey g t n)).regs.v)) ∧
    (∀ g t a e, (s.team (teamKey g t)).st = .resident →
      is (.tile g t a e) false (fun u => (u.team (teamKey g t)).tilePois.get (1024 * a + e) false = true) ∧
      is (.spad g t e) false (fun u => (u.team (teamKey g t)).spadPois.get e false = true)) ∧
    (∀ c co sec x, (s.core (coreKey c co)).l1.find sec = some x →
      (x.dirty = 0 → is (.l1 c co sec) false fun u => (u.core (coreKey c co)).l1.find sec = none ∧ pair u (coreKey c co / 6) 0x388 1 0) ∧
      (x.dirty ≠ 0 → is (.l1 c co sec) false fun u =>
        (u.core (coreKey c co)).l1.find sec = some { x with pois := true } ∧ pair u (coreKey c co / 6) 0x388 0 1)) ∧
    (∀ sec, is (.l2 sec) false (fun u => u.memPois.get sec false = true ∧ dev u 0x2000 0 1) ∧
      (∀ n, 2 ≤ n → ∀ fixed, is (.hbm sec n) fixed fun u =>
        u.memPois.get (sec / 2 * 2) false = true ∧ u.memPois.get (sec / 2 * 2 + 1) false = true ∧ dev u 0x2008 0 2) ∧
      is (.l2 sec) true (fun u => u.memPois = s.memPois ∧ dev u 0x2000 1 0) ∧
      ∀ fixed, is (.hbm sec 1) fixed (fun u => u.memPois = s.memPois ∧ dev u 0x2008 1 0)) ∧
    (∀ g, (s.grids.find g).isSome = true → is (.control g) false fun u => (u.grid g).ending = true ∧
      ∀ h, (u.grids.find h).isSome = (s.grids.find h).isSome) ∧
    (∀ c co n, is (.tlbCore c co n) false fun u => (u.core (coreKey c co)).tlb = (s.core (coreKey c co)).tlb.eraseIdx n) ∧
    (∀ c co n, is (.icache c co n) false fun u => (u.core (coreKey c co)).icache = (s.core (coreKey c co)).icache.eraseIdx n)

/-- R265, R268, R273, R278 to R282, R483: the settings of a partition's page take effect or are refused, samples are
recorded, and a hang is found. -/
def Obligations.DebugSteps : Prop :=
  ∀ (s : State),
    let p := s.ev.p
    let v := s.ev.v
    let y := s.page p
    let g := v.bits 63 40
    (v.getLsbD 0 = true →
      (s.ckptPagesOf p = none → s.Then .ckpt0Go fun t => (t.page p).ckptErr = true ∧ t.grids = s.grids) ∧
      (∀ r l, s.ckptPagesOf p = some l → s.grids.find g = some r → r.part = p → (s.unpin r.ckptPages).pltRoom l = true →
        s.Then .ckpt0Go fun t => (t.grid g).gen = r.gen + 1 ∧ (t.grid g).nlog = 0 ∧
          (t.grid g).reca = some (y.ckpt1.bits 56 7 * 128) ∧ (t.grid g).log2n = y.ckpt2.bits 4 0)) ∧
    (s.ev.off = 0x40 → s.Then .trapRingSet fun t => (t.page p).trapb = v &&& 0x01FFFFFFFFFF000F) ∧
    (s.ev.off = 0x48 → s.Then .trapRingSet fun t => (t.page p).trapt = v &&& 0x01FFFFFFFFFFFFF8) ∧
    (s.ev.off = 0x50 → s.Then .trapRingSet fun t => (t.page p).traph = v &&& 0x01FFFFFFFFFFFFF8 ∧
      ((t.page p).ringOk = true → 5 ≤ y.trapb.bits 3 0)) ∧
    (∀ r t n, v.getLsbD 0 = true → s.grids.find g = some r → r.part = p → v.bits 39 20 = t → t < r.nteams →
      v.bits 19 15 = n → n < r.ngroups → n < 24 → grpKey g t n / 32 = teamKey g t →
      (s.team (teamKey g t)).st = .resident → s.Then .dbgselGo fun u =>
        (u.group (grpKey g t n)).dbgPend = some (v.extractLsb' 1 3)) ∧
    (v.getLsbD 63 = true →
      let l := s.settingPages p (y.trcb.bits 38 12 * 4096) (32 * pow2 (8 + y.trcb.bits 3 0)) true
      (l = none → s.Then .traceArm fun t => (t.page p).trca.getLsbD 63 = false) ∧
      (∀ l', l = some l' → (s.unpin y.trcPages).pltRoom l' = true → s.Then .traceArm fun t =>
        (t.page p).trca = v &&& 0x81FFFFFFFFFFFFFF ∧ (t.page p).trcPages = l')) ∧
    (v.getLsbD 0 = true →
      let l := s.settingPages p (y.sampb.bits 56 12 * 4096) (64 * pow2 (6 + y.sampb.bits 3 0)) true
      (l = none → s.Then .samplingEnable fun t => (t.page p).sampc.getLsbD 0 = false) ∧
      (∀ l', l = some l' → (s.unpin y.sampPages).pltRoom l' = true → s.Then .samplingEnable fun t =>
        (t.page p).sampc = v &&& 0xF1 ∧ (t.page p).sampPages = l')) ∧
    (let k := coreKey s.ev.cl s.ev.co
     ∀ q x rest, s.partOfCluster s.ev.cl = some q → (s.core k).samples = x :: rest → s.sampleDone x = true →
      s.Then .sampleRecord fun t => (t.core k).samples = rest ∧
        (t.page q).sampn = (s.page q).sampn + if (s.page q).sampc.getLsbD 0 then 1 else 0) ∧
    (let h := s.ev.g
     ∀ r, s.grids.find h = some r → s.cleElapsed % 1000 = 0 → r.hangAt ≠ some s.cleElapsed →
      (r.issued = true → s.Then .hangCheck fun t => (t.grid h).hang = 0 ∧ (t.grid h).issued = false) ∧
      (r.issued = false → s.gridAtWork h = false → r.hangBusy = false →
        (r.hang + 1300 < pow2 r.hangx → s.Then .hangCheck fun t => (t.grid h).hang = r.hang + 1300) ∧
        (pow2 r.hangx ≤ r.hang + 1300 → s.Then .hangCheck fun t => (t.grid h).hang = 0 ∧
          ∃ e, (t.page r.part).trapq = (s.page r.part).trapq ++ [e] ∧ e.cause = 0x0C ∧ e.kind = 2 ∧ e.g = h)))

/-- R106, R107, R172, R271: a word that may not issue yet changes nothing; a false scalar guard lets any word pass with no
effect, no wait and no trap: what concerns its bytes and fields has been judged before, and it reads no register, slot or tile
(log 27). -/
def Obligations.GuardsAndWaits : Prop :=
  ∀ (s : State) (i : Instr) (h : Hdr), i.hdr = some h → i.handlerOnly = false → s.cur.handler = none →
    s.cur.sec = false → s.grp.park = none → s.grp.gone = false →
    (State.laBlocks s.grp s.cur.lanes = true → exec i s = .next s) ∧
    (State.laBlocks s.grp s.cur.lanes = false → s.scalarGuard h = false → s.grp.step = false → s.grp.srun = false → s.Takes i s) ∧
    (State.laBlocks s.grp s.cur.lanes = false → s.scalarGuard h = true → s.grp.tokensDone i.twMask = false → exec i s = .next s)

/-- R98, R109, R263, R269, R271, R273, R375, R402 to R405, R409, R411, R434, R435, R453: where words trap: a register beyond the
budget, a slot that is not bound, a reserved operand, the step and strict controls, and the addresses of memory and counter words.
(Under a lane guard the mask of a trap without a lane is that of the lanes for which the guard holds: log 27, DEDUCED. That a load
that traps leaves memory, the A bits of its leaves included, as it was is log 37, DEDUCED.) -/
def Obligations.Traps : Prop :=
  ∀ (s : State) (h : Hdr), s.Named → s.grp.park = none → State.laBlocks s.grp s.cur.lanes = false → s.scalarGuard h = true →
    let act := s.activeLanes h
    let m := act
    let b := s.grp.budget
    (∀ f : V3, f.bs = false → ∀ i ∈ [Instr.vadd h f, .vsub h f, .vmul h f, .vand h f, .vor h f, .vxor h f, .vfadd h f, .vfmul h f],
      (∃ n ∈ [f.vd, f.va, f.vb], b ≤ n.toNat) → ∃ n ∈ [f.vd, f.va, f.vb], b ≤ n.toNat ∧
        s.Traps i 0x05 m (w64 (n.toNat + b % 65536 * 65536))) ∧
    (∀ f : V3, s.FitsV3 f → s.grp.sla = true → ∀ d, s.grp.due = [d] → (0, f.va.toNat) ∈ d.dst →
      s.Traps (.vadd h f) 0x08 m (w64 d.pc)) ∧
    (∀ f : V3, slotBound (s.fslot f.slot) = false → s.Traps (.vcvtbsPack h f) 0x07 m (w64 f.slot.toNat)) ∧
    (∀ f : XF, s.grp.tokensDone f.tw = true → (s.sreg f.sc = 0 ∨ 65536 < (s.sreg f.sc).toNat) →
      s.Traps (.nzscan h f) 0x02 m 45) ∧
    (∀ (f : CF) (r : Run), s.cur.sec = false → s.grp.gone = false → (s.quad s.curQuad).run = some r →
      let after := fun (i : Instr) (c : Nat) => ∃ t, exec i s = .next t ∧ s.Passed t ∧ t.grp.regs = s.grp.regs ∧
        t.grp.park = some .trap ∧ t.grp.trapCause = some c ∧ ∃ e, (t.page s.curGrid.part).trapq =
          (s.page s.curGrid.part).trapq ++ [e] ∧ e.cause = c ∧ e.mask = act ∧ e.pc = w64 (s.cur.pc % pow2 57)
      (s.grp.srun = true → h.bnd = false → 24 ≤ r.prim.words + s.cur.words → after (.nop h f) 0x06) ∧
      (s.grp.srun = false → s.grp.step = true → after (.nop h f) 0x0D)) ∧
    (∀ f : MF, s.grp.tokensDone f.tw = true → s.grp.sla = false → s.acquireOut s.curGrp = false →
      (f.isRel = true → s.releaseWait f.scp.toNat = none) →
      let fits := fun (l : List Nat) => ∀ n ∈ l, n < b
      let failed := (s.lookup .load (s.mPieces f act)).2
      (fits (f.addrRegs ++ f.dataRegs) → s.mTarget f = .glob → failed ≠ [] →
        s.Traps (.ld h f) 0x0A (State.lanesOf failed) 0) ∧
      (fits (f.addrRegs ++ f.dataRegs) → s.mTarget f = .own → s.mPois f act ≠ 0 →
        ∀ i ∈ [Instr.ld h f, .st h f], s.Traps i 0x0B (s.mPois f act) 0) ∧
      (fits (f.addrRegs ++ f.atomRegs false) → (∃ l ∈ act.lanes, s.mSum f l % f.size ≠ 0) →
        ∀ i ∈ [Instr.atomAdd h f, .atomMin h f, .atomMax h f, .atomAnd h f, .atomOr h f, .atomXor h f, .atomExch h f],
          s.Traps i 0x09 (maskOf fun l => act.getLsbD l && s.mSum f l % f.size != 0) 0) ∧
      (act ≠ 0 → s.mSum f 0 % 8 ≠ 0 → ∀ i ∈ [Instr.ctradd h f, .ctrrd h f], s.Traps i 0x09 act 0))

/-- R286, R287, R102, R271: a step runs the decoded instruction: the one whose bytes lie at the stream's PC, in the
context of that word; or the step of the device, or the handler's command, that the agenda holds. -/
def Obligations.StepRunsDecoded : Prop :=
  ∀ (s : State), s.power.clocksOn = true →
    (∀ (r : Run) (pa mt : Nat) (i : Instr) (len : Nat),
      let c := s.cur
      let k := coreKey c.cl c.co
      let p := (s.grid (grpKeyGrid r.grp)).part
      let pc := r.prim.pc
      let n := instrLen (Memory.byte s.mem pa)
      let bs := Memory.bytes s.mem pa n
      s.agenda = [] → c.co < 6 → (s.quad (4 * k + c.qd)).run = some r → r.secTurn = false → r.sec = none →
      pc < pow2 57 → ((s.core k).icache.find? fun l => State.lineHolds l p pc) = none → s.fetchPage k p pc = .ok (pa, mt) → mt ≠ 1 →
      pc % 65536 + n ≤ 65536 → s.devPois pa n = false → decode bs = .ok (i, len) → i.handlerOnly = false →
      r.prim.words + State.wordsOf bs ≤ 24 → s.streamWaits r.grp k p r.prim = false → s.bkptHit p pc = none →
      ∃ u, step s = exec i u ∧
        u.cur = { cl := c.cl, co := c.co, qd := c.qd, g := grpKeyGrid r.grp, t := grpKeyTeam r.grp, grp := grpKeyIdx r.grp
                  lanes := r.prim.lanes, pc := pc, len := n, sec := false, handler := none, words := State.wordsOf bs } ∧
        u = { s with cur := u.cur, cores := u.cores, clusters := u.clusters, quads := u.quads, mem := u.mem } ∧
        (u.quad (4 * k + c.qd)).run = some { r with hold := false, first := s.nextId }) ∧
    (∀ i x rest, s.agenda = .event i x :: rest → i.hdr = none → step s = exec i { s with agenda := rest, ev := x }) ∧
    (∀ i p rest, s.agenda = .handler p :: rest → (s.page p).hbusy = true → State.handlerWord (s.page p) = some i →
      step s = exec i { s with agenda := rest, cur := { s.cur with handler := some p } })

/-- R303: a 4-byte word decodes to the instruction that the V3 word (FMT 0) of its opcode decodes to in the verbatim form, with
VC := VD, FP32 type, RNE, no guard and LA 0 (R289, R294, R306); and some words written out from their encodings. -/
def Obligations.DecodeWords : Prop :=
  let plain : Hdr := { bnd := false, la := 0, gn := false, grd := 0 }
  let v3 : V3 := { vd := 0, va := 0, vb := 0, vc := 0, ty := 0, rm := 0, sat := false, ftz := false, pd := 0, bs := false
                   ty2 := 0, slot := 0, usl := false, imm8 := 0 }
  let vi : VI := { vd := 0, va := 0, ty := 0, rm := 0, sat := false, ftz := false, pd := 0, imm := 0 }
  decode [0x00, 0x03, 0x03, 0x09] = .ok (.vadd plain { v3 with vd := 3, va := 3, vb := 9, vc := 3 }, 4) ∧
  decode [0x42, 0xFF, 0x00, 0x80] = .ok (.vmul { plain with bnd := true } { v3 with vd := 255, va := 0, vb := 128, vc := 255 }, 4) ∧
  decode [0xA0, 0x00, 0x60, 0x60, 0x00, 0x64] = .ok (.vaddImm plain { vi with vd := 3, va := 3, imm := 100 }, 6) ∧
  decode [0xE0, 0x00, 0x00, 0x0A, 0x80, 0x00, 0x82, 0x80, 0x00, 0x04, 0x00, 0x01, 0x00] =
    .ok (.vcmp plain { v3 with va := 1, vb := 5, pd := 2, imm8 := 2 }, 13) ∧
  decode [0xF0] = .error (.undefinedEncoding 0xF0) ∧
  ∀ (bnd : BitVec 1) (co : BitVec 6) (vd va vb : BitVec 8),
    let word : BitVec 96 := 0#4 ++ bnd ++ 0#10 ++ (0#4 ++ co) ++ vd ++ va ++ vb ++ vd ++ 0#39
    let verbatim : List Byte := 0xE0 :: (List.range 12).map fun k => word.extractLsb' (88 - 8 * k) 8
    ∀ i, decode [0#1 ++ bnd ++ co, vd, va, vb] = .ok (i, 4) ↔ decode verbatim = .ok (i, 13)

/-- R284, R289 to R313: decode of encode is the instruction, for every well-formed word and tree, whatever bytes follow. -/
def Obligations.DecodeEncode : Prop :=
  ∀ (i : Instr) (h : Hdr) (rest : List Byte), i.hdr = some h → i.wellFormed = true →
    decode (encode i ++ rest) = .ok (i, (encode i).length)

/-- Every step keeps device and host memory in their canonical form (the model's choice of form, log 2). -/
def Obligations.StepKeepsMemoryForm : Prop :=
  ∀ (s t : State), s.MemWf → step s = .next t → t.MemWf

/-- R20, R91, R92, R123: the machine at reset: memory in canonical form and empty, no partition, grid, team or group; the
operating classes and the draft registers at the values the spec gives; and PWR_OK low, no clocks. (That every byte of memory reads
one fresh value after power-on is log 2, DESIGN CHOICE.) -/
def Obligations.Reset : Prop :=
  let s := State.reset
  s.MemWf ∧ (∀ a, Memory.byte s.mem a = Memory.fresh) ∧ s.parts = [] ∧ s.grids = [] ∧ s.teams = [] ∧ s.groups = [] ∧
  s.power.pwrOk = false ∧ s.power.clocksOn = false ∧
  (∀ n, (s.opClass n).stat = 0) ∧
  (s.opClass 0).volt = 0x9B ∧ (s.opClass 0).fboost = 0x3E ∧ (s.opClass 0).fbase = 0x34 ∧
  (s.opClass 1).volt = 0x82 ∧ (s.opClass 1).fboost = 0x30 ∧ (s.opClass 1).fbase = 0x28 ∧
  (s.opClass 2).volt = 0x96 ∧ (s.opClass 2).fboost = 0x34 ∧ (s.opClass 2).fbase = 0x34 ∧
  (s.opClass 3).volt = 0x6E ∧ (s.opClass 3).fboost = 0x18 ∧ (s.opClass 3).fbase = 0x18 ∧
  s.boostRate = 0 ∧ s.draftThresh = 0x18 ∧ s.draftInterval = 0x1F4 ∧ s.draftEn = true ∧
  (∀ k, (s.core k).frost = true ∧ (s.core k).pword = none)

/-- R117, R145, R109, R173, R410: a parked group wakes when its token's last transfer lands (or traps, where a step trap was
put off; or waits for the baton that it held when its team was saved, R116), and when the counter that it waits for reaches its
value. -/
def Obligations.Wakes : Prop :=
  (∀ (s : State) (f : Flight) (pb pa len c n : Nat) (gen : BitVec 16) (m : BitVec 8), s.flight s.ev.id = some f →
    f.id = s.ev.id → s.Calm → s.memPois = [] → f.grp < 32 → (s.team (teamKey f.g f.t)).st = .resident →
    f.body = .copy [(.dev pb, .dev pa, len)] c gen → s.inChannel f = true → s.sourcesReady f [(.dev pb, len)] = true →
    (∀ y ∈ s.flights, y.cmd = f.cmd → y.id = f.id) → f.tk = some n → n < 8 → m.getLsbD n = true →
    let gk := grpKey f.g f.t f.grp
    let x := s.group gk
    (s.groups.find gk).isSome = true → x.park = some (.token m) → x.kc n = 1 →
    (∀ j, j < 8 → m.getLsbD j = true → j ≠ n → x.kc j = 0) →
      (x.stepPend = none → s.Then .copyLanding fun t =>
        (t.group gk).park = if x.batonDue then some (.baton true) else none) ∧
      (x.stepPend.isSome = true → s.Then .copyLanding fun t =>
        (t.group gk).park = some .trap ∧ (t.group gk).trapCause = some 0x0D)) ∧
  (∀ (s : State) (pa : Nat) (data : List Byte) (rest : List Turn) (gk va scp : Nat) (want w : W64),
    s.agenda = .hartWrite pa data :: rest → s.power.clocksOn = true → pa + data.length ≤ devBytes →
    s.allSlotGroups = [gk] → (s.group gk).park = some (.counter (.glob va) want scp false) →
    (s.team (gk / 32)).st = .resident → (s.group gk).stepPend = none → (s.group gk).batonDue = false →
    ((s.devWrite pa data false).counterStep gk (.glob va)).counterValue (s.grid (grpKeyGrid gk)).part (.glob va) = some w →
    ∃ t, step s = .next t ∧ (t.group gk).park = if want.toNat ≤ w.toNat then none else (s.group gk).park)
end

