-- ==== Sys2Proof/Laws/Map.lean ====
section
/-! SUPPORT. Laws of sparse maps, of memory and of lane masks: reading after writing, and the canonical form. -/

namespace Sys2Proof
namespace SMap

variable {α : Type}

theorem find_ins_ne (m : SMap α) {k j : Nat} (v : α) (h : j ≠ k) : (ins k v m).find j = m.find j := by
  induction m with
  | nil => simp [ins, find, Ne.symm h]
  | cons e l ih =>
    obtain ⟨i, w⟩ := e
    by_cases hk : k < i
    · simp [ins, hk, find, Ne.symm h]
    · simp only [ins, hk, if_false, find]; split <;> simp [ih]

theorem find_ins_self (m : SMap α) {k : Nat} (v : α) (h : m.find k = none) : (ins k v m).find k = some v := by
  induction m with
  | nil => simp [ins, find]
  | cons e l ih =>
    obtain ⟨i, w⟩ := e
    have hi : i ≠ k := by intro hi; simp [find, hi] at h
    have hl : SMap.find l k = none := by simpa [find, hi] using h
    by_cases hk : k < i
    · simp [ins, hk, find]
    · simp [ins, hk, find, hi, ih hl]

theorem find_erase_self (m : SMap α) (k : Nat) : (m.erase k).find k = none := by
  induction m with
  | nil => rfl
  | cons e l ih =>
    obtain ⟨i, w⟩ := e
    by_cases hk : i = k
    · simp [erase, hk, ih]
    · simp [erase, hk, find, ih]

theorem find_erase_ne (m : SMap α) {k j : Nat} (h : j ≠ k) : (m.erase k).find j = m.find j := by
  induction m with
  | nil => rfl
  | cons e l ih =>
    obtain ⟨i, w⟩ := e
    by_cases hk : i = k
    · subst hk; simp [erase, find, Ne.symm h, ih]
    · by_cases hj : i = j
      · subst hj; simp [erase, hk, find]
      · simp [erase, hk, find, hj, ih]

/-- Reading a key after a write. -/
theorem find_put (m : SMap α) (k j : Nat) (v : α) : (m.put k v).find j = if j = k then some v else m.find j := by
  by_cases h : j = k
  · subst h; simp [put, find_ins_self _ _ (find_erase_self m j)]
  · simp [put, h, find_ins_ne _ _ h, find_erase_ne _ h]

/-- Reading a key after a write, with a default. -/
theorem get_put (m : SMap α) (k j : Nat) (v d : α) : (m.put k v).get j d = if j = k then v else m.get j d := by
  unfold get; rw [find_put]; split <;> rfl

theorem get_erase (m : SMap α) (k j : Nat) (d : α) : (m.erase k).get j d = if j = k then d else m.get j d := by
  unfold get
  by_cases h : j = k
  · subst h; simp [find_erase_self]
  · simp [h, find_erase_ne _ h]

/-- Reading a key after a write that keeps the default unlisted. -/
theorem get_set [DecidableEq α] (m : SMap α) (d : α) (k j : Nat) (v : α) :
    (m.set d k v).get j d = if j = k then v else m.get j d := by
  unfold set
  by_cases hv : v = d
  · subst hv; rw [if_pos rfl, get_erase]
  · rw [if_neg hv, get_put]

/-- Reading a key after a change. -/
theorem get_modify (m : SMap α) (k j : Nat) (d : α) (f : α → α) :
    (m.modify k d f).get j d = if j = k then f (m.get k d) else m.get j d := by
  unfold modify; exact get_put m k j _ d

theorem sorted_cons (e : Nat × α) (l : SMap α) :
    sorted (e :: l) = true ↔ (∀ x ∈ l.head?, e.1 < x.1) ∧ sorted l = true := by
  cases l with
  | nil => simp [sorted]
  | cons x t => simp [sorted]

theorem head_erase_gt (m : SMap α) (k b : Nat) (hs : m.sorted = true) (hb : ∀ x ∈ m.head?, b < x.1) :
    ∀ x ∈ (m.erase k).head?, b < x.1 := by
  induction m with
  | nil => simp [erase]
  | cons e l ih =>
    obtain ⟨i, w⟩ := e
    have h1 : b < i := hb (i, w) (by simp)
    by_cases hk : i = k
    · simp only [erase, hk, if_true]
      rw [sorted_cons] at hs
      exact ih hs.2 fun x hx => Nat.lt_trans h1 (hs.1 x hx)
    · simpa [erase, hk] using h1

theorem sorted_erase (m : SMap α) (k : Nat) (h : m.sorted = true) : (m.erase k).sorted = true := by
  induction m with
  | nil => rfl
  | cons e l ih =>
    obtain ⟨i, w⟩ := e
    rw [sorted_cons] at h
    by_cases hk : i = k
    · simpa [erase, hk] using ih h.2
    · simp only [erase, hk, if_false]
      rw [sorted_cons]
      exact ⟨head_erase_gt l k i h.2 h.1, ih h.2⟩

theorem head_ins (m : SMap α) (k b : Nat) (v : α) (hk : b < k) (hb : ∀ x ∈ m.head?, b < x.1) :
    ∀ x ∈ (ins k v m).head?, b < x.1 := by
  cases m with
  | nil => simp [ins, hk]
  | cons e l =>
    obtain ⟨i, w⟩ := e
    have : b < i := hb (i, w) (by simp)
    by_cases h : k < i
    · simp [ins, h, hk]
    · simp [ins, h, this]

theorem sorted_ins (m : SMap α) (k : Nat) (v : α) (h : m.sorted = true) (hn : m.find k = none) :
    (ins k v m).sorted = true := by
  induction m with
  | nil => rfl
  | cons e l ih =>
    obtain ⟨i, w⟩ := e
    have hi : i ≠ k := by intro hi; simp [find, hi] at hn
    have hl : SMap.find l k = none := by simpa [find, hi] using hn
    have hs := (sorted_cons _ _).1 h
    by_cases hk : k < i
    · simp only [ins, hk, if_true]
      rw [sorted_cons]; exact ⟨by simp [hk], h⟩
    · simp only [ins, hk, if_false]
      rw [sorted_cons]
      exact ⟨head_ins l k i v (by omega) hs.1, ih hs.2 hl⟩

theorem all_erase (m : SMap α) (k : Nat) (p : Nat × α → Bool) (h : m.all p = true) : (m.erase k).all p = true := by
  induction m with
  | nil => rfl
  | cons e l ih =>
    obtain ⟨i, w⟩ := e
    rw [List.all_cons, Bool.and_eq_true] at h
    by_cases hk : i = k
    · simpa [erase, hk] using ih h.2
    · simp only [erase, hk, if_false, List.all_cons, Bool.and_eq_true]
      exact ⟨h.1, ih h.2⟩

theorem all_ins (m : SMap α) (k : Nat) (v : α) (p : Nat × α → Bool) (h : m.all p = true) (hv : p (k, v) = true) :
    (ins k v m).all p = true := by
  induction m with
  | nil => simp [ins, hv]
  | cons e l ih =>
    obtain ⟨i, w⟩ := e
    rw [List.all_cons, Bool.and_eq_true] at h
    by_cases hk : k < i
    · simp only [ins, hk, if_true, List.all_cons, Bool.and_eq_true]; exact ⟨hv, h.1, h.2⟩
    · simp only [ins, hk, if_false, List.all_cons, Bool.and_eq_true]; exact ⟨h.1, ih h.2⟩

theorem wf_erase [DecidableEq α] (m : SMap α) (d : α) (k : Nat) (h : m.wf d = true) : (m.erase k).wf d = true := by
  unfold wf at *
  rw [Bool.and_eq_true] at *
  exact ⟨sorted_erase m k h.1, all_erase m k _ h.2⟩

/-- A write keeps the canonical form. -/
theorem wf_set [DecidableEq α] (m : SMap α) (d : α) (k : Nat) (v : α) (h : m.wf d = true) :
    (m.set d k v).wf d = true := by
  unfold set
  by_cases hv : v = d
  · rw [if_pos hv]; exact wf_erase m d k h
  · rw [if_neg hv]
    have he := wf_erase m d k h
    unfold wf at *
    rw [Bool.and_eq_true] at *
    exact ⟨sorted_ins _ _ _ he.1 (find_erase_self m k), all_ins _ _ _ _ he.2 (by simpa using hv)⟩

end SMap

namespace Memory

/-- A byte after a byte is written. -/
theorem byte_setByte (m : Memory) (a b : Nat) (v : Byte) :
    (Memory.setByte m a v).byte b = if b = a then v else Memory.byte m b := SMap.get_set m fresh a b v

/-- A byte written keeps the canonical form. -/
theorem wf_setByte (m : Memory) (a : Nat) (v : Byte) (h : Memory.wf m = true) : Memory.wf (m.setByte a v) = true :=
  SMap.wf_set m fresh a v h

/-- Bytes written keep the canonical form. -/
theorem wf_setBytes (l : List Byte) (m : Memory) (a : Nat) (h : Memory.wf m = true) :
    Memory.wf (m.setBytes a l) = true := by
  induction l generalizing m a with
  | nil => exact h
  | cons b l ih => exact ih _ _ (wf_setByte m a b h)

/-- A byte outside the bytes written. -/
theorem byte_setBytes_out (l : List Byte) (m : Memory) (a b : Nat) (h : b < a ∨ a + l.length ≤ b) :
    (m.setBytes a l).byte b = m.byte b := by
  induction l generalizing m a with
  | nil => rfl
  | cons v l ih =>
    have hb : b < a + 1 ∨ a + 1 + l.length ≤ b := by simp only [List.length_cons] at h; omega
    have hne : b ≠ a := by simp only [List.length_cons] at h; omega
    rw [setBytes, ih _ _ hb, byte_setByte, if_neg hne]

/-- A byte among the bytes written. -/
theorem byte_setBytes_in (l : List Byte) (m : Memory) (a i : Nat) (h : i < l.length) :
    (m.setBytes a l).byte (a + i) = l.getD i 0 := by
  induction l generalizing m a i with
  | nil => simp at h
  | cons v l ih =>
    cases i with
    | zero =>
      rw [setBytes, byte_setBytes_out _ _ _ _ (by omega), byte_setByte]; simp
    | succ i =>
      have := ih (m.setByte a v) (a + 1) i (by simpa using h)
      rw [setBytes, show a + (i + 1) = a + 1 + i by omega, this]; rfl

theorem length_bytes (m : Memory) (a n : Nat) : (m.bytes a n).length = n := by
  induction n generalizing a with
  | zero => rfl
  | succ n ih => simp [bytes, ih]

/-- The bytes just written. -/
theorem bytes_setBytes (l : List Byte) (m : Memory) (a : Nat) : (m.setBytes a l).bytes a l.length = l := by
  induction l generalizing m a with
  | nil => rfl
  | cons v l ih =>
    rw [List.length_cons, bytes, setBytes, ih, byte_setBytes_out _ _ _ _ (by omega), byte_setByte, if_pos rfl]

end Memory

/-! ### Masks -/

theorem maskOf_sum (f : Nat → Bool) (n i : Nat) :
    ((List.range n).foldl (fun a i => if f i then a + pow2 i else a) 0).testBit i = (decide (i < n) && f i) ∧
    (List.range n).foldl (fun a i => if f i then a + pow2 i else a) 0 < 2 ^ n := by
  induction n with
  | zero => simp
  | succ n ih =>
    rw [List.range_succ, List.foldl_append]
    simp only [List.foldl_cons, List.foldl_nil]
    generalize (List.range n).foldl (fun a i => if f i then a + pow2 i else a) 0 = x at *
    have hx := ih.2
    by_cases hf : f n = true
    · rw [if_pos hf]
      unfold pow2
      refine ⟨?_, by rw [Nat.pow_succ]; omega⟩
      rw [Nat.add_comm]
      rcases Nat.lt_trichotomy i n with hi | hi | hi
      · rw [Nat.testBit_two_pow_add_gt hi, ih.1]; simp [hi, Nat.lt_succ_of_lt hi]
      · subst hi; rw [Nat.testBit_two_pow_add_eq, ih.1]; simp [hf]
      · have h2 : 2 ^ n + x < 2 ^ i := by
          have : 2 ^ (n + 1) ≤ 2 ^ i := Nat.pow_le_pow_right (by omega) hi
          rw [Nat.pow_succ] at this; omega
        rw [Nat.testBit_lt_two_pow h2]
        have : ¬ i < n + 1 := by omega
        simp [this]
    · rw [if_neg hf]
      refine ⟨?_, by rw [Nat.pow_succ]; omega⟩
      rw [ih.1]
      by_cases hi : i = n
      · subst hi; simp [hf]
      · have : (i < n + 1) ↔ i < n := by omega
        simp [this]

/-- A lane of a mask given by a test. -/
theorem getLsbD_maskOf (f : Nat → Bool) (l : Nat) (h : l < 128) : (maskOf f).getLsbD l = f l := by
  unfold maskOf
  rw [BitVec.getLsbD_ofNat, (maskOf_sum f 128 l).1]
  simp [h]

/-- A lane of the full mask. -/
theorem getLsbD_full (l : Nat) (h : l < 128) : Mask.full.getLsbD l = true := by
  unfold Mask.full; rw [BitVec.getLsbD_allOnes]; exact decide_eq_true h

theorem getD_range_map {α : Type} (f : Nat → α) (l : Nat) (d : α) (h : l < 128) :
    ((List.range 128).map f).getD l d = f l := by
  simp [List.getD, h]

end Sys2Proof
end

