-- ==== Sys2Proof/Laws/State.lean ====
section
/-! SUPPORT. Laws of the state's accessors: what each update leaves of every field, and what a unit reads as after an
update of a unit of its kind. -/

namespace Sys2Proof.Machine.State

@[simp] theorem modCluster_fuses (s : State) (k : Nat) (f : Cluster → Cluster) : (s.modCluster k f).fuses = s.fuses := rfl
@[simp] theorem modCluster_power (s : State) (k : Nat) (f : Cluster → Cluster) : (s.modCluster k f).power = s.power := rfl
@[simp] theorem modCluster_boot (s : State) (k : Nat) (f : Cluster → Cluster) : (s.modCluster k f).boot = s.boot := rfl
@[simp] theorem modCluster_mb (s : State) (k : Nat) (f : Cluster → Cluster) : (s.modCluster k f).mb = s.mb := rfl
@[simp] theorem modCluster_pfWbase (s : State) (k : Nat) (f : Cluster → Cluster) : (s.modCluster k f).pfWbase = s.pfWbase := rfl
@[simp] theorem modCluster_pfW4miss (s : State) (k : Nat) (f : Cluster → Cluster) : (s.modCluster k f).pfW4miss = s.pfW4miss := rfl
@[simp] theorem modCluster_harts (s : State) (k : Nat) (f : Cluster → Cluster) : (s.modCluster k f).harts = s.harts := rfl
@[simp] theorem modCluster_parts (s : State) (k : Nat) (f : Cluster → Cluster) : (s.modCluster k f).parts = s.parts := rfl
@[simp] theorem modCluster_queues (s : State) (k : Nat) (f : Cluster → Cluster) : (s.modCluster k f).queues = s.queues := rfl
@[simp] theorem modCluster_ports (s : State) (k : Nat) (f : Cluster → Cluster) : (s.modCluster k f).ports = s.ports := rfl
@[simp] theorem modCluster_opcls (s : State) (k : Nat) (f : Cluster → Cluster) : (s.modCluster k f).opcls = s.opcls := rfl
@[simp] theorem modCluster_boostRate (s : State) (k : Nat) (f : Cluster → Cluster) : (s.modCluster k f).boostRate = s.boostRate := rfl
@[simp] theorem modCluster_draftThresh (s : State) (k : Nat) (f : Cluster → Cluster) : (s.modCluster k f).draftThresh = s.draftThresh := rfl
@[simp] theorem modCluster_draftInterval (s : State) (k : Nat) (f : Cluster → Cluster) : (s.modCluster k f).draftInterval = s.draftInterval := rfl
@[simp] theorem modCluster_draftEn (s : State) (k : Nat) (f : Cluster → Cluster) : (s.modCluster k f).draftEn = s.draftEn := rfl
@[simp] theorem modCluster_boostAt (s : State) (k : Nat) (f : Cluster → Cluster) : (s.modCluster k f).boostAt = s.boostAt := rfl
@[simp] theorem modCluster_devCounters (s : State) (k : Nat) (f : Cluster → Cluster) : (s.modCluster k f).devCounters = s.devCounters := rfl
@[simp] theorem modCluster_gridNext (s : State) (k : Nat) (f : Cluster → Cluster) : (s.modCluster k f).gridNext = s.gridNext := rfl
@[simp] theorem modCluster_accepted (s : State) (k : Nat) (f : Cluster → Cluster) : (s.modCluster k f).accepted = s.accepted := rfl
@[simp] theorem modCluster_grids (s : State) (k : Nat) (f : Cluster → Cluster) : (s.modCluster k f).grids = s.grids := rfl
@[simp] theorem modCluster_teams (s : State) (k : Nat) (f : Cluster → Cluster) : (s.modCluster k f).teams = s.teams := rfl
@[simp] theorem modCluster_groups (s : State) (k : Nat) (f : Cluster → Cluster) : (s.modCluster k f).groups = s.groups := rfl
@[simp] theorem modCluster_cores (s : State) (k : Nat) (f : Cluster → Cluster) : (s.modCluster k f).cores = s.cores := rfl
@[simp] theorem modCluster_quads (s : State) (k : Nat) (f : Cluster → Cluster) : (s.modCluster k f).quads = s.quads := rfl
@[simp] theorem modCluster_mem (s : State) (k : Nat) (f : Cluster → Cluster) : (s.modCluster k f).mem = s.mem := rfl
@[simp] theorem modCluster_memPois (s : State) (k : Nat) (f : Cluster → Cluster) : (s.modCluster k f).memPois = s.memPois := rfl
@[simp] theorem modCluster_hostMem (s : State) (k : Nat) (f : Cluster → Cluster) : (s.modCluster k f).hostMem = s.hostMem := rfl
@[simp] theorem modCluster_plt (s : State) (k : Nat) (f : Cluster → Cluster) : (s.modCluster k f).plt = s.plt := rfl
@[simp] theorem modCluster_flights (s : State) (k : Nat) (f : Cluster → Cluster) : (s.modCluster k f).flights = s.flights := rfl
@[simp] theorem modCluster_colls (s : State) (k : Nat) (f : Cluster → Cluster) : (s.modCluster k f).colls = s.colls := rfl
@[simp] theorem modCluster_cleElapsed (s : State) (k : Nat) (f : Cluster → Cluster) : (s.modCluster k f).cleElapsed = s.cleElapsed := rfl
@[simp] theorem modCluster_reply (s : State) (k : Nat) (f : Cluster → Cluster) : (s.modCluster k f).reply = s.reply := rfl
@[simp] theorem modCluster_msgs (s : State) (k : Nat) (f : Cluster → Cluster) : (s.modCluster k f).msgs = s.msgs := rfl
@[simp] theorem modCluster_nextId (s : State) (k : Nat) (f : Cluster → Cluster) : (s.modCluster k f).nextId = s.nextId := rfl
@[simp] theorem modCluster_free (s : State) (k : Nat) (f : Cluster → Cluster) : (s.modCluster k f).free = s.free := rfl
@[simp] theorem modCluster_agenda (s : State) (k : Nat) (f : Cluster → Cluster) : (s.modCluster k f).agenda = s.agenda := rfl
@[simp] theorem modCluster_cur (s : State) (k : Nat) (f : Cluster → Cluster) : (s.modCluster k f).cur = s.cur := rfl
@[simp] theorem modCluster_ev (s : State) (k : Nat) (f : Cluster → Cluster) : (s.modCluster k f).ev = s.ev := rfl
@[simp] theorem modCluster_core_frame (s : State) (k : Nat) (f : Cluster → Cluster) (j : Nat) : (s.modCluster k f).core j = s.core j := rfl
@[simp] theorem modCluster_quad_frame (s : State) (k : Nat) (f : Cluster → Cluster) (j : Nat) : (s.modCluster k f).quad j = s.quad j := rfl
@[simp] theorem modCluster_team_frame (s : State) (k : Nat) (f : Cluster → Cluster) (j : Nat) : (s.modCluster k f).team j = s.team j := rfl
@[simp] theorem modCluster_group_frame (s : State) (k : Nat) (f : Cluster → Cluster) (j : Nat) : (s.modCluster k f).group j = s.group j := rfl
@[simp] theorem modCluster_grid_frame (s : State) (k : Nat) (f : Cluster → Cluster) (j : Nat) : (s.modCluster k f).grid j = s.grid j := rfl
@[simp] theorem modCluster_part_frame (s : State) (k : Nat) (f : Cluster → Cluster) (j : Nat) : (s.modCluster k f).part j = s.part j := rfl
@[simp] theorem modCluster_page_frame (s : State) (k : Nat) (f : Cluster → Cluster) (j : Nat) : (s.modCluster k f).page j = s.page j := rfl
@[simp] theorem modCluster_hart_frame (s : State) (k : Nat) (f : Cluster → Cluster) (j : Nat) : (s.modCluster k f).hart j = s.hart j := rfl
@[simp] theorem modCluster_port_frame (s : State) (k : Nat) (f : Cluster → Cluster) (j : Nat) : (s.modCluster k f).port j = s.port j := rfl
@[simp] theorem modCluster_queue_frame (s : State) (k : Nat) (f : Cluster → Cluster) (j : Nat) : (s.modCluster k f).queue j = s.queue j := rfl
@[simp] theorem modCluster_opClass_frame (s : State) (k : Nat) (f : Cluster → Cluster) (j : Nat) : (s.modCluster k f).opClass j = s.opClass j := rfl

@[simp] theorem modCore_fuses (s : State) (k : Nat) (f : Core → Core) : (s.modCore k f).fuses = s.fuses := rfl
@[simp] theorem modCore_power (s : State) (k : Nat) (f : Core → Core) : (s.modCore k f).power = s.power := rfl
@[simp] theorem modCore_boot (s : State) (k : Nat) (f : Core → Core) : (s.modCore k f).boot = s.boot := rfl
@[simp] theorem modCore_mb (s : State) (k : Nat) (f : Core → Core) : (s.modCore k f).mb = s.mb := rfl
@[simp] theorem modCore_pfWbase (s : State) (k : Nat) (f : Core → Core) : (s.modCore k f).pfWbase = s.pfWbase := rfl
@[simp] theorem modCore_pfW4miss (s : State) (k : Nat) (f : Core → Core) : (s.modCore k f).pfW4miss = s.pfW4miss := rfl
@[simp] theorem modCore_harts (s : State) (k : Nat) (f : Core → Core) : (s.modCore k f).harts = s.harts := rfl
@[simp] theorem modCore_parts (s : State) (k : Nat) (f : Core → Core) : (s.modCore k f).parts = s.parts := rfl
@[simp] theorem modCore_queues (s : State) (k : Nat) (f : Core → Core) : (s.modCore k f).queues = s.queues := rfl
@[simp] theorem modCore_ports (s : State) (k : Nat) (f : Core → Core) : (s.modCore k f).ports = s.ports := rfl
@[simp] theorem modCore_opcls (s : State) (k : Nat) (f : Core → Core) : (s.modCore k f).opcls = s.opcls := rfl
@[simp] theorem modCore_boostRate (s : State) (k : Nat) (f : Core → Core) : (s.modCore k f).boostRate = s.boostRate := rfl
@[simp] theorem modCore_draftThresh (s : State) (k : Nat) (f : Core → Core) : (s.modCore k f).draftThresh = s.draftThresh := rfl
@[simp] theorem modCore_draftInterval (s : State) (k : Nat) (f : Core → Core) : (s.modCore k f).draftInterval = s.draftInterval := rfl
@[simp] theorem modCore_draftEn (s : State) (k : Nat) (f : Core → Core) : (s.modCore k f).draftEn = s.draftEn := rfl
@[simp] theorem modCore_boostAt (s : State) (k : Nat) (f : Core → Core) : (s.modCore k f).boostAt = s.boostAt := rfl
@[simp] theorem modCore_devCounters (s : State) (k : Nat) (f : Core → Core) : (s.modCore k f).devCounters = s.devCounters := rfl
@[simp] theorem modCore_gridNext (s : State) (k : Nat) (f : Core → Core) : (s.modCore k f).gridNext = s.gridNext := rfl
@[simp] theorem modCore_accepted (s : State) (k : Nat) (f : Core → Core) : (s.modCore k f).accepted = s.accepted := rfl
@[simp] theorem modCore_grids (s : State) (k : Nat) (f : Core → Core) : (s.modCore k f).grids = s.grids := rfl
@[simp] theorem modCore_teams (s : State) (k : Nat) (f : Core → Core) : (s.modCore k f).teams = s.teams := rfl
@[simp] theorem modCore_groups (s : State) (k : Nat) (f : Core → Core) : (s.modCore k f).groups = s.groups := rfl
@[simp] theorem modCore_clusters (s : State) (k : Nat) (f : Core → Core) : (s.modCore k f).clusters = s.clusters := rfl
@[simp] theorem modCore_quads (s : State) (k : Nat) (f : Core → Core) : (s.modCore k f).quads = s.quads := rfl
@[simp] theorem modCore_mem (s : State) (k : Nat) (f : Core → Core) : (s.modCore k f).mem = s.mem := rfl
@[simp] theorem modCore_memPois (s : State) (k : Nat) (f : Core → Core) : (s.modCore k f).memPois = s.memPois := rfl
@[simp] theorem modCore_hostMem (s : State) (k : Nat) (f : Core → Core) : (s.modCore k f).hostMem = s.hostMem := rfl
@[simp] theorem modCore_plt (s : State) (k : Nat) (f : Core → Core) : (s.modCore k f).plt = s.plt := rfl
@[simp] theorem modCore_flights (s : State) (k : Nat) (f : Core → Core) : (s.modCore k f).flights = s.flights := rfl
@[simp] theorem modCore_colls (s : State) (k : Nat) (f : Core → Core) : (s.modCore k f).colls = s.colls := rfl
@[simp] theorem modCore_cleElapsed (s : State) (k : Nat) (f : Core → Core) : (s.modCore k f).cleElapsed = s.cleElapsed := rfl
@[simp] theorem modCore_reply (s : State) (k : Nat) (f : Core → Core) : (s.modCore k f).reply = s.reply := rfl
@[simp] theorem modCore_msgs (s : State) (k : Nat) (f : Core → Core) : (s.modCore k f).msgs = s.msgs := rfl
@[simp] theorem modCore_nextId (s : State) (k : Nat) (f : Core → Core) : (s.modCore k f).nextId = s.nextId := rfl
@[simp] theorem modCore_free (s : State) (k : Nat) (f : Core → Core) : (s.modCore k f).free = s.free := rfl
@[simp] theorem modCore_agenda (s : State) (k : Nat) (f : Core → Core) : (s.modCore k f).agenda = s.agenda := rfl
@[simp] theorem modCore_cur (s : State) (k : Nat) (f : Core → Core) : (s.modCore k f).cur = s.cur := rfl
@[simp] theorem modCore_ev (s : State) (k : Nat) (f : Core → Core) : (s.modCore k f).ev = s.ev := rfl
@[simp] theorem modCore_cluster_frame (s : State) (k : Nat) (f : Core → Core) (j : Nat) : (s.modCore k f).cluster j = s.cluster j := rfl
@[simp] theorem modCore_quad_frame (s : State) (k : Nat) (f : Core → Core) (j : Nat) : (s.modCore k f).quad j = s.quad j := rfl
@[simp] theorem modCore_team_frame (s : State) (k : Nat) (f : Core → Core) (j : Nat) : (s.modCore k f).team j = s.team j := rfl
@[simp] theorem modCore_group_frame (s : State) (k : Nat) (f : Core → Core) (j : Nat) : (s.modCore k f).group j = s.group j := rfl
@[simp] theorem modCore_grid_frame (s : State) (k : Nat) (f : Core → Core) (j : Nat) : (s.modCore k f).grid j = s.grid j := rfl
@[simp] theorem modCore_part_frame (s : State) (k : Nat) (f : Core → Core) (j : Nat) : (s.modCore k f).part j = s.part j := rfl
@[simp] theorem modCore_page_frame (s : State) (k : Nat) (f : Core → Core) (j : Nat) : (s.modCore k f).page j = s.page j := rfl
@[simp] theorem modCore_hart_frame (s : State) (k : Nat) (f : Core → Core) (j : Nat) : (s.modCore k f).hart j = s.hart j := rfl
@[simp] theorem modCore_port_frame (s : State) (k : Nat) (f : Core → Core) (j : Nat) : (s.modCore k f).port j = s.port j := rfl
@[simp] theorem modCore_queue_frame (s : State) (k : Nat) (f : Core → Core) (j : Nat) : (s.modCore k f).queue j = s.queue j := rfl
@[simp] theorem modCore_opClass_frame (s : State) (k : Nat) (f : Core → Core) (j : Nat) : (s.modCore k f).opClass j = s.opClass j := rfl

@[simp] theorem modQuad_fuses (s : State) (k : Nat) (f : Quad → Quad) : (s.modQuad k f).fuses = s.fuses := rfl
@[simp] theorem modQuad_power (s : State) (k : Nat) (f : Quad → Quad) : (s.modQuad k f).power = s.power := rfl
@[simp] theorem modQuad_boot (s : State) (k : Nat) (f : Quad → Quad) : (s.modQuad k f).boot = s.boot := rfl
@[simp] theorem modQuad_mb (s : State) (k : Nat) (f : Quad → Quad) : (s.modQuad k f).mb = s.mb := rfl
@[simp] theorem modQuad_pfWbase (s : State) (k : Nat) (f : Quad → Quad) : (s.modQuad k f).pfWbase = s.pfWbase := rfl
@[simp] theorem modQuad_pfW4miss (s : State) (k : Nat) (f : Quad → Quad) : (s.modQuad k f).pfW4miss = s.pfW4miss := rfl
@[simp] theorem modQuad_harts (s : State) (k : Nat) (f : Quad → Quad) : (s.modQuad k f).harts = s.harts := rfl
@[simp] theorem modQuad_parts (s : State) (k : Nat) (f : Quad → Quad) : (s.modQuad k f).parts = s.parts := rfl
@[simp] theorem modQuad_queues (s : State) (k : Nat) (f : Quad → Quad) : (s.modQuad k f).queues = s.queues := rfl
@[simp] theorem modQuad_ports (s : State) (k : Nat) (f : Quad → Quad) : (s.modQuad k f).ports = s.ports := rfl
@[simp] theorem modQuad_opcls (s : State) (k : Nat) (f : Quad → Quad) : (s.modQuad k f).opcls = s.opcls := rfl
@[simp] theorem modQuad_boostRate (s : State) (k : Nat) (f : Quad → Quad) : (s.modQuad k f).boostRate = s.boostRate := rfl
@[simp] theorem modQuad_draftThresh (s : State) (k : Nat) (f : Quad → Quad) : (s.modQuad k f).draftThresh = s.draftThresh := rfl
@[simp] theorem modQuad_draftInterval (s : State) (k : Nat) (f : Quad → Quad) : (s.modQuad k f).draftInterval = s.draftInterval := rfl
@[simp] theorem modQuad_draftEn (s : State) (k : Nat) (f : Quad → Quad) : (s.modQuad k f).draftEn = s.draftEn := rfl
@[simp] theorem modQuad_boostAt (s : State) (k : Nat) (f : Quad → Quad) : (s.modQuad k f).boostAt = s.boostAt := rfl
@[simp] theorem modQuad_devCounters (s : State) (k : Nat) (f : Quad → Quad) : (s.modQuad k f).devCounters = s.devCounters := rfl
@[simp] theorem modQuad_gridNext (s : State) (k : Nat) (f : Quad → Quad) : (s.modQuad k f).gridNext = s.gridNext := rfl
@[simp] theorem modQuad_accepted (s : State) (k : Nat) (f : Quad → Quad) : (s.modQuad k f).accepted = s.accepted := rfl
@[simp] theorem modQuad_grids (s : State) (k : Nat) (f : Quad → Quad) : (s.modQuad k f).grids = s.grids := rfl
@[simp] theorem modQuad_teams (s : State) (k : Nat) (f : Quad → Quad) : (s.modQuad k f).teams = s.teams := rfl
@[simp] theorem modQuad_groups (s : State) (k : Nat) (f : Quad → Quad) : (s.modQuad k f).groups = s.groups := rfl
@[simp] theorem modQuad_clusters (s : State) (k : Nat) (f : Quad → Quad) : (s.modQuad k f).clusters = s.clusters := rfl
@[simp] theorem modQuad_cores (s : State) (k : Nat) (f : Quad → Quad) : (s.modQuad k f).cores = s.cores := rfl
@[simp] theorem modQuad_mem (s : State) (k : Nat) (f : Quad → Quad) : (s.modQuad k f).mem = s.mem := rfl
@[simp] theorem modQuad_memPois (s : State) (k : Nat) (f : Quad → Quad) : (s.modQuad k f).memPois = s.memPois := rfl
@[simp] theorem modQuad_hostMem (s : State) (k : Nat) (f : Quad → Quad) : (s.modQuad k f).hostMem = s.hostMem := rfl
@[simp] theorem modQuad_plt (s : State) (k : Nat) (f : Quad → Quad) : (s.modQuad k f).plt = s.plt := rfl
@[simp] theorem modQuad_flights (s : State) (k : Nat) (f : Quad → Quad) : (s.modQuad k f).flights = s.flights := rfl
@[simp] theorem modQuad_colls (s : State) (k : Nat) (f : Quad → Quad) : (s.modQuad k f).colls = s.colls := rfl
@[simp] theorem modQuad_cleElapsed (s : State) (k : Nat) (f : Quad → Quad) : (s.modQuad k f).cleElapsed = s.cleElapsed := rfl
@[simp] theorem modQuad_reply (s : State) (k : Nat) (f : Quad → Quad) : (s.modQuad k f).reply = s.reply := rfl
@[simp] theorem modQuad_msgs (s : State) (k : Nat) (f : Quad → Quad) : (s.modQuad k f).msgs = s.msgs := rfl
@[simp] theorem modQuad_nextId (s : State) (k : Nat) (f : Quad → Quad) : (s.modQuad k f).nextId = s.nextId := rfl
@[simp] theorem modQuad_free (s : State) (k : Nat) (f : Quad → Quad) : (s.modQuad k f).free = s.free := rfl
@[simp] theorem modQuad_agenda (s : State) (k : Nat) (f : Quad → Quad) : (s.modQuad k f).agenda = s.agenda := rfl
@[simp] theorem modQuad_cur (s : State) (k : Nat) (f : Quad → Quad) : (s.modQuad k f).cur = s.cur := rfl
@[simp] theorem modQuad_ev (s : State) (k : Nat) (f : Quad → Quad) : (s.modQuad k f).ev = s.ev := rfl
@[simp] theorem modQuad_cluster_frame (s : State) (k : Nat) (f : Quad → Quad) (j : Nat) : (s.modQuad k f).cluster j = s.cluster j := rfl
@[simp] theorem modQuad_core_frame (s : State) (k : Nat) (f : Quad → Quad) (j : Nat) : (s.modQuad k f).core j = s.core j := rfl
@[simp] theorem modQuad_team_frame (s : State) (k : Nat) (f : Quad → Quad) (j : Nat) : (s.modQuad k f).team j = s.team j := rfl
@[simp] theorem modQuad_group_frame (s : State) (k : Nat) (f : Quad → Quad) (j : Nat) : (s.modQuad k f).group j = s.group j := rfl
@[simp] theorem modQuad_grid_frame (s : State) (k : Nat) (f : Quad → Quad) (j : Nat) : (s.modQuad k f).grid j = s.grid j := rfl
@[simp] theorem modQuad_part_frame (s : State) (k : Nat) (f : Quad → Quad) (j : Nat) : (s.modQuad k f).part j = s.part j := rfl
@[simp] theorem modQuad_page_frame (s : State) (k : Nat) (f : Quad → Quad) (j : Nat) : (s.modQuad k f).page j = s.page j := rfl
@[simp] theorem modQuad_hart_frame (s : State) (k : Nat) (f : Quad → Quad) (j : Nat) : (s.modQuad k f).hart j = s.hart j := rfl
@[simp] theorem modQuad_port_frame (s : State) (k : Nat) (f : Quad → Quad) (j : Nat) : (s.modQuad k f).port j = s.port j := rfl
@[simp] theorem modQuad_queue_frame (s : State) (k : Nat) (f : Quad → Quad) (j : Nat) : (s.modQuad k f).queue j = s.queue j := rfl
@[simp] theorem modQuad_opClass_frame (s : State) (k : Nat) (f : Quad → Quad) (j : Nat) : (s.modQuad k f).opClass j = s.opClass j := rfl

@[simp] theorem modTeam_fuses (s : State) (k : Nat) (f : Team → Team) : (s.modTeam k f).fuses = s.fuses := rfl
@[simp] theorem modTeam_power (s : State) (k : Nat) (f : Team → Team) : (s.modTeam k f).power = s.power := rfl
@[simp] theorem modTeam_boot (s : State) (k : Nat) (f : Team → Team) : (s.modTeam k f).boot = s.boot := rfl
@[simp] theorem modTeam_mb (s : State) (k : Nat) (f : Team → Team) : (s.modTeam k f).mb = s.mb := rfl
@[simp] theorem modTeam_pfWbase (s : State) (k : Nat) (f : Team → Team) : (s.modTeam k f).pfWbase = s.pfWbase := rfl
@[simp] theorem modTeam_pfW4miss (s : State) (k : Nat) (f : Team → Team) : (s.modTeam k f).pfW4miss = s.pfW4miss := rfl
@[simp] theorem modTeam_harts (s : State) (k : Nat) (f : Team → Team) : (s.modTeam k f).harts = s.harts := rfl
@[simp] theorem modTeam_parts (s : State) (k : Nat) (f : Team → Team) : (s.modTeam k f).parts = s.parts := rfl
@[simp] theorem modTeam_queues (s : State) (k : Nat) (f : Team → Team) : (s.modTeam k f).queues = s.queues := rfl
@[simp] theorem modTeam_ports (s : State) (k : Nat) (f : Team → Team) : (s.modTeam k f).ports = s.ports := rfl
@[simp] theorem modTeam_opcls (s : State) (k : Nat) (f : Team → Team) : (s.modTeam k f).opcls = s.opcls := rfl
@[simp] theorem modTeam_boostRate (s : State) (k : Nat) (f : Team → Team) : (s.modTeam k f).boostRate = s.boostRate := rfl
@[simp] theorem modTeam_draftThresh (s : State) (k : Nat) (f : Team → Team) : (s.modTeam k f).draftThresh = s.draftThresh := rfl
@[simp] theorem modTeam_draftInterval (s : State) (k : Nat) (f : Team → Team) : (s.modTeam k f).draftInterval = s.draftInterval := rfl
@[simp] theorem modTeam_draftEn (s : State) (k : Nat) (f : Team → Team) : (s.modTeam k f).draftEn = s.draftEn := rfl
@[simp] theorem modTeam_boostAt (s : State) (k : Nat) (f : Team → Team) : (s.modTeam k f).boostAt = s.boostAt := rfl
@[simp] theorem modTeam_devCounters (s : State) (k : Nat) (f : Team → Team) : (s.modTeam k f).devCounters = s.devCounters := rfl
@[simp] theorem modTeam_gridNext (s : State) (k : Nat) (f : Team → Team) : (s.modTeam k f).gridNext = s.gridNext := rfl
@[simp] theorem modTeam_accepted (s : State) (k : Nat) (f : Team → Team) : (s.modTeam k f).accepted = s.accepted := rfl
@[simp] theorem modTeam_grids (s : State) (k : Nat) (f : Team → Team) : (s.modTeam k f).grids = s.grids := rfl
@[simp] theorem modTeam_groups (s : State) (k : Nat) (f : Team → Team) : (s.modTeam k f).groups = s.groups := rfl
@[simp] theorem modTeam_clusters (s : State) (k : Nat) (f : Team → Team) : (s.modTeam k f).clusters = s.clusters := rfl
@[simp] theorem modTeam_cores (s : State) (k : Nat) (f : Team → Team) : (s.modTeam k f).cores = s.cores := rfl
@[simp] theorem modTeam_quads (s : State) (k : Nat) (f : Team → Team) : (s.modTeam k f).quads = s.quads := rfl
@[simp] theorem modTeam_mem (s : State) (k : Nat) (f : Team → Team) : (s.modTeam k f).mem = s.mem := rfl
@[simp] theorem modTeam_memPois (s : State) (k : Nat) (f : Team → Team) : (s.modTeam k f).memPois = s.memPois := rfl
@[simp] theorem modTeam_hostMem (s : State) (k : Nat) (f : Team → Team) : (s.modTeam k f).hostMem = s.hostMem := rfl
@[simp] theorem modTeam_plt (s : State) (k : Nat) (f : Team → Team) : (s.modTeam k f).plt = s.plt := rfl
@[simp] theorem modTeam_flights (s : State) (k : Nat) (f : Team → Team) : (s.modTeam k f).flights = s.flights := rfl
@[simp] theorem modTeam_colls (s : State) (k : Nat) (f : Team → Team) : (s.modTeam k f).colls = s.colls := rfl
@[simp] theorem modTeam_cleElapsed (s : State) (k : Nat) (f : Team → Team) : (s.modTeam k f).cleElapsed = s.cleElapsed := rfl
@[simp] theorem modTeam_reply (s : State) (k : Nat) (f : Team → Team) : (s.modTeam k f).reply = s.reply := rfl
@[simp] theorem modTeam_msgs (s : State) (k : Nat) (f : Team → Team) : (s.modTeam k f).msgs = s.msgs := rfl
@[simp] theorem modTeam_nextId (s : State) (k : Nat) (f : Team → Team) : (s.modTeam k f).nextId = s.nextId := rfl
@[simp] theorem modTeam_free (s : State) (k : Nat) (f : Team → Team) : (s.modTeam k f).free = s.free := rfl
@[simp] theorem modTeam_agenda (s : State) (k : Nat) (f : Team → Team) : (s.modTeam k f).agenda = s.agenda := rfl
@[simp] theorem modTeam_cur (s : State) (k : Nat) (f : Team → Team) : (s.modTeam k f).cur = s.cur := rfl
@[simp] theorem modTeam_ev (s : State) (k : Nat) (f : Team → Team) : (s.modTeam k f).ev = s.ev := rfl
@[simp] theorem modTeam_cluster_frame (s : State) (k : Nat) (f : Team → Team) (j : Nat) : (s.modTeam k f).cluster j = s.cluster j := rfl
@[simp] theorem modTeam_core_frame (s : State) (k : Nat) (f : Team → Team) (j : Nat) : (s.modTeam k f).core j = s.core j := rfl
@[simp] theorem modTeam_quad_frame (s : State) (k : Nat) (f : Team → Team) (j : Nat) : (s.modTeam k f).quad j = s.quad j := rfl
@[simp] theorem modTeam_group_frame (s : State) (k : Nat) (f : Team → Team) (j : Nat) : (s.modTeam k f).group j = s.group j := rfl
@[simp] theorem modTeam_grid_frame (s : State) (k : Nat) (f : Team → Team) (j : Nat) : (s.modTeam k f).grid j = s.grid j := rfl
@[simp] theorem modTeam_part_frame (s : State) (k : Nat) (f : Team → Team) (j : Nat) : (s.modTeam k f).part j = s.part j := rfl
@[simp] theorem modTeam_page_frame (s : State) (k : Nat) (f : Team → Team) (j : Nat) : (s.modTeam k f).page j = s.page j := rfl
@[simp] theorem modTeam_hart_frame (s : State) (k : Nat) (f : Team → Team) (j : Nat) : (s.modTeam k f).hart j = s.hart j := rfl
@[simp] theorem modTeam_port_frame (s : State) (k : Nat) (f : Team → Team) (j : Nat) : (s.modTeam k f).port j = s.port j := rfl
@[simp] theorem modTeam_queue_frame (s : State) (k : Nat) (f : Team → Team) (j : Nat) : (s.modTeam k f).queue j = s.queue j := rfl
@[simp] theorem modTeam_opClass_frame (s : State) (k : Nat) (f : Team → Team) (j : Nat) : (s.modTeam k f).opClass j = s.opClass j := rfl

@[simp] theorem modGroup_fuses (s : State) (k : Nat) (f : Group → Group) : (s.modGroup k f).fuses = s.fuses := rfl
@[simp] theorem modGroup_power (s : State) (k : Nat) (f : Group → Group) : (s.modGroup k f).power = s.power := rfl
@[simp] theorem modGroup_boot (s : State) (k : Nat) (f : Group → Group) : (s.modGroup k f).boot = s.boot := rfl
@[simp] theorem modGroup_mb (s : State) (k : Nat) (f : Group → Group) : (s.modGroup k f).mb = s.mb := rfl
@[simp] theorem modGroup_pfWbase (s : State) (k : Nat) (f : Group → Group) : (s.modGroup k f).pfWbase = s.pfWbase := rfl
@[simp] theorem modGroup_pfW4miss (s : State) (k : Nat) (f : Group → Group) : (s.modGroup k f).pfW4miss = s.pfW4miss := rfl
@[simp] theorem modGroup_harts (s : State) (k : Nat) (f : Group → Group) : (s.modGroup k f).harts = s.harts := rfl
@[simp] theorem modGroup_parts (s : State) (k : Nat) (f : Group → Group) : (s.modGroup k f).parts = s.parts := rfl
@[simp] theorem modGroup_queues (s : State) (k : Nat) (f : Group → Group) : (s.modGroup k f).queues = s.queues := rfl
@[simp] theorem modGroup_ports (s : State) (k : Nat) (f : Group → Group) : (s.modGroup k f).ports = s.ports := rfl
@[simp] theorem modGroup_opcls (s : State) (k : Nat) (f : Group → Group) : (s.modGroup k f).opcls = s.opcls := rfl
@[simp] theorem modGroup_boostRate (s : State) (k : Nat) (f : Group → Group) : (s.modGroup k f).boostRate = s.boostRate := rfl
@[simp] theorem modGroup_draftThresh (s : State) (k : Nat) (f : Group → Group) : (s.modGroup k f).draftThresh = s.draftThresh := rfl
@[simp] theorem modGroup_draftInterval (s : State) (k : Nat) (f : Group → Group) : (s.modGroup k f).draftInterval = s.draftInterval := rfl
@[simp] theorem modGroup_draftEn (s : State) (k : Nat) (f : Group → Group) : (s.modGroup k f).draftEn = s.draftEn := rfl
@[simp] theorem modGroup_boostAt (s : State) (k : Nat) (f : Group → Group) : (s.modGroup k f).boostAt = s.boostAt := rfl
@[simp] theorem modGroup_devCounters (s : State) (k : Nat) (f : Group → Group) : (s.modGroup k f).devCounters = s.devCounters := rfl
@[simp] theorem modGroup_gridNext (s : State) (k : Nat) (f : Group → Group) : (s.modGroup k f).gridNext = s.gridNext := rfl
@[simp] theorem modGroup_accepted (s : State) (k : Nat) (f : Group → Group) : (s.modGroup k f).accepted = s.accepted := rfl
@[simp] theorem modGroup_grids (s : State) (k : Nat) (f : Group → Group) : (s.modGroup k f).grids = s.grids := rfl
@[simp] theorem modGroup_teams (s : State) (k : Nat) (f : Group → Group) : (s.modGroup k f).teams = s.teams := rfl
@[simp] theorem modGroup_clusters (s : State) (k : Nat) (f : Group → Group) : (s.modGroup k f).clusters = s.clusters := rfl
@[simp] theorem modGroup_cores (s : State) (k : Nat) (f : Group → Group) : (s.modGroup k f).cores = s.cores := rfl
@[simp] theorem modGroup_quads (s : State) (k : Nat) (f : Group → Group) : (s.modGroup k f).quads = s.quads := rfl
@[simp] theorem modGroup_mem (s : State) (k : Nat) (f : Group → Group) : (s.modGroup k f).mem = s.mem := rfl
@[simp] theorem modGroup_memPois (s : State) (k : Nat) (f : Group → Group) : (s.modGroup k f).memPois = s.memPois := rfl
@[simp] theorem modGroup_hostMem (s : State) (k : Nat) (f : Group → Group) : (s.modGroup k f).hostMem = s.hostMem := rfl
@[simp] theorem modGroup_plt (s : State) (k : Nat) (f : Group → Group) : (s.modGroup k f).plt = s.plt := rfl
@[simp] theorem modGroup_flights (s : State) (k : Nat) (f : Group → Group) : (s.modGroup k f).flights = s.flights := rfl
@[simp] theorem modGroup_colls (s : State) (k : Nat) (f : Group → Group) : (s.modGroup k f).colls = s.colls := rfl
@[simp] theorem modGroup_cleElapsed (s : State) (k : Nat) (f : Group → Group) : (s.modGroup k f).cleElapsed = s.cleElapsed := rfl
@[simp] theorem modGroup_reply (s : State) (k : Nat) (f : Group → Group) : (s.modGroup k f).reply = s.reply := rfl
@[simp] theorem modGroup_msgs (s : State) (k : Nat) (f : Group → Group) : (s.modGroup k f).msgs = s.msgs := rfl
@[simp] theorem modGroup_nextId (s : State) (k : Nat) (f : Group → Group) : (s.modGroup k f).nextId = s.nextId := rfl
@[simp] theorem modGroup_free (s : State) (k : Nat) (f : Group → Group) : (s.modGroup k f).free = s.free := rfl
@[simp] theorem modGroup_agenda (s : State) (k : Nat) (f : Group → Group) : (s.modGroup k f).agenda = s.agenda := rfl
@[simp] theorem modGroup_cur (s : State) (k : Nat) (f : Group → Group) : (s.modGroup k f).cur = s.cur := rfl
@[simp] theorem modGroup_ev (s : State) (k : Nat) (f : Group → Group) : (s.modGroup k f).ev = s.ev := rfl
@[simp] theorem modGroup_cluster_frame (s : State) (k : Nat) (f : Group → Group) (j : Nat) : (s.modGroup k f).cluster j = s.cluster j := rfl
@[simp] theorem modGroup_core_frame (s : State) (k : Nat) (f : Group → Group) (j : Nat) : (s.modGroup k f).core j = s.core j := rfl
@[simp] theorem modGroup_quad_frame (s : State) (k : Nat) (f : Group → Group) (j : Nat) : (s.modGroup k f).quad j = s.quad j := rfl
@[simp] theorem modGroup_team_frame (s : State) (k : Nat) (f : Group → Group) (j : Nat) : (s.modGroup k f).team j = s.team j := rfl
@[simp] theorem modGroup_grid_frame (s : State) (k : Nat) (f : Group → Group) (j : Nat) : (s.modGroup k f).grid j = s.grid j := rfl
@[simp] theorem modGroup_part_frame (s : State) (k : Nat) (f : Group → Group) (j : Nat) : (s.modGroup k f).part j = s.part j := rfl
@[simp] theorem modGroup_page_frame (s : State) (k : Nat) (f : Group → Group) (j : Nat) : (s.modGroup k f).page j = s.page j := rfl
@[simp] theorem modGroup_hart_frame (s : State) (k : Nat) (f : Group → Group) (j : Nat) : (s.modGroup k f).hart j = s.hart j := rfl
@[simp] theorem modGroup_port_frame (s : State) (k : Nat) (f : Group → Group) (j : Nat) : (s.modGroup k f).port j = s.port j := rfl
@[simp] theorem modGroup_queue_frame (s : State) (k : Nat) (f : Group → Group) (j : Nat) : (s.modGroup k f).queue j = s.queue j := rfl
@[simp] theorem modGroup_opClass_frame (s : State) (k : Nat) (f : Group → Group) (j : Nat) : (s.modGroup k f).opClass j = s.opClass j := rfl

@[simp] theorem modGrid_fuses (s : State) (k : Nat) (f : Grid → Grid) : (s.modGrid k f).fuses = s.fuses := rfl
@[simp] theorem modGrid_power (s : State) (k : Nat) (f : Grid → Grid) : (s.modGrid k f).power = s.power := rfl
@[simp] theorem modGrid_boot (s : State) (k : Nat) (f : Grid → Grid) : (s.modGrid k f).boot = s.boot := rfl
@[simp] theorem modGrid_mb (s : State) (k : Nat) (f : Grid → Grid) : (s.modGrid k f).mb = s.mb := rfl
@[simp] theorem modGrid_pfWbase (s : State) (k : Nat) (f : Grid → Grid) : (s.modGrid k f).pfWbase = s.pfWbase := rfl
@[simp] theorem modGrid_pfW4miss (s : State) (k : Nat) (f : Grid → Grid) : (s.modGrid k f).pfW4miss = s.pfW4miss := rfl
@[simp] theorem modGrid_harts (s : State) (k : Nat) (f : Grid → Grid) : (s.modGrid k f).harts = s.harts := rfl
@[simp] theorem modGrid_parts (s : State) (k : Nat) (f : Grid → Grid) : (s.modGrid k f).parts = s.parts := rfl
@[simp] theorem modGrid_queues (s : State) (k : Nat) (f : Grid → Grid) : (s.modGrid k f).queues = s.queues := rfl
@[simp] theorem modGrid_ports (s : State) (k : Nat) (f : Grid → Grid) : (s.modGrid k f).ports = s.ports := rfl
@[simp] theorem modGrid_opcls (s : State) (k : Nat) (f : Grid → Grid) : (s.modGrid k f).opcls = s.opcls := rfl
@[simp] theorem modGrid_boostRate (s : State) (k : Nat) (f : Grid → Grid) : (s.modGrid k f).boostRate = s.boostRate := rfl
@[simp] theorem modGrid_draftThresh (s : State) (k : Nat) (f : Grid → Grid) : (s.modGrid k f).draftThresh = s.draftThresh := rfl
@[simp] theorem modGrid_draftInterval (s : State) (k : Nat) (f : Grid → Grid) : (s.modGrid k f).draftInterval = s.draftInterval := rfl
@[simp] theorem modGrid_draftEn (s : State) (k : Nat) (f : Grid → Grid) : (s.modGrid k f).draftEn = s.draftEn := rfl
@[simp] theorem modGrid_boostAt (s : State) (k : Nat) (f : Grid → Grid) : (s.modGrid k f).boostAt = s.boostAt := rfl
@[simp] theorem modGrid_devCounters (s : State) (k : Nat) (f : Grid → Grid) : (s.modGrid k f).devCounters = s.devCounters := rfl
@[simp] theorem modGrid_gridNext (s : State) (k : Nat) (f : Grid → Grid) : (s.modGrid k f).gridNext = s.gridNext := rfl
@[simp] theorem modGrid_accepted (s : State) (k : Nat) (f : Grid → Grid) : (s.modGrid k f).accepted = s.accepted := rfl
@[simp] theorem modGrid_teams (s : State) (k : Nat) (f : Grid → Grid) : (s.modGrid k f).teams = s.teams := rfl
@[simp] theorem modGrid_groups (s : State) (k : Nat) (f : Grid → Grid) : (s.modGrid k f).groups = s.groups := rfl
@[simp] theorem modGrid_clusters (s : State) (k : Nat) (f : Grid → Grid) : (s.modGrid k f).clusters = s.clusters := rfl
@[simp] theorem modGrid_cores (s : State) (k : Nat) (f : Grid → Grid) : (s.modGrid k f).cores = s.cores := rfl
@[simp] theorem modGrid_quads (s : State) (k : Nat) (f : Grid → Grid) : (s.modGrid k f).quads = s.quads := rfl
@[simp] theorem modGrid_mem (s : State) (k : Nat) (f : Grid → Grid) : (s.modGrid k f).mem = s.mem := rfl
@[simp] theorem modGrid_memPois (s : State) (k : Nat) (f : Grid → Grid) : (s.modGrid k f).memPois = s.memPois := rfl
@[simp] theorem modGrid_hostMem (s : State) (k : Nat) (f : Grid → Grid) : (s.modGrid k f).hostMem = s.hostMem := rfl
@[simp] theorem modGrid_plt (s : State) (k : Nat) (f : Grid → Grid) : (s.modGrid k f).plt = s.plt := rfl
@[simp] theorem modGrid_flights (s : State) (k : Nat) (f : Grid → Grid) : (s.modGrid k f).flights = s.flights := rfl
@[simp] theorem modGrid_colls (s : State) (k : Nat) (f : Grid → Grid) : (s.modGrid k f).colls = s.colls := rfl
@[simp] theorem modGrid_cleElapsed (s : State) (k : Nat) (f : Grid → Grid) : (s.modGrid k f).cleElapsed = s.cleElapsed := rfl
@[simp] theorem modGrid_reply (s : State) (k : Nat) (f : Grid → Grid) : (s.modGrid k f).reply = s.reply := rfl
@[simp] theorem modGrid_msgs (s : State) (k : Nat) (f : Grid → Grid) : (s.modGrid k f).msgs = s.msgs := rfl
@[simp] theorem modGrid_nextId (s : State) (k : Nat) (f : Grid → Grid) : (s.modGrid k f).nextId = s.nextId := rfl
@[simp] theorem modGrid_free (s : State) (k : Nat) (f : Grid → Grid) : (s.modGrid k f).free = s.free := rfl
@[simp] theorem modGrid_agenda (s : State) (k : Nat) (f : Grid → Grid) : (s.modGrid k f).agenda = s.agenda := rfl
@[simp] theorem modGrid_cur (s : State) (k : Nat) (f : Grid → Grid) : (s.modGrid k f).cur = s.cur := rfl
@[simp] theorem modGrid_ev (s : State) (k : Nat) (f : Grid → Grid) : (s.modGrid k f).ev = s.ev := rfl
@[simp] theorem modGrid_cluster_frame (s : State) (k : Nat) (f : Grid → Grid) (j : Nat) : (s.modGrid k f).cluster j = s.cluster j := rfl
@[simp] theorem modGrid_core_frame (s : State) (k : Nat) (f : Grid → Grid) (j : Nat) : (s.modGrid k f).core j = s.core j := rfl
@[simp] theorem modGrid_quad_frame (s : State) (k : Nat) (f : Grid → Grid) (j : Nat) : (s.modGrid k f).quad j = s.quad j := rfl
@[simp] theorem modGrid_team_frame (s : State) (k : Nat) (f : Grid → Grid) (j : Nat) : (s.modGrid k f).team j = s.team j := rfl
@[simp] theorem modGrid_group_frame (s : State) (k : Nat) (f : Grid → Grid) (j : Nat) : (s.modGrid k f).group j = s.group j := rfl
@[simp] theorem modGrid_part_frame (s : State) (k : Nat) (f : Grid → Grid) (j : Nat) : (s.modGrid k f).part j = s.part j := rfl
@[simp] theorem modGrid_page_frame (s : State) (k : Nat) (f : Grid → Grid) (j : Nat) : (s.modGrid k f).page j = s.page j := rfl
@[simp] theorem modGrid_hart_frame (s : State) (k : Nat) (f : Grid → Grid) (j : Nat) : (s.modGrid k f).hart j = s.hart j := rfl
@[simp] theorem modGrid_port_frame (s : State) (k : Nat) (f : Grid → Grid) (j : Nat) : (s.modGrid k f).port j = s.port j := rfl
@[simp] theorem modGrid_queue_frame (s : State) (k : Nat) (f : Grid → Grid) (j : Nat) : (s.modGrid k f).queue j = s.queue j := rfl
@[simp] theorem modGrid_opClass_frame (s : State) (k : Nat) (f : Grid → Grid) (j : Nat) : (s.modGrid k f).opClass j = s.opClass j := rfl

@[simp] theorem modPart_fuses (s : State) (k : Nat) (f : Part → Part) : (s.modPart k f).fuses = s.fuses := rfl
@[simp] theorem modPart_power (s : State) (k : Nat) (f : Part → Part) : (s.modPart k f).power = s.power := rfl
@[simp] theorem modPart_boot (s : State) (k : Nat) (f : Part → Part) : (s.modPart k f).boot = s.boot := rfl
@[simp] theorem modPart_mb (s : State) (k : Nat) (f : Part → Part) : (s.modPart k f).mb = s.mb := rfl
@[simp] theorem modPart_pfWbase (s : State) (k : Nat) (f : Part → Part) : (s.modPart k f).pfWbase = s.pfWbase := rfl
@[simp] theorem modPart_pfW4miss (s : State) (k : Nat) (f : Part → Part) : (s.modPart k f).pfW4miss = s.pfW4miss := rfl
@[simp] theorem modPart_harts (s : State) (k : Nat) (f : Part → Part) : (s.modPart k f).harts = s.harts := rfl
@[simp] theorem modPart_queues (s : State) (k : Nat) (f : Part → Part) : (s.modPart k f).queues = s.queues := rfl
@[simp] theorem modPart_ports (s : State) (k : Nat) (f : Part → Part) : (s.modPart k f).ports = s.ports := rfl
@[simp] theorem modPart_opcls (s : State) (k : Nat) (f : Part → Part) : (s.modPart k f).opcls = s.opcls := rfl
@[simp] theorem modPart_boostRate (s : State) (k : Nat) (f : Part → Part) : (s.modPart k f).boostRate = s.boostRate := rfl
@[simp] theorem modPart_draftThresh (s : State) (k : Nat) (f : Part → Part) : (s.modPart k f).draftThresh = s.draftThresh := rfl
@[simp] theorem modPart_draftInterval (s : State) (k : Nat) (f : Part → Part) : (s.modPart k f).draftInterval = s.draftInterval := rfl
@[simp] theorem modPart_draftEn (s : State) (k : Nat) (f : Part → Part) : (s.modPart k f).draftEn = s.draftEn := rfl
@[simp] theorem modPart_boostAt (s : State) (k : Nat) (f : Part → Part) : (s.modPart k f).boostAt = s.boostAt := rfl
@[simp] theorem modPart_devCounters (s : State) (k : Nat) (f : Part → Part) : (s.modPart k f).devCounters = s.devCounters := rfl
@[simp] theorem modPart_gridNext (s : State) (k : Nat) (f : Part → Part) : (s.modPart k f).gridNext = s.gridNext := rfl
@[simp] theorem modPart_accepted (s : State) (k : Nat) (f : Part → Part) : (s.modPart k f).accepted = s.accepted := rfl
@[simp] theorem modPart_grids (s : State) (k : Nat) (f : Part → Part) : (s.modPart k f).grids = s.grids := rfl
@[simp] theorem modPart_teams (s : State) (k : Nat) (f : Part → Part) : (s.modPart k f).teams = s.teams := rfl
@[simp] theorem modPart_groups (s : State) (k : Nat) (f : Part → Part) : (s.modPart k f).groups = s.groups := rfl
@[simp] theorem modPart_clusters (s : State) (k : Nat) (f : Part → Part) : (s.modPart k f).clusters = s.clusters := rfl
@[simp] theorem modPart_cores (s : State) (k : Nat) (f : Part → Part) : (s.modPart k f).cores = s.cores := rfl
@[simp] theorem modPart_quads (s : State) (k : Nat) (f : Part → Part) : (s.modPart k f).quads = s.quads := rfl
@[simp] theorem modPart_mem (s : State) (k : Nat) (f : Part → Part) : (s.modPart k f).mem = s.mem := rfl
@[simp] theorem modPart_memPois (s : State) (k : Nat) (f : Part → Part) : (s.modPart k f).memPois = s.memPois := rfl
@[simp] theorem modPart_hostMem (s : State) (k : Nat) (f : Part → Part) : (s.modPart k f).hostMem = s.hostMem := rfl
@[simp] theorem modPart_plt (s : State) (k : Nat) (f : Part → Part) : (s.modPart k f).plt = s.plt := rfl
@[simp] theorem modPart_flights (s : State) (k : Nat) (f : Part → Part) : (s.modPart k f).flights = s.flights := rfl
@[simp] theorem modPart_colls (s : State) (k : Nat) (f : Part → Part) : (s.modPart k f).colls = s.colls := rfl
@[simp] theorem modPart_cleElapsed (s : State) (k : Nat) (f : Part → Part) : (s.modPart k f).cleElapsed = s.cleElapsed := rfl
@[simp] theorem modPart_reply (s : State) (k : Nat) (f : Part → Part) : (s.modPart k f).reply = s.reply := rfl
@[simp] theorem modPart_msgs (s : State) (k : Nat) (f : Part → Part) : (s.modPart k f).msgs = s.msgs := rfl
@[simp] theorem modPart_nextId (s : State) (k : Nat) (f : Part → Part) : (s.modPart k f).nextId = s.nextId := rfl
@[simp] theorem modPart_free (s : State) (k : Nat) (f : Part → Part) : (s.modPart k f).free = s.free := rfl
@[simp] theorem modPart_agenda (s : State) (k : Nat) (f : Part → Part) : (s.modPart k f).agenda = s.agenda := rfl
@[simp] theorem modPart_cur (s : State) (k : Nat) (f : Part → Part) : (s.modPart k f).cur = s.cur := rfl
@[simp] theorem modPart_ev (s : State) (k : Nat) (f : Part → Part) : (s.modPart k f).ev = s.ev := rfl
@[simp] theorem modPart_cluster_frame (s : State) (k : Nat) (f : Part → Part) (j : Nat) : (s.modPart k f).cluster j = s.cluster j := rfl
@[simp] theorem modPart_core_frame (s : State) (k : Nat) (f : Part → Part) (j : Nat) : (s.modPart k f).core j = s.core j := rfl
@[simp] theorem modPart_quad_frame (s : State) (k : Nat) (f : Part → Part) (j : Nat) : (s.modPart k f).quad j = s.quad j := rfl
@[simp] theorem modPart_team_frame (s : State) (k : Nat) (f : Part → Part) (j : Nat) : (s.modPart k f).team j = s.team j := rfl
@[simp] theorem modPart_group_frame (s : State) (k : Nat) (f : Part → Part) (j : Nat) : (s.modPart k f).group j = s.group j := rfl
@[simp] theorem modPart_grid_frame (s : State) (k : Nat) (f : Part → Part) (j : Nat) : (s.modPart k f).grid j = s.grid j := rfl
@[simp] theorem modPart_hart_frame (s : State) (k : Nat) (f : Part → Part) (j : Nat) : (s.modPart k f).hart j = s.hart j := rfl
@[simp] theorem modPart_port_frame (s : State) (k : Nat) (f : Part → Part) (j : Nat) : (s.modPart k f).port j = s.port j := rfl
@[simp] theorem modPart_queue_frame (s : State) (k : Nat) (f : Part → Part) (j : Nat) : (s.modPart k f).queue j = s.queue j := rfl
@[simp] theorem modPart_opClass_frame (s : State) (k : Nat) (f : Part → Part) (j : Nat) : (s.modPart k f).opClass j = s.opClass j := rfl

@[simp] theorem modPage_fuses (s : State) (k : Nat) (f : Page → Page) : (s.modPage k f).fuses = s.fuses := rfl
@[simp] theorem modPage_power (s : State) (k : Nat) (f : Page → Page) : (s.modPage k f).power = s.power := rfl
@[simp] theorem modPage_boot (s : State) (k : Nat) (f : Page → Page) : (s.modPage k f).boot = s.boot := rfl
@[simp] theorem modPage_mb (s : State) (k : Nat) (f : Page → Page) : (s.modPage k f).mb = s.mb := rfl
@[simp] theorem modPage_pfWbase (s : State) (k : Nat) (f : Page → Page) : (s.modPage k f).pfWbase = s.pfWbase := rfl
@[simp] theorem modPage_pfW4miss (s : State) (k : Nat) (f : Page → Page) : (s.modPage k f).pfW4miss = s.pfW4miss := rfl
@[simp] theorem modPage_harts (s : State) (k : Nat) (f : Page → Page) : (s.modPage k f).harts = s.harts := rfl
@[simp] theorem modPage_queues (s : State) (k : Nat) (f : Page → Page) : (s.modPage k f).queues = s.queues := rfl
@[simp] theorem modPage_ports (s : State) (k : Nat) (f : Page → Page) : (s.modPage k f).ports = s.ports := rfl
@[simp] theorem modPage_opcls (s : State) (k : Nat) (f : Page → Page) : (s.modPage k f).opcls = s.opcls := rfl
@[simp] theorem modPage_boostRate (s : State) (k : Nat) (f : Page → Page) : (s.modPage k f).boostRate = s.boostRate := rfl
@[simp] theorem modPage_draftThresh (s : State) (k : Nat) (f : Page → Page) : (s.modPage k f).draftThresh = s.draftThresh := rfl
@[simp] theorem modPage_draftInterval (s : State) (k : Nat) (f : Page → Page) : (s.modPage k f).draftInterval = s.draftInterval := rfl
@[simp] theorem modPage_draftEn (s : State) (k : Nat) (f : Page → Page) : (s.modPage k f).draftEn = s.draftEn := rfl
@[simp] theorem modPage_boostAt (s : State) (k : Nat) (f : Page → Page) : (s.modPage k f).boostAt = s.boostAt := rfl
@[simp] theorem modPage_devCounters (s : State) (k : Nat) (f : Page → Page) : (s.modPage k f).devCounters = s.devCounters := rfl
@[simp] theorem modPage_gridNext (s : State) (k : Nat) (f : Page → Page) : (s.modPage k f).gridNext = s.gridNext := rfl
@[simp] theorem modPage_accepted (s : State) (k : Nat) (f : Page → Page) : (s.modPage k f).accepted = s.accepted := rfl
@[simp] theorem modPage_grids (s : State) (k : Nat) (f : Page → Page) : (s.modPage k f).grids = s.grids := rfl
@[simp] theorem modPage_teams (s : State) (k : Nat) (f : Page → Page) : (s.modPage k f).teams = s.teams := rfl
@[simp] theorem modPage_groups (s : State) (k : Nat) (f : Page → Page) : (s.modPage k f).groups = s.groups := rfl
@[simp] theorem modPage_clusters (s : State) (k : Nat) (f : Page → Page) : (s.modPage k f).clusters = s.clusters := rfl
@[simp] theorem modPage_cores (s : State) (k : Nat) (f : Page → Page) : (s.modPage k f).cores = s.cores := rfl
@[simp] theorem modPage_quads (s : State) (k : Nat) (f : Page → Page) : (s.modPage k f).quads = s.quads := rfl
@[simp] theorem modPage_mem (s : State) (k : Nat) (f : Page → Page) : (s.modPage k f).mem = s.mem := rfl
@[simp] theorem modPage_memPois (s : State) (k : Nat) (f : Page → Page) : (s.modPage k f).memPois = s.memPois := rfl
@[simp] theorem modPage_hostMem (s : State) (k : Nat) (f : Page → Page) : (s.modPage k f).hostMem = s.hostMem := rfl
@[simp] theorem modPage_plt (s : State) (k : Nat) (f : Page → Page) : (s.modPage k f).plt = s.plt := rfl
@[simp] theorem modPage_flights (s : State) (k : Nat) (f : Page → Page) : (s.modPage k f).flights = s.flights := rfl
@[simp] theorem modPage_colls (s : State) (k : Nat) (f : Page → Page) : (s.modPage k f).colls = s.colls := rfl
@[simp] theorem modPage_cleElapsed (s : State) (k : Nat) (f : Page → Page) : (s.modPage k f).cleElapsed = s.cleElapsed := rfl
@[simp] theorem modPage_reply (s : State) (k : Nat) (f : Page → Page) : (s.modPage k f).reply = s.reply := rfl
@[simp] theorem modPage_msgs (s : State) (k : Nat) (f : Page → Page) : (s.modPage k f).msgs = s.msgs := rfl
@[simp] theorem modPage_nextId (s : State) (k : Nat) (f : Page → Page) : (s.modPage k f).nextId = s.nextId := rfl
@[simp] theorem modPage_free (s : State) (k : Nat) (f : Page → Page) : (s.modPage k f).free = s.free := rfl
@[simp] theorem modPage_agenda (s : State) (k : Nat) (f : Page → Page) : (s.modPage k f).agenda = s.agenda := rfl
@[simp] theorem modPage_cur (s : State) (k : Nat) (f : Page → Page) : (s.modPage k f).cur = s.cur := rfl
@[simp] theorem modPage_ev (s : State) (k : Nat) (f : Page → Page) : (s.modPage k f).ev = s.ev := rfl
@[simp] theorem modPage_cluster_frame (s : State) (k : Nat) (f : Page → Page) (j : Nat) : (s.modPage k f).cluster j = s.cluster j := rfl
@[simp] theorem modPage_core_frame (s : State) (k : Nat) (f : Page → Page) (j : Nat) : (s.modPage k f).core j = s.core j := rfl
@[simp] theorem modPage_quad_frame (s : State) (k : Nat) (f : Page → Page) (j : Nat) : (s.modPage k f).quad j = s.quad j := rfl
@[simp] theorem modPage_team_frame (s : State) (k : Nat) (f : Page → Page) (j : Nat) : (s.modPage k f).team j = s.team j := rfl
@[simp] theorem modPage_group_frame (s : State) (k : Nat) (f : Page → Page) (j : Nat) : (s.modPage k f).group j = s.group j := rfl
@[simp] theorem modPage_grid_frame (s : State) (k : Nat) (f : Page → Page) (j : Nat) : (s.modPage k f).grid j = s.grid j := rfl
@[simp] theorem modPage_hart_frame (s : State) (k : Nat) (f : Page → Page) (j : Nat) : (s.modPage k f).hart j = s.hart j := rfl
@[simp] theorem modPage_port_frame (s : State) (k : Nat) (f : Page → Page) (j : Nat) : (s.modPage k f).port j = s.port j := rfl
@[simp] theorem modPage_queue_frame (s : State) (k : Nat) (f : Page → Page) (j : Nat) : (s.modPage k f).queue j = s.queue j := rfl
@[simp] theorem modPage_opClass_frame (s : State) (k : Nat) (f : Page → Page) (j : Nat) : (s.modPage k f).opClass j = s.opClass j := rfl

@[simp] theorem modHart_fuses (s : State) (k : Nat) (f : Hart → Hart) : (s.modHart k f).fuses = s.fuses := rfl
@[simp] theorem modHart_power (s : State) (k : Nat) (f : Hart → Hart) : (s.modHart k f).power = s.power := rfl
@[simp] theorem modHart_boot (s : State) (k : Nat) (f : Hart → Hart) : (s.modHart k f).boot = s.boot := rfl
@[simp] theorem modHart_mb (s : State) (k : Nat) (f : Hart → Hart) : (s.modHart k f).mb = s.mb := rfl
@[simp] theorem modHart_pfWbase (s : State) (k : Nat) (f : Hart → Hart) : (s.modHart k f).pfWbase = s.pfWbase := rfl
@[simp] theorem modHart_pfW4miss (s : State) (k : Nat) (f : Hart → Hart) : (s.modHart k f).pfW4miss = s.pfW4miss := rfl
@[simp] theorem modHart_parts (s : State) (k : Nat) (f : Hart → Hart) : (s.modHart k f).parts = s.parts := rfl
@[simp] theorem modHart_queues (s : State) (k : Nat) (f : Hart → Hart) : (s.modHart k f).queues = s.queues := rfl
@[simp] theorem modHart_ports (s : State) (k : Nat) (f : Hart → Hart) : (s.modHart k f).ports = s.ports := rfl
@[simp] theorem modHart_opcls (s : State) (k : Nat) (f : Hart → Hart) : (s.modHart k f).opcls = s.opcls := rfl
@[simp] theorem modHart_boostRate (s : State) (k : Nat) (f : Hart → Hart) : (s.modHart k f).boostRate = s.boostRate := rfl
@[simp] theorem modHart_draftThresh (s : State) (k : Nat) (f : Hart → Hart) : (s.modHart k f).draftThresh = s.draftThresh := rfl
@[simp] theorem modHart_draftInterval (s : State) (k : Nat) (f : Hart → Hart) : (s.modHart k f).draftInterval = s.draftInterval := rfl
@[simp] theorem modHart_draftEn (s : State) (k : Nat) (f : Hart → Hart) : (s.modHart k f).draftEn = s.draftEn := rfl
@[simp] theorem modHart_boostAt (s : State) (k : Nat) (f : Hart → Hart) : (s.modHart k f).boostAt = s.boostAt := rfl
@[simp] theorem modHart_devCounters (s : State) (k : Nat) (f : Hart → Hart) : (s.modHart k f).devCounters = s.devCounters := rfl
@[simp] theorem modHart_gridNext (s : State) (k : Nat) (f : Hart → Hart) : (s.modHart k f).gridNext = s.gridNext := rfl
@[simp] theorem modHart_accepted (s : State) (k : Nat) (f : Hart → Hart) : (s.modHart k f).accepted = s.accepted := rfl
@[simp] theorem modHart_grids (s : State) (k : Nat) (f : Hart → Hart) : (s.modHart k f).grids = s.grids := rfl
@[simp] theorem modHart_teams (s : State) (k : Nat) (f : Hart → Hart) : (s.modHart k f).teams = s.teams := rfl
@[simp] theorem modHart_groups (s : State) (k : Nat) (f : Hart → Hart) : (s.modHart k f).groups = s.groups := rfl
@[simp] theorem modHart_clusters (s : State) (k : Nat) (f : Hart → Hart) : (s.modHart k f).clusters = s.clusters := rfl
@[simp] theorem modHart_cores (s : State) (k : Nat) (f : Hart → Hart) : (s.modHart k f).cores = s.cores := rfl
@[simp] theorem modHart_quads (s : State) (k : Nat) (f : Hart → Hart) : (s.modHart k f).quads = s.quads := rfl
@[simp] theorem modHart_mem (s : State) (k : Nat) (f : Hart → Hart) : (s.modHart k f).mem = s.mem := rfl
@[simp] theorem modHart_memPois (s : State) (k : Nat) (f : Hart → Hart) : (s.modHart k f).memPois = s.memPois := rfl
@[simp] theorem modHart_hostMem (s : State) (k : Nat) (f : Hart → Hart) : (s.modHart k f).hostMem = s.hostMem := rfl
@[simp] theorem modHart_plt (s : State) (k : Nat) (f : Hart → Hart) : (s.modHart k f).plt = s.plt := rfl
@[simp] theorem modHart_flights (s : State) (k : Nat) (f : Hart → Hart) : (s.modHart k f).flights = s.flights := rfl
@[simp] theorem modHart_colls (s : State) (k : Nat) (f : Hart → Hart) : (s.modHart k f).colls = s.colls := rfl
@[simp] theorem modHart_cleElapsed (s : State) (k : Nat) (f : Hart → Hart) : (s.modHart k f).cleElapsed = s.cleElapsed := rfl
@[simp] theorem modHart_reply (s : State) (k : Nat) (f : Hart → Hart) : (s.modHart k f).reply = s.reply := rfl
@[simp] theorem modHart_msgs (s : State) (k : Nat) (f : Hart → Hart) : (s.modHart k f).msgs = s.msgs := rfl
@[simp] theorem modHart_nextId (s : State) (k : Nat) (f : Hart → Hart) : (s.modHart k f).nextId = s.nextId := rfl
@[simp] theorem modHart_free (s : State) (k : Nat) (f : Hart → Hart) : (s.modHart k f).free = s.free := rfl
@[simp] theorem modHart_agenda (s : State) (k : Nat) (f : Hart → Hart) : (s.modHart k f).agenda = s.agenda := rfl
@[simp] theorem modHart_cur (s : State) (k : Nat) (f : Hart → Hart) : (s.modHart k f).cur = s.cur := rfl
@[simp] theorem modHart_ev (s : State) (k : Nat) (f : Hart → Hart) : (s.modHart k f).ev = s.ev := rfl
@[simp] theorem modHart_cluster_frame (s : State) (k : Nat) (f : Hart → Hart) (j : Nat) : (s.modHart k f).cluster j = s.cluster j := rfl
@[simp] theorem modHart_core_frame (s : State) (k : Nat) (f : Hart → Hart) (j : Nat) : (s.modHart k f).core j = s.core j := rfl
@[simp] theorem modHart_quad_frame (s : State) (k : Nat) (f : Hart → Hart) (j : Nat) : (s.modHart k f).quad j = s.quad j := rfl
@[simp] theorem modHart_team_frame (s : State) (k : Nat) (f : Hart → Hart) (j : Nat) : (s.modHart k f).team j = s.team j := rfl
@[simp] theorem modHart_group_frame (s : State) (k : Nat) (f : Hart → Hart) (j : Nat) : (s.modHart k f).group j = s.group j := rfl
@[simp] theorem modHart_grid_frame (s : State) (k : Nat) (f : Hart → Hart) (j : Nat) : (s.modHart k f).grid j = s.grid j := rfl
@[simp] theorem modHart_part_frame (s : State) (k : Nat) (f : Hart → Hart) (j : Nat) : (s.modHart k f).part j = s.part j := rfl
@[simp] theorem modHart_page_frame (s : State) (k : Nat) (f : Hart → Hart) (j : Nat) : (s.modHart k f).page j = s.page j := rfl
@[simp] theorem modHart_port_frame (s : State) (k : Nat) (f : Hart → Hart) (j : Nat) : (s.modHart k f).port j = s.port j := rfl
@[simp] theorem modHart_queue_frame (s : State) (k : Nat) (f : Hart → Hart) (j : Nat) : (s.modHart k f).queue j = s.queue j := rfl
@[simp] theorem modHart_opClass_frame (s : State) (k : Nat) (f : Hart → Hart) (j : Nat) : (s.modHart k f).opClass j = s.opClass j := rfl

@[simp] theorem modPort_fuses (s : State) (k : Nat) (f : Port → Port) : (s.modPort k f).fuses = s.fuses := rfl
@[simp] theorem modPort_power (s : State) (k : Nat) (f : Port → Port) : (s.modPort k f).power = s.power := rfl
@[simp] theorem modPort_boot (s : State) (k : Nat) (f : Port → Port) : (s.modPort k f).boot = s.boot := rfl
@[simp] theorem modPort_mb (s : State) (k : Nat) (f : Port → Port) : (s.modPort k f).mb = s.mb := rfl
@[simp] theorem modPort_pfWbase (s : State) (k : Nat) (f : Port → Port) : (s.modPort k f).pfWbase = s.pfWbase := rfl
@[simp] theorem modPort_pfW4miss (s : State) (k : Nat) (f : Port → Port) : (s.modPort k f).pfW4miss = s.pfW4miss := rfl
@[simp] theorem modPort_harts (s : State) (k : Nat) (f : Port → Port) : (s.modPort k f).harts = s.harts := rfl
@[simp] theorem modPort_parts (s : State) (k : Nat) (f : Port → Port) : (s.modPort k f).parts = s.parts := rfl
@[simp] theorem modPort_queues (s : State) (k : Nat) (f : Port → Port) : (s.modPort k f).queues = s.queues := rfl
@[simp] theorem modPort_opcls (s : State) (k : Nat) (f : Port → Port) : (s.modPort k f).opcls = s.opcls := rfl
@[simp] theorem modPort_boostRate (s : State) (k : Nat) (f : Port → Port) : (s.modPort k f).boostRate = s.boostRate := rfl
@[simp] theorem modPort_draftThresh (s : State) (k : Nat) (f : Port → Port) : (s.modPort k f).draftThresh = s.draftThresh := rfl
@[simp] theorem modPort_draftInterval (s : State) (k : Nat) (f : Port → Port) : (s.modPort k f).draftInterval = s.draftInterval := rfl
@[simp] theorem modPort_draftEn (s : State) (k : Nat) (f : Port → Port) : (s.modPort k f).draftEn = s.draftEn := rfl
@[simp] theorem modPort_boostAt (s : State) (k : Nat) (f : Port → Port) : (s.modPort k f).boostAt = s.boostAt := rfl
@[simp] theorem modPort_devCounters (s : State) (k : Nat) (f : Port → Port) : (s.modPort k f).devCounters = s.devCounters := rfl
@[simp] theorem modPort_gridNext (s : State) (k : Nat) (f : Port → Port) : (s.modPort k f).gridNext = s.gridNext := rfl
@[simp] theorem modPort_accepted (s : State) (k : Nat) (f : Port → Port) : (s.modPort k f).accepted = s.accepted := rfl
@[simp] theorem modPort_grids (s : State) (k : Nat) (f : Port → Port) : (s.modPort k f).grids = s.grids := rfl
@[simp] theorem modPort_teams (s : State) (k : Nat) (f : Port → Port) : (s.modPort k f).teams = s.teams := rfl
@[simp] theorem modPort_groups (s : State) (k : Nat) (f : Port → Port) : (s.modPort k f).groups = s.groups := rfl
@[simp] theorem modPort_clusters (s : State) (k : Nat) (f : Port → Port) : (s.modPort k f).clusters = s.clusters := rfl
@[simp] theorem modPort_cores (s : State) (k : Nat) (f : Port → Port) : (s.modPort k f).cores = s.cores := rfl
@[simp] theorem modPort_quads (s : State) (k : Nat) (f : Port → Port) : (s.modPort k f).quads = s.quads := rfl
@[simp] theorem modPort_mem (s : State) (k : Nat) (f : Port → Port) : (s.modPort k f).mem = s.mem := rfl
@[simp] theorem modPort_memPois (s : State) (k : Nat) (f : Port → Port) : (s.modPort k f).memPois = s.memPois := rfl
@[simp] theorem modPort_hostMem (s : State) (k : Nat) (f : Port → Port) : (s.modPort k f).hostMem = s.hostMem := rfl
@[simp] theorem modPort_plt (s : State) (k : Nat) (f : Port → Port) : (s.modPort k f).plt = s.plt := rfl
@[simp] theorem modPort_flights (s : State) (k : Nat) (f : Port → Port) : (s.modPort k f).flights = s.flights := rfl
@[simp] theorem modPort_colls (s : State) (k : Nat) (f : Port → Port) : (s.modPort k f).colls = s.colls := rfl
@[simp] theorem modPort_cleElapsed (s : State) (k : Nat) (f : Port → Port) : (s.modPort k f).cleElapsed = s.cleElapsed := rfl
@[simp] theorem modPort_reply (s : State) (k : Nat) (f : Port → Port) : (s.modPort k f).reply = s.reply := rfl
@[simp] theorem modPort_msgs (s : State) (k : Nat) (f : Port → Port) : (s.modPort k f).msgs = s.msgs := rfl
@[simp] theorem modPort_nextId (s : State) (k : Nat) (f : Port → Port) : (s.modPort k f).nextId = s.nextId := rfl
@[simp] theorem modPort_free (s : State) (k : Nat) (f : Port → Port) : (s.modPort k f).free = s.free := rfl
@[simp] theorem modPort_agenda (s : State) (k : Nat) (f : Port → Port) : (s.modPort k f).agenda = s.agenda := rfl
@[simp] theorem modPort_cur (s : State) (k : Nat) (f : Port → Port) : (s.modPort k f).cur = s.cur := rfl
@[simp] theorem modPort_ev (s : State) (k : Nat) (f : Port → Port) : (s.modPort k f).ev = s.ev := rfl
@[simp] theorem modPort_cluster_frame (s : State) (k : Nat) (f : Port → Port) (j : Nat) : (s.modPort k f).cluster j = s.cluster j := rfl
@[simp] theorem modPort_core_frame (s : State) (k : Nat) (f : Port → Port) (j : Nat) : (s.modPort k f).core j = s.core j := rfl
@[simp] theorem modPort_quad_frame (s : State) (k : Nat) (f : Port → Port) (j : Nat) : (s.modPort k f).quad j = s.quad j := rfl
@[simp] theorem modPort_team_frame (s : State) (k : Nat) (f : Port → Port) (j : Nat) : (s.modPort k f).team j = s.team j := rfl
@[simp] theorem modPort_group_frame (s : State) (k : Nat) (f : Port → Port) (j : Nat) : (s.modPort k f).group j = s.group j := rfl
@[simp] theorem modPort_grid_frame (s : State) (k : Nat) (f : Port → Port) (j : Nat) : (s.modPort k f).grid j = s.grid j := rfl
@[simp] theorem modPort_part_frame (s : State) (k : Nat) (f : Port → Port) (j : Nat) : (s.modPort k f).part j = s.part j := rfl
@[simp] theorem modPort_page_frame (s : State) (k : Nat) (f : Port → Port) (j : Nat) : (s.modPort k f).page j = s.page j := rfl
@[simp] theorem modPort_hart_frame (s : State) (k : Nat) (f : Port → Port) (j : Nat) : (s.modPort k f).hart j = s.hart j := rfl
@[simp] theorem modPort_queue_frame (s : State) (k : Nat) (f : Port → Port) (j : Nat) : (s.modPort k f).queue j = s.queue j := rfl
@[simp] theorem modPort_opClass_frame (s : State) (k : Nat) (f : Port → Port) (j : Nat) : (s.modPort k f).opClass j = s.opClass j := rfl

@[simp] theorem modQueue_fuses (s : State) (k : Nat) (f : Queue → Queue) : (s.modQueue k f).fuses = s.fuses := rfl
@[simp] theorem modQueue_power (s : State) (k : Nat) (f : Queue → Queue) : (s.modQueue k f).power = s.power := rfl
@[simp] theorem modQueue_boot (s : State) (k : Nat) (f : Queue → Queue) : (s.modQueue k f).boot = s.boot := rfl
@[simp] theorem modQueue_mb (s : State) (k : Nat) (f : Queue → Queue) : (s.modQueue k f).mb = s.mb := rfl
@[simp] theorem modQueue_pfWbase (s : State) (k : Nat) (f : Queue → Queue) : (s.modQueue k f).pfWbase = s.pfWbase := rfl
@[simp] theorem modQueue_pfW4miss (s : State) (k : Nat) (f : Queue → Queue) : (s.modQueue k f).pfW4miss = s.pfW4miss := rfl
@[simp] theorem modQueue_harts (s : State) (k : Nat) (f : Queue → Queue) : (s.modQueue k f).harts = s.harts := rfl
@[simp] theorem modQueue_parts (s : State) (k : Nat) (f : Queue → Queue) : (s.modQueue k f).parts = s.parts := rfl
@[simp] theorem modQueue_ports (s : State) (k : Nat) (f : Queue → Queue) : (s.modQueue k f).ports = s.ports := rfl
@[simp] theorem modQueue_opcls (s : State) (k : Nat) (f : Queue → Queue) : (s.modQueue k f).opcls = s.opcls := rfl
@[simp] theorem modQueue_boostRate (s : State) (k : Nat) (f : Queue → Queue) : (s.modQueue k f).boostRate = s.boostRate := rfl
@[simp] theorem modQueue_draftThresh (s : State) (k : Nat) (f : Queue → Queue) : (s.modQueue k f).draftThresh = s.draftThresh := rfl
@[simp] theorem modQueue_draftInterval (s : State) (k : Nat) (f : Queue → Queue) : (s.modQueue k f).draftInterval = s.draftInterval := rfl
@[simp] theorem modQueue_draftEn (s : State) (k : Nat) (f : Queue → Queue) : (s.modQueue k f).draftEn = s.draftEn := rfl
@[simp] theorem modQueue_boostAt (s : State) (k : Nat) (f : Queue → Queue) : (s.modQueue k f).boostAt = s.boostAt := rfl
@[simp] theorem modQueue_devCounters (s : State) (k : Nat) (f : Queue → Queue) : (s.modQueue k f).devCounters = s.devCounters := rfl
@[simp] theorem modQueue_gridNext (s : State) (k : Nat) (f : Queue → Queue) : (s.modQueue k f).gridNext = s.gridNext := rfl
@[simp] theorem modQueue_accepted (s : State) (k : Nat) (f : Queue → Queue) : (s.modQueue k f).accepted = s.accepted := rfl
@[simp] theorem modQueue_grids (s : State) (k : Nat) (f : Queue → Queue) : (s.modQueue k f).grids = s.grids := rfl
@[simp] theorem modQueue_teams (s : State) (k : Nat) (f : Queue → Queue) : (s.modQueue k f).teams = s.teams := rfl
@[simp] theorem modQueue_groups (s : State) (k : Nat) (f : Queue → Queue) : (s.modQueue k f).groups = s.groups := rfl
@[simp] theorem modQueue_clusters (s : State) (k : Nat) (f : Queue → Queue) : (s.modQueue k f).clusters = s.clusters := rfl
@[simp] theorem modQueue_cores (s : State) (k : Nat) (f : Queue → Queue) : (s.modQueue k f).cores = s.cores := rfl
@[simp] theorem modQueue_quads (s : State) (k : Nat) (f : Queue → Queue) : (s.modQueue k f).quads = s.quads := rfl
@[simp] theorem modQueue_mem (s : State) (k : Nat) (f : Queue → Queue) : (s.modQueue k f).mem = s.mem := rfl
@[simp] theorem modQueue_memPois (s : State) (k : Nat) (f : Queue → Queue) : (s.modQueue k f).memPois = s.memPois := rfl
@[simp] theorem modQueue_hostMem (s : State) (k : Nat) (f : Queue → Queue) : (s.modQueue k f).hostMem = s.hostMem := rfl
@[simp] theorem modQueue_plt (s : State) (k : Nat) (f : Queue → Queue) : (s.modQueue k f).plt = s.plt := rfl
@[simp] theorem modQueue_flights (s : State) (k : Nat) (f : Queue → Queue) : (s.modQueue k f).flights = s.flights := rfl
@[simp] theorem modQueue_colls (s : State) (k : Nat) (f : Queue → Queue) : (s.modQueue k f).colls = s.colls := rfl
@[simp] theorem modQueue_cleElapsed (s : State) (k : Nat) (f : Queue → Queue) : (s.modQueue k f).cleElapsed = s.cleElapsed := rfl
@[simp] theorem modQueue_reply (s : State) (k : Nat) (f : Queue → Queue) : (s.modQueue k f).reply = s.reply := rfl
@[simp] theorem modQueue_msgs (s : State) (k : Nat) (f : Queue → Queue) : (s.modQueue k f).msgs = s.msgs := rfl
@[simp] theorem modQueue_nextId (s : State) (k : Nat) (f : Queue → Queue) : (s.modQueue k f).nextId = s.nextId := rfl
@[simp] theorem modQueue_free (s : State) (k : Nat) (f : Queue → Queue) : (s.modQueue k f).free = s.free := rfl
@[simp] theorem modQueue_agenda (s : State) (k : Nat) (f : Queue → Queue) : (s.modQueue k f).agenda = s.agenda := rfl
@[simp] theorem modQueue_cur (s : State) (k : Nat) (f : Queue → Queue) : (s.modQueue k f).cur = s.cur := rfl
@[simp] theorem modQueue_ev (s : State) (k : Nat) (f : Queue → Queue) : (s.modQueue k f).ev = s.ev := rfl
@[simp] theorem modQueue_cluster_frame (s : State) (k : Nat) (f : Queue → Queue) (j : Nat) : (s.modQueue k f).cluster j = s.cluster j := rfl
@[simp] theorem modQueue_core_frame (s : State) (k : Nat) (f : Queue → Queue) (j : Nat) : (s.modQueue k f).core j = s.core j := rfl
@[simp] theorem modQueue_quad_frame (s : State) (k : Nat) (f : Queue → Queue) (j : Nat) : (s.modQueue k f).quad j = s.quad j := rfl
@[simp] theorem modQueue_team_frame (s : State) (k : Nat) (f : Queue → Queue) (j : Nat) : (s.modQueue k f).team j = s.team j := rfl
@[simp] theorem modQueue_group_frame (s : State) (k : Nat) (f : Queue → Queue) (j : Nat) : (s.modQueue k f).group j = s.group j := rfl
@[simp] theorem modQueue_grid_frame (s : State) (k : Nat) (f : Queue → Queue) (j : Nat) : (s.modQueue k f).grid j = s.grid j := rfl
@[simp] theorem modQueue_part_frame (s : State) (k : Nat) (f : Queue → Queue) (j : Nat) : (s.modQueue k f).part j = s.part j := rfl
@[simp] theorem modQueue_page_frame (s : State) (k : Nat) (f : Queue → Queue) (j : Nat) : (s.modQueue k f).page j = s.page j := rfl
@[simp] theorem modQueue_hart_frame (s : State) (k : Nat) (f : Queue → Queue) (j : Nat) : (s.modQueue k f).hart j = s.hart j := rfl
@[simp] theorem modQueue_port_frame (s : State) (k : Nat) (f : Queue → Queue) (j : Nat) : (s.modQueue k f).port j = s.port j := rfl
@[simp] theorem modQueue_opClass_frame (s : State) (k : Nat) (f : Queue → Queue) (j : Nat) : (s.modQueue k f).opClass j = s.opClass j := rfl

@[simp] theorem count_fuses (s : State) (cl off n : Nat) : (s.count cl off n).fuses = s.fuses := rfl
@[simp] theorem count_power (s : State) (cl off n : Nat) : (s.count cl off n).power = s.power := rfl
@[simp] theorem count_boot (s : State) (cl off n : Nat) : (s.count cl off n).boot = s.boot := rfl
@[simp] theorem count_mb (s : State) (cl off n : Nat) : (s.count cl off n).mb = s.mb := rfl
@[simp] theorem count_pfWbase (s : State) (cl off n : Nat) : (s.count cl off n).pfWbase = s.pfWbase := rfl
@[simp] theorem count_pfW4miss (s : State) (cl off n : Nat) : (s.count cl off n).pfW4miss = s.pfW4miss := rfl
@[simp] theorem count_harts (s : State) (cl off n : Nat) : (s.count cl off n).harts = s.harts := rfl
@[simp] theorem count_parts (s : State) (cl off n : Nat) : (s.count cl off n).parts = s.parts := rfl
@[simp] theorem count_queues (s : State) (cl off n : Nat) : (s.count cl off n).queues = s.queues := rfl
@[simp] theorem count_ports (s : State) (cl off n : Nat) : (s.count cl off n).ports = s.ports := rfl
@[simp] theorem count_opcls (s : State) (cl off n : Nat) : (s.count cl off n).opcls = s.opcls := rfl
@[simp] theorem count_boostRate (s : State) (cl off n : Nat) : (s.count cl off n).boostRate = s.boostRate := rfl
@[simp] theorem count_draftThresh (s : State) (cl off n : Nat) : (s.count cl off n).draftThresh = s.draftThresh := rfl
@[simp] theorem count_draftInterval (s : State) (cl off n : Nat) : (s.count cl off n).draftInterval = s.draftInterval := rfl
@[simp] theorem count_draftEn (s : State) (cl off n : Nat) : (s.count cl off n).draftEn = s.draftEn := rfl
@[simp] theorem count_boostAt (s : State) (cl off n : Nat) : (s.count cl off n).boostAt = s.boostAt := rfl
@[simp] theorem count_devCounters (s : State) (cl off n : Nat) : (s.count cl off n).devCounters = s.devCounters := rfl
@[simp] theorem count_gridNext (s : State) (cl off n : Nat) : (s.count cl off n).gridNext = s.gridNext := rfl
@[simp] theorem count_accepted (s : State) (cl off n : Nat) : (s.count cl off n).accepted = s.accepted := rfl
@[simp] theorem count_grids (s : State) (cl off n : Nat) : (s.count cl off n).grids = s.grids := rfl
@[simp] theorem count_teams (s : State) (cl off n : Nat) : (s.count cl off n).teams = s.teams := rfl
@[simp] theorem count_groups (s : State) (cl off n : Nat) : (s.count cl off n).groups = s.groups := rfl
@[simp] theorem count_cores (s : State) (cl off n : Nat) : (s.count cl off n).cores = s.cores := rfl
@[simp] theorem count_quads (s : State) (cl off n : Nat) : (s.count cl off n).quads = s.quads := rfl
@[simp] theorem count_mem (s : State) (cl off n : Nat) : (s.count cl off n).mem = s.mem := rfl
@[simp] theorem count_memPois (s : State) (cl off n : Nat) : (s.count cl off n).memPois = s.memPois := rfl
@[simp] theorem count_hostMem (s : State) (cl off n : Nat) : (s.count cl off n).hostMem = s.hostMem := rfl
@[simp] theorem count_plt (s : State) (cl off n : Nat) : (s.count cl off n).plt = s.plt := rfl
@[simp] theorem count_flights (s : State) (cl off n : Nat) : (s.count cl off n).flights = s.flights := rfl
@[simp] theorem count_colls (s : State) (cl off n : Nat) : (s.count cl off n).colls = s.colls := rfl
@[simp] theorem count_cleElapsed (s : State) (cl off n : Nat) : (s.count cl off n).cleElapsed = s.cleElapsed := rfl
@[simp] theorem count_reply (s : State) (cl off n : Nat) : (s.count cl off n).reply = s.reply := rfl
@[simp] theorem count_msgs (s : State) (cl off n : Nat) : (s.count cl off n).msgs = s.msgs := rfl
@[simp] theorem count_nextId (s : State) (cl off n : Nat) : (s.count cl off n).nextId = s.nextId := rfl
@[simp] theorem count_free (s : State) (cl off n : Nat) : (s.count cl off n).free = s.free := rfl
@[simp] theorem count_agenda (s : State) (cl off n : Nat) : (s.count cl off n).agenda = s.agenda := rfl
@[simp] theorem count_cur (s : State) (cl off n : Nat) : (s.count cl off n).cur = s.cur := rfl
@[simp] theorem count_ev (s : State) (cl off n : Nat) : (s.count cl off n).ev = s.ev := rfl
@[simp] theorem count_core_frame (s : State) (cl off n : Nat) (j : Nat) : (s.count cl off n).core j = s.core j := rfl
@[simp] theorem count_quad_frame (s : State) (cl off n : Nat) (j : Nat) : (s.count cl off n).quad j = s.quad j := rfl
@[simp] theorem count_team_frame (s : State) (cl off n : Nat) (j : Nat) : (s.count cl off n).team j = s.team j := rfl
@[simp] theorem count_group_frame (s : State) (cl off n : Nat) (j : Nat) : (s.count cl off n).group j = s.group j := rfl
@[simp] theorem count_grid_frame (s : State) (cl off n : Nat) (j : Nat) : (s.count cl off n).grid j = s.grid j := rfl
@[simp] theorem count_part_frame (s : State) (cl off n : Nat) (j : Nat) : (s.count cl off n).part j = s.part j := rfl
@[simp] theorem count_page_frame (s : State) (cl off n : Nat) (j : Nat) : (s.count cl off n).page j = s.page j := rfl
@[simp] theorem count_hart_frame (s : State) (cl off n : Nat) (j : Nat) : (s.count cl off n).hart j = s.hart j := rfl
@[simp] theorem count_port_frame (s : State) (cl off n : Nat) (j : Nat) : (s.count cl off n).port j = s.port j := rfl
@[simp] theorem count_queue_frame (s : State) (cl off n : Nat) (j : Nat) : (s.count cl off n).queue j = s.queue j := rfl
@[simp] theorem count_opClass_frame (s : State) (cl off n : Nat) (j : Nat) : (s.count cl off n).opClass j = s.opClass j := rfl

@[simp] theorem countPair_fuses (s : State) (cl off hi lo : Nat) : (s.countPair cl off hi lo).fuses = s.fuses := rfl
@[simp] theorem countPair_power (s : State) (cl off hi lo : Nat) : (s.countPair cl off hi lo).power = s.power := rfl
@[simp] theorem countPair_boot (s : State) (cl off hi lo : Nat) : (s.countPair cl off hi lo).boot = s.boot := rfl
@[simp] theorem countPair_mb (s : State) (cl off hi lo : Nat) : (s.countPair cl off hi lo).mb = s.mb := rfl
@[simp] theorem countPair_pfWbase (s : State) (cl off hi lo : Nat) : (s.countPair cl off hi lo).pfWbase = s.pfWbase := rfl
@[simp] theorem countPair_pfW4miss (s : State) (cl off hi lo : Nat) : (s.countPair cl off hi lo).pfW4miss = s.pfW4miss := rfl
@[simp] theorem countPair_harts (s : State) (cl off hi lo : Nat) : (s.countPair cl off hi lo).harts = s.harts := rfl
@[simp] theorem countPair_parts (s : State) (cl off hi lo : Nat) : (s.countPair cl off hi lo).parts = s.parts := rfl
@[simp] theorem countPair_queues (s : State) (cl off hi lo : Nat) : (s.countPair cl off hi lo).queues = s.queues := rfl
@[simp] theorem countPair_ports (s : State) (cl off hi lo : Nat) : (s.countPair cl off hi lo).ports = s.ports := rfl
@[simp] theorem countPair_opcls (s : State) (cl off hi lo : Nat) : (s.countPair cl off hi lo).opcls = s.opcls := rfl
@[simp] theorem countPair_boostRate (s : State) (cl off hi lo : Nat) : (s.countPair cl off hi lo).boostRate = s.boostRate := rfl
@[simp] theorem countPair_draftThresh (s : State) (cl off hi lo : Nat) : (s.countPair cl off hi lo).draftThresh = s.draftThresh := rfl
@[simp] theorem countPair_draftInterval (s : State) (cl off hi lo : Nat) : (s.countPair cl off hi lo).draftInterval = s.draftInterval := rfl
@[simp] theorem countPair_draftEn (s : State) (cl off hi lo : Nat) : (s.countPair cl off hi lo).draftEn = s.draftEn := rfl
@[simp] theorem countPair_boostAt (s : State) (cl off hi lo : Nat) : (s.countPair cl off hi lo).boostAt = s.boostAt := rfl
@[simp] theorem countPair_devCounters (s : State) (cl off hi lo : Nat) : (s.countPair cl off hi lo).devCounters = s.devCounters := rfl
@[simp] theorem countPair_gridNext (s : State) (cl off hi lo : Nat) : (s.countPair cl off hi lo).gridNext = s.gridNext := rfl
@[simp] theorem countPair_accepted (s : State) (cl off hi lo : Nat) : (s.countPair cl off hi lo).accepted = s.accepted := rfl
@[simp] theorem countPair_grids (s : State) (cl off hi lo : Nat) : (s.countPair cl off hi lo).grids = s.grids := rfl
@[simp] theorem countPair_teams (s : State) (cl off hi lo : Nat) : (s.countPair cl off hi lo).teams = s.teams := rfl
@[simp] theorem countPair_groups (s : State) (cl off hi lo : Nat) : (s.countPair cl off hi lo).groups = s.groups := rfl
@[simp] theorem countPair_cores (s : State) (cl off hi lo : Nat) : (s.countPair cl off hi lo).cores = s.cores := rfl
@[simp] theorem countPair_quads (s : State) (cl off hi lo : Nat) : (s.countPair cl off hi lo).quads = s.quads := rfl
@[simp] theorem countPair_mem (s : State) (cl off hi lo : Nat) : (s.countPair cl off hi lo).mem = s.mem := rfl
@[simp] theorem countPair_memPois (s : State) (cl off hi lo : Nat) : (s.countPair cl off hi lo).memPois = s.memPois := rfl
@[simp] theorem countPair_hostMem (s : State) (cl off hi lo : Nat) : (s.countPair cl off hi lo).hostMem = s.hostMem := rfl
@[simp] theorem countPair_plt (s : State) (cl off hi lo : Nat) : (s.countPair cl off hi lo).plt = s.plt := rfl
@[simp] theorem countPair_flights (s : State) (cl off hi lo : Nat) : (s.countPair cl off hi lo).flights = s.flights := rfl
@[simp] theorem countPair_colls (s : State) (cl off hi lo : Nat) : (s.countPair cl off hi lo).colls = s.colls := rfl
@[simp] theorem countPair_cleElapsed (s : State) (cl off hi lo : Nat) : (s.countPair cl off hi lo).cleElapsed = s.cleElapsed := rfl
@[simp] theorem countPair_reply (s : State) (cl off hi lo : Nat) : (s.countPair cl off hi lo).reply = s.reply := rfl
@[simp] theorem countPair_msgs (s : State) (cl off hi lo : Nat) : (s.countPair cl off hi lo).msgs = s.msgs := rfl
@[simp] theorem countPair_nextId (s : State) (cl off hi lo : Nat) : (s.countPair cl off hi lo).nextId = s.nextId := rfl
@[simp] theorem countPair_free (s : State) (cl off hi lo : Nat) : (s.countPair cl off hi lo).free = s.free := rfl
@[simp] theorem countPair_agenda (s : State) (cl off hi lo : Nat) : (s.countPair cl off hi lo).agenda = s.agenda := rfl
@[simp] theorem countPair_cur (s : State) (cl off hi lo : Nat) : (s.countPair cl off hi lo).cur = s.cur := rfl
@[simp] theorem countPair_ev (s : State) (cl off hi lo : Nat) : (s.countPair cl off hi lo).ev = s.ev := rfl
@[simp] theorem countPair_core_frame (s : State) (cl off hi lo : Nat) (j : Nat) : (s.countPair cl off hi lo).core j = s.core j := rfl
@[simp] theorem countPair_quad_frame (s : State) (cl off hi lo : Nat) (j : Nat) : (s.countPair cl off hi lo).quad j = s.quad j := rfl
@[simp] theorem countPair_team_frame (s : State) (cl off hi lo : Nat) (j : Nat) : (s.countPair cl off hi lo).team j = s.team j := rfl
@[simp] theorem countPair_group_frame (s : State) (cl off hi lo : Nat) (j : Nat) : (s.countPair cl off hi lo).group j = s.group j := rfl
@[simp] theorem countPair_grid_frame (s : State) (cl off hi lo : Nat) (j : Nat) : (s.countPair cl off hi lo).grid j = s.grid j := rfl
@[simp] theorem countPair_part_frame (s : State) (cl off hi lo : Nat) (j : Nat) : (s.countPair cl off hi lo).part j = s.part j := rfl
@[simp] theorem countPair_page_frame (s : State) (cl off hi lo : Nat) (j : Nat) : (s.countPair cl off hi lo).page j = s.page j := rfl
@[simp] theorem countPair_hart_frame (s : State) (cl off hi lo : Nat) (j : Nat) : (s.countPair cl off hi lo).hart j = s.hart j := rfl
@[simp] theorem countPair_port_frame (s : State) (cl off hi lo : Nat) (j : Nat) : (s.countPair cl off hi lo).port j = s.port j := rfl
@[simp] theorem countPair_queue_frame (s : State) (cl off hi lo : Nat) (j : Nat) : (s.countPair cl off hi lo).queue j = s.queue j := rfl
@[simp] theorem countPair_opClass_frame (s : State) (cl off hi lo : Nat) (j : Nat) : (s.countPair cl off hi lo).opClass j = s.opClass j := rfl

@[simp] theorem devCount_fuses (s : State) (off n : Nat) : (s.devCount off n).fuses = s.fuses := rfl
@[simp] theorem devCount_power (s : State) (off n : Nat) : (s.devCount off n).power = s.power := rfl
@[simp] theorem devCount_boot (s : State) (off n : Nat) : (s.devCount off n).boot = s.boot := rfl
@[simp] theorem devCount_mb (s : State) (off n : Nat) : (s.devCount off n).mb = s.mb := rfl
@[simp] theorem devCount_pfWbase (s : State) (off n : Nat) : (s.devCount off n).pfWbase = s.pfWbase := rfl
@[simp] theorem devCount_pfW4miss (s : State) (off n : Nat) : (s.devCount off n).pfW4miss = s.pfW4miss := rfl
@[simp] theorem devCount_harts (s : State) (off n : Nat) : (s.devCount off n).harts = s.harts := rfl
@[simp] theorem devCount_parts (s : State) (off n : Nat) : (s.devCount off n).parts = s.parts := rfl
@[simp] theorem devCount_queues (s : State) (off n : Nat) : (s.devCount off n).queues = s.queues := rfl
@[simp] theorem devCount_ports (s : State) (off n : Nat) : (s.devCount off n).ports = s.ports := rfl
@[simp] theorem devCount_opcls (s : State) (off n : Nat) : (s.devCount off n).opcls = s.opcls := rfl
@[simp] theorem devCount_boostRate (s : State) (off n : Nat) : (s.devCount off n).boostRate = s.boostRate := rfl
@[simp] theorem devCount_draftThresh (s : State) (off n : Nat) : (s.devCount off n).draftThresh = s.draftThresh := rfl
@[simp] theorem devCount_draftInterval (s : State) (off n : Nat) : (s.devCount off n).draftInterval = s.draftInterval := rfl
@[simp] theorem devCount_draftEn (s : State) (off n : Nat) : (s.devCount off n).draftEn = s.draftEn := rfl
@[simp] theorem devCount_boostAt (s : State) (off n : Nat) : (s.devCount off n).boostAt = s.boostAt := rfl
@[simp] theorem devCount_gridNext (s : State) (off n : Nat) : (s.devCount off n).gridNext = s.gridNext := rfl
@[simp] theorem devCount_accepted (s : State) (off n : Nat) : (s.devCount off n).accepted = s.accepted := rfl
@[simp] theorem devCount_grids (s : State) (off n : Nat) : (s.devCount off n).grids = s.grids := rfl
@[simp] theorem devCount_teams (s : State) (off n : Nat) : (s.devCount off n).teams = s.teams := rfl
@[simp] theorem devCount_groups (s : State) (off n : Nat) : (s.devCount off n).groups = s.groups := rfl
@[simp] theorem devCount_clusters (s : State) (off n : Nat) : (s.devCount off n).clusters = s.clusters := rfl
@[simp] theorem devCount_cores (s : State) (off n : Nat) : (s.devCount off n).cores = s.cores := rfl
@[simp] theorem devCount_quads (s : State) (off n : Nat) : (s.devCount off n).quads = s.quads := rfl
@[simp] theorem devCount_mem (s : State) (off n : Nat) : (s.devCount off n).mem = s.mem := rfl
@[simp] theorem devCount_memPois (s : State) (off n : Nat) : (s.devCount off n).memPois = s.memPois := rfl
@[simp] theorem devCount_hostMem (s : State) (off n : Nat) : (s.devCount off n).hostMem = s.hostMem := rfl
@[simp] theorem devCount_plt (s : State) (off n : Nat) : (s.devCount off n).plt = s.plt := rfl
@[simp] theorem devCount_flights (s : State) (off n : Nat) : (s.devCount off n).flights = s.flights := rfl
@[simp] theorem devCount_colls (s : State) (off n : Nat) : (s.devCount off n).colls = s.colls := rfl
@[simp] theorem devCount_cleElapsed (s : State) (off n : Nat) : (s.devCount off n).cleElapsed = s.cleElapsed := rfl
@[simp] theorem devCount_reply (s : State) (off n : Nat) : (s.devCount off n).reply = s.reply := rfl
@[simp] theorem devCount_msgs (s : State) (off n : Nat) : (s.devCount off n).msgs = s.msgs := rfl
@[simp] theorem devCount_nextId (s : State) (off n : Nat) : (s.devCount off n).nextId = s.nextId := rfl
@[simp] theorem devCount_free (s : State) (off n : Nat) : (s.devCount off n).free = s.free := rfl
@[simp] theorem devCount_agenda (s : State) (off n : Nat) : (s.devCount off n).agenda = s.agenda := rfl
@[simp] theorem devCount_cur (s : State) (off n : Nat) : (s.devCount off n).cur = s.cur := rfl
@[simp] theorem devCount_ev (s : State) (off n : Nat) : (s.devCount off n).ev = s.ev := rfl
@[simp] theorem devCount_cluster_frame (s : State) (off n : Nat) (j : Nat) : (s.devCount off n).cluster j = s.cluster j := rfl
@[simp] theorem devCount_core_frame (s : State) (off n : Nat) (j : Nat) : (s.devCount off n).core j = s.core j := rfl
@[simp] theorem devCount_quad_frame (s : State) (off n : Nat) (j : Nat) : (s.devCount off n).quad j = s.quad j := rfl
@[simp] theorem devCount_team_frame (s : State) (off n : Nat) (j : Nat) : (s.devCount off n).team j = s.team j := rfl
@[simp] theorem devCount_group_frame (s : State) (off n : Nat) (j : Nat) : (s.devCount off n).group j = s.group j := rfl
@[simp] theorem devCount_grid_frame (s : State) (off n : Nat) (j : Nat) : (s.devCount off n).grid j = s.grid j := rfl
@[simp] theorem devCount_part_frame (s : State) (off n : Nat) (j : Nat) : (s.devCount off n).part j = s.part j := rfl
@[simp] theorem devCount_page_frame (s : State) (off n : Nat) (j : Nat) : (s.devCount off n).page j = s.page j := rfl
@[simp] theorem devCount_hart_frame (s : State) (off n : Nat) (j : Nat) : (s.devCount off n).hart j = s.hart j := rfl
@[simp] theorem devCount_port_frame (s : State) (off n : Nat) (j : Nat) : (s.devCount off n).port j = s.port j := rfl
@[simp] theorem devCount_queue_frame (s : State) (off n : Nat) (j : Nat) : (s.devCount off n).queue j = s.queue j := rfl
@[simp] theorem devCount_opClass_frame (s : State) (off n : Nat) (j : Nat) : (s.devCount off n).opClass j = s.opClass j := rfl

@[simp] theorem devCountPair_fuses (s : State) (off hi lo : Nat) : (s.devCountPair off hi lo).fuses = s.fuses := rfl
@[simp] theorem devCountPair_power (s : State) (off hi lo : Nat) : (s.devCountPair off hi lo).power = s.power := rfl
@[simp] theorem devCountPair_boot (s : State) (off hi lo : Nat) : (s.devCountPair off hi lo).boot = s.boot := rfl
@[simp] theorem devCountPair_mb (s : State) (off hi lo : Nat) : (s.devCountPair off hi lo).mb = s.mb := rfl
@[simp] theorem devCountPair_pfWbase (s : State) (off hi lo : Nat) : (s.devCountPair off hi lo).pfWbase = s.pfWbase := rfl
@[simp] theorem devCountPair_pfW4miss (s : State) (off hi lo : Nat) : (s.devCountPair off hi lo).pfW4miss = s.pfW4miss := rfl
@[simp] theorem devCountPair_harts (s : State) (off hi lo : Nat) : (s.devCountPair off hi lo).harts = s.harts := rfl
@[simp] theorem devCountPair_parts (s : State) (off hi lo : Nat) : (s.devCountPair off hi lo).parts = s.parts := rfl
@[simp] theorem devCountPair_queues (s : State) (off hi lo : Nat) : (s.devCountPair off hi lo).queues = s.queues := rfl
@[simp] theorem devCountPair_ports (s : State) (off hi lo : Nat) : (s.devCountPair off hi lo).ports = s.ports := rfl
@[simp] theorem devCountPair_opcls (s : State) (off hi lo : Nat) : (s.devCountPair off hi lo).opcls = s.opcls := rfl
@[simp] theorem devCountPair_boostRate (s : State) (off hi lo : Nat) : (s.devCountPair off hi lo).boostRate = s.boostRate := rfl
@[simp] theorem devCountPair_draftThresh (s : State) (off hi lo : Nat) : (s.devCountPair off hi lo).draftThresh = s.draftThresh := rfl
@[simp] theorem devCountPair_draftInterval (s : State) (off hi lo : Nat) : (s.devCountPair off hi lo).draftInterval = s.draftInterval := rfl
@[simp] theorem devCountPair_draftEn (s : State) (off hi lo : Nat) : (s.devCountPair off hi lo).draftEn = s.draftEn := rfl
@[simp] theorem devCountPair_boostAt (s : State) (off hi lo : Nat) : (s.devCountPair off hi lo).boostAt = s.boostAt := rfl
@[simp] theorem devCountPair_gridNext (s : State) (off hi lo : Nat) : (s.devCountPair off hi lo).gridNext = s.gridNext := rfl
@[simp] theorem devCountPair_accepted (s : State) (off hi lo : Nat) : (s.devCountPair off hi lo).accepted = s.accepted := rfl
@[simp] theorem devCountPair_grids (s : State) (off hi lo : Nat) : (s.devCountPair off hi lo).grids = s.grids := rfl
@[simp] theorem devCountPair_teams (s : State) (off hi lo : Nat) : (s.devCountPair off hi lo).teams = s.teams := rfl
@[simp] theorem devCountPair_groups (s : State) (off hi lo : Nat) : (s.devCountPair off hi lo).groups = s.groups := rfl
@[simp] theorem devCountPair_clusters (s : State) (off hi lo : Nat) : (s.devCountPair off hi lo).clusters = s.clusters := rfl
@[simp] theorem devCountPair_cores (s : State) (off hi lo : Nat) : (s.devCountPair off hi lo).cores = s.cores := rfl
@[simp] theorem devCountPair_quads (s : State) (off hi lo : Nat) : (s.devCountPair off hi lo).quads = s.quads := rfl
@[simp] theorem devCountPair_mem (s : State) (off hi lo : Nat) : (s.devCountPair off hi lo).mem = s.mem := rfl
@[simp] theorem devCountPair_memPois (s : State) (off hi lo : Nat) : (s.devCountPair off hi lo).memPois = s.memPois := rfl
@[simp] theorem devCountPair_hostMem (s : State) (off hi lo : Nat) : (s.devCountPair off hi lo).hostMem = s.hostMem := rfl
@[simp] theorem devCountPair_plt (s : State) (off hi lo : Nat) : (s.devCountPair off hi lo).plt = s.plt := rfl
@[simp] theorem devCountPair_flights (s : State) (off hi lo : Nat) : (s.devCountPair off hi lo).flights = s.flights := rfl
@[simp] theorem devCountPair_colls (s : State) (off hi lo : Nat) : (s.devCountPair off hi lo).colls = s.colls := rfl
@[simp] theorem devCountPair_cleElapsed (s : State) (off hi lo : Nat) : (s.devCountPair off hi lo).cleElapsed = s.cleElapsed := rfl
@[simp] theorem devCountPair_reply (s : State) (off hi lo : Nat) : (s.devCountPair off hi lo).reply = s.reply := rfl
@[simp] theorem devCountPair_msgs (s : State) (off hi lo : Nat) : (s.devCountPair off hi lo).msgs = s.msgs := rfl
@[simp] theorem devCountPair_nextId (s : State) (off hi lo : Nat) : (s.devCountPair off hi lo).nextId = s.nextId := rfl
@[simp] theorem devCountPair_free (s : State) (off hi lo : Nat) : (s.devCountPair off hi lo).free = s.free := rfl
@[simp] theorem devCountPair_agenda (s : State) (off hi lo : Nat) : (s.devCountPair off hi lo).agenda = s.agenda := rfl
@[simp] theorem devCountPair_cur (s : State) (off hi lo : Nat) : (s.devCountPair off hi lo).cur = s.cur := rfl
@[simp] theorem devCountPair_ev (s : State) (off hi lo : Nat) : (s.devCountPair off hi lo).ev = s.ev := rfl
@[simp] theorem devCountPair_cluster_frame (s : State) (off hi lo : Nat) (j : Nat) : (s.devCountPair off hi lo).cluster j = s.cluster j := rfl
@[simp] theorem devCountPair_core_frame (s : State) (off hi lo : Nat) (j : Nat) : (s.devCountPair off hi lo).core j = s.core j := rfl
@[simp] theorem devCountPair_quad_frame (s : State) (off hi lo : Nat) (j : Nat) : (s.devCountPair off hi lo).quad j = s.quad j := rfl
@[simp] theorem devCountPair_team_frame (s : State) (off hi lo : Nat) (j : Nat) : (s.devCountPair off hi lo).team j = s.team j := rfl
@[simp] theorem devCountPair_group_frame (s : State) (off hi lo : Nat) (j : Nat) : (s.devCountPair off hi lo).group j = s.group j := rfl
@[simp] theorem devCountPair_grid_frame (s : State) (off hi lo : Nat) (j : Nat) : (s.devCountPair off hi lo).grid j = s.grid j := rfl
@[simp] theorem devCountPair_part_frame (s : State) (off hi lo : Nat) (j : Nat) : (s.devCountPair off hi lo).part j = s.part j := rfl
@[simp] theorem devCountPair_page_frame (s : State) (off hi lo : Nat) (j : Nat) : (s.devCountPair off hi lo).page j = s.page j := rfl
@[simp] theorem devCountPair_hart_frame (s : State) (off hi lo : Nat) (j : Nat) : (s.devCountPair off hi lo).hart j = s.hart j := rfl
@[simp] theorem devCountPair_port_frame (s : State) (off hi lo : Nat) (j : Nat) : (s.devCountPair off hi lo).port j = s.port j := rfl
@[simp] theorem devCountPair_queue_frame (s : State) (off hi lo : Nat) (j : Nat) : (s.devCountPair off hi lo).queue j = s.queue j := rfl
@[simp] theorem devCountPair_opClass_frame (s : State) (off hi lo : Nat) (j : Nat) : (s.devCountPair off hi lo).opClass j = s.opClass j := rfl

@[simp] theorem send_fuses (s : State) (m : Msg) : (s.send m).fuses = s.fuses := rfl
@[simp] theorem send_power (s : State) (m : Msg) : (s.send m).power = s.power := rfl
@[simp] theorem send_boot (s : State) (m : Msg) : (s.send m).boot = s.boot := rfl
@[simp] theorem send_mb (s : State) (m : Msg) : (s.send m).mb = s.mb := rfl
@[simp] theorem send_pfWbase (s : State) (m : Msg) : (s.send m).pfWbase = s.pfWbase := rfl
@[simp] theorem send_pfW4miss (s : State) (m : Msg) : (s.send m).pfW4miss = s.pfW4miss := rfl
@[simp] theorem send_hart_harts (s : State) (h : Nat) :
    (s.send (.hart h)).harts = s.harts.modify h {} fun x => { x with guestIrq := true } := rfl
@[simp] theorem send_msix0_harts (s : State) : (s.send .msix0).harts = s.harts := rfl
@[simp] theorem send_pcieWrite_harts (s : State) (a : Nat) (b : Byte) : (s.send (.pcieWrite a b)).harts = s.harts := rfl
@[simp] theorem send_parts (s : State) (m : Msg) : (s.send m).parts = s.parts := rfl
@[simp] theorem send_queues (s : State) (m : Msg) : (s.send m).queues = s.queues := rfl
@[simp] theorem send_ports (s : State) (m : Msg) : (s.send m).ports = s.ports := rfl
@[simp] theorem send_opcls (s : State) (m : Msg) : (s.send m).opcls = s.opcls := rfl
@[simp] theorem send_boostRate (s : State) (m : Msg) : (s.send m).boostRate = s.boostRate := rfl
@[simp] theorem send_draftThresh (s : State) (m : Msg) : (s.send m).draftThresh = s.draftThresh := rfl
@[simp] theorem send_draftInterval (s : State) (m : Msg) : (s.send m).draftInterval = s.draftInterval := rfl
@[simp] theorem send_draftEn (s : State) (m : Msg) : (s.send m).draftEn = s.draftEn := rfl
@[simp] theorem send_boostAt (s : State) (m : Msg) : (s.send m).boostAt = s.boostAt := rfl
@[simp] theorem send_devCounters (s : State) (m : Msg) : (s.send m).devCounters = s.devCounters := rfl
@[simp] theorem send_gridNext (s : State) (m : Msg) : (s.send m).gridNext = s.gridNext := rfl
@[simp] theorem send_accepted (s : State) (m : Msg) : (s.send m).accepted = s.accepted := rfl
@[simp] theorem send_grids (s : State) (m : Msg) : (s.send m).grids = s.grids := rfl
@[simp] theorem send_teams (s : State) (m : Msg) : (s.send m).teams = s.teams := rfl
@[simp] theorem send_groups (s : State) (m : Msg) : (s.send m).groups = s.groups := rfl
@[simp] theorem send_clusters (s : State) (m : Msg) : (s.send m).clusters = s.clusters := rfl
@[simp] theorem send_cores (s : State) (m : Msg) : (s.send m).cores = s.cores := rfl
@[simp] theorem send_quads (s : State) (m : Msg) : (s.send m).quads = s.quads := rfl
@[simp] theorem send_mem (s : State) (m : Msg) : (s.send m).mem = s.mem := rfl
@[simp] theorem send_memPois (s : State) (m : Msg) : (s.send m).memPois = s.memPois := rfl
@[simp] theorem send_hostMem (s : State) (m : Msg) : (s.send m).hostMem = s.hostMem := rfl
@[simp] theorem send_plt (s : State) (m : Msg) : (s.send m).plt = s.plt := rfl
@[simp] theorem send_flights (s : State) (m : Msg) : (s.send m).flights = s.flights := rfl
@[simp] theorem send_colls (s : State) (m : Msg) : (s.send m).colls = s.colls := rfl
@[simp] theorem send_cleElapsed (s : State) (m : Msg) : (s.send m).cleElapsed = s.cleElapsed := rfl
@[simp] theorem send_reply (s : State) (m : Msg) : (s.send m).reply = s.reply := rfl
@[simp] theorem send_nextId (s : State) (m : Msg) : (s.send m).nextId = s.nextId := rfl
@[simp] theorem send_free (s : State) (m : Msg) : (s.send m).free = s.free := rfl
@[simp] theorem send_agenda (s : State) (m : Msg) : (s.send m).agenda = s.agenda := rfl
@[simp] theorem send_cur (s : State) (m : Msg) : (s.send m).cur = s.cur := rfl
@[simp] theorem send_ev (s : State) (m : Msg) : (s.send m).ev = s.ev := rfl
@[simp] theorem send_cluster_frame (s : State) (m : Msg) (j : Nat) : (s.send m).cluster j = s.cluster j := rfl
@[simp] theorem send_core_frame (s : State) (m : Msg) (j : Nat) : (s.send m).core j = s.core j := rfl
@[simp] theorem send_quad_frame (s : State) (m : Msg) (j : Nat) : (s.send m).quad j = s.quad j := rfl
@[simp] theorem send_team_frame (s : State) (m : Msg) (j : Nat) : (s.send m).team j = s.team j := rfl
@[simp] theorem send_group_frame (s : State) (m : Msg) (j : Nat) : (s.send m).group j = s.group j := rfl
@[simp] theorem send_grid_frame (s : State) (m : Msg) (j : Nat) : (s.send m).grid j = s.grid j := rfl
@[simp] theorem send_part_frame (s : State) (m : Msg) (j : Nat) : (s.send m).part j = s.part j := rfl
@[simp] theorem send_page_frame (s : State) (m : Msg) (j : Nat) : (s.send m).page j = s.page j := rfl
@[simp] theorem send_port_frame (s : State) (m : Msg) (j : Nat) : (s.send m).port j = s.port j := rfl
@[simp] theorem send_queue_frame (s : State) (m : Msg) (j : Nat) : (s.send m).queue j = s.queue j := rfl
@[simp] theorem send_opClass_frame (s : State) (m : Msg) (j : Nat) : (s.send m).opClass j = s.opClass j := rfl

@[simp] theorem answer_fuses (s : State) (r : Reply) : (s.answer r).fuses = s.fuses := rfl
@[simp] theorem answer_power (s : State) (r : Reply) : (s.answer r).power = s.power := rfl
@[simp] theorem answer_boot (s : State) (r : Reply) : (s.answer r).boot = s.boot := rfl
@[simp] theorem answer_mb (s : State) (r : Reply) : (s.answer r).mb = s.mb := rfl
@[simp] theorem answer_pfWbase (s : State) (r : Reply) : (s.answer r).pfWbase = s.pfWbase := rfl
@[simp] theorem answer_pfW4miss (s : State) (r : Reply) : (s.answer r).pfW4miss = s.pfW4miss := rfl
@[simp] theorem answer_harts (s : State) (r : Reply) : (s.answer r).harts = s.harts := rfl
@[simp] theorem answer_parts (s : State) (r : Reply) : (s.answer r).parts = s.parts := rfl
@[simp] theorem answer_queues (s : State) (r : Reply) : (s.answer r).queues = s.queues := rfl
@[simp] theorem answer_ports (s : State) (r : Reply) : (s.answer r).ports = s.ports := rfl
@[simp] theorem answer_opcls (s : State) (r : Reply) : (s.answer r).opcls = s.opcls := rfl
@[simp] theorem answer_boostRate (s : State) (r : Reply) : (s.answer r).boostRate = s.boostRate := rfl
@[simp] theorem answer_draftThresh (s : State) (r : Reply) : (s.answer r).draftThresh = s.draftThresh := rfl
@[simp] theorem answer_draftInterval (s : State) (r : Reply) : (s.answer r).draftInterval = s.draftInterval := rfl
@[simp] theorem answer_draftEn (s : State) (r : Reply) : (s.answer r).draftEn = s.draftEn := rfl
@[simp] theorem answer_boostAt (s : State) (r : Reply) : (s.answer r).boostAt = s.boostAt := rfl
@[simp] theorem answer_devCounters (s : State) (r : Reply) : (s.answer r).devCounters = s.devCounters := rfl
@[simp] theorem answer_gridNext (s : State) (r : Reply) : (s.answer r).gridNext = s.gridNext := rfl
@[simp] theorem answer_accepted (s : State) (r : Reply) : (s.answer r).accepted = s.accepted := rfl
@[simp] theorem answer_grids (s : State) (r : Reply) : (s.answer r).grids = s.grids := rfl
@[simp] theorem answer_teams (s : State) (r : Reply) : (s.answer r).teams = s.teams := rfl
@[simp] theorem answer_groups (s : State) (r : Reply) : (s.answer r).groups = s.groups := rfl
@[simp] theorem answer_clusters (s : State) (r : Reply) : (s.answer r).clusters = s.clusters := rfl
@[simp] theorem answer_cores (s : State) (r : Reply) : (s.answer r).cores = s.cores := rfl
@[simp] theorem answer_quads (s : State) (r : Reply) : (s.answer r).quads = s.quads := rfl
@[simp] theorem answer_mem (s : State) (r : Reply) : (s.answer r).mem = s.mem := rfl
@[simp] theorem answer_memPois (s : State) (r : Reply) : (s.answer r).memPois = s.memPois := rfl
@[simp] theorem answer_hostMem (s : State) (r : Reply) : (s.answer r).hostMem = s.hostMem := rfl
@[simp] theorem answer_plt (s : State) (r : Reply) : (s.answer r).plt = s.plt := rfl
@[simp] theorem answer_flights (s : State) (r : Reply) : (s.answer r).flights = s.flights := rfl
@[simp] theorem answer_colls (s : State) (r : Reply) : (s.answer r).colls = s.colls := rfl
@[simp] theorem answer_cleElapsed (s : State) (r : Reply) : (s.answer r).cleElapsed = s.cleElapsed := rfl
@[simp] theorem answer_msgs (s : State) (r : Reply) : (s.answer r).msgs = s.msgs := rfl
@[simp] theorem answer_nextId (s : State) (r : Reply) : (s.answer r).nextId = s.nextId := rfl
@[simp] theorem answer_free (s : State) (r : Reply) : (s.answer r).free = s.free := rfl
@[simp] theorem answer_agenda (s : State) (r : Reply) : (s.answer r).agenda = s.agenda := rfl
@[simp] theorem answer_cur (s : State) (r : Reply) : (s.answer r).cur = s.cur := rfl
@[simp] theorem answer_ev (s : State) (r : Reply) : (s.answer r).ev = s.ev := rfl
@[simp] theorem answer_cluster_frame (s : State) (r : Reply) (j : Nat) : (s.answer r).cluster j = s.cluster j := rfl
@[simp] theorem answer_core_frame (s : State) (r : Reply) (j : Nat) : (s.answer r).core j = s.core j := rfl
@[simp] theorem answer_quad_frame (s : State) (r : Reply) (j : Nat) : (s.answer r).quad j = s.quad j := rfl
@[simp] theorem answer_team_frame (s : State) (r : Reply) (j : Nat) : (s.answer r).team j = s.team j := rfl
@[simp] theorem answer_group_frame (s : State) (r : Reply) (j : Nat) : (s.answer r).group j = s.group j := rfl
@[simp] theorem answer_grid_frame (s : State) (r : Reply) (j : Nat) : (s.answer r).grid j = s.grid j := rfl
@[simp] theorem answer_part_frame (s : State) (r : Reply) (j : Nat) : (s.answer r).part j = s.part j := rfl
@[simp] theorem answer_page_frame (s : State) (r : Reply) (j : Nat) : (s.answer r).page j = s.page j := rfl
@[simp] theorem answer_hart_frame (s : State) (r : Reply) (j : Nat) : (s.answer r).hart j = s.hart j := rfl
@[simp] theorem answer_port_frame (s : State) (r : Reply) (j : Nat) : (s.answer r).port j = s.port j := rfl
@[simp] theorem answer_queue_frame (s : State) (r : Reply) (j : Nat) : (s.answer r).queue j = s.queue j := rfl
@[simp] theorem answer_opClass_frame (s : State) (r : Reply) (j : Nat) : (s.answer r).opClass j = s.opClass j := rfl

@[simp] theorem modCluster_cluster (s : State) (k : Nat) (f : Cluster → Cluster) (j : Nat) :
    (s.modCluster k f).cluster j = if j = k then f (s.cluster k) else s.cluster j := SMap.get_modify _ _ _ _ _
@[simp] theorem modCore_core (s : State) (k : Nat) (f : Core → Core) (j : Nat) :
    (s.modCore k f).core j = if j = k then f (s.core k) else s.core j := SMap.get_modify _ _ _ _ _
@[simp] theorem modQuad_quad (s : State) (k : Nat) (f : Quad → Quad) (j : Nat) :
    (s.modQuad k f).quad j = if j = k then f (s.quad k) else s.quad j := SMap.get_modify _ _ _ _ _
@[simp] theorem modTeam_team (s : State) (k : Nat) (f : Team → Team) (j : Nat) :
    (s.modTeam k f).team j = if j = k then f (s.team k) else s.team j := SMap.get_modify _ _ _ _ _
@[simp] theorem modGroup_group (s : State) (k : Nat) (f : Group → Group) (j : Nat) :
    (s.modGroup k f).group j = if j = k then f (s.group k) else s.group j := SMap.get_modify _ _ _ _ _
@[simp] theorem modGrid_grid (s : State) (k : Nat) (f : Grid → Grid) (j : Nat) :
    (s.modGrid k f).grid j = if j = k then f (s.grid k) else s.grid j := SMap.get_modify _ _ _ _ _
@[simp] theorem modPart_part (s : State) (k : Nat) (f : Part → Part) (j : Nat) :
    (s.modPart k f).part j = if j = k then f (s.part k) else s.part j := SMap.get_modify _ _ _ _ _
@[simp] theorem modHart_hart (s : State) (k : Nat) (f : Hart → Hart) (j : Nat) :
    (s.modHart k f).hart j = if j = k then f (s.hart k) else s.hart j := SMap.get_modify _ _ _ _ _
@[simp] theorem modPort_port (s : State) (k : Nat) (f : Port → Port) (j : Nat) :
    (s.modPort k f).port j = if j = k then f (s.port k) else s.port j := SMap.get_modify _ _ _ _ _
@[simp] theorem modQueue_queue (s : State) (k : Nat) (f : Queue → Queue) (j : Nat) :
    (s.modQueue k f).queue j = if j = k then f (s.queue k) else s.queue j := SMap.get_modify _ _ _ _ _
@[simp] theorem modPart_page (s : State) (k : Nat) (f : Part → Part) (j : Nat) :
    (s.modPart k f).page j = if j = k then (f (s.part k)).page else s.page j := by
  unfold page; rw [modPart_part]; split <;> rfl
@[simp] theorem modPage_page (s : State) (k : Nat) (f : Page → Page) (j : Nat) :
    (s.modPage k f).page j = if j = k then f (s.page k) else s.page j := by
  unfold modPage; rw [modPart_page]; rfl

/-! ### The issuing word's group -/

@[simp] theorem modGrp_grp (s : State) (f : Group → Group) : (s.modGrp f).grp = f s.grp := by
  unfold modGrp grp curGrp; simp
@[simp] theorem modRegs_grp (s : State) (f : Regs → Regs) : (s.modRegs f).grp = { s.grp with regs := f s.grp.regs } := by
  unfold modRegs; simp
theorem grp_congr (s t : State) (hg : t.groups = s.groups) (hc : t.cur = s.cur) : t.grp = s.grp := by
  unfold grp curGrp group; rw [hg, hc]
@[simp] theorem count_grp (s : State) (cl off n : Nat) : (s.count cl off n).grp = s.grp := rfl
@[simp] theorem modQuad_grp (s : State) (k : Nat) (f : Quad → Quad) : (s.modQuad k f).grp = s.grp := rfl
@[simp] theorem modGrid_grp (s : State) (k : Nat) (f : Grid → Grid) : (s.modGrid k f).grp = s.grp := rfl
@[simp] theorem modTeam_grp (s : State) (k : Nat) (f : Team → Team) : (s.modTeam k f).grp = s.grp := rfl
@[simp] theorem modPage_grp (s : State) (k : Nat) (f : Page → Page) : (s.modPage k f).grp = s.grp := rfl
@[simp] theorem modCore_grp (s : State) (k : Nat) (f : Core → Core) : (s.modCore k f).grp = s.grp := rfl
@[simp] theorem modCluster_grp (s : State) (k : Nat) (f : Cluster → Cluster) : (s.modCluster k f).grp = s.grp := rfl

@[simp] theorem modGrp_fuses (s : State) (f : Group → Group) : (s.modGrp f).fuses = s.fuses := rfl
@[simp] theorem modRegs_fuses (s : State) (f : Regs → Regs) : (s.modRegs f).fuses = s.fuses := rfl
@[simp] theorem modGrp_power (s : State) (f : Group → Group) : (s.modGrp f).power = s.power := rfl
@[simp] theorem modRegs_power (s : State) (f : Regs → Regs) : (s.modRegs f).power = s.power := rfl
@[simp] theorem modGrp_boot (s : State) (f : Group → Group) : (s.modGrp f).boot = s.boot := rfl
@[simp] theorem modRegs_boot (s : State) (f : Regs → Regs) : (s.modRegs f).boot = s.boot := rfl
@[simp] theorem modGrp_mb (s : State) (f : Group → Group) : (s.modGrp f).mb = s.mb := rfl
@[simp] theorem modRegs_mb (s : State) (f : Regs → Regs) : (s.modRegs f).mb = s.mb := rfl
@[simp] theorem modGrp_pfWbase (s : State) (f : Group → Group) : (s.modGrp f).pfWbase = s.pfWbase := rfl
@[simp] theorem modRegs_pfWbase (s : State) (f : Regs → Regs) : (s.modRegs f).pfWbase = s.pfWbase := rfl
@[simp] theorem modGrp_pfW4miss (s : State) (f : Group → Group) : (s.modGrp f).pfW4miss = s.pfW4miss := rfl
@[simp] theorem modRegs_pfW4miss (s : State) (f : Regs → Regs) : (s.modRegs f).pfW4miss = s.pfW4miss := rfl
@[simp] theorem modGrp_harts (s : State) (f : Group → Group) : (s.modGrp f).harts = s.harts := rfl
@[simp] theorem modRegs_harts (s : State) (f : Regs → Regs) : (s.modRegs f).harts = s.harts := rfl
@[simp] theorem modGrp_parts (s : State) (f : Group → Group) : (s.modGrp f).parts = s.parts := rfl
@[simp] theorem modRegs_parts (s : State) (f : Regs → Regs) : (s.modRegs f).parts = s.parts := rfl
@[simp] theorem modGrp_queues (s : State) (f : Group → Group) : (s.modGrp f).queues = s.queues := rfl
@[simp] theorem modRegs_queues (s : State) (f : Regs → Regs) : (s.modRegs f).queues = s.queues := rfl
@[simp] theorem modGrp_ports (s : State) (f : Group → Group) : (s.modGrp f).ports = s.ports := rfl
@[simp] theorem modRegs_ports (s : State) (f : Regs → Regs) : (s.modRegs f).ports = s.ports := rfl
@[simp] theorem modGrp_opcls (s : State) (f : Group → Group) : (s.modGrp f).opcls = s.opcls := rfl
@[simp] theorem modRegs_opcls (s : State) (f : Regs → Regs) : (s.modRegs f).opcls = s.opcls := rfl
@[simp] theorem modGrp_boostRate (s : State) (f : Group → Group) : (s.modGrp f).boostRate = s.boostRate := rfl
@[simp] theorem modRegs_boostRate (s : State) (f : Regs → Regs) : (s.modRegs f).boostRate = s.boostRate := rfl
@[simp] theorem modGrp_draftThresh (s : State) (f : Group → Group) : (s.modGrp f).draftThresh = s.draftThresh := rfl
@[simp] theorem modRegs_draftThresh (s : State) (f : Regs → Regs) : (s.modRegs f).draftThresh = s.draftThresh := rfl
@[simp] theorem modGrp_draftInterval (s : State) (f : Group → Group) : (s.modGrp f).draftInterval = s.draftInterval := rfl
@[simp] theorem modRegs_draftInterval (s : State) (f : Regs → Regs) : (s.modRegs f).draftInterval = s.draftInterval := rfl
@[simp] theorem modGrp_draftEn (s : State) (f : Group → Group) : (s.modGrp f).draftEn = s.draftEn := rfl
@[simp] theorem modRegs_draftEn (s : State) (f : Regs → Regs) : (s.modRegs f).draftEn = s.draftEn := rfl
@[simp] theorem modGrp_boostAt (s : State) (f : Group → Group) : (s.modGrp f).boostAt = s.boostAt := rfl
@[simp] theorem modRegs_boostAt (s : State) (f : Regs → Regs) : (s.modRegs f).boostAt = s.boostAt := rfl
@[simp] theorem modGrp_devCounters (s : State) (f : Group → Group) : (s.modGrp f).devCounters = s.devCounters := rfl
@[simp] theorem modRegs_devCounters (s : State) (f : Regs → Regs) : (s.modRegs f).devCounters = s.devCounters := rfl
@[simp] theorem modGrp_gridNext (s : State) (f : Group → Group) : (s.modGrp f).gridNext = s.gridNext := rfl
@[simp] theorem modRegs_gridNext (s : State) (f : Regs → Regs) : (s.modRegs f).gridNext = s.gridNext := rfl
@[simp] theorem modGrp_accepted (s : State) (f : Group → Group) : (s.modGrp f).accepted = s.accepted := rfl
@[simp] theorem modRegs_accepted (s : State) (f : Regs → Regs) : (s.modRegs f).accepted = s.accepted := rfl
@[simp] theorem modGrp_grids (s : State) (f : Group → Group) : (s.modGrp f).grids = s.grids := rfl
@[simp] theorem modRegs_grids (s : State) (f : Regs → Regs) : (s.modRegs f).grids = s.grids := rfl
@[simp] theorem modGrp_teams (s : State) (f : Group → Group) : (s.modGrp f).teams = s.teams := rfl
@[simp] theorem modRegs_teams (s : State) (f : Regs → Regs) : (s.modRegs f).teams = s.teams := rfl
@[simp] theorem modGrp_clusters (s : State) (f : Group → Group) : (s.modGrp f).clusters = s.clusters := rfl
@[simp] theorem modRegs_clusters (s : State) (f : Regs → Regs) : (s.modRegs f).clusters = s.clusters := rfl
@[simp] theorem modGrp_cores (s : State) (f : Group → Group) : (s.modGrp f).cores = s.cores := rfl
@[simp] theorem modRegs_cores (s : State) (f : Regs → Regs) : (s.modRegs f).cores = s.cores := rfl
@[simp] theorem modGrp_quads (s : State) (f : Group → Group) : (s.modGrp f).quads = s.quads := rfl
@[simp] theorem modRegs_quads (s : State) (f : Regs → Regs) : (s.modRegs f).quads = s.quads := rfl
@[simp] theorem modGrp_mem (s : State) (f : Group → Group) : (s.modGrp f).mem = s.mem := rfl
@[simp] theorem modRegs_mem (s : State) (f : Regs → Regs) : (s.modRegs f).mem = s.mem := rfl
@[simp] theorem modGrp_memPois (s : State) (f : Group → Group) : (s.modGrp f).memPois = s.memPois := rfl
@[simp] theorem modRegs_memPois (s : State) (f : Regs → Regs) : (s.modRegs f).memPois = s.memPois := rfl
@[simp] theorem modGrp_hostMem (s : State) (f : Group → Group) : (s.modGrp f).hostMem = s.hostMem := rfl
@[simp] theorem modRegs_hostMem (s : State) (f : Regs → Regs) : (s.modRegs f).hostMem = s.hostMem := rfl
@[simp] theorem modGrp_plt (s : State) (f : Group → Group) : (s.modGrp f).plt = s.plt := rfl
@[simp] theorem modRegs_plt (s : State) (f : Regs → Regs) : (s.modRegs f).plt = s.plt := rfl
@[simp] theorem modGrp_flights (s : State) (f : Group → Group) : (s.modGrp f).flights = s.flights := rfl
@[simp] theorem modRegs_flights (s : State) (f : Regs → Regs) : (s.modRegs f).flights = s.flights := rfl
@[simp] theorem modGrp_colls (s : State) (f : Group → Group) : (s.modGrp f).colls = s.colls := rfl
@[simp] theorem modRegs_colls (s : State) (f : Regs → Regs) : (s.modRegs f).colls = s.colls := rfl
@[simp] theorem modGrp_cleElapsed (s : State) (f : Group → Group) : (s.modGrp f).cleElapsed = s.cleElapsed := rfl
@[simp] theorem modRegs_cleElapsed (s : State) (f : Regs → Regs) : (s.modRegs f).cleElapsed = s.cleElapsed := rfl
@[simp] theorem modGrp_reply (s : State) (f : Group → Group) : (s.modGrp f).reply = s.reply := rfl
@[simp] theorem modRegs_reply (s : State) (f : Regs → Regs) : (s.modRegs f).reply = s.reply := rfl
@[simp] theorem modGrp_msgs (s : State) (f : Group → Group) : (s.modGrp f).msgs = s.msgs := rfl
@[simp] theorem modRegs_msgs (s : State) (f : Regs → Regs) : (s.modRegs f).msgs = s.msgs := rfl
@[simp] theorem modGrp_nextId (s : State) (f : Group → Group) : (s.modGrp f).nextId = s.nextId := rfl
@[simp] theorem modRegs_nextId (s : State) (f : Regs → Regs) : (s.modRegs f).nextId = s.nextId := rfl
@[simp] theorem modGrp_free (s : State) (f : Group → Group) : (s.modGrp f).free = s.free := rfl
@[simp] theorem modRegs_free (s : State) (f : Regs → Regs) : (s.modRegs f).free = s.free := rfl
@[simp] theorem modGrp_agenda (s : State) (f : Group → Group) : (s.modGrp f).agenda = s.agenda := rfl
@[simp] theorem modRegs_agenda (s : State) (f : Regs → Regs) : (s.modRegs f).agenda = s.agenda := rfl
@[simp] theorem modGrp_cur (s : State) (f : Group → Group) : (s.modGrp f).cur = s.cur := rfl
@[simp] theorem modRegs_cur (s : State) (f : Regs → Regs) : (s.modRegs f).cur = s.cur := rfl
@[simp] theorem modGrp_ev (s : State) (f : Group → Group) : (s.modGrp f).ev = s.ev := rfl
@[simp] theorem modRegs_ev (s : State) (f : Regs → Regs) : (s.modRegs f).ev = s.ev := rfl

end Sys2Proof.Machine.State
end

