-- ==== Sys2Proof/Laws/Regs.lean ====
section
/-! SUPPORT. Laws of a group's registers: reading after writing, and a lane's PC after it is set. -/

namespace Sys2Proof.Machine
namespace Regs

theorem vset_vget_ne (r : Regs) (n : Nat) (m : Mask) (vals : List W32) (pois : Mask) (j : Nat) (h : j ≠ n) :
    (r.vset n m vals pois).vget j = r.vget j := by
  unfold vset vget; simp [SMap.get_set, h]

theorem vset_vgetPois_ne (r : Regs) (n : Nat) (m : Mask) (vals : List W32) (pois : Mask) (j : Nat) (h : j ≠ n) :
    (r.vset n m vals pois).vgetPois j = r.vgetPois j := by
  unfold vset vgetPois; simp [SMap.get_set, h]

/-- A lane of the register just written. -/
theorem vset_lane (r : Regs) (n : Nat) (m : Mask) (vals : List W32) (pois : Mask) (l : Nat) (h : l < 128) :
    (r.vset n m vals pois).lane n l = if m.getLsbD l then vals.getD l 0 else r.lane n l := by
  unfold lane
  have : (r.vset n m vals pois).vget n =
      (List.range 128).map fun l => if m.getLsbD l then vals.getD l 0 else (r.vget n).getD l 0 := by
    unfold vset vget; simp [SMap.get_set]
  rw [this, getD_range_map _ _ _ h]

/-- The mark of a lane of the register just written. -/
theorem vset_vgetPois (r : Regs) (n : Nat) (m : Mask) (vals : List W32) (pois : Mask) (l : Nat) :
    ((r.vset n m vals pois).vgetPois n).getLsbD l = if m.getLsbD l then pois.getLsbD l else (r.vgetPois n).getLsbD l := by
  have : (r.vset n m vals pois).vgetPois n = (r.vgetPois n &&& ~~~m) ||| (pois &&& m) := by
    unfold vset vgetPois; simp [SMap.get_set]
  rw [this]
  by_cases hl : l < 128
  · rw [BitVec.getLsbD_or, BitVec.getLsbD_and, BitVec.getLsbD_and, BitVec.getLsbD_not]
    cases hm : m.getLsbD l <;> simp [hl]
  · have h1 : ∀ x : Mask, x.getLsbD l = false := fun x => BitVec.getLsbD_of_ge x l (by omega)
    simp [h1]

theorem vset_rest (r : Regs) (n : Nat) (m : Mask) (vals : List W32) (pois : Mask) :
    r.vset n m vals pois = { r with v := (r.vset n m vals pois).v, vPois := (r.vset n m vals pois).vPois } := rfl

/-- An s register after a write (R338). -/
theorem sset_sget (r : Regs) (n j : Nat) (v : W64) (p : BitVec 2) :
    (r.sset n v p).sget j = if j = n then (if n = 0 then 0 else v) else r.sget j := by
  by_cases hn : n = 0
  · subst hn; simp only [sset, sget]; by_cases hj : j = 0 <;> simp [hj]
  · have : (n == 0) = false := by simpa using hn
    simp only [sset, this, sget]
    by_cases hj : j = n
    · subst hj; simp [hn, SMap.get_set]
    · simp [hj, SMap.get_set]

theorem sset_sgetPois (r : Regs) (n j : Nat) (v : W64) (p : BitVec 2) :
    (r.sset n v p).sgetPois j = if j = n then (if n = 0 then 0 else p) else r.sgetPois j := by
  by_cases hn : n = 0
  · subst hn; simp only [sset, sgetPois]; by_cases hj : j = 0 <;> simp [hj]
  · have : (n == 0) = false := by simpa using hn
    simp only [sset, this, sgetPois]
    by_cases hj : j = n
    · subst hj; simp [hn, SMap.get_set]
    · simp [hj, SMap.get_set]

theorem sset_rest (r : Regs) (n : Nat) (v : W64) (p : BitVec 2) :
    r.sset n v p = { r with s := (r.sset n v p).s, sPois := (r.sset n v p).sPois } := by
  unfold sset; split <;> rfl

/-- A predicate after a write (R100). -/
theorem pset_pget (r : Regs) (n : Nat) (m vals : Mask) (l : Nat) (h : l < 128) :
    ((r.pset n m vals).pget n).getLsbD l =
      if n = 0 then true else if m.getLsbD l then vals.getLsbD l else (r.pget n).getLsbD l := by
  by_cases hn : n = 0
  · subst hn; simp only [pset, pget]; exact getLsbD_full l h
  · have h0 : (n == 0) = false := by simpa using hn
    have : (r.pset n m vals).pget n = (r.pget n &&& ~~~m) ||| (vals &&& m) := by
      unfold pset; simp [h0, pget, SMap.get_set]
    rw [this, if_neg hn]
    rw [BitVec.getLsbD_or, BitVec.getLsbD_and, BitVec.getLsbD_and, BitVec.getLsbD_not]
    cases hm : m.getLsbD l <;> simp [h]

theorem pset_pget_ne (r : Regs) (n : Nat) (m vals : Mask) (j : Nat) (h : j ≠ n) :
    (r.pset n m vals).pget j = r.pget j := by
  by_cases hn : n = 0
  · subst hn; rfl
  · have h0 : (n == 0) = false := by simpa using hn
    unfold pset; simp [h0, pget, SMap.get_set, h]

theorem pset_rest (r : Regs) (n : Nat) (m vals : Mask) : r.pset n m vals = { r with p := (r.pset n m vals).p } := by
  unfold pset; split <;> rfl

/-- A q flag after a write (R100). -/
theorem qset_qget (r : Regs) (n : Nat) (b : Bool) (h : n < 8) : (r.qset n b).qget n = (n == 7 || b) := by
  unfold qset qget
  have : n = 0 ∨ n = 1 ∨ n = 2 ∨ n = 3 ∨ n = 4 ∨ n = 5 ∨ n = 6 ∨ n = 7 := by omega
  rcases this with rfl | rfl | rfl | rfl | rfl | rfl | rfl | rfl <;> cases b <;> simp [pow2]

theorem qset_qget_ne (r : Regs) (n : Nat) (b : Bool) (j : Nat) (h : j ≠ n) (hn : n < 8) (hj : j < 8) :
    (r.qset n b).qget j = r.qget j := by
  unfold qset qget
  have h1 : n = 0 ∨ n = 1 ∨ n = 2 ∨ n = 3 ∨ n = 4 ∨ n = 5 ∨ n = 6 ∨ n = 7 := by omega
  have h2 : j = 0 ∨ j = 1 ∨ j = 2 ∨ j = 3 ∨ j = 4 ∨ j = 5 ∨ j = 6 ∨ j = 7 := by omega
  rcases h1 with rfl | rfl | rfl | rfl | rfl | rfl | rfl | rfl <;>
    rcases h2 with rfl | rfl | rfl | rfl | rfl | rfl | rfl | rfl <;>
    first
      | exact absurd rfl h
      | (cases b <;> simp [pow2])

theorem qset_rest (r : Regs) (n : Nat) (b : Bool) : r.qset n b = { r with q := (r.qset n b).q } := by
  unfold qset; split <;> rfl

end Regs

/-! ### Lanes -/

namespace Group

theorem find_put_bit (m : SMap Mask) (t l : Nat) (v : Mask) (hm : ∀ e ∈ m, e.2.getLsbD l = false)
    (hv : v.getLsbD l = true) : (SMap.put m t v).find? (fun e => e.2.getLsbD l) = some (t, v) := by
  have he : ∀ e ∈ SMap.erase m t, e.2.getLsbD l = false := by
    intro e h
    refine hm e ?_
    clear hm
    induction m with
    | nil => simp [SMap.erase] at h
    | cons a m ih =>
      obtain ⟨i, w⟩ := a
      by_cases hi : i = t
      · simp only [SMap.erase, hi, if_true] at h; exact List.mem_cons_of_mem _ (ih h)
      · simp only [SMap.erase, hi, if_false, List.mem_cons] at h
        rcases h with h | h
        · exact h ▸ List.mem_cons_self
        · exact List.mem_cons_of_mem _ (ih h)
  unfold SMap.put
  generalize SMap.erase m t = k at he
  induction k with
  | nil => simp [SMap.ins, hv]
  | cons a k ih =>
    obtain ⟨i, w⟩ := a
    have hw : w.getLsbD l = false := he (i, w) List.mem_cons_self
    by_cases hi : t < i
    · rw [SMap.ins, if_pos hi]; exact List.find?_cons_of_pos hv
    · simp only [SMap.ins, hi, if_false]
      rw [List.find?_cons_of_neg (by simp [hw])]
      exact ih fun e h => he e (List.mem_cons_of_mem _ h)

/-- A lane that was moved stands at its target. -/
theorem pcOf_setPc (x : Group) (m : Mask) (t l : Nat) (hl : l < 128) (hm : m.getLsbD l = true) :
    (x.setPc m t).pcOf l = t := by
  have h0 : (m == 0) = false := by
    rw [beq_eq_false_iff_ne]; intro h; rw [h] at hm; simp at hm
  unfold pcOf setPc
  simp only [h0, Bool.false_eq_true, if_false]
  rw [find_put_bit _ t l _ _ _]
  · rfl
  · intro e he
    simp only [List.mem_filter, List.mem_map] at he
    obtain ⟨⟨a, -, rfl⟩, -⟩ := he
    have : l < 128 := hl
    simp [hm]
  · simp [hm]

@[simp] theorem setPc_regs (x : Group) (m : Mask) (t : Nat) : (x.setPc m t).regs = x.regs := by
  unfold setPc; dsimp only; split <;> rfl
theorem setPc_rest (x : Group) (m : Mask) (t : Nat) : x.setPc m t = { x with pcs := (x.setPc m t).pcs } := by
  unfold setPc; dsimp only; split <;> rfl

end Group
end Sys2Proof.Machine
end

