-- ==== Sys2Proof/Laws/Issue.lean ====
section
/-! SUPPORT. How a word issues, said once: the cases of `issueWord`, and what `finish` leaves after an effect that took place. -/

namespace Sys2Proof.Machine
namespace State

/-! ### Which case of `issueWord` -/

/-- A word whose conditions hold takes its effect for its active lanes. -/
theorem issueWord_go (s : State) (h : Hdr) (u : Uses) (eff : Mask → State → Eff) (hi : s.Issues h u.tw)
    (hu : s.issueCheck h u (s.activeLanes h) = none) :
    s.issueWord h u eff = s.finish h (eff (s.activeLanes h) s) := by
  unfold issueWord
  have hw : s.mustWait u = false := by unfold mustWait; simp [hi.noWait, hi.tokens]
  simp [hi.noWait, hi.guard, hw, hu]

/-- The conditions of R271 hold of a word whose registers lie below the budget. -/
theorem issueCheck_none (s : State) (h : Hdr) (u : Uses) (m : Mask) (hl : s.grp.sla = false) (hd : u.dyn = none)
    (hb : u.unbound = none) (hv : ∀ n ∈ u.vw ++ u.vr, n < s.grp.budget) (ht : ∀ n ∈ u.tiles, n < s.curGrid.acct)
    (hx : u.beyond = [] := by rfl) :
    s.issueCheck h u m = none := by
  have ho : s.overBudget u = [] := by
    unfold overBudget
    dsimp only
    rw [List.filter_eq_nil_iff.2 (by intro n hn; simpa using hv n hn),
      List.filter_eq_nil_iff.2 (by intro n hn; simpa using ht n hn), hx]
    rfl
  unfold issueCheck
  rw [hd]; dsimp only
  rw [hb]; dsimp only
  rw [ho]; dsimp only
  unfold strictHit
  simp [hl]

/-! ### Frames -/

theorem OnlyGroup.refl (s : State) : s.OnlyGroup s :=
  ⟨fun _ _ => rfl, fun _ => rfl, fun _ => rfl, fun _ => rfl, fun _ _ => rfl, rfl⟩

theorem OnlyGroup.cur {s t : State} (h : s.OnlyGroup t) : t.cur = s.cur := (congrArg State.cur h.device).trans rfl
theorem OnlyGroup.nextId {s t : State} (h : s.OnlyGroup t) : t.nextId = s.nextId := (congrArg State.nextId h.device).trans rfl
theorem OnlyGroup.mem {s t : State} (h : s.OnlyGroup t) : t.mem = s.mem := (congrArg State.mem h.device).trans rfl

theorem OnlyGroup.trans {s t u : State} (h : s.OnlyGroup t) (k : t.OnlyGroup u) : s.OnlyGroup u := by
  have hc : t.cur = s.cur := h.cur
  have hg : t.curGrp = s.curGrp := by unfold curGrp; rw [hc]
  have hq : t.curQuad = s.curQuad := by unfold curQuad; rw [hc]
  refine ⟨fun g hne => ?_, fun g => (k.teams g).trans (h.teams g), fun g => (k.grids g).trans (h.grids g),
    fun g => (k.clusters g).trans (h.clusters g), fun q hne => ?_, ?_⟩
  · exact (k.others g (by rw [hg]; exact hne)).trans (h.others g hne)
  · exact (k.quads q (by rw [hq]; exact hne)).trans (h.quads q hne)
  · let put := fun x : State =>
      { x with groups := u.groups, teams := u.teams, grids := u.grids, clusters := u.clusters, quads := u.quads }
    have e : put t = put s := congrArg put (a₂ := { s with groups := t.groups, teams := t.teams, grids := t.grids, clusters := t.clusters, quads := t.quads }) h.device
    exact k.device.trans e

theorem onlyGroup_modGrp (s : State) (f : Group → Group) : s.OnlyGroup (s.modGrp f) :=
  ⟨fun gk h => by unfold modGrp; simp [h], fun _ => rfl, fun _ => rfl, fun _ => rfl, fun _ _ => rfl, rfl⟩

theorem onlyGroup_modRegs (s : State) (f : Regs → Regs) : s.OnlyGroup (s.modRegs f) := onlyGroup_modGrp s _

theorem onlyGroup_modQuad (s : State) (f : Quad → Quad) : s.OnlyGroup (s.modQuad s.curQuad f) :=
  ⟨fun _ _ => rfl, fun _ => rfl, fun _ => rfl, fun _ => rfl, fun q h => by simp [h], rfl⟩

theorem onlyGroup_count (s : State) (cl off n : Nat) : s.OnlyGroup (s.count cl off n) := by
  refine ⟨fun _ _ => rfl, fun _ => rfl, fun _ => rfl, fun c => ?_, fun _ _ => rfl, rfl⟩
  unfold count
  rw [modCluster_cluster]
  by_cases h : c = cl
  · subst h; simp
  · simp [h]

theorem onlyGroup_markIssued (s : State) : s.OnlyGroup s.markIssued := by
  unfold markIssued
  have h1 : s.OnlyGroup (s.modGrid s.cur.g fun r => { r with issued := true }) := by
    refine ⟨fun _ _ => rfl, fun _ => rfl, fun g => ?_, fun _ => rfl, fun _ _ => rfl, rfl⟩
    rw [modGrid_grid]
    by_cases h : g = s.cur.g
    · subst h; simp
    · simp [h]
  dsimp only
  split
  · refine h1.trans ⟨fun _ _ => rfl, fun k => ?_, fun _ => rfl, fun _ => rfl, fun _ _ => rfl, rfl⟩
    rw [modTeam_team]
    split
    · rename_i h; rw [h]
    · rfl
  · exact h1

theorem onlyGroup_overPrimary (s : State) (rs : List Nat) : s.OnlyGroup (s.overPrimary rs) := by
  unfold overPrimary; split
  · exact onlyGroup_modQuad s _
  · exact OnlyGroup.refl s
@[simp] theorem overPrimary_grp (s : State) (rs : List Nat) : (s.overPrimary rs).grp = s.grp := by
  unfold overPrimary; split <;> rfl
@[simp] theorem overPrimary_cur (s : State) (rs : List Nat) : (s.overPrimary rs).cur = s.cur := by
  unfold overPrimary; split <;> rfl

@[simp] theorem markIssued_grp (s : State) : s.markIssued.grp = s.grp := by
  unfold markIssued; dsimp only; split <;> rfl
@[simp] theorem markIssued_cur (s : State) : s.markIssued.cur = s.cur := by
  unfold markIssued; dsimp only; split <;> rfl

theorem onlyGroup_countPois (s : State) (m : Mask) : s.OnlyGroup (s.countPois m) := by
  unfold countPois; split
  · exact OnlyGroup.refl s
  · exact onlyGroup_count s _ _ _
@[simp] theorem countPois_grp (s : State) (m : Mask) : (s.countPois m).grp = s.grp := by
  unfold countPois; split <;> rfl

/-! ### The end of a word -/

/-- What `finish` leaves of an effect that took place and goes on: the group as the effect left it with its lanes at the next
word and its due results counted, and the run moved on. -/
theorem finish_done (s : State) (h : Hdr) (e : Eff) (hf : e.fate = .done)
    (hp : s.grp.park = none) (h1 : e.s.grp.step = false) (h2 : e.s.grp.srun = false) :
    ∃ r : Quad → Quad, s.finish h e =
      (e.s.markIssued.modGrp fun x => countLa (x.setPc (s.cur.lanes &&& ~~~e.moved &&& ~~~x.exited)
        ((s.cur.pc + s.cur.len) % pow2 64)) s.nextId s.cur.lanes).modQuad s.curQuad r := by
  unfold finish
  simp only [hf, hp, Option.isSome_none, Bool.and_false, Bool.false_and]
  have ha : ∀ x : Group, ∀ m t, (x.setPc m t).srun = x.srun := fun x m t => by rw [Group.setPc_rest]
  have hb : ∀ x : Group, ∀ m t, (x.setPc m t).step = x.step := fun x m t => by rw [Group.setPc_rest]
  have hl : ∀ x : Group, ∀ n m, (countLa x n m).srun = x.srun := fun _ _ _ => rfl
  have hl' : ∀ x : Group, ∀ n m, (countLa x n m).step = x.step := fun _ _ _ => rfl
  simp only [modGrp_grp, markIssued_grp, ha, hb, hl, hl', h1, h2, Bool.false_and]
  exact ⟨_, rfl⟩

/-- The group's part of an effect that took place. -/
theorem finish_done_grp (s : State) (h : Hdr) (e : Eff) (hf : e.fate = .done)
    (hp : s.grp.park = none) (h1 : e.s.grp.step = false) (h2 : e.s.grp.srun = false) :
    (s.finish h e).grp = countLa (e.s.grp.setPc (s.cur.lanes &&& ~~~e.moved &&& ~~~e.s.grp.exited)
      ((s.cur.pc + s.cur.len) % pow2 64)) s.nextId s.cur.lanes := by
  obtain ⟨r, hr⟩ := finish_done s h e hf hp h1 h2
  rw [hr]; simp

/-- Outside the group, `finish` leaves what the effect left. -/
theorem finish_done_frame (s : State) (h : Hdr) (e : Eff) (hf : e.fate = .done) (hc : e.s.cur = s.cur)
    (hp : s.grp.park = none) (h1 : e.s.grp.step = false) (h2 : e.s.grp.srun = false) :
    e.s.OnlyGroup (s.finish h e) := by
  obtain ⟨r, hr⟩ := finish_done s h e hf hp h1 h2
  rw [hr]
  have hq : s.curQuad = (e.s.markIssued.modGrp fun x => countLa (x.setPc (s.cur.lanes &&& ~~~e.moved &&& ~~~x.exited)
        ((s.cur.pc + s.cur.len) % pow2 64)) s.nextId s.cur.lanes).curQuad := by
    unfold curQuad; simp [hc]
  rw [hq]
  exact ((onlyGroup_markIssued e.s).trans (onlyGroup_modGrp _ _)).trans (onlyGroup_modQuad _ _)

@[simp] theorem countLa_regs (x : Group) (n : Nat) (m : Mask) : (countLa x n m).regs = x.regs := rfl
@[simp] theorem countLa_pcOf (x : Group) (n : Nat) (m : Mask) (l : Nat) : (countLa x n m).pcOf l = x.pcOf l := rfl

/-- A word whose effect writes registers only and goes on yields those registers. -/
theorem yields_of_finish {s : State} {h : Hdr} {tw : BitVec 8} {i : Instr} {e : State} {R : Regs → Prop}
    (hi : s.Issues h tw) (hx : exec i s = .next (s.finish h { s := e })) (hfr : s.OnlyGroup e)
    (hg : e.grp = { s.grp with regs := e.grp.regs }) (hR : R e.grp.regs) : s.Yields i R := by
  have hs : e.grp.step = false := by rw [hg]; exact hi.noStep
  have hr : e.grp.srun = false := by rw [hg]; exact hi.noStrictRun
  have hgrp := finish_done_grp s h { s := e } rfl hi.awake hs hr
  have hfrm := finish_done_frame s h { s := e } rfl hfr.cur hi.awake hs hr
  refine ⟨_, hx, ?_, hfr.trans hfrm, ?_, ?_⟩
  · intro l hl hlan hex
    rw [hgrp, countLa_pcOf, Group.pcOf_setPc _ _ _ _ hl]
    have he : e.grp.exited = s.grp.exited := by rw [hg]
    rw [he]
    simp only [BitVec.getLsbD_and, BitVec.getLsbD_not, hlan, hex, hl]; simp
  · rw [hgrp, countLa_regs, Group.setPc_regs]; exact hR
  · rw [hgrp, Group.setPc_rest]
    unfold countLa
    rw [hg]

end State
end Sys2Proof.Machine
end

