-- ==== Sys2Proof/Laws/Memory.lean ====
section
/-! SUPPORT. Every operation that writes device or host memory keeps the canonical form, and the reset memory has it. -/

namespace Sys2Proof

/-- Keys strictly rising, as a relation on all pairs. -/
theorem SMap.sorted_iff {α : Type} (m : SMap α) : m.sorted = true ↔ m.Pairwise fun a b => a.1 < b.1 := by
  induction m with
  | nil => simp [SMap.sorted]
  | cons a l ih =>
    cases l with
    | nil => simp [SMap.sorted]
    | cons b l =>
      rw [SMap.sorted, Bool.and_eq_true, decide_eq_true_eq, ih, List.pairwise_cons (a := a)]
      constructor
      · rintro ⟨h, k⟩
        refine ⟨fun c hc => ?_, k⟩
        rcases List.mem_cons.1 hc with rfl | hc
        · exact h
        · exact Nat.lt_trans h ((List.pairwise_cons.1 k).1 c hc)
      · rintro ⟨h, k⟩
        exact ⟨h b (by simp), k⟩

namespace Machine

theorem Memory.wf_iff (m : Memory) :
    Memory.wf m = true ↔ (m.Pairwise fun a b => a.1 < b.1) ∧ ∀ e ∈ m, e.2 ≠ Memory.fresh := by
  unfold Memory.wf SMap.wf
  rw [Bool.and_eq_true, SMap.sorted_iff, List.all_eq_true]
  simp

/-- A memory with a range replaced is in canonical form. -/
theorem State.wf_pasteMap (m x : Memory) (lo n : Nat) (h : Memory.wf m = true) :
    Memory.wf (State.pasteMap m lo n x) = true := by
  rw [Memory.wf_iff] at h ⊢
  obtain ⟨hs, hd⟩ := h
  have hmid : ∀ e ∈ (List.range n).filterMap fun i =>
      if Memory.byte x i = Memory.fresh then none else some (lo + i, Memory.byte x i),
      lo ≤ e.1 ∧ e.1 < lo + n ∧ e.2 ≠ Memory.fresh := by
    intro e he
    obtain ⟨i, hi, hi'⟩ := List.mem_filterMap.1 he
    split at hi'
    · cases hi'
    · rename_i hne
      cases hi'
      have := List.mem_range.1 hi
      exact ⟨by simp, by simp; omega, hne⟩
  unfold State.pasteMap
  constructor
  · rw [List.pairwise_append, List.pairwise_append]
    refine ⟨⟨hs.filter _, ?_, ?_⟩, hs.filter _, ?_⟩
    · rw [List.pairwise_filterMap]
      refine List.Pairwise.imp ?_ List.pairwise_lt_range
      intro a b hab e he f hf
      split at he <;> split at hf <;> first | (cases he; done) | (cases hf; done) | skip
      cases he; cases hf; simp; omega
    · intro a ha b hb
      have h1 := List.mem_filter.1 ha
      have h2 := (hmid b hb).1
      simp at h1; omega
    · intro a ha b hb
      have h2 := (List.mem_filter.1 hb).2
      simp at h2
      rcases List.mem_append.1 ha with ha | ha
      · have h1 := (List.mem_filter.1 ha).2; simp at h1; omega
      · have h1 := (hmid a ha).2.1; omega
  · intro e he
    rcases List.mem_append.1 he with he | he
    · rcases List.mem_append.1 he with he | he
      · exact hd e (List.mem_filter.1 he).1
      · exact (hmid e he).2.2
    · exact hd e (List.mem_filter.1 he).1

namespace State

theorem memWf_devWrite (s : State) (pa : Nat) (bs : List Byte) (p : Bool) (h : s.MemWf) : (s.devWrite pa bs p).MemWf :=
  ⟨Memory.wf_setBytes _ _ _ h.1, h.2⟩

theorem memWf_hostWrite (s : State) (pa : Nat) (bs : List Byte) (h : s.MemWf) : (s.hostWrite pa bs).MemWf :=
  ⟨h.1, Memory.wf_setBytes _ _ _ h.2⟩

theorem memWf_wbSector (s : State) (k sec : Nat) (h : s.MemWf) : (s.wbSector k sec).MemWf := by
  unfold wbSector
  split
  · exact h
  · dsimp only
    split
    · exact h
    · exact ⟨Memory.wf_setBytes _ _ _ h.1, h.2⟩

theorem memWf_setAD (s : State) (p va : Nat) (w : Bool) (h : s.MemWf) : (s.setAD p va w).MemWf := by
  unfold setAD
  split
  · exact h
  · exact ⟨Memory.wf_setByte _ _ _ h.1, h.2⟩

/-- A fold of operations that keep the form keeps it. -/
theorem memWf_foldl {α : Type} (f : State → α → State) (hf : ∀ s a, s.MemWf → (f s a).MemWf) (l : List α) (s : State)
    (h : s.MemWf) : (l.foldl f s).MemWf := by
  induction l generalizing s with
  | nil => exact h
  | cons a l ih => exact ih _ (hf _ _ h)

theorem memWf_vaTouch (s : State) (p va n : Nat) (w : Bool) (h : s.MemWf) : (s.vaTouch p va n w).MemWf := by
  unfold vaTouch
  refine memWf_foldl _ (fun s g h => ?_) _ _ h
  split
  · exact memWf_setAD s p _ w h
  · exact h

theorem memWf_vaWrite (s : State) (p va : Nat) (bs : List Byte) (h : s.MemWf) : (s.vaWrite p va bs).MemWf := by
  unfold vaWrite
  refine memWf_foldl _ (fun s c h => ?_) _ _ (memWf_vaTouch s p va _ true h)
  split
  · split
    · exact memWf_hostWrite s _ _ h
    · exact memWf_devWrite s _ _ _ h
  · exact h

theorem memWf_imgWriteP (s : State) (tk off : Nat) (bs : List PByte) (h : s.MemWf) : (s.imgWriteP tk off bs).MemWf := by
  unfold imgWriteP
  refine memWf_foldl _ (fun s c h => ?_) _ _ h
  split
  · exact memWf_devWrite s _ _ _ h
  · exact memWf_hostWrite s _ _ h
  · exact h

theorem memWf_putRange (s : State) (p : Pinned) (va n : Nat) (m : SMap Byte) (q : List Nat) (h : s.MemWf) :
    (s.putRange p va n m q).MemWf := by
  unfold putRange
  refine memWf_foldl _ (fun s i h => ?_) _ _ h
  dsimp only
  split
  · exact ⟨h.1, wf_pasteMap _ _ _ _ h.2⟩
  · exact ⟨wf_pasteMap _ _ _ _ h.1, h.2⟩
  · exact h

/-- The memories at reset list nothing. -/
theorem memWf_reset : State.reset.MemWf := ⟨rfl, rfl⟩

end State
end Machine
end Sys2Proof
end

