-- ==== Sys2Proof/Laws/Operands.lean ====
section
/-! SUPPORT. What the shared word shapes do, said once for each shape: vector, predicate, scalar and flag results. -/

namespace Sys2Proof.Machine
namespace State

/-! ### Register writes -/

theorem putV_grp (s : State) (vd : BitVec 8) (act : Mask) (x : VArg) :
    (s.putV vd act x).grp = { s.grp with regs := s.grp.regs.vset vd.toNat act x.vals x.pois } := by
  unfold putV setV; simp
theorem onlyGroup_putV (s : State) (vd : BitVec 8) (act : Mask) (x : VArg) : s.OnlyGroup (s.putV vd act x) :=
  (onlyGroup_modRegs s _).trans (onlyGroup_countPois _ _)

theorem putP_grp (s : State) (pd : BitVec 4) (act vals pois : Mask) :
    (s.putP pd act vals pois).grp = { s.grp with regs := s.grp.regs.pset pd.toNat act vals } := by
  unfold putP setP; simp
theorem onlyGroup_putP (s : State) (pd : BitVec 4) (act vals pois : Mask) : s.OnlyGroup (s.putP pd act vals pois) :=
  (onlyGroup_modRegs s _).trans (onlyGroup_countPois _ _)

theorem putS_grp (s : State) (sd : Nat) (v : W64) (p : Bool) :
    (s.putS sd v p).grp = { s.grp with regs := s.grp.regs.sset sd v (if p then 3 else 0) } := by
  unfold putS; dsimp only; split <;> simp
theorem onlyGroup_putS (s : State) (sd : Nat) (v : W64) (p : Bool) : s.OnlyGroup (s.putS sd v p) := by
  unfold putS; dsimp only; split
  · exact ((onlyGroup_overPrimary s _).trans (onlyGroup_modRegs _ _)).trans (onlyGroup_count _ _ _ _)
  · exact (onlyGroup_overPrimary s _).trans (onlyGroup_modRegs _ _)

/-! ### Register contents after a write -/

theorem vecIs_vset (s : State) (act : Mask) (n : Nat) (vals : List W32) (pm : Mask) (val : Nat → W32) (pois : Nat → Bool)
    (hv : ∀ l, l < 128 → vals.getD l 0 = val l) (hp : ∀ l, l < 128 → pm.getLsbD l = pois l) :
    s.VecIs act n val pois (s.grp.regs.vset n act vals pm) := by
  refine ⟨fun l hl => ?_, fun l hl => ?_, fun m hm => ?_, Regs.vset_rest _ _ _ _ _⟩
  · rw [Regs.vset_lane _ _ _ _ _ _ hl, hv l hl]
  · rw [Regs.vset_vgetPois, hp l hl]
  · exact ⟨Regs.vset_vget_ne _ _ _ _ _ _ hm, Regs.vset_vgetPois_ne _ _ _ _ _ _ hm⟩

theorem predIs_pset (s : State) (act vals : Mask) (n : Nat) (val : Nat → Bool)
    (hv : ∀ l, l < 128 → vals.getLsbD l = val l) : s.PredIs act n val (s.grp.regs.pset n act vals) := by
  refine ⟨fun l hl => ?_, fun m hm => Regs.pset_pget_ne _ _ _ _ _ hm, Regs.pset_rest _ _ _ _⟩
  rw [Regs.pset_pget _ _ _ _ _ hl, hv l hl]

theorem scalIs_sset (s : State) (n : Nat) (v : W64) (p : BitVec 2) : s.ScalIs n v p (s.grp.regs.sset n v p) := by
  refine ⟨?_, ?_, fun m hm => ⟨?_, ?_⟩, Regs.sset_rest _ _ _ _⟩
  · rw [Regs.sset_sget, if_pos rfl]
  · rw [Regs.sset_sgetPois, if_pos rfl]
  · rw [Regs.sset_sget, if_neg hm]
  · rw [Regs.sset_sgetPois, if_neg hm]

theorem flagIs_qset (s : State) (n : Nat) (b : Bool) (h : n < 8) : s.FlagIs n b (s.grp.regs.qset n b) :=
  ⟨Regs.qset_qget _ _ _ h, fun _ hm h8 => Regs.qset_qget_ne _ _ _ _ hm h h8, Regs.qset_rest _ _ _⟩

/-! ### Words that go on -/

/-- A word that writes registers through `issueWord` yields them. -/
theorem yields_of_issue {s : State} {h : Hdr} {u : Uses} {i : Instr} {eff : Mask → State → State} {R : Regs → Prop}
    (hi : s.Issues h u.tw) (hu : s.issueCheck h u (s.activeLanes h) = none)
    (hx : exec i s = .next (s.issueWord h u fun act s => { s := eff act s }))
    (hfr : s.OnlyGroup (eff (s.activeLanes h) s))
    (hg : (eff (s.activeLanes h) s).grp = { s.grp with regs := (eff (s.activeLanes h) s).grp.regs })
    (hR : R (eff (s.activeLanes h) s).grp.regs) : s.Yields i R := by
  rw [issueWord_go s h u _ hi hu] at hx
  exact yields_of_finish hi hx hfr hg hR

theorem yields_putV {s : State} {h : Hdr} {u : Uses} {i : Instr} {vd : BitVec 8} {x : Mask → VArg}
    {val : Nat → W32} {pois : Nat → Bool} (hi : s.Issues h u.tw) (hu : s.issueCheck h u (s.activeLanes h) = none)
    (eff : Mask → State → State) (hx : exec i s = .next (s.issueWord h u fun act s => { s := eff act s }))
    (he : eff (s.activeLanes h) s = s.putV vd (s.activeLanes h) (x (s.activeLanes h)))
    (hv : ∀ l, l < 128 → (x (s.activeLanes h)).vals.getD l 0 = val l)
    (hp : ∀ l, l < 128 → (x (s.activeLanes h)).pois.getLsbD l = pois l) :
    s.Yields i (s.VecIs (s.activeLanes h) vd.toNat val pois) := by
  refine yields_of_issue hi hu hx ?_ ?_ ?_ <;> rw [he]
  · exact onlyGroup_putV _ _ _ _
  · rw [putV_grp]
  · rw [putV_grp]; exact vecIs_vset s _ _ _ _ _ _ hv hp

theorem yields_putP {s : State} {h : Hdr} {u : Uses} {i : Instr} {pd : BitVec 4} {vals pm : Mask → Mask}
    {val : Nat → Bool} (hi : s.Issues h u.tw) (hu : s.issueCheck h u (s.activeLanes h) = none)
    (eff : Mask → State → State) (hx : exec i s = .next (s.issueWord h u fun act s => { s := eff act s }))
    (he : eff (s.activeLanes h) s = s.putP pd (s.activeLanes h) (vals (s.activeLanes h)) (pm (s.activeLanes h)))
    (hv : ∀ l, l < 128 → (vals (s.activeLanes h)).getLsbD l = val l) :
    s.Yields i (s.PredIs (s.activeLanes h) pd.toNat val) := by
  refine yields_of_issue hi hu hx ?_ ?_ ?_ <;> rw [he]
  · exact onlyGroup_putP _ _ _ _ _
  · rw [putP_grp]
  · rw [putP_grp]; exact predIs_pset s _ _ _ _ hv

theorem yields_putS {s : State} {h : Hdr} {u : Uses} {i : Instr} {n : Nat} {v : W64} {p : Bool}
    (hi : s.Issues h u.tw) (hu : s.issueCheck h u (s.activeLanes h) = none)
    (eff : Mask → State → State) (hx : exec i s = .next (s.issueWord h u fun act s => { s := eff act s }))
    (he : eff (s.activeLanes h) s = s.putS n v p) :
    s.Yields i (s.ScalIs n v (if p then 3 else 0)) := by
  refine yields_of_issue hi hu hx ?_ ?_ ?_ <;> rw [he]
  · exact onlyGroup_putS _ _ _ _
  · rw [putS_grp]
  · rw [putS_grp]; exact scalIs_sset s _ _ _

/-! ### Operands -/

theorem varg_at (r : Regs) (n : BitVec 8) (l : Nat) : (r.varg n).at l = r.lane n.toNat l := rfl

theorem splat_at (x : W32) (l : Nat) (h : l < 128) : (splat x).getD l 0 = x := by
  unfold splat; rw [List.getD_eq_getElem?_getD, List.getElem?_replicate, if_pos h]; rfl

theorem lanes1_at (op : W32 → W32) (a : VArg) (l : Nat) (h : l < 128) : (lanes1 op a).vals.getD l 0 = op (a.at l) := by
  unfold lanes1; exact getD_range_map (fun l => op (a.at l)) l 0 h
theorem lanes2_at (op : W32 → W32 → W32) (a b : VArg) (l : Nat) (h : l < 128) :
    (lanes2 op a b).vals.getD l 0 = op (a.at l) (b.at l) := by
  unfold lanes2; exact getD_range_map (fun l => op (a.at l) (b.at l)) l 0 h
theorem lanes3_at (op : W32 → W32 → W32 → W32) (a b c : VArg) (l : Nat) (h : l < 128) :
    (lanes3 op a b c).vals.getD l 0 = op (a.at l) (b.at l) (c.at l) := by
  unfold lanes3; exact getD_range_map (fun l => op (a.at l) (b.at l) (c.at l)) l 0 h

theorem bcast_at (r : Regs) (n l : Nat) (h : l < 128) : (r.bcast n).at l = (r.sget n).lo := by
  exact splat_at _ l h

/-- R294: a lane of the second source of a V3 word. -/
theorem argB_at (f : V3) (r : Regs) (l : Nat) (h : l < 128) :
    (f.argB r).at l = if f.bs then (r.sget (f.vb.toNat % 64)).lo else r.lane f.vb.toNat l := by
  unfold V3.argB; split
  · exact bcast_at r _ l h
  · rfl

theorem argB_pois (f : V3) (r : Regs) (l : Nat) (h : l < 128) :
    (f.argB r).pois.getLsbD l =
      if f.bs then (r.sgetPois (f.vb.toNat % 64)).getLsbD 0 else (r.vgetPois f.vb.toNat).getLsbD l := by
  unfold V3.argB Regs.bcast; split
  · dsimp only; split
    · rw [getLsbD_full l h]; simp_all
    · simp_all
  · rfl

theorem immArg_at (x : W32) (l : Nat) (h : l < 128) : (immArg x).at l = x := by
  exact splat_at x l h

/-- The registers of a V3 word pass the checks of issue. -/
theorem v3_check (s : State) (h : Hdr) (f : V3) (b c d : Bool) (hl : s.grp.sla = false) (hf : s.FitsV3 f)
    (hc : c = true → f.vc.toNat < s.grp.budget) :
    s.issueCheck h (f.uses b c d) (s.activeLanes h) = none := by
  refine issueCheck_none s h _ _ hl rfl rfl ?_ (by intro n hn; cases hn)
  intro n hn
  have h1 := hf.1 f.vd (by simp)
  have h2 := hf.1 f.va (by simp)
  have h4 : (b && !f.bs) = true → f.vb.toNat < s.grp.budget := by
    intro hb
    rw [Bool.and_eq_true] at hb
    exact hf.2 (by simpa using hb.2) f.vb (by simp)
  unfold V3.uses at hn
  simp only [List.mem_append, List.cons_append, List.nil_append, List.mem_cons] at hn
  rcases hn with hn | hn | hn | hn
  · split at hn
    · rw [List.mem_singleton] at hn; exact hn ▸ h1
    · cases hn
  · exact hn ▸ h2
  · split at hn
    · rename_i hb; rw [List.mem_singleton] at hn; exact hn ▸ h4 hb
    · cases hn
  · split at hn
    · rename_i h3; rw [List.mem_singleton] at hn; exact hn ▸ hc h3
    · cases hn

/-- The registers of a VI word pass the checks of issue. -/
theorem vi_check (s : State) (h : Hdr) (f : VI) (a d : Bool) (hl : s.grp.sla = false) (hf : s.FitsVI f) :
    s.issueCheck h (f.uses a d) (s.activeLanes h) = none := by
  refine issueCheck_none s h _ _ hl rfl rfl ?_ (by intro n hn; cases hn)
  intro n hn
  have h1 := hf f.vd (by simp)
  have h2 := hf f.va (by simp)
  unfold VI.uses at hn
  simp only [List.mem_append] at hn
  rcases hn with hn | hn <;> split at hn <;> simp at hn <;> subst hn <;> assumption

/-- A word without v registers, tiles, slots or fields judged at issue passes the checks of issue. -/
theorem scalar_check (s : State) (h : Hdr) (u : Uses) (hl : s.grp.sla = false) (hd : u.dyn = none) (hb : u.unbound = none)
    (hw : u.vw = []) (hr : u.vr = []) (ht : u.tiles = []) (hx : u.beyond = [] := by rfl) :
    s.issueCheck h u (s.activeLanes h) = none :=
  issueCheck_none s h u _ hl hd hb (by rw [hw, hr]; intro n hn; cases hn) (by rw [ht]; intro n hn; cases hn) hx

/-! ### The shapes -/

/-- What a two-source vector word yields. -/
theorem v3Two_yields {s : State} {h : Hdr} {f : V3} {i : Instr} (op : W32 → W32 → W32) (hi : s.Issues h 0)
    (hf : s.FitsV3 f) (hx : exec i s = .next (v3Two h f op s)) :
    s.Yields i (s.VecIs (s.activeLanes h) f.vd.toNat
      (fun l => op (s.src.lane f.va.toNat l) ((f.argB s.src).at l))
      (fun l => (s.src.vgetPois f.va.toNat).getLsbD l || (f.argB s.src).pois.getLsbD l)) := by
  refine yields_putV (u := f.uses true false true) (x := fun _ => lanes2 op (s.src.varg f.va) (f.argB s.src)) hi
    (v3_check s h f _ _ _ hi.noStrictLook hf (by simp)) _ hx rfl (fun l hl => ?_) (fun l hl => ?_)
  · exact lanes2_at op _ _ l hl
  · unfold lanes2 Regs.varg; rw [BitVec.getLsbD_or]

/-- What a one-source vector word yields. -/
theorem v3One_yields {s : State} {h : Hdr} {f : V3} {i : Instr} (op : W32 → W32) (hi : s.Issues h 0)
    (hf : s.FitsV3 f) (hx : exec i s = .next (v3One h f op s)) :
    s.Yields i (s.VecIs (s.activeLanes h) f.vd.toNat (fun l => op (s.src.lane f.va.toNat l))
      (fun l => (s.src.vgetPois f.va.toNat).getLsbD l)) := by
  refine yields_putV (u := f.uses false false true) (x := fun _ => lanes1 op (s.src.varg f.va)) hi
    (v3_check s h f _ _ _ hi.noStrictLook hf (by simp)) _ hx rfl (fun l hl => ?_) (fun l hl => rfl)
  exact lanes1_at op _ l hl

/-- What a three-source vector word yields. -/
theorem v3Three_yields {s : State} {h : Hdr} {f : V3} {i : Instr} (op : W32 → W32 → W32 → W32) (hi : s.Issues h 0)
    (hf : s.FitsV3 f) (hc : s.Below [f.vc]) (hx : exec i s = .next (v3Three h f op s)) :
    s.Yields i (s.VecIs (s.activeLanes h) f.vd.toNat
      (fun l => op (s.src.lane f.va.toNat l) ((f.argB s.src).at l) (s.src.lane f.vc.toNat l))
      (fun l => (s.src.vgetPois f.va.toNat).getLsbD l || (f.argB s.src).pois.getLsbD l ||
        (s.src.vgetPois f.vc.toNat).getLsbD l)) := by
  refine yields_putV (u := f.uses true true true)
    (x := fun _ => lanes3 op (s.src.varg f.va) (f.argB s.src) (s.src.varg f.vc)) hi
    (v3_check s h f _ _ _ hi.noStrictLook hf (fun _ => hc f.vc (by simp))) _ hx rfl (fun l hl => ?_) (fun l hl => ?_)
  · exact lanes3_at op _ _ _ l hl
  · unfold lanes3 Regs.varg; rw [BitVec.getLsbD_or, BitVec.getLsbD_or]

/-- What a vector compare yields. -/
theorem v3Rel_yields {s : State} {h : Hdr} {f : V3} {i : Instr} (op : W32 → W32 → Bool) (hi : s.Issues h 0)
    (hf : s.FitsV3 f) (hx : exec i s = .next (v3Rel h f op s)) :
    s.Yields i (s.PredIs (s.activeLanes h) f.pd.toNat fun l =>
      op (s.src.lane f.va.toNat l) ((f.argB s.src).at l)) := by
  refine yields_putP (u := f.uses true false false) (vals := fun _ => lanesRel op (s.src.varg f.va) (f.argB s.src))
    (pm := fun _ => (s.src.varg f.va).pois ||| (f.argB s.src).pois) hi
    (v3_check s h f _ _ _ hi.noStrictLook hf (by simp)) _ hx rfl (fun l hl => ?_)
  exact getLsbD_maskOf _ l hl

/-- What a word with a source and an immediate yields. -/
theorem viTwo_yields {s : State} {h : Hdr} {f : VI} {i : Instr} (op : W32 → W32 → W32) (hi : s.Issues h 0)
    (hf : s.FitsVI f) (hx : exec i s = .next (viTwo h f op s)) :
    s.Yields i (s.VecIs (s.activeLanes h) f.vd.toNat (fun l => op (s.src.lane f.va.toNat l) f.imm)
      (fun l => (s.src.vgetPois f.va.toNat).getLsbD l)) := by
  refine yields_putV (u := f.uses true true) (x := fun _ => lanes2 op (s.src.varg f.va) (immArg f.imm)) hi
    (vi_check s h f _ _ hi.noStrictLook hf) _ hx rfl (fun l hl => ?_) (fun l hl => ?_)
  · rw [lanes2_at op _ _ l hl, immArg_at _ _ hl]; rfl
  · unfold lanes2 immArg Regs.varg; simp

/-- What a word that writes its immediate yields. -/
theorem viMov_yields {s : State} {h : Hdr} {f : VI} {i : Instr} (hi : s.Issues h 0) (hf : s.FitsVI f)
    (hx : exec i s = .next (viMov h f s)) :
    s.Yields i (s.VecIs (s.activeLanes h) f.vd.toNat (fun _ => f.imm) (fun _ => false)) := by
  refine yields_putV (u := f.uses false true) (x := fun _ => immArg f.imm) hi
    (vi_check s h f _ _ hi.noStrictLook hf) _ hx rfl (fun l hl => ?_) (fun l hl => ?_)
  · exact immArg_at f.imm l hl
  · unfold immArg; simp

/-- What a compare with an immediate yields. -/
theorem viRel_yields {s : State} {h : Hdr} {f : VI} {i : Instr} (op : W32 → W32 → Bool) (hi : s.Issues h 0)
    (hf : s.FitsVI f) (hx : exec i s = .next (viRel h f op s)) :
    s.Yields i (s.PredIs (s.activeLanes h) f.pd.toNat fun l => op (s.src.lane f.va.toNat l) f.imm) := by
  refine yields_putP (u := f.uses true false) (vals := fun _ => lanesRel op (s.src.varg f.va) (immArg f.imm))
    (pm := fun _ => (s.src.varg f.va).pois) hi (vi_check s h f _ _ hi.noStrictLook hf) _ hx rfl (fun l hl => ?_)
  refine (getLsbD_maskOf _ l hl).trans ?_; rw [immArg_at _ _ hl]; rfl

end State
end Sys2Proof.Machine
end

