-- ==== Sys2Proof/Laws/PerInstr.lean ====
section
/-! SUPPORT. R284, R285: the first byte of an instruction's encoding fixes its length; a step of the device has no bytes. -/

namespace Sys2Proof.Laws.Shape

/-- The length that the first byte of an encoding gives is the encoding's, and a step of the device has no encoding. -/
def Statement (i : Instr) : Prop :=
  i.wellFormed = true → (encode i).head?.map instrLen = i.hdr.map fun _ => (encode i).length

theorem vadd (h : Hdr) f : Statement (.vadd h f) := fun _ => rfl
theorem vsub (h : Hdr) f : Statement (.vsub h f) := fun _ => rfl
theorem vmul (h : Hdr) f : Statement (.vmul h f) := fun _ => rfl
theorem vmulh (h : Hdr) f : Statement (.vmulh h f) := fun _ => rfl
theorem vmulhu (h : Hdr) f : Statement (.vmulhu h f) := fun _ => rfl
theorem vmad (h : Hdr) f : Statement (.vmad h f) := fun _ => rfl
theorem vand (h : Hdr) f : Statement (.vand h f) := fun _ => rfl
theorem vor (h : Hdr) f : Statement (.vor h f) := fun _ => rfl
theorem vxor (h : Hdr) f : Statement (.vxor h f) := fun _ => rfl
theorem vnot (h : Hdr) f : Statement (.vnot h f) := fun _ => rfl
theorem vshl (h : Hdr) f : Statement (.vshl h f) := fun _ => rfl
theorem vshr (h : Hdr) f : Statement (.vshr h f) := fun _ => rfl
theorem vsar (h : Hdr) f : Statement (.vsar h f) := fun _ => rfl
theorem vmin (h : Hdr) f : Statement (.vmin h f) := fun _ => rfl
theorem vminu (h : Hdr) f : Statement (.vminu h f) := fun _ => rfl
theorem vmax (h : Hdr) f : Statement (.vmax h f) := fun _ => rfl
theorem vmaxu (h : Hdr) f : Statement (.vmaxu h f) := fun _ => rfl
theorem vabs (h : Hdr) f : Statement (.vabs h f) := fun _ => rfl
theorem vneg (h : Hdr) f : Statement (.vneg h f) := fun _ => rfl
theorem vmov (h : Hdr) f : Statement (.vmov h f) := fun _ => rfl
theorem vsel (h : Hdr) f : Statement (.vsel h f) := fun _ => rfl
theorem vcmp (h : Hdr) f : Statement (.vcmp h f) := fun _ => rfl
theorem vpopc (h : Hdr) f : Statement (.vpopc h f) := fun _ => rfl
theorem vclz (h : Hdr) f : Statement (.vclz h f) := fun _ => rfl
theorem vfadd (h : Hdr) f : Statement (.vfadd h f) := fun _ => rfl
theorem vfsub (h : Hdr) f : Statement (.vfsub h f) := fun _ => rfl
theorem vfmul (h : Hdr) f : Statement (.vfmul h f) := fun _ => rfl
theorem vfma (h : Hdr) f : Statement (.vfma h f) := fun _ => rfl
theorem vfmin (h : Hdr) f : Statement (.vfmin h f) := fun _ => rfl
theorem vfmax (h : Hdr) f : Statement (.vfmax h f) := fun _ => rfl
theorem vfneg (h : Hdr) f : Statement (.vfneg h f) := fun _ => rfl
theorem vfabs (h : Hdr) f : Statement (.vfabs h f) := fun _ => rfl
theorem vfcmp (h : Hdr) f : Statement (.vfcmp h f) := fun _ => rfl
theorem vfclass (h : Hdr) f : Statement (.vfclass h f) := fun _ => rfl
theorem vfrnd (h : Hdr) f : Statement (.vfrnd h f) := fun _ => rfl
theorem vfdiv (h : Hdr) f : Statement (.vfdiv h f) := fun _ => rfl
theorem vexp2 (h : Hdr) f : Statement (.vexp2 h f) := fun _ => rfl
theorem vlog2 (h : Hdr) f : Statement (.vlog2 h f) := fun _ => rfl
theorem vrcp (h : Hdr) f : Statement (.vrcp h f) := fun _ => rfl
theorem vrsq (h : Hdr) f : Statement (.vrsq h f) := fun _ => rfl
theorem vsqrt (h : Hdr) f : Statement (.vsqrt h f) := fun _ => rfl
theorem vsinpi (h : Hdr) f : Statement (.vsinpi h f) := fun _ => rfl
theorem vcospi (h : Hdr) f : Statement (.vcospi h f) := fun _ => rfl
theorem vtanh (h : Hdr) f : Statement (.vtanh h f) := fun _ => rfl
theorem vsigm (h : Hdr) f : Statement (.vsigm h f) := fun _ => rfl
theorem vcvt (h : Hdr) f : Statement (.vcvt h f) := fun _ => rfl
theorem vshuf (h : Hdr) f : Statement (.vshuf h f) := fun _ => rfl
theorem vbcast (h : Hdr) f : Statement (.vbcast h f) := fun _ => rfl
theorem vlaneid (h : Hdr) f : Statement (.vlaneid h f) := fun _ => rfl
theorem vballot (h : Hdr) f : Statement (.vballot h f) := fun _ => rfl
theorem vany (h : Hdr) f : Statement (.vany h f) := fun _ => rfl
theorem vall (h : Hdr) f : Statement (.vall h f) := fun _ => rfl
theorem vred (h : Hdr) f : Statement (.vred h f) := fun _ => rfl
theorem vscan (h : Hdr) f : Statement (.vscan h f) := fun _ => rfl
theorem vfred (h : Hdr) f : Statement (.vfred h f) := fun _ => rfl
theorem vfscan (h : Hdr) f : Statement (.vfscan h f) := fun _ => rfl
theorem vcvtbsPack (h : Hdr) f : Statement (.vcvtbsPack h f) := fun _ => rfl
theorem vcvtbsUnpack (h : Hdr) f : Statement (.vcvtbsUnpack h f) := fun _ => rfl
theorem vaddImm (h : Hdr) f : Statement (.vaddImm h f) := fun _ => rfl
theorem vmulImm (h : Hdr) f : Statement (.vmulImm h f) := fun _ => rfl
theorem vandImm (h : Hdr) f : Statement (.vandImm h f) := fun _ => rfl
theorem vorImm (h : Hdr) f : Statement (.vorImm h f) := fun _ => rfl
theorem vxorImm (h : Hdr) f : Statement (.vxorImm h f) := fun _ => rfl
theorem vshlImm (h : Hdr) f : Statement (.vshlImm h f) := fun _ => rfl
theorem vshrImm (h : Hdr) f : Statement (.vshrImm h f) := fun _ => rfl
theorem vsarImm (h : Hdr) f : Statement (.vsarImm h f) := fun _ => rfl
theorem vminImm (h : Hdr) f : Statement (.vminImm h f) := fun _ => rfl
theorem vminuImm (h : Hdr) f : Statement (.vminuImm h f) := fun _ => rfl
theorem vmaxImm (h : Hdr) f : Statement (.vmaxImm h f) := fun _ => rfl
theorem vmaxuImm (h : Hdr) f : Statement (.vmaxuImm h f) := fun _ => rfl
theorem vcmpImm (h : Hdr) f : Statement (.vcmpImm h f) := fun _ => rfl
theorem vmovImm (h : Hdr) f : Statement (.vmovImm h f) := fun _ => rfl
theorem vfaddImm (h : Hdr) f : Statement (.vfaddImm h f) := fun _ => rfl
theorem vfmulImm (h : Hdr) f : Statement (.vfmulImm h f) := fun _ => rfl
theorem vfminImm (h : Hdr) f : Statement (.vfminImm h f) := fun _ => rfl
theorem vfmaxImm (h : Hdr) f : Statement (.vfmaxImm h f) := fun _ => rfl
theorem vfcmpImm (h : Hdr) f : Statement (.vfcmpImm h f) := fun _ => rfl
theorem vmovFloatImm (h : Hdr) f : Statement (.vmovFloatImm h f) := fun _ => rfl
theorem sadd (h : Hdr) f : Statement (.sadd h f) := fun _ => rfl
theorem ssub (h : Hdr) f : Statement (.ssub h f) := fun _ => rfl
theorem smul (h : Hdr) f : Statement (.smul h f) := fun _ => rfl
theorem smulh (h : Hdr) f : Statement (.smulh h f) := fun _ => rfl
theorem smulhu (h : Hdr) f : Statement (.smulhu h f) := fun _ => rfl
theorem sdiv (h : Hdr) f : Statement (.sdiv h f) := fun _ => rfl
theorem sdivu (h : Hdr) f : Statement (.sdivu h f) := fun _ => rfl
theorem srem (h : Hdr) f : Statement (.srem h f) := fun _ => rfl
theorem sremu (h : Hdr) f : Statement (.sremu h f) := fun _ => rfl
theorem sand (h : Hdr) f : Statement (.sand h f) := fun _ => rfl
theorem sor (h : Hdr) f : Statement (.sor h f) := fun _ => rfl
theorem sxor (h : Hdr) f : Statement (.sxor h f) := fun _ => rfl
theorem snot (h : Hdr) f : Statement (.snot h f) := fun _ => rfl
theorem sshl (h : Hdr) f : Statement (.sshl h f) := fun _ => rfl
theorem sshr (h : Hdr) f : Statement (.sshr h f) := fun _ => rfl
theorem ssar (h : Hdr) f : Statement (.ssar h f) := fun _ => rfl
theorem smin (h : Hdr) f : Statement (.smin h f) := fun _ => rfl
theorem sminu (h : Hdr) f : Statement (.sminu h f) := fun _ => rfl
theorem smax (h : Hdr) f : Statement (.smax h f) := fun _ => rfl
theorem smaxu (h : Hdr) f : Statement (.smaxu h f) := fun _ => rfl
theorem scmp (h : Hdr) f : Statement (.scmp h f) := fun _ => rfl
theorem ssel (h : Hdr) f : Statement (.ssel h f) := fun _ => rfl
theorem smov (h : Hdr) f : Statement (.smov h f) := fun _ => rfl
theorem smovlo (h : Hdr) f : Statement (.smovlo h f) := fun _ => rfl
theorem smovhi (h : Hdr) f : Statement (.smovhi h f) := fun _ => rfl
theorem sbfx (h : Hdr) f : Statement (.sbfx h f) := fun _ => rfl
theorem sbfi (h : Hdr) f : Statement (.sbfi h f) := fun _ => rfl
theorem sclz (h : Hdr) f : Statement (.sclz h f) := fun _ => rfl
theorem spopc (h : Hdr) f : Statement (.spopc h f) := fun _ => rfl
theorem slea (h : Hdr) f : Statement (.slea h f) := fun _ => rfl
theorem srd (h : Hdr) f : Statement (.srd h f) := fun _ => rfl
theorem reggrow (h : Hdr) f : Statement (.reggrow h f) := fun _ => rfl
theorem regshrink (h : Hdr) f : Statement (.regshrink h f) := fun _ => rfl
theorem batget (h : Hdr) f : Statement (.batget h f) := fun _ => rfl
theorem batpass (h : Hdr) f : Statement (.batpass h f) := fun _ => rfl
theorem tskget (h : Hdr) f : Statement (.tskget h f) := fun _ => rfl
theorem prog (h : Hdr) f : Statement (.prog h f) := fun _ => rfl
theorem yieldt (h : Hdr) f : Statement (.yieldt h f) := fun _ => rfl
theorem pair (h : Hdr) f : Statement (.pair h f) := fun _ => rfl
theorem ld (h : Hdr) f : Statement (.ld h f) := fun _ => rfl
theorem st (h : Hdr) f : Statement (.st h f) := fun _ => rfl
theorem sld (h : Hdr) f : Statement (.sld h f) := fun _ => rfl
theorem sst (h : Hdr) f : Statement (.sst h f) := fun _ => rfl
theorem atomAdd (h : Hdr) f : Statement (.atomAdd h f) := fun _ => rfl
theorem atomMin (h : Hdr) f : Statement (.atomMin h f) := fun _ => rfl
theorem atomMinu (h : Hdr) f : Statement (.atomMinu h f) := fun _ => rfl
theorem atomMax (h : Hdr) f : Statement (.atomMax h f) := fun _ => rfl
theorem atomMaxu (h : Hdr) f : Statement (.atomMaxu h f) := fun _ => rfl
theorem atomAnd (h : Hdr) f : Statement (.atomAnd h f) := fun _ => rfl
theorem atomOr (h : Hdr) f : Statement (.atomOr h f) := fun _ => rfl
theorem atomXor (h : Hdr) f : Statement (.atomXor h f) := fun _ => rfl
theorem atomExch (h : Hdr) f : Statement (.atomExch h f) := fun _ => rfl
theorem atomCas (h : Hdr) f : Statement (.atomCas h f) := fun _ => rfl
theorem atomFadd (h : Hdr) f : Statement (.atomFadd h f) := fun _ => rfl
theorem atomFmin (h : Hdr) f : Statement (.atomFmin h f) := fun _ => rfl
theorem atomFmax (h : Hdr) f : Statement (.atomFmax h f) := fun _ => rfl
theorem ctradd (h : Hdr) f : Statement (.ctradd h f) := fun _ => rfl
theorem ctrwait (h : Hdr) f : Statement (.ctrwait h f) := fun _ => rfl
theorem ctrrd (h : Hdr) f : Statement (.ctrrd h f) := fun _ => rfl
theorem qpush (h : Hdr) f : Statement (.qpush h f) := fun _ => rfl
theorem qpop (h : Hdr) f : Statement (.qpop h f) := fun _ => rfl
theorem waitk (h : Hdr) f : Statement (.waitk h f) := fun _ => rfl
theorem pf (h : Hdr) f : Statement (.pf h f) := fun _ => rfl
theorem fence (h : Hdr) f : Statement (.fence h f) := fun _ => rfl
theorem cpaG2S (h : Hdr) f : Statement (.cpaG2S h f) := fun _ => rfl
theorem cpaS2G (h : Hdr) f : Statement (.cpaS2G h f) := fun _ => rfl
theorem cpaG2G (h : Hdr) f : Statement (.cpaG2G h f) := fun _ => rfl
theorem cpaS2S (h : Hdr) f : Statement (.cpaS2S h f) := fun _ => rfl
theorem cpavGlobal (h : Hdr) f : Statement (.cpavGlobal h f) := fun _ => rfl
theorem cpavScratchpad (h : Hdr) f : Statement (.cpavScratchpad h f) := fun _ => rfl
theorem cptG2S (h : Hdr) f : Statement (.cptG2S h f) := fun _ => rfl
theorem cptS2G (h : Hdr) f : Statement (.cptS2G h f) := fun _ => rfl
theorem cpmGlobal (h : Hdr) f : Statement (.cpmGlobal h f) := fun _ => rfl
theorem cpmScratchpad (h : Hdr) f : Statement (.cpmScratchpad h f) := fun _ => rfl
theorem nop (h : Hdr) f : Statement (.nop h f) := fun _ => rfl
theorem bra (h : Hdr) f : Statement (.bra h f) := fun _ => rfl
theorem brq (h : Hdr) f : Statement (.brq h f) := fun _ => rfl
theorem jmp (h : Hdr) f : Statement (.jmp h f) := fun _ => rfl
theorem jmpv (h : Hdr) f : Statement (.jmpv h f) := fun _ => rfl
theorem call (h : Hdr) f : Statement (.call h f) := fun _ => rfl
theorem calli (h : Hdr) f : Statement (.calli h f) := fun _ => rfl
theorem ret (h : Hdr) f : Statement (.ret h f) := fun _ => rfl
theorem exitWord (h : Hdr) f : Statement (.exitWord h f) := fun _ => rfl
theorem trapWord (h : Hdr) f : Statement (.trapWord h f) := fun _ => rfl
theorem syscall (h : Hdr) f : Statement (.syscall h f) := fun _ => rfl
theorem bkpt (h : Hdr) f : Statement (.bkpt h f) := fun _ => rfl
theorem runend (h : Hdr) f : Statement (.runend h f) := fun _ => rfl
theorem tree (h : Hdr) (f : TF) : Statement (.tree h f) := by
  intro hw
  have hc : 1 ≤ f.c.toNat := by
    simp only [Instr.wellFormed, Instr.shaped, TF.absentZero, Bool.and_eq_true, decide_eq_true_eq] at hw
    exact hw.2.2.1.1
  rcases hf : f.c with ⟨n, hn⟩
  have : n = 1 ∨ n = 2 ∨ n = 3 := by simp [hf] at hc; omega
  rcases this with rfl | rfl | rfl <;> simp only [encode, encodeTree, hf] <;> rfl

theorem mma (h : Hdr) f : Statement (.mma h f) := fun _ => rfl
theorem maccld (h : Hdr) f : Statement (.maccld h f) := fun _ => rfl
theorem maccst (h : Hdr) f : Statement (.maccst h f) := fun _ => rfl
theorem mcvt (h : Hdr) f : Statement (.mcvt h f) := fun _ => rfl
theorem shpset (h : Hdr) f : Statement (.shpset h f) := fun _ => rfl
theorem smooth (h : Hdr) f : Statement (.smooth h f) := fun _ => rfl
theorem ttq (h : Hdr) f : Statement (.ttq h f) := fun _ => rfl
theorem ttwait (h : Hdr) f : Statement (.ttwait h f) := fun _ => rfl
theorem nzscan (h : Hdr) f : Statement (.nzscan h f) := fun _ => rfl
theorem coll (h : Hdr) f : Statement (.coll h f) := fun _ => rfl
theorem collw (h : Hdr) f : Statement (.collw h f) := fun _ => rfl
theorem crfcfg (h : Hdr) f : Statement (.crfcfg h f) := fun _ => rfl
theorem crfroute (h : Hdr) f : Statement (.crfroute h f) := fun _ => rfl
theorem crfdep (h : Hdr) f : Statement (.crfdep h f) := fun _ => rfl
theorem crfstat (h : Hdr) f : Statement (.crfstat h f) := fun _ => rfl
theorem crfdrop (h : Hdr) f : Statement (.crfdrop h f) := fun _ => rfl
theorem sfaload (h : Hdr) f : Statement (.sfaload h f) := fun _ => rfl
theorem sfaclamp (h : Hdr) f : Statement (.sfaclamp h f) := fun _ => rfl
theorem sfaseed (h : Hdr) f : Statement (.sfaseed h f) := fun _ => rfl
theorem sfasweep (h : Hdr) f : Statement (.sfasweep h f) := fun _ => rfl
theorem sfaread (h : Hdr) f : Statement (.sfaread h f) := fun _ => rfl
theorem sfastat (h : Hdr) f : Statement (.sfastat h f) := fun _ => rfl
theorem trapret (h : Hdr) f : Statement (.trapret h f) := fun _ => rfl
theorem ctlrd (h : Hdr) f : Statement (.ctlrd h f) := fun _ => rfl
theorem ctlwr (h : Hdr) f : Statement (.ctlwr h f) := fun _ => rfl
theorem sigrd (h : Hdr) f : Statement (.sigrd h f) := fun _ => rfl
theorem smpctl (h : Hdr) f : Statement (.smpctl h f) := fun _ => rfl
theorem tlbinv (h : Hdr) f : Statement (.tlbinv h f) := fun _ => rfl
theorem tlbinvall (h : Hdr) f : Statement (.tlbinvall h f) := fun _ => rfl
theorem cwb (h : Hdr) f : Statement (.cwb h f) := fun _ => rfl
theorem cinv (h : Hdr) f : Statement (.cinv h f) := fun _ => rfl
theorem halt (h : Hdr) f : Statement (.halt h f) := fun _ => rfl
theorem strict (h : Hdr) f : Statement (.strict h f) := fun _ => rfl
theorem pwrOkHigh : Statement .pwrOkHigh := fun _ => rfl
theorem perstNDeassert : Statement .perstNDeassert := fun _ => rfl
theorem railFault : Statement .railFault := fun _ => rfl
theorem powerDown : Statement .powerDown := fun _ => rfl
theorem thermalHold : Statement .thermalHold := fun _ => rfl
theorem thermalTrip : Statement .thermalTrip := fun _ => rfl
theorem thermalEvent : Statement .thermalEvent := fun _ => rfl
theorem svbNak : Statement .svbNak := fun _ => rfl
theorem voltageSettled : Statement .voltageSettled := fun _ => rfl
theorem frequencyStepEnd : Statement .frequencyStepEnd := fun _ => rfl
theorem ident : Statement .ident := fun _ => rfl
theorem stateCode : Statement .stateCode := fun _ => rfl
theorem tmax : Statement .tmax := fun _ => rfl
theorem pwr : Statement .pwr := fun _ => rfl
theorem pwrRefresh : Statement .pwrRefresh := fun _ => rfl
theorem clmask : Statement .clmask := fun _ => rfl
theorem alertReg : Statement .alertReg := fun _ => rfl
theorem smbUnknownCode : Statement .smbUnknownCode := fun _ => rfl
theorem portEnable : Statement .portEnable := fun _ => rfl
theorem portDisable : Statement .portDisable := fun _ => rfl
theorem portModeSet : Statement .portModeSet := fun _ => rfl
theorem portTrained : Statement .portTrained := fun _ => rfl
theorem dataFlitReceive : Statement .dataFlitReceive := fun _ => rfl
theorem ackFlitReceive : Statement .ackFlitReceive := fun _ => rfl
theorem replayRequest : Statement .replayRequest := fun _ => rfl
theorem ackTimer : Statement .ackTimer := fun _ => rfl
theorem retrainDone : Statement .retrainDone := fun _ => rfl
theorem streamFlitReceive : Statement .streamFlitReceive := fun _ => rfl
theorem streamEntryWrite : Statement .streamEntryWrite := fun _ => rfl
theorem bootVerify : Statement .bootVerify := fun _ => rfl
theorem configRequest : Statement .configRequest := fun _ => rfl
theorem rcvgo : Statement .rcvgo := fun _ => rfl
theorem getVersion : Statement .getVersion := fun _ => rfl
theorem getCapabilities : Statement .getCapabilities := fun _ => rfl
theorem negotiateAlgorithms : Statement .negotiateAlgorithms := fun _ => rfl
theorem getDigests : Statement .getDigests := fun _ => rfl
theorem getCertificate : Statement .getCertificate := fun _ => rfl
theorem challenge : Statement .challenge := fun _ => rfl
theorem getMeasurements : Statement .getMeasurements := fun _ => rfl
theorem spdmUnsupportedRequest : Statement .spdmUnsupportedRequest := fun _ => rfl
theorem create : Statement .create := fun _ => rfl
theorem modify : Statement .modify := fun _ => rfl
theorem start : Statement .start := fun _ => rfl
theorem stop : Statement .stop := fun _ => rfl
theorem partitionStopped : Statement .partitionStopped := fun _ => rfl
theorem delete : Statement .delete := fun _ => rfl
theorem setwin : Statement .setwin := fun _ => rfl
theorem query : Statement .query := fun _ => rfl
theorem mailboxUnknownCmd : Statement .mailboxUnknownCmd := fun _ => rfl
theorem getInfo : Statement .getInfo := fun _ => rfl
theorem setRoot : Statement .setRoot := fun _ => rfl
theorem setTrapHart : Statement .setTrapHart := fun _ => rfl
theorem setWbase : Statement .setWbase := fun _ => rfl
theorem getBlkacc : Statement .getBlkacc := fun _ => rfl
theorem sbiUnknownFunction : Statement .sbiUnknownFunction := fun _ => rfl
theorem bar4Read : Statement .bar4Read := fun _ => rfl
theorem bar4Write : Statement .bar4Write := fun _ => rfl
theorem registerWrite : Statement .registerWrite := fun _ => rfl
theorem w1cClear : Statement .w1cClear := fun _ => rfl
theorem queueEnable : Statement .queueEnable := fun _ => rfl
theorem queueDisable : Statement .queueDisable := fun _ => rfl
theorem doorbell : Statement .doorbell := fun _ => rfl
theorem launchRecordConsume : Statement .launchRecordConsume := fun _ => rfl
theorem gridEnd : Statement .gridEnd := fun _ => rfl
theorem dispatchDecision : Statement .dispatchDecision := fun _ => rfl
theorem indexOrderEviction : Statement .indexOrderEviction := fun _ => rfl
theorem restoreComplete : Statement .restoreComplete := fun _ => rfl
theorem taskSplit : Statement .taskSplit := fun _ => rfl
theorem preempt : Statement .preempt := fun _ => rfl
theorem releaseHeld : Statement .releaseHeld := fun _ => rfl
theorem preemptEstimate : Statement .preemptEstimate := fun _ => rfl
theorem drainDeadline : Statement .drainDeadline := fun _ => rfl
theorem saveComplete : Statement .saveComplete := fun _ => rfl
theorem opclsWrite : Statement .opclsWrite := fun _ => rfl
theorem poolReassign : Statement .poolReassign := fun _ => rfl
theorem boostRefill : Statement .boostRefill := fun _ => rfl
theorem runStart : Statement .runStart := fun _ => rfl
theorem longLatencyResult : Statement .longLatencyResult := fun _ => rfl
theorem trapRecord : Statement .trapRecord := fun _ => rfl
theorem senioritySave : Statement .senioritySave := fun _ => rfl
theorem frost : Statement .frost := fun _ => rfl
theorem thaw : Statement .thaw := fun _ => rfl
theorem barometerTick : Statement .barometerTick := fun _ => rfl
theorem stallSample : Statement .stallSample := fun _ => rfl
theorem draftTick : Statement .draftTick := fun _ => rfl
theorem draftStop : Statement .draftStop := fun _ => rfl
theorem draftAbandon : Statement .draftAbandon := fun _ => rfl
theorem draftRelease : Statement .draftRelease := fun _ => rfl
theorem copyLanding : Statement .copyLanding := fun _ => rfl
theorem multicastDelivery : Statement .multicastDelivery := fun _ => rfl
theorem remoteAccess : Statement .remoteAccess := fun _ => rfl
theorem cpavCommit : Statement .cpavCommit := fun _ => rfl
theorem tlbWalk : Statement .tlbWalk := fun _ => rfl
theorem atomicExecute : Statement .atomicExecute := fun _ => rfl
theorem sideLogRetry : Statement .sideLogRetry := fun _ => rfl
theorem atomicTokenPass : Statement .atomicTokenPass := fun _ => rfl
theorem sfaLoadRun : Statement .sfaLoadRun := fun _ => rfl
theorem sfaClampRun : Statement .sfaClampRun := fun _ => rfl
theorem sfaSeedRun : Statement .sfaSeedRun := fun _ => rfl
theorem sfaColourStep : Statement .sfaColourStep := fun _ => rfl
theorem sfaReadRun : Statement .sfaReadRun := fun _ => rfl
theorem depositArrival : Statement .depositArrival := fun _ => rfl
theorem depositLanded : Statement .depositLanded := fun _ => rfl
theorem slotDeadline : Statement .slotDeadline := fun _ => rfl
theorem softError : Statement .softError := fun _ => rfl
theorem ckpt0Go : Statement .ckpt0Go := fun _ => rfl
theorem trapRingSet : Statement .trapRingSet := fun _ => rfl
theorem dbgselGo : Statement .dbgselGo := fun _ => rfl
theorem traceArm : Statement .traceArm := fun _ => rfl
theorem samplingEnable : Statement .samplingEnable := fun _ => rfl
theorem sampleRecord : Statement .sampleRecord := fun _ => rfl
theorem hangCheck : Statement .hangCheck := fun _ => rfl
theorem icacheFill : Statement .icacheFill := fun _ => rfl
theorem runendExpiry : Statement .runendExpiry := fun _ => rfl
theorem matrixEngineExec : Statement .matrixEngineExec := fun _ => rfl
theorem macroOp : Statement .macroOp := fun _ => rfl
theorem nzsRun : Statement .nzsRun := fun _ => rfl
theorem collFlitArrival : Statement .collFlitArrival := fun _ => rfl
theorem collStepTimeout : Statement .collStepTimeout := fun _ => rfl
theorem collResultTimeout : Statement .collResultTimeout := fun _ => rfl
theorem qpushSlotWrite : Statement .qpushSlotWrite := fun _ => rfl
theorem qpopEntryCopy : Statement .qpopEntryCopy := fun _ => rfl
theorem thermalHoldEnd : Statement .thermalHoldEnd := fun _ => rfl

end Sys2Proof.Laws.Shape
end

