-- ==== Sys2Proof/Tests/Slice0.lean ====
section
/-! SUPPORT. Tests: words that no rule admits are refused, words written out from their encodings decode, and for each
statement a state and operands that meet its hypotheses. -/

namespace Sys2Proof.Tests

set_option Elab.async false

open Sys2Proof Sys2Proof.Machine

def h0 : Hdr := { bnd := false, la := 0, gn := false, grd := 0 }
def v3 : V3 := { vd := 0, va := 0, vb := 0, vc := 0, ty := 0, rm := 0, sat := false, ftz := false, pd := 0, bs := false
                 ty2 := 0, slot := 0, usl := false, imm8 := 0 }
def vi : VI := { vd := 0, va := 0, ty := 0, rm := 0, sat := false, ftz := false, pd := 0, imm := 0 }
def sf : SF := { sd := 0, sa := 0, sb := 0, qd := 0, w := false, sg := false, is := false, pos := 0, len := 0, cmp := 0
                 imm := 0 }
def pr : PR := { sop := 0, vop := 0, sd := 0, sa := 0, sb := 0, is := false, imm := 0, vd := 0, va := 0, vb := 0, vc := 0
                 typ := 0, sat := false, bs := false }
def mf : MF := { vd := 0, va := 0, sb := 0, spc := 0, rk := 0, rki := false, sz := 0, sx := false, av := false, scp := 0
                 ord := 0, rmt := false, tw := 0, off := 0 }
def cp : CP := { vsrc := 0, vdst := 0, sdst := 0, ssrc := 0, se := 0, sz := 0, tq := 0, tk := 0, tw := 0, off := 0 }
def cf : CF := { va := 0, sx := 0, sa := 0, qn := false, qc := 0, disp := 0 }
def xf : XF := { acd := 0, aca := 0, sa := 0, sb := 0, sc := 0, shp := 0, fsa := 0, fsb := 0, nega := false, negb := false
                 acz := false, spa := false, lcb := false, afa := false, tk := 0, tw := 0, rm := 0, sat := false, imm8 := 0 }
def yf : YF := { sd := 0, sa := 0, creg := 0, imm := 0 }
def tz : Test := { kind := 0, rel := 0, typ := 0, va := 0, b := 0 }
def az : Arc := { aop := 0, vd := 0, va := 0, b := 0 }
def tf : TF := { c := 1, shape := 0, t0 := tz, t1 := tz, t2 := tz, l0 := 0, l1 := 0, l2 := 0, l3 := 0, a0 := az, a1 := az
                 a2 := az, a3 := az, a4 := az, a5 := az }

/-! ### Well-formedness -/

def refusesAll (l : List Instr) : Bool := l.all fun i => !i.wellFormed
def acceptsAll (l : List Instr) : Bool := l.all Instr.wellFormed

/-- R293, R376 to R398: each of these breaks one check of its V3 word. -/
theorem test_refuses_V3_0 : refusesAll [
    .vadd h0 { v3 with ty := 1 }, .vadd h0 { v3 with rm := 1 }, .vadd h0 { v3 with ftz := true },
    .vadd h0 { v3 with pd := 1 }, .vadd h0 { v3 with ty2 := 1 }, .vadd h0 { v3 with slot := 1 },
    .vadd h0 { v3 with usl := true }, .vadd h0 { v3 with imm8 := 1 }, .vadd h0 { v3 with bs := true, vb := 64 },
    .vadd h0 { v3 with sat := true, ty := 5 }, .vand h0 { v3 with ty := 1 }, .vand h0 { v3 with sat := true },
    .vnot h0 { v3 with vb := 1 }, .vabs h0 { v3 with ty := 0x0B, sat := true },
    .vmov h0 { v3 with vb := 1, va := 1, bs := true }, .vmov h0 { v3 with vb := 1 }, .vsel h0 { v3 with imm8 := 16 },
    .vcmp h0 { v3 with pd := 0 }, .vcmp h0 { v3 with pd := 1, imm8 := 6 }, .vcmp h0 { v3 with pd := 1, imm8 := 16 },
    .vcmp h0 { v3 with pd := 1, vd := 1 }, .vfadd h0 { v3 with ty := 3 }, .vfadd h0 { v3 with rm := 4 },
    .vfmin h0 { v3 with sat := true }, .vfmin h0 { v3 with ty := 3 }, .vfneg h0 { v3 with rm := 1 }] = true := by
  decide +kernel

/-- R293, R376 to R398: each of these breaks one check of its V3 word. -/
theorem test_refuses_V3_1 : refusesAll [
    .vfneg h0 { v3 with ty := 3 }, .vfcmp h0 { v3 with pd := 1, ty := 1 }, .vfcmp h0 { v3 with pd := 0 },
    .vfcmp h0 { v3 with pd := 1, imm8 := 7 }, .vfcmp h0 { v3 with pd := 1, imm8 := 8 },
    .vfclass h0 { v3 with imm8 := 1 }, .vfclass h0 { v3 with pd := 1, vd := 1 },
    .vfclass h0 { v3 with pd := 1, ty := 1 }, .vfrnd h0 { v3 with rm := 4 }, .vfrnd h0 { v3 with ty := 3 },
    .vexp2 h0 { v3 with vb := 1 }, .vexp2 h0 { v3 with ty := 3 }, .vexp2 h0 { v3 with rm := 4 },
    .vcvt h0 { v3 with ty := 0x10 }, .vcvt h0 { v3 with ty2 := 7 }, .vcvt h0 { v3 with rm := 5 },
    .vcvt h0 { v3 with rm := 4, ty := 3 }, .vcvt h0 { v3 with sat := true, ty := 3 }, .vcvt h0 { v3 with imm8 := 1 },
    .vcvt h0 { v3 with imm8 := 16 }, .vcvt h0 { v3 with vb := 1 }, .vshuf h0 { v3 with imm8 := 1, vb := 1 },
    .vshuf h0 { v3 with imm8 := 1, bs := true }, .vbcast h0 { v3 with imm8 := 128 },
    .vbcast h0 { v3 with bs := true, imm8 := 1 }, .vlaneid h0 { v3 with va := 1 }] = true := by
  decide +kernel

/-- R293, R376 to R398: each of these breaks one check of its V3 word. -/
theorem test_refuses_V3_2 : refusesAll [
    .vballot h0 { v3 with vd := 1 }, .vballot h0 { v3 with vd := 0 }, .vballot h0 { v3 with vd := 66 },
    .vballot h0 { v3 with vd := 2, va := 16 }, .vany h0 { v3 with vd := 7 }, .vany h0 { v3 with vd := 8 },
    .vany h0 { v3 with va := 16 }, .vred h0 { v3 with imm8 := 8 }, .vred h0 { v3 with imm8 := 16 },
    .vred h0 { v3 with imm8 := 64 }, .vred h0 { v3 with vb := 1 }, .vscan h0 { v3 with imm8 := 32 },
    .vfred h0 { v3 with imm8 := 3 }, .vfred h0 { v3 with ty := 3 }, .vcvtbsPack h0 { v3 with usl := false },
    .vcvtbsPack h0 { v3 with usl := true, rm := 5 }, .vcvtbsPack h0 { v3 with usl := true, vb := 64 },
    .vcvtbsUnpack h0 { v3 with usl := true, rm := 4 }, .vcvtbsUnpack h0 { v3 with usl := true, imm8 := 1 },
    .vcvtbsUnpack h0 { v3 with usl := false }] = true := by
  decide +kernel

theorem test_accepts_V3 : acceptsAll [
    .vadd h0 { v3 with vd := 255, va := 255, vb := 255 }, .vadd h0 { v3 with sat := true, ty := 0x0B },
    .vcmp h0 { v3 with pd := 15, imm8 := 13 }, .vcvt h0 { v3 with rm := 4, ty := 3, bs := true },
    .vballot h0 { v3 with vd := 62, va := 15 }, .vcvtbsPack h0 { v3 with usl := true, rm := 4 },
    .vfclass h0 { v3 with pd := 1, imm8 := 255 }] = true := by decide +kernel

/-- R379, R391: each of these breaks one check of its VI word. -/
theorem test_refuses_VI : refusesAll [
    .vaddImm h0 { vi with pd := 1 }, .vaddImm h0 { vi with ty := 1 }, .vandImm h0 { vi with sat := true },
    .vcmpImm h0 { vi with pd := 0 }, .vcmpImm h0 { vi with pd := 1, vd := 6 },
    .vcmpImm h0 { vi with pd := 1, vd := 16 }, .vmovImm h0 { vi with va := 1 }, .vfaddImm h0 { vi with rm := 4 },
    .vfaddImm h0 { vi with ty := 3 }, .vfminImm h0 { vi with sat := true }, .vfminImm h0 { vi with ty := 3 },
    .vfcmpImm h0 { vi with pd := 1, ty := 1 }, .vfcmpImm h0 { vi with pd := 1, vd := 8 },
    .vfcmpImm h0 { vi with pd := 1, vd := 6 }, .vfcmpImm h0 { vi with pd := 0 }] = true := by
  decide +kernel

theorem test_accepts_VI : acceptsAll [
    .vaddImm h0 { vi with imm := 0xFFFFFFFF }, .vcmpImm h0 { vi with pd := 1, vd := 13 },
    .vfaddImm h0 { vi with ty := 2, rm := 3, ftz := true }] = true := by decide +kernel

/-- R339 to R345, R425: each of these breaks one check of its S word. -/
theorem test_refuses_S_0 : refusesAll [
    .sadd h0 { sf with is := true, sb := 1 }, .sadd h0 { sf with imm := 1 }, .sadd h0 { sf with qd := 1 },
    .sadd h0 { sf with sg := true }, .sadd h0 { sf with pos := 1 }, .sadd h0 { sf with len := 1 },
    .sadd h0 { sf with cmp := 1 }, .snot h0 { sf with is := true }, .snot h0 { sf with sb := 1 },
    .scmp h0 { sf with qd := 7 }, .scmp h0 { sf with cmp := 6 }, .scmp h0 { sf with sd := 1 },
    .ssel h0 { sf with w := true }, .smov h0 { sf with is := true, sa := 1 }, .smov h0 { sf with sb := 1 },
    .smovlo h0 { sf with is := false }, .smovlo h0 { sf with is := true, sa := 1 },
    .srd h0 { sf with is := true, imm := 7 }, .srd h0 { sf with is := true, imm := 12 },
    .sbfx h0 { sf with pos := 1, len := 0 }, .sbfi h0 { sf with sg := true }, .sbfi h0 { sf with pos := 60, len := 5 },
    .slea h0 { sf with w := true }, .reggrow h0 { sf with sa := 1 }, .regshrink h0 { sf with sd := 1 },
    .batget h0 { sf with is := true }] = true := by
  decide +kernel

/-- R339 to R345, R425: each of these breaks one check of its S word. -/
theorem test_refuses_S_1 : refusesAll [
    .batpass h0 { sf with sa := 1 }, .tskget h0 { sf with sd := 1 }, .tskget h0 { sf with sd := 0 },
    .tskget h0 { sf with sd := 2, sa := 1 }, .tskget h0 { sf with sd := 2, imm := 65536 },
    .prog h0 { sf with w := true }, .yieldt h0 { sf with sb := 1 }] = true := by
  decide +kernel

theorem test_accepts_S : acceptsAll [
    .sadd h0 { sf with is := true, imm := 0xFFFFFFFF }, .srd h0 { sf with is := true, imm := 11 },
    .sbfx h0 { sf with pos := 63, len := 1 }, .tskget h0 { sf with sd := 62, imm := 65535 }] = true := by decide +kernel

/-- R347: each of these breaks one check of its PR word. -/
theorem test_refuses_PR : refusesAll [
    .pair h0 { pr with sop := 0 }, .pair h0 { pr with sop := 1, vop := 1, typ := 1 }, .pair h0 { pr with sop := 12 },
    .pair h0 { pr with vop := 15 }, .pair h0 { pr with sop := 1, imm := 1 },
    .pair h0 { pr with sop := 1, is := true, sb := 1 }, .pair h0 { pr with sop := 11, is := true, sa := 1 },
    .pair h0 { pr with vop := 8, bs := true, va := 1 }, .pair h0 { pr with vop := 8, vb := 1 },
    .pair h0 { pr with vop := 1, vc := 1 }, .pair h0 { pr with vop := 3, sat := true },
    .pair h0 { pr with vop := 1, bs := true, vb := 64 }] = true := by
  decide +kernel

theorem test_accepts_PR : acceptsAll [
    .pair h0 { pr with sop := 11, vop := 14, vb := 1 }] = true := by decide +kernel

/-- R400 to R417: each of these breaks one check of its M word. -/
theorem test_refuses_M_0 : refusesAll [
    .ld h0 { mf with spc := 3 }, .ld h0 { mf with sz := 5 }, .ld h0 { mf with sx := true, sz := 2 },
    .ld h0 { mf with ord := 2, scp := 1 }, .ld h0 { mf with ord := 1 }, .ld h0 { mf with ord := 1, scp := 6 },
    .ld h0 { mf with rmt := true }, .ld h0 { mf with rki := true, rk := 16 }, .ld h0 { mf with sz := 3, vd := 1 },
    .st h0 { mf with ord := 1, scp := 1 }, .st h0 { mf with sx := true }, .sld h0 { mf with va := 1 },
    .sld h0 { mf with av := true }, .sld h0 { mf with vd := 64 }, .sld h0 { mf with sz := 4 },
    .sst h0 { mf with ord := 1, scp := 1 }, .atomAdd h0 { mf with sz := 1 },
    .atomAdd h0 { mf with sz := 2, sx := true, ord := 1, scp := 1 }, .atomCas h0 { mf with sz := 3, vd := 2 },
    .atomFadd h0 { mf with sz := 3 }, .ctradd h0 { mf with sz := 2 }, .ctradd h0 { mf with sz := 3, vd := 64 },
    .ctrwait h0 { mf with sz := 3, ord := 2, scp := 1 }, .ctrrd h0 { mf with sz := 3, vd := 64 },
    .qpush h0 { mf with spc := 2 }, .qpush h0 { mf with rki := true }] = true := by
  decide +kernel

/-- R400 to R417: each of these breaks one check of its M word. -/
theorem test_refuses_M_1 : refusesAll [
    .qpop h0 { mf with vd := 64 }, .waitk h0 { mf with vd := 1 }, .waitk h0 { mf with off := 1 },
    .pf h0 { mf with spc := 1 }, .fence h0 { mf with scp := 0 }, .fence h0 { mf with scp := 6 },
    .fence h0 { mf with scp := 1, ord := 1 }] = true := by
  decide +kernel

theorem test_accepts_M : acceptsAll [
    .ld h0 { mf with sz := 4, vd := 254 }, .atomCas h0 { mf with sz := 4, vd := 248 }, .fence h0 { mf with scp := 5 },
    .ctradd h0 { mf with sz := 3, vd := 63 }, .pf h0 { mf with tw := 0x81 }] = true := by decide +kernel

/-- R418 to R424: each of these breaks one check of its CP word. -/
theorem test_refuses_CP : refusesAll [
    .cpaG2S h0 { cp with sz := 1 }, .cpaG2S h0 { cp with sz := 2, tq := 1 }, .cpaG2S h0 { cp with sz := 2, se := 1 },
    .cpavGlobal h0 { cp with sz := 2, se := 1 }, .cptG2S h0 { cp with sz := 3 },
    .cptG2S h0 { cp with sz := 1, tq := 1 }, .cptG2S h0 { cp with vsrc := 1 }, .cptS2G h0 { cp with vdst := 1 },
    .cpmGlobal h0 { cp with sz := 1 }, .cpmGlobal h0 { cp with sz := 2, tq := 1 }] = true := by
  decide +kernel

theorem test_accepts_CP : acceptsAll [
    .cpaG2S h0 { cp with sz := 4 }, .cptG2S h0 { cp with sz := 1, tq := 2 }] = true := by decide +kernel

/-- R349, R353: each of these breaks one check of its C word. -/
theorem test_refuses_C : refusesAll [
    .nop h0 { cf with sx := 1 }, .bra h0 { cf with qc := 1 }, .brq h0 { cf with sa := 1 },
    .jmp h0 { cf with disp := 1 }, .jmpv h0 { cf with sa := 1 }, .call h0 { cf with sa := 1 },
    .calli h0 { cf with va := 1 }, .ret h0 { cf with sx := 1 }, .exitWord h0 { cf with disp := 1 },
    .trapWord h0 { cf with disp := 65536 }, .syscall h0 { cf with disp := 65536 }, .bkpt h0 { cf with disp := 1 },
    .runend h0 { cf with disp := 256 }, .bra h0 { cf with qn := true }] = true := by
  decide +kernel

theorem test_accepts_C : acceptsAll [
    .nop h0 cf, .trapWord h0 { cf with disp := 65535 }, .runend h0 { cf with disp := 255 },
    .brq h0 { cf with qn := true, qc := 7 }] = true := by decide +kernel

/-- R433 to R463: each of these breaks one check of its X word. -/
theorem test_refuses_X_0 : refusesAll [
    .mma h0 { xf with imm8 := 1 }, .mma h0 { xf with afa := true, spa := true },
    .mma h0 { xf with afa := true, lcb := true }, .mma h0 { xf with aca := 1 }, .mma h0 { xf with sa := 1 },
    .mma h0 { xf with rm := 1 }, .maccld h0 { xf with fsa := 1 }, .maccld h0 { xf with imm8 := 1 },
    .maccst h0 { xf with acd := 1 }, .maccst h0 { xf with imm8 := 1 }, .mcvt h0 { xf with rm := 4 },
    .mcvt h0 { xf with imm8 := 2 }, .shpset h0 { xf with tk := 1 }, .shpset h0 { xf with imm8 := 2 },
    .smooth h0 { xf with imm8 := 1, sa := 1 }, .smooth h0 { xf with imm8 := 2 }, .ttq h0 { xf with sb := 1 },
    .ttwait h0 { xf with tk := 1 }, .nzscan h0 { xf with imm8 := 3 }, .nzscan h0 { xf with imm8 := 16 },
    .coll h0 { xf with imm8 := 1 }, .collw h0 { xf with tk := 1 }, .crfcfg h0 { xf with sc := 1 },
    .crfroute h0 { xf with sb := 1 }, .crfdep h0 { xf with imm8 := 2 }, .crfstat h0 { xf with imm8 := 2 }] = true := by
  decide +kernel

/-- R433 to R463: each of these breaks one check of its X word. -/
theorem test_refuses_X_1 : refusesAll [
    .crfdrop h0 { xf with tk := 1 }, .sfaload h0 { xf with sc := 1 }, .sfaclamp h0 { xf with imm8 := 2 },
    .sfaseed h0 { xf with imm8 := 1, sa := 1 }, .sfaseed h0 { xf with imm8 := 2 }, .sfasweep h0 { xf with sc := 1 },
    .sfaread h0 { xf with imm8 := 4 }, .sfaread h0 { xf with imm8 := 8 }, .sfastat h0 { xf with imm8 := 4 }] = true := by
  decide +kernel

theorem test_accepts_X : acceptsAll [
    .mma h0 { xf with imm8 := 128 }, .nzscan h0 { xf with imm8 := 14 }, .sfaread h0 { xf with imm8 := 7 }] = true := by decide +kernel

/-- R361 to R370: each of these breaks one check of its Y word. -/
theorem test_refuses_Y : refusesAll [
    .ctlrd h0 { yf with creg := 8 }, .ctlrd h0 { yf with sa := 1 }, .ctlrd h0 { yf with imm := 1 },
    .sigrd h0 { yf with imm := 2 }, .sigrd h0 { yf with creg := 1 }, .strict h0 { yf with sd := 1 },
    .strict h0 { yf with imm := 4 }] = true := by
  decide +kernel

theorem test_accepts_Y : acceptsAll [
    .ctlrd h0 { yf with creg := 7 }, .sigrd h0 { yf with imm := 1 }, .strict h0 { yf with imm := 3 }] = true := by decide +kernel

/-- R291, R292: guards and lookahead that a word does not admit. -/
theorem test_refuses_header : refusesAll [
    .vadd { h0 with grd := 24 } v3, .vadd { h0 with gn := true } v3, .vadd { h0 with la := 1 } v3,
    .sadd { h0 with grd := 1 } sf, .mma { h0 with grd := 1 } xf, .batget { h0 with la := 1 } sf] = true := by
  decide +kernel

theorem test_accepts_header : acceptsAll [
    .vadd { h0 with grd := 15, gn := true } v3, .vfdiv { h0 with la := 15 } v3, .sadd { h0 with grd := 23 } sf] = true := by
  decide +kernel

/-- R307 to R312: a test, a leaf and arcs outside the grammar of a tree, one in each of its words, a count of zero, and a
part of a word that is absent. -/
theorem test_refuses_tree : refusesAll [
    .tree h0 { tf with t0 := { tz with kind := 3 } }, .tree h0 { tf with t0 := { tz with rel := 6 } },
    .tree h0 { tf with t0 := { tz with kind := 2, va := 16 } }, .tree h0 { tf with t0 := { tz with b := 256 } },
    .tree h0 { tf with t1 := { tz with rel := 1 } }, .tree h0 { tf with l2 := 1 },
    .tree h0 { tf with c := 2, a0 := { az with aop := 0x3F } }, .tree h0 { tf with c := 3, a3 := { az with aop := 1 } },
    .tree h0 { tf with c := 0 }, .tree h0 { tf with c := 1, a0 := { az with aop := 1 } },
    .tree h0 { tf with c := 2, shape := 2, t1 := tz, t2 := tz, a4 := { az with aop := 1 } }] = true := by
  decide +kernel

theorem test_accepts_tree : acceptsAll [
    .tree h0 tf, .tree h0 { tf with c := 2, a0 := { az with aop := 1, vd := 255 }, a1 := { az with aop := 0x20 } },
    .tree h0 { tf with c := 3, shape := 2, l3 := 0x4000, a5 := { az with aop := 0x29, vd := 254, b := 63 } }] = true := by
  decide +kernel
/-! ### Decoding: words laid out from the tables of R289 to R322 -/

/-- R379: the bytes 00 03 03 09. -/
theorem test_decode_vadd : decode [0x00, 0x03, 0x03, 0x09] = .ok
    (.vadd h0 { v3 with vd := 3, va := 3, vb := 9, vc := 3 }, 4) := by decide +kernel

/-- R379: the bytes A0 00 60 60 00 64. -/
theorem test_decode_vadd_imm : decode [0xA0, 0x00, 0x60, 0x60, 0x00, 0x64] = .ok
    (.vaddImm h0 { vi with vd := 3, va := 3, imm := 100 }, 6) := by decide +kernel

/-- R379: the byte E0 and 00 00 0A 80 00 82 80 00 04 00 01 00. -/
theorem test_decode_vcmp : decode [0xE0, 0x00, 0x00, 0x0A, 0x80, 0x00, 0x82, 0x80, 0x00, 0x04, 0x00, 0x01, 0x00] = .ok
    (.vcmp h0 { v3 with va := 1, vb := 5, pd := 2, imm8 := 2 }, 13) := by decide +kernel

/-- R306: the bytes 1B 04 01 02, with BND 5B. -/
theorem test_decode_vfma4 : decode [0x5B, 0x04, 0x01, 0x02] = .ok
    (.vfma { h0 with bnd := true } { v3 with vd := 4, va := 1, vb := 2, vc := 4 }, 4) := by decide +kernel

/-- R306: the byte E0 and 00 00 0D 82 00 81 02 00 00 00 00 00. -/
theorem test_decode_vfma13 : decode [0xE0, 0x00, 0x00, 0x0D, 0x82, 0x00, 0x81, 0x02, 0x00, 0x00, 0x00, 0x00, 0x00] = .ok
    (.vfma h0 { v3 with vd := 4, va := 1, vb := 2, vc := 4 }, 13) := by decide +kernel

/-- R391: the bytes A8 20 C0 C0 3F 00. -/
theorem test_decode_vfmul_imm : decode [0xA8, 0x20, 0xC0, 0xC0, 0x3F, 0x00] = .ok
    (.vfmulImm h0 { vi with vd := 6, va := 6, imm := 0x3F000000 }, 6) := by decide +kernel

/-- R289, R294: `vcvt` (OP 0x02D) with every field set. -/
theorem test_decode_v3_all : decode [0xE0, 0x08, 0x5E, 0x16, 0xD2, 0xAD, 0x1F, 0xE1, 0x8E, 0x21, 0x08, 0x18, 0x80] = .ok
    (.vcvt { h0 with bnd := true, gn := true, grd := 15 } { v3 with
      vd := 0xA5, va := 0x5A, vb := 0x3F, vc := 0xC3, ty := 3, rm := 4, ftz := true, bs := true, ty2 := 1
      imm8 := 0x31 }, 13) := by decide +kernel

/-- R294: `vcvtbs` pack (OP 0x038) with LA 9. -/
theorem test_decode_v3_slot : decode [0xE0, 0x04, 0x80, 0x1C, 0x00, 0x81, 0x01, 0x82, 0x01, 0x00, 0x05, 0x83,
      0x00] = .ok
    (.vcvtbsPack { h0 with la := 9 } { v3 with
      vd := 1, va := 2, vb := 3, vc := 4, rm := 2, slot := 5, usl := true, imm8 := 6 }, 13) := by decide +kernel

/-- R304, K = 0: `vfdiv` (CO 0x23) with a guard and LA 5. -/
theorem test_decode_six_v3 : decode [0x8C, 0x55, 0x18, 0x07, 0x08, 0x09] = .ok
    (.vfdiv { h0 with gn := true, grd := 17, la := 5 } { v3 with vd := 7, va := 8, vb := 9, vc := 7 },
      6) := by decide +kernel

/-- R295: `vcmp` with an immediate (OP 0x00C). -/
theorem test_decode_vi : decode [0xE0, 0x10, 0x00, 0x06, 0x05, 0x40, 0x80, 0x12, 0x00, 0xDE, 0xAD, 0xBE, 0xEF] = .ok
    (.vcmpImm h0 { vi with vd := 0x0A, va := 0x81, pd := 9, imm := 0xDEADBEEF }, 13) := by decide +kernel

/-- R304, K = 1: the immediate is sign-extended. -/
theorem test_decode_six_vi_neg : decode [0xB0, 0x00, 0x20, 0x43, 0x80, 0x00] = .ok
    (.vaddImm { h0 with bnd := true, grd := 3 } { vi with vd := 1, va := 2, imm := 0xFFFF8000 }, 6) := by decide +kernel

/-- R296, R316: `scmp` (OP 0x014). -/
theorem test_decode_s : decode [0xE0, 0x20, 0x28, 0x0A, 0x01, 0x0D, 0x97, 0x00, 0x04, 0x00, 0x00, 0x00, 0x00] = .ok
    (.scmp { h0 with grd := 20 } { sf with
      sa := 33, sb := 44, qd := 5, w := true, sg := true, cmp := 4 }, 13) := by decide +kernel

/-- R296: `sbfx` (OP 0x019). -/
theorem test_decode_s_field : decode [0xE0, 0x20, 0x00, 0x0C, 0xFE, 0x08, 0x01, 0x50, 0xC0, 0x00, 0x00, 0x00,
      0x00] = .ok
    (.sbfx h0 { sf with sd := 63, sa := 1, sg := true, pos := 40, len := 24 }, 13) := by decide +kernel

/-- R305, KD = 0: `sadd` with an immediate. -/
theorem test_decode_eight_s : decode [0xC6, 0x00, 0x02, 0x8C, 0xFF, 0xFF, 0xFF, 0xFE] = .ok
    (.sadd { h0 with bnd := true, grd := 16 } { sf with
      sd := 5, sa := 6, is := true, imm := 0xFFFFFFFE }, 8) := by decide +kernel

/-- R316: `tskget` (OP 0x084). -/
theorem test_decode_team : decode [0xE0, 0x20, 0x00, 0x42, 0x7C, 0x18, 0x80, 0x00, 0x00, 0x00, 0x00, 0x00, 0xFF] = .ok
    (.tskget h0 { sf with sd := 62, sa := 3, sb := 4, imm := 255 }, 13) := by decide +kernel

/-- R297, R319: `ssub` beside `vfma`. -/
theorem test_decode_pair : decode [0xE0, 0x30, 0x00, 0x26, 0x12, 0x51, 0x60, 0x00, 0x08, 0x08, 0x18, 0x28, 0x3A] = .ok
    (.pair h0 { pr with
      sop := 2, vop := 12, sd := 9, sa := 10, sb := 11, vd := 0x80, va := 0x81, vb := 0x82, vc := 0x83, typ := 2
      sat := true }, 13) := by decide +kernel

/-- R298, R317: `ld` (OP 0x000) from a remote scratchpad with an acquire. -/
theorem test_decode_m : decode [0xE0, 0x47, 0x80, 0x00, 0x20, 0x20, 0x99, 0x0F, 0x8C, 0x62, 0x07, 0xFF, 0xFF] = .ok
    (.ld { h0 with la := 15 } { mf with
      vd := 0x40, va := 0x41, sb := 12, spc := 2, rk := 7, rki := true, sz := 4, av := true, scp := 4, ord := 1
      rmt := true, tw := 0x81, off := 0x3FFFF }, 13) := by decide +kernel

/-- R317: `atom.cas` (OP 0x00D). -/
theorem test_decode_cas : decode [0xE0, 0x40, 0x00, 0x06, 0x84, 0x00, 0x00, 0x00, 0x90, 0x00, 0x00, 0x00, 0x00] = .ok
    (.atomCas h0 { mf with vd := 8, sz := 4, sx := true }, 13) := by decide +kernel

/-- R305, KD = 1: `st` with a negative offset. -/
theorem test_decode_eight_m : decode [0xCA, 0x20, 0x02, 0xB0, 0x60, 0x72, 0x3F, 0xF8] = .ok
    (.st { h0 with gn := true, grd := 2 } { mf with
      vd := 6, va := 7, sb := 8, spc := 1, rki := true, sz := 3, av := true, off := 0x3FFF8 }, 8) := by decide +kernel

/-- R299, R317: `cpt` from global to scratchpad (OP 0x086). -/
theorem test_decode_copy : decode [0xE0, 0x40, 0x00, 0x43, 0x00, 0x00, 0x02, 0x10, 0x86, 0x1C, 0x0E, 0x00, 0x00] = .ok
    (.cptG2S h0 { cp with
      sdst := 1, ssrc := 2, se := 4, sz := 1, tq := 2, tk := 7, tw := 3, off := 0x20000 }, 13) := by decide +kernel

/-- R300, R318: `calli` (OP 0x006). -/
theorem test_decode_c : decode [0xE0, 0x58, 0x00, 0x03, 0x00, 0x00, 0x00, 0xF7, 0xE0, 0x00, 0x00, 0x00, 0x00] = .ok
    (.calli { h0 with bnd := true } { cf with sx := 61, sa := 62 }, 13) := by decide +kernel

/-- R305, KD = 2: `brq` backwards. -/
theorem test_decode_eight_c : decode [0xD4, 0x00, 0x40, 0x38, 0xFF, 0xFF, 0xFF, 0xF8] = .ok
    (.brq { h0 with bnd := true } { cf with qc := 3, qn := true, disp := 0xFFFFFFF8 }, 8) := by decide +kernel

/-- R301, R320: `mma` (OP 0x000). -/
theorem test_decode_x : decode [0xE0, 0x80, 0x00, 0x00, 0x78, 0x00, 0x00, 0x1A, 0xCB, 0x98, 0x88, 0x00, 0x80] = .ok
    (.mma h0 { xf with
      acd := 15, shp := 6, fsa := 5, fsb := 4, nega := true, acz := true, spa := true, lcb := true, tk := 3
      tw := 0x11, imm8 := 0x80 }, 13) := by decide +kernel

/-- R320: `sfasweep` (OP 0x01B). -/
theorem test_decode_sfa : decode [0xE0, 0x80, 0x00, 0x0D, 0x80, 0x02, 0x10, 0x00, 0x00, 0x28, 0x00, 0x00, 0x00] = .ok
    (.sfasweep h0 { xf with sa := 1, sb := 2, tk := 5 }, 13) := by decide +kernel

/-- R320: `crfroute` (OP 0x011), VX in ACD and ACA. -/
theorem test_decode_carafe : decode [0xE0, 0x80, 0x80, 0x08, 0xD3, 0x92, 0x00, 0x00, 0x00, 0x00, 0x00, 0x00, 0xFE] = .ok
    (.crfroute { h0 with la := 1 } { xf with acd := 0xA, aca := 7, sa := 9, imm8 := 0xFE }, 13) := by decide +kernel

/-- R302, R321: `ctlrd` (OP 0x001). -/
theorem test_decode_y : decode [0xE0, 0x90, 0x00, 0x00, 0xC0, 0x00, 0x00, 0x38, 0x00, 0x00, 0x00, 0x00, 0x00] = .ok
    (.ctlrd h0 { yf with sd := 32, creg := 7 }, 13) := by decide +kernel

/-- R307 to R311: a tree of shape 1 with three T1 words. -/
theorem test_decode_tree : decode [0xF3, 0x68, 0x00, 0x00, 0x2A, 0x41, 0x3F, 0xFF, 0xE2, 0x07, 0x80, 0x00, 0x00, 0x70,
      0x00, 0x00, 0x00, 0x10, 0x00, 0x3F, 0xFF, 0x80, 0x10, 0x00, 0x00, 0x78, 0x00, 0x80, 0xCF, 0xC1, 0x04, 0x05,
      0x06, 0x5C, 0x24, 0x00, 0x00, 0x73, 0x01, 0xC2, 0x3F, 0xC0, 0x00, 0x00, 0x00, 0x00, 0x00, 0x00, 0x00] = .ok
    (.tree { h0 with bnd := true } { tf with
      c := 3, shape := 1, t0 := { tz with kind := 1, rel := 2, typ := 1, va := 4, b := 0xFFFF }
      t1 := { tz with kind := 2, rel := 1, va := 15 }, l0 := 0x4000, l1 := 0x7FFF, l2 := 0x10
      a0 := { aop := 0x20, vd := 2, va := 3, b := 63 }, a1 := { aop := 1, vd := 4, va := 5, b := 6 }
      a2 := { aop := 0x17, vd := 9, va := 0, b := 0 }, a3 := { aop := 0x0C, vd := 7, va := 8, b := 0xFF } },
      49) := by decide +kernel

/-- R290, R305, R322: a reserved first byte, a format that no word has, KD = 3, and an opcode that no table names. -/
theorem test_undefined : decode [0xF4] = .error (.undefinedEncoding 0xF4) ∧
    decode (0xE0 :: 0xA0 :: List.replicate 11 0) = .error (.undefinedEncoding 0xE0) ∧
    decode (0xD8 :: List.replicate 7 0) = .error (.undefinedEncoding 0xD8) ∧
    decode [0x3A, 0, 0, 0] = .error (.undefinedEncoding 0x3A) := by decide +kernel

/-! ### Small states

Partition 0 owns cluster 0; grid 0 of it (4 teams in cohorts of 2, groups of role 0 and 1 with 16 registers and a ceiling of
32, 4 KiB of scratchpad, 4 tiles, format slots FP32, FP8E4 with block scale, BF16, INT8) has team 0 resident on core 0, and
group 0 of it issues a word at 0x10000 with all lanes. The first 2 MiB of the partition's memory are mapped one to one. -/

def grid0 : Grid :=
  { record := [0x0110040000400000, 0x10000, 0, 0x1042042100000000, 0x4400000420000000, 0, 0, 1, 0, 0, 0,
      0xA40088008D008000, 0, 0, 0, 0] }
def map0 : TlbEntry :=
  { part := 0, block := 0, valid := 0xFFFFFFFF, r := true, w := true, x := true, mt := 0, ppn0 := 0, aSet := 0xFFFFFFFF
    dSet := 0xFFFFFFFF }
/-- Page tables at 0x200000, 0x204000, 0x206000 and 0x208000, which map pages 0 to 31 to themselves. -/
def mem0 : Memory := [
    (0x200000, 1), (0x200001, 64), (0x200002, 32), (0x204000, 1), (0x204001, 96), (0x204002, 32), (0x206000, 1),
    (0x206001, 128), (0x206002, 32), (0x208000, 63), (0x208008, 63), (0x20800A, 1), (0x208010, 63), (0x208012, 2),
    (0x208018, 63), (0x20801A, 3), (0x208020, 63), (0x208022, 4), (0x208028, 63), (0x20802A, 5), (0x208030, 63),
    (0x208032, 6), (0x208038, 63), (0x20803A, 7), (0x208040, 63), (0x208042, 8), (0x208048, 63), (0x20804A, 9),
    (0x208050, 63), (0x208052, 10), (0x208058, 63), (0x20805A, 11), (0x208060, 63), (0x208062, 12), (0x208068, 63),
    (0x20806A, 13), (0x208070, 63), (0x208072, 14), (0x208078, 63), (0x20807A, 15), (0x208080, 63), (0x208082, 16),
    (0x208088, 63), (0x20808A, 17), (0x208090, 63), (0x208092, 18), (0x208098, 63), (0x20809A, 19), (0x2080A0, 63),
    (0x2080A2, 20), (0x2080A8, 63), (0x2080AA, 21), (0x2080B0, 63), (0x2080B2, 22), (0x2080B8, 63), (0x2080BA, 23),
    (0x2080C0, 63), (0x2080C2, 24), (0x2080C8, 63), (0x2080CA, 25), (0x2080D0, 63), (0x2080D2, 26), (0x2080D8, 63),
    (0x2080DA, 27), (0x2080E0, 63), (0x2080E2, 28), (0x2080E8, 63), (0x2080EA, 29), (0x2080F0, 63), (0x2080F2, 30),
    (0x2080F8, 63), (0x2080FA, 31)]
def s0 : State :=
  { State.reset with
    power := { pwrOk := true, clocksOn := true }
    parts := [(0, { exists_ := true, running := true, clusters := 1, size := 0x10000000, qcount := 16, harts := 1
                    root := some 0x200000 })]
    mem := mem0
    grids := [(0, grid0)]
    teams := [(0, { st := .resident, placed := true })]
    groups := [(0, { budget := 16 })]
    quads := [(0, { slots := [(0, 0)], run := some { grp := 0, prim := { pc := 0x10000, lanes := Mask.full }, sec := none } })]
    cores := [(0, { pword := some 0x4400, frost := false, tlb := [map0] })]
    clusters := [(0, { pool := some 0 })]
    cur := { lanes := Mask.full, pc := 0x10000, len := 13 } }
/-- The issuing group with some of its fields changed; with scalar registers; with some lanes alone. -/
def withGrp (f : Group → Group) : State := s0.modGrp f
def withS (l : List (Nat × W64)) : State := withGrp fun x => { x with regs := { x.regs with s := l } }
def withTeam (f : Team → Team) : State := s0.modTeam 0 f
def withCore (f : Core → Core) : State := s0.modCore 0 f
def withLanes (m : Mask) : State := { s0 with cur := { s0.cur with lanes := m } }

theorem test_grid : grid0.nteams = 4 ∧ grid0.coh = 2 ∧ grid0.g0 = 2 ∧ grid0.g1 = 1 ∧ grid0.budget 0 = 16 ∧
    grid0.ceiling 2 = 32 ∧ grid0.alloc = 4096 ∧ grid0.acct = 4 ∧ grid0.opcls = 0 ∧ grid0.det = false := by decide +kernel

def okIssues (s : State) (h : Hdr) (tw : BitVec 8) : Bool :=
  s.grp.park.isNone && !s.grp.step && !s.grp.srun && !s.grp.sla && !State.laBlocks s.grp s.cur.lanes && s.scalarGuard h &&
    s.grp.tokensDone tw
theorem issues_of {s : State} {h : Hdr} {tw : BitVec 8} (k : okIssues s h tw = true) : s.Issues h tw := by
  simp only [okIssues, Bool.and_eq_true, Bool.not_eq_true', Option.isNone_iff_eq_none] at k
  exact ⟨k.1.1.1.1.1.1, k.1.1.1.1.1.2, k.1.1.1.1.2, k.1.1.1.2, k.1.1.2, k.1.2, k.2⟩
def okMem (s : State) (h : Hdr) (f : MF) (regs : List Nat) : Bool :=
  okIssues s h f.tw && regs.all (· < s.grp.budget) && !s.acquireOut s.curGrp && (s.releaseWait f.scp.toNat).isNone &&
    s.mPois f (s.activeLanes h) == 0
theorem memReady_of {s : State} {h : Hdr} {f : MF} {regs : List Nat} (k : okMem s h f regs = true) : s.MemReady h f regs := by
  simp only [okMem, Bool.and_eq_true, Bool.not_eq_true', Option.isNone_iff_eq_none, List.all_eq_true, decide_eq_true_eq,
    beq_iff_eq] at k
  exact ⟨issues_of k.1.1.1.1, k.1.1.1.2, k.1.1.2, fun _ => k.1.2, k.2⟩
theorem issues_s0 : s0.Issues h0 0 := issues_of (by decide +kernel)
theorem named_s0 : s0.Named := by unfold State.Named; decide +kernel

/-! ### Witnesses of the statements' hypotheses: vector and scalar words -/

def below (s : State) (l : List (BitVec 8)) : Bool := l.all fun n => n.toNat < s.grp.budget
theorem below_of {s : State} {l : List (BitVec 8)} (k : below s l = true) : s.Below l := by
  simpa [below, State.Below] using k

/-- The operands of the vector statements: registers at the end of the budget, and a scalar second source. -/
def f15 : V3 := { v3 with vd := 15, va := 15, vb := 15, vc := 15, slot := 1, usl := true }
def fbs : V3 := { v3 with vd := 15, va := 0, vb := 63, bs := true }

theorem wit_fitsV3 : s0.FitsV3 f15 ∧ s0.FitsV3 fbs ∧ f15.bs = false ∧ fbs.bs = true ∧ f15.sat = false ∧ s0.Below [f15.vc] :=
  ⟨⟨below_of (by decide +kernel), fun _ => below_of (by decide +kernel)⟩,
    ⟨below_of (by decide +kernel), fun h => absurd h (by decide)⟩, rfl, rfl, rfl, below_of (by decide +kernel)⟩

theorem wit_VectorSaturation : ∃ f g : V3, s0.FitsV3 f ∧ s0.FitsV3 g ∧ f.sat = true ∧ g.sat = true ∧ f.ty = 0 ∧ g.ty = 0x0B :=
  ⟨{ f15 with sat := true }, { f15 with sat := true, ty := 0x0B }, wit_fitsV3.1, wit_fitsV3.1, rfl, rfl, rfl, rfl⟩

theorem wit_VectorImmediate : ∃ f : VI, s0.Issues h0 0 ∧ s0.FitsVI f ∧ f.sat = false ∧ f.vd.toNat % 8 ≤ 5 :=
  ⟨{ vi with vd := 13, va := 15 }, issues_s0, below_of (by decide +kernel), rfl, by decide⟩

theorem wit_VectorCompare : ∃ f : V3, s0.FitsV3 f ∧ f.imm8.toNat % 8 ≤ 5 ∧ f.pd ≠ 0 :=
  ⟨{ f15 with imm8 := 13, pd := 15 }, wit_fitsV3.1, by decide, by decide⟩

theorem wit_ReductionTree : ∃ f : Nat → V3, (128 ≤ 128) ∧ (f 0).imm8.toNat % 16 = 0 ∧ (f 5).imm8.toNat % 16 = 5 ∧
    (f 6).imm8.toNat % 16 = 6 ∧ (f 7).imm8.toNat % 16 = 7 :=
  ⟨fun n => { v3 with imm8 := BitVec.ofNat 8 n }, by decide⟩

theorem wit_VectorMovesAndConversions : ({ f15 with imm8 := 0 } : V3).imm8.toNat = 0 ∧ (1 ≤ 127 ∧ 127 < 128) ∧ 128 ≤ 255 ∧
    (62 ≠ 0 ∧ 62 % 2 = 0) ∧ fmtBits 3 < 32 ∧ 32 ≤ fmtBits 0 := by decide +kernel

theorem wit_BlockConversions :
    s0.slotUnbound f15.slot true = none ∧ packFmt (slotFmt (s0.fslot f15.slot)) = true ∧ f15.imm8 = 0 ∧
    s0.slotUnbound f15.slot false = none := by decide +kernel

theorem wit_ScalarOther : (5 : BitVec 3).toNat ≤ 5 ∧ ({ sf with pos := 63, len := 1 } : SF).pos.toNat +
    ({ sf with pos := 63, len := 1 } : SF).fieldLen ≤ 64 ∧ ({ sf with imm := 0x0B } : SF).imm.toNat = 0x0B := by decide +kernel

theorem wit_PairWord : ∃ f : PR, f.vop = 0x0C ∧ s0.Below [f.vd, f.va] ∧ s0.Below [f.vb] ∧ s0.Below [f.vc] :=
  ⟨{ pr with vop := 0x0C, vd := 15, vb := 15, vc := 15 }, rfl, below_of (by decide +kernel), below_of (by decide +kernel),
    below_of (by decide +kernel)⟩

/-! ### Witnesses: control, team and tree words -/

theorem wit_ControlTransfer : s0.src.sgetPois 63 = 0 ∧ s0.Below [15] ∧ s0.activeLanes h0 &&& s0.src.vgetPois 15 = 0 ∧
    s0.curGrid.traced = false := ⟨by decide +kernel, below_of (by decide +kernel), by decide +kernel, by decide +kernel⟩

/-- A group whose lane 0 alone issues does not end; one whose other lanes have exited does. -/
theorem wit_ExitWord : (∃ s : State, s.Issues h0 0 ∧ s.grp.exited ||| s.activeLanes h0 ≠ Mask.full) ∧
    (∃ s : State, s.Issues h0 0 ∧ s.grp.exited ||| s.activeLanes h0 = Mask.full) :=
  ⟨⟨withLanes 1, issues_of (by decide +kernel), by decide +kernel⟩, ⟨s0, issues_s0, by decide +kernel⟩⟩

theorem wit_TrapWords : s0.Issues h0 0 ∧ s0.Named := ⟨issues_s0, named_s0⟩

theorem wit_reggrow : (let n := 16; n % 8 = 0 ∧ 8 ≤ n ∧ n ≤ 256 ∧ n ≤ s0.grp.budget) ∧
    (let n := 32; n % 8 = 0 ∧ s0.grp.budget < n ∧ n ≤ s0.curGrid.ceiling 0 ∧ 512 * (n - s0.grp.budget) ≤ s0.rowsFree s0.curQuad) ∧
    (let n := 40; n % 8 = 0 ∧ s0.grp.budget < n ∧ s0.curGrid.ceiling 0 < n) ∧
    (let n := 8; n % 8 = 0 ∧ n < s0.grp.budget ∧ s0.grp.due = []) := by decide +kernel

/-- A core whose partition word gives its register file few rows. -/
theorem wit_reggrow_wait : (withCore fun x => { x with pword := some 0x0400 }).rowsFree s0.curQuad < 512 * (32 - s0.grp.budget) := by
  decide +kernel

theorem wit_baton : (s0.core s0.curCore).baton = none ∧
    ((withCore fun x => { x with baton := some 0 }).core 0).baton = some (withCore fun x => { x with baton := some 0 }).curGrp ∧
    ((withCore fun x => { x with baton := some 5 }).core 0).baton = some 5 ∧ 5 ≠ s0.curGrp ∧
    2 < s0.curGrid.ngroups ∧ (s0.group (s0.curTeam * 32 + 2)).gone = false := by decide +kernel

def task0 : Task := { entry := 0x100, lo := 0, cur := 4, hi := 8, chunk := 2, g := 0, owner := 0 }
def sTask : State := s0.modCluster 0 fun x => { x with tasks := [task0] }
theorem wit_tskget : s0.ownTask s0.curGrp = none ∧ s0.coreOfGrp s0.curGrp / 6 = s0.cur.cl ∧
    sTask.ownTask sTask.curGrp = some task0 ∧ (s0.curGrid.det || s0.curGrid.tasksOver) = false ∧
    (let s := s0.modGrid 0 fun x => { x with tasksOver := true }
     (s.curGrid.det || s.curGrid.tasksOver) = true ∧ s.ownTask s.curGrp = none) := by decide +kernel

/-- A draining head of the class waits, and the save area of the team is mapped. -/
def sYield : State := s0.modGrid 0 fun x => { x with
  head := some 1, draining := true, record := (x.record.set 10 64).set 9 0x10000 }
def okPages (s : State) (tk : Nat) : Bool :=
  match s.savePages tk with
  | .ok l => s.pltRoom (physPages l)
  | .error _ => false
def sYieldSaving : State := sYield.modTeam sYield.curTeam fun x => { x with st := .saving }
theorem wit_yieldt_saving : sYieldSaving.headWaits = true ∧ (sYieldSaving.team sYieldSaving.curTeam).st = .saving ∧
    sYieldSaving.Issues h0 0 := ⟨by decide +kernel, by decide +kernel, issues_of (by decide +kernel)⟩
theorem wit_yieldt : s0.headWaits = false ∧ sYield.headWaits = true ∧ sYield.inSwap sYield.curCore = false ∧
    (sYield.team sYield.curTeam).st ≠ .saving ∧ okPages sYield sYield.curTeam = true ∧ sYield.Issues h0 0 ∧ sYield.Named :=
  ⟨by decide +kernel, by decide +kernel, by decide +kernel, by decide +kernel, by decide +kernel, issues_of (by decide +kernel), by
    unfold State.Named; decide +kernel⟩

/-- A tree of shape 0 whose arcs are a move and a sum. -/
def tf1 : TF := { tf with c := 2, l0 := 0x4000, l1 := 0x4000, a0 := { aop := 0x0F, vd := 15, va := 1, b := 0 }
                          a1 := { aop := 0x01, vd := 14, va := 1, b := 15 } }
theorem wit_TreeRegisters : (∀ n ∈ tf1.uses.vw ++ tf1.uses.vr, n < s0.grp.budget) ∧ (∀ a ∈ tf1.arcs, a.isMem = false) := by
  decide +kernel

/-- A tree whose lanes load from global memory, and one whose lanes store to the scratchpad. -/
def tfLoad : TF := { tf with c := 2, l0 := 0x4000, l1 := 0x4000, a0 := { aop := 0x20, vd := 15, va := 1, b := 1 } }
def tfStore : TF := { tf with c := 2, l0 := 0x4000, l1 := 0x4000, a0 := { aop := 0x2A, vd := 15, va := 1, b := 1 } }
def okTree (s : State) (f : TF) : Bool :=
  let act := s.activeLanes h0
  let accs := act.lanes.filterMap fun l => (f.walk s.src l 3 0 {} none).acc.map fun a => (l, a)
  let glob := fun (load : Bool) => (accs.filter fun e => !e.2.arc.isSpad && e.2.arc.isLoad == load).flatMap fun e =>
    State.arcPieces e.1 e.2
  (f.uses.vw ++ f.uses.vr).all (fun n => n < s.grp.budget) && !s.acquireOut s.curGrp &&
    accs.all (fun e => !e.2.bad && !anyPois e.2.data) && (s.lookup .load (glob true)).2.isEmpty &&
    (s.lookup .store (glob false)).2.isEmpty &&
    !s.orderHeld .load (s.lookup .load (glob true)).1 && !s.orderHeld .store (s.lookup .store (glob false)).1 &&
    (s.absentLines ((accs.filter fun e => e.2.arc.isSpad).flatMap fun e => State.arcPieces e.1 e.2)).isEmpty && !accs.isEmpty
theorem wit_TreeMemory : okTree (withLanes 1) tfLoad = true ∧ okTree (withLanes 1) tfStore = true ∧
    tfLoad.arcs.any Arc.isLoad = true := by decide +kernel

/-! ### Witnesses: memory words

Addresses: s1 holds 0x20000, a mapped global address, s2 the offset 0xFF8, the last 8 bytes of the scratchpad. -/

def sM : State := withS [(1, 0x20000), (2, 0xFF8)]
/-- Global, own scratchpad, the cohort's other team, and a rank that no team has; lane 1 in the last mapped page. -/
def mGlob : MF := { mf with vd := 14, sb := 1, sz := 2, tw := 0x80 }
def mOwn : MF := { mGlob with sb := 2, spc := 1 }
def mRem : MF := { mGlob with sb := 2, spc := 2, rki := true, rk := 1 }
def mGone : MF := { mRem with rk := 2 }

theorem wit_targets : sM.mTarget mGlob = .glob ∧ sM.mTarget mOwn = .own ∧ sM.mTarget mRem = .rem 1 ∧ sM.mTarget mGone = .gone ∧
    sM.activeLanes h0 ≠ 0 := by decide +kernel

theorem wit_memReady : ∀ f ∈ [mGlob, mOwn, mRem, mGone], sM.MemReady h0 f (f.addrRegs ++ f.dataRegs) ∧ sM.MemReady h0 f [] := by
  intro f hf
  have : ([mGlob, mOwn, mRem, mGone].all fun f => okMem sM h0 f (f.addrRegs ++ f.dataRegs) && okMem sM h0 f []) = true := by
    decide +kernel
  have := List.all_eq_true.mp this f hf
  simp only [Bool.and_eq_true] at this
  exact ⟨memReady_of this.1, memReady_of this.2⟩

theorem wit_LaneLoad : let ps := sM.mPieces mGlob Mask.full
    (sM.lookup .load ps).2 = [] ∧ sM.orderHeld .load (sM.lookup .load ps).1 = false ∧
    sM.absentLines (sM.mPieces mOwn Mask.full) = [] := by decide +kernel

theorem wit_GlobalStore : let r := sM.lookup .store (sM.mPieces mGlob Mask.full)
    let q := sM.lookup .store (sM.scalarPieces mGlob Mask.full mGlob.size)
    (sM.core sM.curCore).writeThrough = false ∧ mGlob.ord = 0 ∧ mGlob.sz.toNat ≤ 3 ∧
    r.2 = [] ∧ (∀ x ∈ r.1, x.mt = 0) ∧ sM.orderHeld .store r.1 = false ∧
    q.2 = [] ∧ (∀ x ∈ q.1, x.mt = 0) ∧ sM.orderHeld .store q.1 = false ∧
    (distinct (State.l1Lines (sM.core sM.curCore) ++ r.1.flatMap fun q => linesOf q.pa q.p.n)).length ≤ 2048 := by decide +kernel

theorem wit_RemoteStoreAndScalarLoad : let ps := sM.scalarPieces mGlob Mask.full mGlob.size
    (sM.lookup .load ps).2 = [] ∧ sM.orderHeld .load (sM.lookup .load ps).1 = false ∧
    sM.mSum mGlob 0 % 8 = 0 ∧ sM.mSum mOwn 0 % 8 = 0 ∧ sM.absentLines (sM.scalarPieces mOwn Mask.full 8) = [] ∧
    (sM.lookup .load (sM.scalarPieces mGlob Mask.full 8)).1.length = 1 ∧
    (sM.lookup .load (sM.scalarPieces mGlob Mask.full 8)).2 = [] := by decide +kernel

/-- Immediate amounts; a wait that finds its value and one that does not. -/
theorem wit_CountersAndWaits : let f := { mGlob with vd := 0xFF, sz := 3 }
    let g := { mOwn with vd := 0x80, sz := 3 }
    (sM.ctrOperand f).2 = false ∧ (sM.lookup .store (sM.scalarPieces f Mask.full 8)).1.length = 1 ∧
    (sM.lookup .store (sM.scalarPieces f Mask.full 8)).2 = [] ∧
    State.spReduce sM.curGrid.alloc (sM.mSum g 0) = some 0xFF8 ∧ sM.counterValue sM.curPart (sM.ctrLoc g) = some 0 ∧
    sM.counterAbsent (sM.ctrLoc g) = false ∧
    (sM.ctrOperand g).1 = 0 ∧ (sM.ctrOperand { g with vd := 0x81 }).1 = 1 ∧ g.ord = 0 ∧ (sM.team sM.curTeam).st = .resident ∧
    sM.grp.tokensDone 0x80 = true ∧
    (withGrp fun x => { x with kCount := [(7, 1)] }).grp.tokensDone 0x80 = false ∧
    sM.acquireOut sM.curGrp = false ∧ sM.releaseWait 5 = none := by decide +kernel

/-- Reads of a wait: global, of the other team of the cohort, of a rank that no team has; a counter on which nothing of the
group is under way. -/
theorem wit_waits : let ps := sM.scalarPieces mGlob Mask.full 8
    let s : State := { sM with teams := sM.teams ++ [(1, ({ st := .resident, placed := true } : Team))] }
    sM.rankHeld sM.curGrp (sM.ctrLoc mGlob) = false ∧ s.rankHeld s.curGrp (s.ctrLoc mRem) = false ∧
    (match sM.lookup .load ps with
      | (q :: [], []) => !sM.orderHeld .load [q] && (((sM.touchPages .load [q]).counterStep sM.curGrp
          (.glob (sM.mSum mGlob 0))).promoteFor sM.curGrp mGlob.rmt).counterValue sM.curPart (.glob (sM.mSum mGlob 0)) == some 0
      | _ => false) = true ∧
    s.mTarget mRem = .rem 1 ∧ (s.team (teamKey 0 1)).st = .resident ∧ s.counterAbsent (s.ctrLoc mRem) = false ∧
    (let a := s.modTeam 1 fun x => { x with landing := [((sM.mSum mRem 0) % 4096 / 128, 1)] }
     a.mTarget mRem = .rem 1 ∧ a.counterAbsent (a.ctrLoc mRem) = true) ∧
    sM.mTarget mGone = .gone ∧ (sM.team (teamKey 0 sM.curGrid.nteams)).st = .pending := by decide +kernel

/-- The atomics: one lane each, since the lanes of a scalar base share their address; a float atomic of a deterministic grid
by the team that holds the token and by one that does not. -/
def sDet (tok : Nat) : State := sM.modGrid 0 fun x => { x with record := x.record.set 0 0x0118040000400000, token := tok }
theorem wit_Atomics : okMem sM h0 mGlob (mGlob.addrRegs ++ mGlob.atomRegs false) = true ∧
    okMem sM h0 mGlob (mGlob.addrRegs ++ mGlob.atomRegs true) = true ∧
    (let ps : List Piece := (Mask.full).lanes.map fun l => { lane := l, idx := 0, at_ := sM.mSum mGlob l, n := mGlob.size }
     (∀ p ∈ ps, p.at_ % mGlob.size = 0) ∧ (sM.lookup .store ps).2 = [] ∧
     (∀ x ∈ (sM.lookup .store ps).1, x.mt = 0)) ∧
    sM.curGrid.det = false ∧ (sDet 0).curGrid.det = true ∧ (sDet 0).floatWay false 128 = .direct ∧
    (sDet 1).floatWay false 128 = .buffer ∧ { mGlob with sx := true }.sx = true := by decide +kernel

/-- Queue 3 of the partition: entries of 64 bytes at 0x100000, pushed and popped by groups. -/
def queue3 : Queue := { base := 0x100000, log2n := 4, esz := 0, cons := 1, prod := 1, en := true, ownv := true
                        heada := 0x100000, taila := 0x100008 }
def sQ (f : Queue → Queue) : State := { withS [(1, 3), (2, 0x40)] with queues := [(3, f queue3)] }
def mQ : MF := { mf with vd := 1, sb := 2, spc := 1, rk := 5 }
theorem wit_QueueWords : let s := sQ id
    let v := s.src.sget 1
    let ps := State.entryPieces (s.entryAt mQ) (s.queue 3).size
    s.entryTrap mQ Mask.full v .load = none ∧ s.entryTrap mQ Mask.full v .store = none ∧ s.releaseWait 5 = none ∧
    s.queueRefuses v true = false ∧ s.queueRefuses v false = false ∧
    (sQ fun x => { x with en := false }).queueRefuses v true = true ∧
    (sQ fun x => { x with cons := 0 }).queueRefuses v false = true ∧ s.absentLines ps = [] ∧
    anyPois ((s.readSpads ps).get 0 []) = false ∧ s.flights.any (State.isPush 3) = false ∧
    ((s.countOver ps).releaseBy s.curGrp 5).pushRoom 3 0 = true ∧ s.qHeld 3 ≤ (s.queue 3).count ∧
    s.landRoom [2, 3] = true ∧ s.curGrid.reca = none ∧
    (let y : State := { s with mem := (0x100008, 17) :: mem0 }
     (y.queue 3).count < y.qHeld 3 ∧ y.queueRefuses v false = false ∧ y.entryTrap mQ Mask.full v .store = none) := by
  decide +kernel

/-- An entry in global memory, at 0x20000. -/
theorem wit_QueueWords_global : let s := { sQ id with groups := (withS [(1, 3), (2, 0x20000)]).groups }
    let f := { mQ with spc := 0 }
    s.entryTrap f Mask.full 3 .load = none ∧ s.entryTrap f Mask.full 3 .store = none ∧ s.entryAt f = 0x20000 ∧
    (s.xlat s.curCore s.curPart 0x20000 .load).isSome = true ∧ s.queueRefuses 3 true = false ∧ s.queueRefuses 3 false = false := by
  decide +kernel

theorem wit_QueueWords_busy : let s := { sQ id with flights := [{ id := 0, g := 0, t := 1, grp := 0, body := .push 3 0 [] 5 }] }
    s.flights.any (State.isPush 3) = true ∧ s.releaseWait 5 = none ∧ s.acquireOut s.curGrp = false := by decide +kernel

/-! ### Witnesses: copies and engine words -/

/-- A copy of 4 bytes by lane 0 from 0x20000 to the scratchpad or to 0x30000; a rank mask of both teams in s4; a version word's
address in s6; a tile of 1 row and 1 column of 4-byte steps. -/
def sC : State := { withS [(1, 0x20000), (2, 0x100), (3, 0x30000), (4, 3), (6, 0x30100), (8, 0x10001), (9, 0x400000004)] with
  cur := { s0.cur with lanes := 1 } }
def cG2S : CP := { cp with ssrc := 1, sdst := 2, sz := 2, tk := 7, vsrc := 15, vdst := 15 }
def cG2G : CP := { cG2S with sdst := 3 }
def okLane (f : CP) (gs gd : Bool) : Bool :=
  let es := sC.laneElems f 1
  let p := sC.copyPlan gs gd es
  (sC.copyTrap f gs gd es (sC.copyPois f 1)).isNone && sC.landRoom p.lines && sC.channelRoom 0 p.ops.length &&
    sC.pltRoom p.pages && !p.ops.isEmpty
theorem wit_Copies_lane : okLane cG2S true false = true ∧ okLane { cG2S with ssrc := 2, sdst := 3 } false true = true ∧
    okLane cG2G true true = true ∧ okLane { cG2S with ssrc := 2 } false false = true ∧ sC.activeLanes h0 = 1 ∧
    sC.tokenRoom sC.curGrp 7 = true ∧ okIssues sC h0 cG2S.tw = true ∧ sC.acquireOut sC.curGrp = false ∧
    (withLanes 0).activeLanes h0 = 0 ∧ below sC [cG2S.vsrc, cG2S.vdst] = true := by decide +kernel

theorem wit_Copies_checked : let f := { cG2G with se := 6 }
    let es := sC.laneElems f 1
    let ver := (sC.src.sget 6).toNat
    sC.copyTrap f true true es 0 = none ∧ ver % 8 = 0 ∧ (sC.copySide true .store ver).isSome = true ∧ sC.copyPois f 1 = 0 ∧
    sC.channelRoom 0 1 = true ∧ sC.pltRoom (distinct ((sC.copyPlan true true es).pages ++ [3])) = true := by decide +kernel

theorem wit_Copies_tile : let f := { cp with ssrc := 1, sdst := 2, se := 8, sz := 1 }
    let es := sC.cptElems f 0
    let p := sC.copyPlan true false es
    sC.cptDyn h0 f = none ∧ sC.grp.entering = none ∧ sC.copyFails true false es = [] ∧ sC.landRoom p.lines = true ∧
    sC.pltRoom p.pages = true ∧ sC.channelRoom 0 p.ops.length = true ∧ p.ops ≠ [] ∧ f.size = 2 ∧
    (sC.src.sget 9).toNat % pow2 32 % 2 = 0 ∧ (sC.src.sget 9).toNat / pow2 32 % 2 = 0 := by decide +kernel

theorem wit_Copies_multi : let f := { cG2S with se := 4 }
    let es := sC.laneElems f 1
    sC.copyTrap f true false es (sC.copyPois f 1) = none ∧ sC.pltRoom (sC.copyPlan true false es).pages = true ∧
    (sC.src.sgetPois 4).getLsbD 0 = false ∧ sC.channelRoom 0 (sC.copyPlan true false es).ops.length = true ∧
    ((List.range 16).filter fun r => ((sC.src.sget 4).toNat % 65536).testBit r).filterMap sC.cpmTeam ≠ [] ∧
    ((List.range 16).filter fun r => ((sC.src.sget 0).toNat % 65536).testBit r).filterMap sC.cpmTeam = [] := by decide +kernel

/-- Shape record 0: 1 row, 1 column, 1 step, of FP8E4 in slot 1 against itself. -/
def sE : State := withGrp fun x => { x with
  shp := [(0, 0x400), (1, 0x0001000000000000), (2, 0x0001000000000000)]
  regs := { x.regs with s := [(1, 0x200), (2, 0x100000004)] } }
def xMma : XF := { xf with acd := 3, fsa := 1, fsb := 1, imm8 := 0x80, tk := 7, tw := 0xFF }
theorem wit_MatrixWords : let sh := shapeOf (sE.shapeWords 0)
    let fa := sE.fslot 1
    okIssues sE h0 xMma.tw = true ∧ xMma.acd.toNat < sE.curGrid.acct ∧ sE.matUnbound xMma = none ∧
    aSlotFmt (slotFmt fa) = true ∧ bSlotFmt (slotFmt fa) = true ∧ sh.okMma fa fa false false = true ∧
    sE.shapePois xMma = none ∧ ((sE.modGrp fun x => { x with shpPois := [(1, 1)] }).shapePois xMma).isSome = true ∧
    (sE.core 0).baton = none ∧ (sE.core 0).engq.length < 16 ∧ sE.tokenRoom sE.curGrp 7 = true ∧
    (let sa := sE.sreg 1
     let sb := sE.sreg 2
     sb.bits 63 48 = 0 ∧ sb.bits 47 32 ≠ 0 ∧ sh.fits = true ∧ sa.toNat % 4 = 0 ∧ sb.bits 31 0 % 4 = 0 ∧
     sE.src.sgetPois 1 = 0 ∧ sE.src.sgetPois 2 = 0 ∧ slotBlock fa = true ∧ slotSmth fa = false ∧ ¬ fmtBits (slotFmt fa) < 8 ∧
     sE.landRoom (rangeLines 4096 ((region sh).map fun e => (moveAt sa sb 4 e.1 e.2, 4))) = true ∧
     sE.landRoom (rangeLines 4096 (moveRanges sh sa sb 0 2 (slotFmt fa) true)) = true ∧
     sa.hi = 0) := by decide +kernel

/-! ### Witnesses: tile tasks, collectives, carafe, stochastic field, system words

Records in memory lie at 0x40000, which s1 holds. -/

def withRecord (qs : List W64) (l : List (Nat × W64)) : State :=
  let s := withS ((1, 0x40000) :: l)
  { s with mem := Memory.setBytes s.mem 0x40000 (qs.flatMap fun q => leBytes 8 q.toNat) }

/-- A card of one element with slots 1, 1 and 0; one whose C slot is not bound. -/
def card1 : List W64 := [0x0102400000000000, 0x000100010001] ++ List.replicate 22 0
def card2 : List W64 := [0x0102780000000000, 0x000100010001] ++ List.replicate 22 0
def okCard (q : List W64) (P : Card → State → Bool) : Bool :=
  let s := withRecord q []
  match s.cleanRecord 1 192 64 with
  | .ok (_, q) => P { q := q } s
  | .error _ => false
theorem wit_ttq : (okCard card1 fun c s => c.fieldsOk s.curGrid && !c.slotsBad s.curGrid none &&
      decide ((distinct ((c.spans s.curGrid).flatMap fun x => pagesOf x.at_ x.n)).length ≤ 1024) &&
      (s.spanFail (c.spans s.curGrid)).isNone && s.tokenRoom s.curGrp 7 && s.pinRoom (s.spanPins (c.spans s.curGrid)) &&
      decide ((s.core 0).tts.length < 32)) = true ∧
    (okCard card2 fun c s => c.fieldsOk s.curGrid && c.slotsBad s.curGrid none) = true ∧
    (okCard (List.replicate 24 0) fun c s => !c.fieldsOk s.curGrid) = true := by decide +kernel

theorem wit_nzscan : let s := withS [(1, 0x100), (2, 0x200), (3, 65536)]
    let f := { xf with sa := 1, sb := 2, sc := 3 }
    1 ≤ (s.sreg 3).toNat ∧ (s.sreg 3).toNat ≤ 65536 ∧ (s.sreg 1).toNat % State.scanSize f = 0 ∧ (s.sreg 2).toNat % 4 = 0 ∧
    s.addrPois [1, 2] = none ∧ (s.core 0).nzsq.length < 8 ∧ s.landRoom [4, 31] = true := by decide +kernel

def coll0 (st : Option W64) : Coll :=
  { part := 0, g := 0, t := 0, grp := 0, tk := 0, desc := [], peers := [], pages := [], status := st }
theorem wit_coll : (let s := withRecord (List.replicate 8 0) []
      match s.cleanRecord 1 64 64 with
      | .ok (_, q) =>
        let c : Coll := { coll0 none with desc := q, started := s.cleElapsed }
        let sp : List Span := [{ at_ := c.stata, n := 8, acc := .store }, { at_ := c.cnta, n := 8, acc := .store }]
        !c.fieldsOk && (s.spanFail sp).isNone && (s.freeHandle s.curPart).isSome && !s.accessesOut s.curGrp &&
          s.pinRoom (s.spanPins sp)
      | .error _ => false) = true ∧
    s0.coll 15 = none ∧ (let s := { s0 with colls := [(15, coll0 (some 0))] }
      (s.coll 15).bind Coll.status = some 0) ∧ (coll0 none).status = none ∧ (coll0 none).g = s0.cur.g ∧
    (coll0 none).orphan = false := by decide +kernel

/-- A broadcast of one FP32 element by this device, rank 0 of two, over port 0. -/
def coll1 : List W64 := [0x0400000010000000, 0x50000, 0x60000, 1, 0x70000, 0x80000, 0x80008, 7]
theorem wit_coll_sent : (let s := (withRecord coll1 []).modPart 0 fun x => { x with ports := 1 }
      match s.cleanRecord 1 64 64 with
      | .ok (s1, q) =>
        let c : Coll := { coll0 none with desc := q, started := s.cleElapsed }
        let pt : Span := { at_ := c.peersA, n := 4 * c.nrank, acc := .load }
        let m := s.spanPins c.spans
        let s2 := (s1.touchSpans (pt :: c.spans)).pinAll m
        c.fieldsOk && (s.spanFail [pt]).isNone && Coll.peerOk 0 && s.portOwner (c.peerPort 1) == some 0 &&
          (s.spanFail c.spans).isNone && s.pinRoom m && !anyPois (s2.pinnedRead m c.src c.srcBytes)
      | .error _ => false) = true := by decide +kernel

/-- A configuration of one slot of one position of 16 FP32 elements; one whose region is over 128 MiB. -/
def crf1 : List W64 := [0x0010000200100000, 0x100000, 0x110000, 0x0000000100000080, 0x120000, 0x130000, 0, 0]
def crf2 : List W64 := [0x4000001080000000, 0x100000, 0x110000, 0x0000000100010000, 0x120000, 0x130000, 0, 0]
def cfg0 : CrfCfg := { grid := 0, record := crf1, pages := [] }
def slot0 : CrfSlot := { tok := 7, k := 1, ids := [0], gates := [0x3F800000], gatePois := false, deadline := some 100, stamp := 0 }
def withCarafe (l : List (Nat × W64)) (x : Carafe) : State := (withS l).modCluster 0 fun c => { c with carafe := x }
theorem wit_crfcfg : (let s := withRecord crf1 []
      let c : CrfCfg := cfg0
      c.fieldsOk && decide (c.region ≤ 134217728) && (s.spanFail c.spans).isNone && s.pinRoom (s.spanPins c.spans) &&
      match s.recordAt 1 64 64 false with
      | .ok (_, q, pois) => q == crf1 && !pois
      | .error _ => false) = true ∧
    (let c : CrfCfg := { cfg0 with record := crf2 }
     c.fieldsOk = true ∧ 134217728 < c.region) ∧
    ({ cfg0 with record := List.replicate 8 0 } : CrfCfg).fieldsOk = false ∧
    ((withRecord crf1 []).sreg 1 ≠ 0 ∧ s0.sreg 1 = 0 ∧ (s0.carafe 0).cfg = none) := by decide +kernel

theorem wit_crfroute : let s := withCarafe [(1, 0x100)] { cfg := some cfg0 }
    let rs := State.routeCodes (s.carafe 0) cfg0 [] [{ s.routeAt 0 0x100 with k := 1, tok := 7 }]
    (∀ l, l < 128 → (s.sreg 1 + (s.src.lane 15 l).signExtend 64).toNat % 64 = 0) ∧ s.src.sgetPois 1 = 0 ∧
    s.src.vgetPois 15 = 0 ∧ s.absentLines [{ lane := 0, idx := 0, at_ := 0x100, n := 64 }] = [] ∧ rs.length = 1 ∧
    (State.routeSlots (s.carafe 0) cfg0 []).isSome = true ∧ (s0.carafe 0).cfg = none := by decide +kernel

theorem wit_crfdep : let s := withCarafe [(1, 0x40000), (2, 7)] { cfg := some cfg0 }
    let f := { xf with sa := 1, sb := 2, sc := 3, tk := 7 }
    let sp : List Span := [{ at_ := 0x40000, n := 64, acc := .load }]
    s.depDyn f = none ∧ s.tokenRoom s.curGrp 7 = true ∧ (s.sreg 3).getLsbD 15 = false ∧
    (s.physCluster s.curPart 0).getD 0 = 0 ∧ cfg0.hid = 16 ∧ fmtBits cfg0.dfmt / 8 = 4 ∧ s.spanFail sp = none ∧
    s.pinRoom (s.spanPins sp) = true ∧ (s0.carafe 0).cfg.any (fun k => k.grid == 0) = false ∧ s0.depDyn f = none ∧
    (let y := withCarafe [(1, 0x40002), (2, 7)] { cfg := some { cfg0 with grid := 1 } }
     y.depDyn f = none ∧ (y.carafe 0).cfg.any (fun k => k.grid == 0) = false ∧ (y.sreg 1).toNat % (fmtBits cfg0.dfmt / 8) ≠ 0) := by
  decide +kernel

/-- A deposit to a peer, through port 0 of the partition. -/
theorem wit_crfdep_peer : let s : State := (withS [(1, 0x40000), (2, 0x0000100000000007), (3, 0x8000)]).modPart 0 fun x =>
      { x with ports := 1 }
    let f := { xf with sa := 1, sb := 2, sc := 3, tk := 7 }
    s.depDyn f = none ∧ (s.sreg 3).getLsbD 15 = true ∧ (∀ n ∈ [1, 2, 3], s.src.sgetPois n = 0) := by decide +kernel

theorem wit_crfdrop : let x : Carafe := { cfg := some cfg0, slots := [(0, slot0)] }
    let y : Carafe := { cfg := some cfg0, slots := [(0, { slot0 with closed := some 2 })] }
    ((withCarafe [(1, 7)] x).sreg 1).hi = 0 ∧ (State.slotOf x 7).any (fun e => State.slotOpen e.2) = true ∧
    (State.slotOf y 7).any (fun e => State.slotOpen e.2) = false ∧ x.slots.any (fun e => State.slotOpen e.2) = true ∧
    y.slots.any (fun e => State.slotOpen e.2) = false := by decide +kernel

/-- A card of one variable of degree 1 with its arrays at 0x50000 and 0x60000. -/
def sfaCard1 : List W64 := [0x10001, 0x50000, 0x60000, 0, 0, 0, 0, 0]
def withSfa (l : List (Nat × W64)) (x : Sfa) : State := (withS l).modCluster 0 fun c => { c with sfa := x }
theorem wit_sfaload : (let s := withRecord sfaCard1 []
      let sp := (sfaArrays sfaCard1).map fun r => ({ at_ := r.1, n := r.2, acc := .load } : Span)
      sfaCardOk sfaCard1 && (s.spanFail sp).isNone && s.pinRoom (s.spanPins sp) &&
      match s.recordAt 1 64 64 false with
      | .ok (_, q, pois) => q == sfaCard1 && !pois
      | .error _ => false) = true ∧
    (s0.sfa 0).owner = none ∧ (s0.sfa 0).owner ≠ some s0.cur.g ∧
    ((withSfa [] { owner := some 0 }).sfa 0).owner = some 0 ∧ ((withSfa [] { owner := some 5 }).sfa 0).owner ≠ some 0 ∧
    (s0.sfa 0).queue.length < 16 ∧ s0.tokenRoom s0.curGrp 7 = true ∧ s0.src.sgetPois 1 = 0 := by decide +kernel

theorem wit_sfaCard : (match (withRecord sfaCard1 []).sfaCard 1 with
      | .ok c => c.1 == sfaCard1 && !c.2
      | .error _ => false) = true ∧ s0.earlierDone 0 0 0 s0.nextId = true ∧ s0.sreg 0 = 0 ∧
    (withRecord sfaCard1 []).sreg 1 ≠ 0 ∧ ((withRecord sfaCard1 []).sreg 1).toNat % 64 = 0 := by decide +kernel

theorem wit_sfaclamp_read : let s := withSfa [(1, 0x40000), (2, 0x40010)] { owner := some 0, cfg := true, nvar := 9 }
    let sp : List Span := [{ at_ := 0x40000, n := 2, acc := .load }, { at_ := 0x40010, n := 2, acc := .load }]
    let out : List Span := [{ at_ := 0x40000, n := State.sfaOutBytes 0 9, acc := .store }]
    ceilDiv ((State.sfaN (s.sfa 0)).getD 0) 8 = 2 ∧ s.spanFail sp = none ∧ s.pinRoom (s.spanPins sp) = true ∧
    (s.sreg 1).toNat % 16 = 0 ∧ s.spanFail out = none ∧ s.pinRoom (s.spanPins out) = true := by decide +kernel

/-- The handler of partition 0 names group 0, parked for a trap. -/
def sY : State := { s0.modGrp fun x => { x with park := some .trap } with
  cur := { s0.cur with handler := some 0 }
  quads := []
  parts := s0.parts.modify 0 {} fun x => { x with page := { hsel := 0, hbusy := true } } }
theorem wit_SystemWords : s0.cur.handler = none ∧ sY.cur.handler = some 0 ∧ sY.named 0 ≠ [] ∧
    sY.cmdWaits (sY.named 0) = false ∧
    (∀ e ∈ [(0, 0), (1, 0x11), (2, 0x11), (4, 0), (9, 0)], sY.cmdDenied e.1 e.2 (sY.named 0) = false) ∧
    (sY.named 0).any sY.running = false ∧ (∀ k ∈ sY.coresOfPart 0, (sY.core k).sideLog = []) ∧ sY.coresOfPart 0 ≠ [] := by
  decide +kernel

/-! ### Witnesses: the device's own steps (power, ports, host, mailbox) -/

def withEv (x : Ev) : State := { s0 with ev := x }
def withCluster (f : Cluster → Cluster) : State := s0.modCluster 0 f

theorem wit_PowerAndTemperature : State.reset.power.pwrOk = false ∧ s0.power.pwrOk = true ∧
    s0.power.regOff.getLsbD 31 = false ∧
    (let s := withEv { reading := 460 }
     s.fuses.rGrade = false ∧ (460 : Int) ≤ s.ev.reading ∧ (400 : Int) ≤ s.ev.reading) ∧
    (∀ v ∈ ((withCluster fun x => { x with temps := [388, 388, 388, 388, 388, 388] }).cluster 0).temps, v ≤ (400 : Int) - 12) ∧
    (∃ v ∈ ((withCluster fun x => { x with temps := [389, 0, 0, 0, 0, 0] }).cluster 0).temps, (400 : Int) - 12 < v) ∧
    (let s := { withCluster (fun x => { x with temps := [61, 0, 0, 0, 0, 0] }) with
        fuses := { rGrade := true }, power := { s0.power with spreadFor := 1000000001 } }
     (∃ a ∈ s.coreTemps, ∃ b ∈ s.coreTemps, 60 < a - b) ∧ 1000000000 < s.power.spreadFor ∧ s.power.spreadTold = false) ∧
    (let x := (withCluster fun x => { x with voltMoving := true, joining := some 3, freqTo := 0x34 }).cluster 0
     x.voltMoving = true ∧ x.joining = some 3 ∧ x.relock = none ∧ x.freq ≠ x.freqTo) ∧
    (let x := (withCluster fun x => { x with relock := some 7, elapsed := 2007 }).cluster 0
     x.relock = some 7 ∧ 7 + 2000 ≤ x.elapsed) := by decide +kernel

theorem wit_Sideband : (withEv { smbTo := 0x60 }).ev.smbTo = 0x60 + s0.power.smbAddr.setWidth 7 ∧
    (withEv { wr := some 7, pec := some (State.smbPec [0xC0, 5, 7]) }).ev.pec = some (State.smbPec [0xC0, 5, 7]) ∧
    (0 : Byte) ≠ State.smbPec [0xC0, 5, 7] ∧ s0.cleElapsed % 1000000 = 0 ∧ s0.ev.wr = none ∧ 5 < (6 : Byte).toNat ∧
    ((withEv { flag := true, code := 0 }).ev.flag = true ∧ (withEv { flag := true, code := 0 }).ev.code ≠ 5) := by decide +kernel

def flitG (ftype : BitVec 4) (len : BitVec 8) : Flit :=
  { fecOk := true, fecFixed := 0, fecBad := 0, ftype := ftype, seq := 0, ackseq := 0, ackv := true, vc := 2, dst := 0, src := 0, len := len
    tag := 0, low := 0, payload := [1], crc := 0 }
def sealed (f : Flit) : Flit := { f with crc := Machine.crc32 f.body }
theorem sound_sealed (f : Flit) (h : f.fecOk = true) : (sealed f).sound = true := by
  show (f.fecOk && Machine.crc32 f.body == Machine.crc32 f.body) = true
  rw [h, Bool.true_and]
  exact beq_self_eq_true _
def flit0 (ftype : BitVec 4) (len : BitVec 8) : Flit := sealed (flitG ftype len)
theorem sound_flit0 (a : BitVec 4) (b : BitVec 8) : (flit0 a b).sound = true := sound_sealed _ rfl
def out0 : OutFlit := { port := 47, ftype := 1, seq := 0, ackseq := 0, ackv := false, vc := 0, dst := 0, src := 0, len := 1
                        tag := 0, payload := [] }
theorem wit_Ports : State.fnMay .pf (s0.portOwner 47) = true ∧ (s0.port 47).en = false ∧ (s0.port 47).stream = false ∧
    s0.streamRing 47 = none ∧ (flit0 1 240).validData = true ∧
    { flit0 1 240 with fecOk := false }.fecOk = false ∧ (flit0 1 240).seq ≠ 255 ∧
    [out0].findIdx? (fun o => o.seq == (flit0 2 0).ackseq) = some 0 ∧
    ([out0].dropWhile fun o => o.seq != (flit0 3 0).ackseq) ≠ [] ∧
    (flit0 5 1).len.toNat = 1 ∧
    (let s := { s0.modPort 47 (fun x => { x with en := true, up := true, stream := true, queue := 3 }) with
        queues := [(3, { queue3 with esz := 2, prod := 2 })] }
     s.streamRoom 47 = true) ∧ s0.streamRoom 47 = false ∧ s0.boot.recovery = false ∧
    (let s := { s0.modPart 0 (fun x => { x with ports := 0x800000000000 }) with
        ports := [(47, { stream := true, queue := 3 })], queues := [(3, { queue3 with log2n := 8, esz := 2, prod := 2 })] }
     s.portOwner 47 = some 0 ∧ (s.streamRing 47).any s.pltRoom = true) ∧
    (let x : Port := { en := true, up := true, unacked := 15, replays := 7, replaySeq := 9, retry := [{ out0 with seq := 9 }] }
     x.unacked = 15 ∧ x.replays = 7 ∧ x.replaySeq = (9 : BitVec 8) ∧ x.backlog = [] ∧
     (x.retry.dropWhile fun o => o.seq != 9) ≠ []) ∧
    (let e : StreamEntry := { queue := 3, bytes := [], left := 0 }
     e.left = 0 ∧ { e with left := 1 }.left ≠ 0) := by decide +kernel

/-- The one flit of a deposit for position 0 of token 7, from a port of the partition to its cluster 0, whose carafe is configured. -/
theorem wit_Ports_deposit : let s := (withCarafe [] { cfg := some cfg0 }).modPart 0 fun x => { x with ports := 0x800000000000 }
    let f := sealed { flitG 1 20 with vc := 3, payload := [7, 0, 0, 0, 0, 0, 0, 0, 1, 0] ++ List.replicate 10 0 }
    let b := fun (i k : Nat) => leNat ((f.payload.drop i).take k)
    f.validData = true ∧ f.seq = (s.port 47).rxSeq ∧ f.vc ≠ 2 ∧ s.portOwner 47 = some 0 ∧ s.physCluster 0 (b 5 1) = some 0 ∧
    s.carafeOf 0 0 = true ∧ 16 < f.len.toNat ∧ b 10 6 = 0 ∧ b 4 1 ≤ 7 ∧ b 6 2 < b 8 2 ∧ b 6 2 + 1 = b 8 2 ∧ s.flights = [] := by
  decide +kernel

theorem wit_rxRoom : ([] : List Flit).length < Config.rxRoom := Nat.succ_pos _

theorem wit_BootAndAttestation : (let b : Boot := { phase := 1 }
      b.phase = 1 ∧ b.phase < 5 ∧ b.recovery = false) ∧ ({ recovery := true } : Boot).recovery = true ∧
    (withEv { v := 1 }).ev.v.getLsbD 0 = true ∧ (withEv { fn := .vf 7 }).ev.fn = .vf 7 := by decide +kernel

/-- A mailbox in the middle of a command on partition 1, with arguments: cluster 1, hart 1, 1 GiB at 1 GiB. -/
def sMb (code : Byte) (args : List (Nat × W64)) : State := { s0 with
  boot := { s0.boot with phase := 4 }, mb := { busy := true, runs := code, runsPart := 1, args := args } }
def mbOk : List (Nat × W64) := [(0, 2), (1, 2), (2, 0x40000000), (3, 0x40000000)]
theorem wit_Mailbox_create : (sMb 1 [(0, 0x100000000)]).resReserved = true ∧ (sMb 1 mbOk).resReserved = false ∧
    (sMb 1 mbOk).resTaken 1 ((sMb 1 mbOk).resPart { exists_ := true }) = false ∧
    (sMb 1 mbOk).resRange 1 ((sMb 1 mbOk).resPart { exists_ := true }) = false ∧
    (let s := sMb 1 [(0, 1), (1, 2), (2, 0x40000000), (3, 0x40000000)]
     s.resTaken 1 (s.resPart { exists_ := true }) = true) ∧
    (let s := sMb 1 [(0, 2), (1, 2), (2, 1), (3, 0x40000000)]
     s.resTaken 1 (s.resPart { exists_ := true }) = false ∧ s.resRange 1 (s.resPart { exists_ := true }) = true) ∧
    ((sMb 1 mbOk).part 1).exists_ = false ∧ ((sMb 1 mbOk).part 1).stopping = false ∧ (sMb 7 mbOk).mb.rsv = false ∧
    (sMb 1 mbOk).monitorUp = true ∧ ({ sMb 1 mbOk with boot := { phase := 3 } } : State).monitorUp = false := by
  decide +kernel

theorem wit_Mailbox_modify : (let s := (sMb 2 mbOk).modPart 1 fun x => { x with exists_ := true }
     let z := s.resPart (s.part 1)
     s.resTaken 1 z = false ∧ s.resRange 1 z = false ∧ (s.part 1).running = false ∧ (s.part 1).exists_ = true) ∧
    (let s := (sMb 2 [(0, 1), (1, 2)]).modPart 1 fun x => { x with exists_ := true }
     s.resTaken 1 (s.resPart (s.part 1)) = true) := by decide +kernel

theorem wit_Mailbox_start : (0x3FFFFFFF : W64).toNat < 0x40000000 ∧ 0x40000000 + 0x40000000 ≤ (0x80000000 : W64).toNat ∧
    ((sMb 6 [(0, 0x10000000000)]).mbArg 0).bits 63 40 ≠ 0 ∧ ((sMb 6 [(0, 0x10000)]).mbArg 0).bits 63 40 = 0 ∧
    ((sMb 6 [(0, 0x10000)]).mbArg 0).bits 15 0 = 0 ∧ 7 < (8 : Byte).toNat := by decide +kernel

theorem wit_partitionStopped : let s := { (s0.modPart 0 fun x => { x with stopping := true }).modTeam 0 (fun x => { x with st := .exited }) with quads := [] }
    (s.part 0).stopping = true ∧ (s.stopWork 0).2 = true := by decide +kernel

def hart1 : Hart := { running := true, part := some 0, mode := .vs, x := [(10, 0x4000), (16, 1), (17, 0x09533941)] }
theorem wit_ImageServices : let s := { s0 with harts := [(1, hart1)], ev := { hart := 1 } }
    let a := (s.hart s.ev.hart).xget 10
    (s.hart s.ev.hart).xget 17 = 0x09533941 ∧ ((s.hart s.ev.hart).xget 16).toNat = 1 ∧
    (s.hart s.ev.hart).part = some 0 ∧ (s.hart s.ev.hart).running = true ∧ (s.hart s.ev.hart).mode = .vs ∧ 6 < (7 : W64).toNat ∧
    a.toNat % 16384 = 0 ∧ s.inHbm 0 a.toNat 16384 = true ∧ s.inHbm 0 0x10000000 16384 = false ∧
    (s.part 0).harts.getLsbD 0 = true ∧ (s.part 0).harts.getLsbD 15 = false ∧
    (0x10000 : W64).bits 15 0 = 0 ∧ (0x10000 : W64).bits 63 57 = 0 ∧ (1 : W64).bits 15 0 ≠ 0 ∧ 4 < (5 : W64).toNat := by
  decide +kernel

theorem calm_s0 : s0.Calm := by
  intro gk l want scp rmt
  have h : s0.groups.find gk = none ∨ s0.groups.find gk = some { budget := 16 } := by
    show SMap.find [(0, ({ budget := 16 } : Group))] gk = none ∨ SMap.find [(0, ({ budget := 16 } : Group))] gk = _
    by_cases hk : (0 : Nat) = gk
    · subst hk; exact .inr rfl
    · exact .inl (by simp [SMap.find, hk])
  unfold State.group SMap.get
  rcases h with h | h <;> rw [h] <;> exact nofun
theorem wit_HostInterface : s0.boot.recovery = false ∧ s0.ev.fn = .pf ∧ s0.Calm ∧
    (let e : Ev := { off := devBytes - 8, len := 8 }
     s0.pfWbase.toNat + e.off + e.len ≤ devBytes ∧ devBytes < s0.pfWbase.toNat + (e.off + 1) + e.len) ∧
    33554431 + [(0 : Byte)].length ≤ 33554432 := ⟨by decide +kernel, by decide +kernel, calm_s0, by decide +kernel, by decide⟩
/-- A function of a partition, whose window maps its accesses, and one whose window has no page there; accesses past the window. -/
theorem wit_HostInterface_vf : State.fnPart (.vf 1) = some 0 ∧ (s0.bar4Place (.vf 1) 0x20000 8 false).isSome = true ∧
    s0.bar4Place (.vf 1) 0x990000 8 false = none ∧ (s0.part 0).exists_ = true ∧ 0x20000 + 8 ≤ 274877906944 ∧
    274877906944 < 274877906937 + 8 := by decide +kernel

theorem wit_queues : let s := { s0 with queues := [(3, queue3)] }
    State.fnMay .pf (s.queueOwner 3) = true ∧ State.fnMay (.vf 2) (s.queueOwner 3) = false ∧ 3 < 4096 ∧
    (s.queue 3).en = true ∧ ({ ownv := true, log2n := 4 } : Queue).en = false ∧ State.queueFit { ownv := true, log2n := 3 } = false ∧
    State.queueFit queue3 = true ∧ (s.queuePages queue3).isSome = true ∧ s.pltRoom [16] = true ∧
    ({ queue3 with prod := 0 } : Queue).prod = 0 ∧ (1 : W64).toNat ≤ queue3.count ∧ queue3.count < (17 : W64).toNat := by
  decide +kernel

/-! ### Witnesses: launch, dispatch, pre-emption, the steps of a core, the draft -/

/-- A launch record that passes every check. -/
def record0 : List W64 :=
  [0x0110040000400000, 0x10000, 0, 0x1042042100000000, 0x4400000420000000, 0, 0x30000, 1, 0, 0x10000, 4, 0xA40088008D008000, 0, 0,
    0, 0]
def withRec (f : Grid → Grid) : State := s0.modGrid 0 fun x => f { x with record := record0 }
/-- A record of one team of one group, its bytes at 0x100000, and page tables for the pages that it names. -/
def record1 : List W64 := [0x110000000100000, 0x10000, 0, 0x841000000000000, 0x4400000000000000, 0, 0x30000, 1, 0, 0x10000, 4, 0, 0, 0, 0, 0]
def bytes1 : Memory := [
    (0x100002, 16), (0x100006, 16), (0x100007, 1), (0x10000A, 1), (0x10001E, 65), (0x10001F, 8), (0x100027, 68),
    (0x100032, 3), (0x100038, 1), (0x10004A, 1), (0x100050, 4)]
def map1 : Memory := [
    (0x200000, 1), (0x200001, 64), (0x200002, 32), (0x204000, 1), (0x204001, 96), (0x204002, 32), (0x206000, 1),
    (0x206001, 128), (0x206002, 32), (0x208000, 63), (0x208008, 63), (0x20800A, 1), (0x208010, 63), (0x208012, 2), (0x208018, 63),
    (0x20801A, 3), (0x208020, 63), (0x208022, 4), (0x208080, 63), (0x208082, 16)]
/-- Queue 3 launches: one record waits in its first slot. -/
def sLaunch (bs : Memory) : State :=
  { s0.modPart 0 (fun x => { x with clsok := 1 }) with
    queues := [(3, { base := 0x100000, log2n := 4, esz := 1, en := true, ownv := true, heada := 0x100800, taila := 0x100808 })]
    mem := bs ++ (0x100808, 1) :: map1 }
def rec3 (qs : List W64) : Grid := { part := 0, queue := 3, record := qs }
theorem wit_record : ((sLaunch bytes1).recordGrid 0 3 0x100000).record = record1 ∧
    ((sLaunch []).recordGrid 0 3 0x100000).record = List.replicate 16 0 := by decide +kernel
theorem wit_launch : (sLaunch bytes1).launchQueue 0 = some 3 ∧ (sLaunch bytes1).qHeld 3 ≤ ((sLaunch bytes1).queue 3).count ∧
    (sLaunch bytes1).tableRoom 0 = true ∧ ((sLaunch bytes1).part 0).stopping = false := by decide +kernel
theorem wit_recordCode : (sLaunch bytes1).recordCode (rec3 record1) = 0 ∧ s0.recordCode (rec3 (List.replicate 16 0)) = 1 ∧
    (sLaunch bytes1).pltRoom ((sLaunch bytes1).gridPages (rec3 record1)) = true := by decide +kernel

theorem wit_gridEnd : let s := { s0 with teams := (List.range 4).map fun t => (t, ({ st := .exited } : Team)) }
    (s.grids.find 0).isSome = true ∧ (s.grid 0).ending = false ∧ s.teamsDone 0 = true ∧ s.gridBusy 0 = false := by decide +kernel

/-- Team 1, of the cohort of team 0, waits and fits; with every core given to another partition word it does not. -/
def sHead : State := withRec fun x => { x with head := some 1, draining := true }
def sNoFit : State := { sHead with cores := (List.range 6).map fun k => (k, ({ pword := some 0x2000 } : Core)) }
theorem wit_dispatch : (∀ s ∈ [sHead, sNoFit], s.gridHeld (s.grid 0) = false ∧ s.headUpdate 0 = s ∧ (s.grid 0).head = some 1 ∧
      (s.grid 0).draining = true ∧ (s.poolGrids (s.grid 0)).foldl State.headUpdate s = s ∧ s.myTurn 0 = true) ∧ (sHead.placeCohort 0 0).isSome = true ∧ sNoFit.placeCohort 0 0 = none := by decide +kernel

/-- Team 3 holds the registers of core 0, and the other cores have another partition word. -/
def sEvict : State := { withRec (fun x => { x with head := some 1, headWait := 100000 }) with
  cores := (0, { pword := some 0x4400, tlb := [map0] }) :: (List.range 5).map fun k => (k + 1, ({ pword := some 0x2000 } : Core))
  teams := [(0, { st := .resident, placed := true }), (3, { st := .resident, placed := true })]
  groups := [(0, { budget := 16, quad := 3 }), (96, { budget := 100000 }), (97, { budget := 100000, quad := 1 }),
    (98, { budget := 100000, quad := 2 })]
  quads := [(0, { slots := [(0, 96)] }), (1, { slots := [(0, 97)] }), (2, { slots := [(0, 98)] }), (3, { slots := [(0, 0)] })] }
theorem wit_eviction : sEvict.headUpdate 0 = sEvict ∧ sEvict.gridHeld (sEvict.grid 0) = false ∧ sEvict.headFits 0 = false ∧
    sEvict.evictable 0 1 = [3] ∧ okPages sEvict 3 = true ∧ (sEvict.grid 0).headWait = 100000 := by decide +kernel

def sSplit : State := { s0 with
  groups := [(0, { budget := 16, park := some (.task 2) })]
  clusters := [(0, { pool := some 0, tasks := [{ task0 with owner := 1, cur := 4 }] })] }
theorem wit_taskSplit : sSplit.askers 0 0 = [0] ∧ sSplit.coreOfGrp 0 / 6 = 0 ∧
    sSplit.splitTask 0 0 = some { task0 with owner := 1, cur := 4 } ∧ 2 * task0.chunk ≤ task0.hi - 4 ∧ sSplit.ownTask 0 = none ∧
    (sSplit.grid 0).det = false ∧ ((sSplit.cluster 0).tasks.filter fun x => !x.alone).length < 64 ∧
    (sSplit.group 0).stepPend = none := by decide +kernel

theorem wit_opcls : (let v : W64 := 0xAA3E180000
      v.bits 39 32 = 170 ∧ v.bits 31 24 = 62 ∧ v.bits 23 16 = 24 ∧ s0.vminOf 62 ≤ 170) ∧
    ¬ 110 ≤ (0x6D3E180000 : W64).bits 39 32 ∧ (s0.cluster (s0.lowCluster 0)).elapsed % 10000 = 0 ∧ (s0.part 0).poolAt = none ∧
    (s0.part 0).clusters ≠ 0 ∧ s0.cleElapsed % 1000 = 0 ∧ s0.boostAt = none := by decide +kernel

theorem wit_preempt : s0.pmRefused 0 0 = false ∧ s0.pmRefused 0 1 = false ∧ s0.pmRefused 0 2 = true ∧ s0.pmNamed 0 = [0] ∧
    (1 : W64).bits 3 2 = 0 ∧ (5 : W64).bits 3 2 = 1 ∧ (9 : W64).bits 3 2 = 2 ∧ (s0.team 0).st = .resident ∧
    ((withTeam fun x => { x with st := .saved }).team 0).st = .saved := by decide +kernel

/-- A request under way that names team 0, with the choice forced; the save area is mapped; RSTRT is set. -/
def sPm (force : BitVec 2) : State := { s0 with
  grids := [(0, { record := record0.set 0 0x0114040000400000 })]
  quads := []
  parts := s0.parts.modify 0 {} fun x => { x with page :=
    { pmBusy := true, pmLeft := [0], pmAt := [(0, 0)], force := force } } }
theorem wit_estimate : (sPm 1).estimate 0 0 = .drain ∧ (sPm 2).estimate 0 0 = .discard ∧ (sPm 3).estimate 0 0 = .save ∧
    (sPm 2).teamRuns 0 = false ∧ okPages (sPm 3) 0 = true ∧ ((sPm 1).team 0).cause = none ∧
    ((sPm 1).team 0).choice = none ∧ ((sPm 1).page 0).pmLeft = [0] ∧
    (((sPm 1).page 0).pmAt.find 0).isSome = true := by decide +kernel

theorem wit_save : (let s := (sPm 0).modTeam 0 fun x => { x with drainAt := some 0, cause := some .drain }
      okPages s 0 = true ∧ 0 ≤ (s.cluster 0).elapsed) ∧
    (let s := { (withTeam fun x => { x with st := .saving, cause := some .preempt }) with quads := [] }
     s.stopped 0 = true) := by decide +kernel

/-- Every group of core 0 is parked: one for registers, one of a junior team for a token. -/
def sSenior : State := { sPm 0 with
  teams := [(0, { st := .resident, placed := true }), (1, { st := .resident, placed := true })]
  groups := [(0, { budget := 16, park := some (.reggrow 32 1) }), (32, { budget := 16, slot := 1, park := some (.token 1) })]
  quads := [(0, { slots := [(0, 0), (1, 32)] })] }
theorem wit_seniority : sSenior.seniorMost ((sSenior.groupsOfCore 0).filter fun gk => match (sSenior.group gk).park with
        | some (.reggrow ..) => true
        | _ => false) = some 0 ∧
    (∀ gk ∈ sSenior.groupsOfCore 0, sSenior.parked gk = true) ∧ (sSenior.cluster 0).swap = none ∧
    (∀ u ∈ sSenior.coreTeams 0, (sSenior.team u).st = .resident) ∧
    sSenior.leastSenior ((sSenior.coreTeams 0).filter fun u => u != 0) = [1] ∧ okPages sSenior 1 = true := by decide +kernel

def sReady : State := { s0 with
  groups := [(0, { budget := 16, pcs := [(0x10000, Mask.full)] })]
  quads := [(0, { slots := [(0, 0)] })] }
theorem wit_runStart : (sReady.quad 0).run = none ∧ sReady.winner 0 0 = some (0, 0) ∧
    (State.streamsOf (State.takeControls (sReady.group 0))).isSome = true ∧ (s0.quad 0).run.isSome = true := by decide +kernel

def due0 : Due := { id := 9, pc := 0x10000, la := 1, mask := Mask.full, writes := [.scal 63 5 0] }
theorem wit_longLatency : ((withGrp fun x => { x with due := [due0] }).grp.due.find? fun e => e.id == 9 && e.left == 0) =
    some due0 ∧ State.atImage (s0.team (grpKey 0 0 0 / 32)) = false ∧ State.atImage { st := .restoring } = true ∧
    (let s := withGrp fun x => { x with due := [due0], exited := 1 }
     let t := s.modQuad 0 fun q => { q with skips := [(0, 9, 10, 63)] }
     s.grp.exited.getLsbD 0 = true ∧ ((t.quad (4 * t.coreOfGrp 0 + t.grp.quad)).skips.filter fun e =>
       e.1 == 0 && e.2.1 ≤ 9 && 9 < e.2.2.1).map (fun e => e.2.2.2) = [63]) := by decide +kernel

/-- A ring of records at 0x110000 that has room, with its counters at 0x120000 and 0x120008. -/
def rec0 : TrapRec := { g := 0, t := 0, grp := 0, ident := List.replicate 16 0, cause := 1, kind := 0, flags := 0, pc := 0, mask := 1, cycles := 0
                        elapsed := 0, detail := 0, detail2 := 0, addrs := [], hang := [] }
def sRing : State := s0.modPage 0 fun x => { x with
  trapb := 0x110005, traph := 0x120000, trapt := 0x120008, ringOk := true, trapq := [rec0] }
theorem wit_trapRecord : sRing.recordReady rec0 = true ∧ sRing.ringFree 0 ≠ 0 ∧ s0.ringFree 0 = 0 ∧ rec0.ident.length = 16 := by
  decide +kernel

theorem wit_coreSteps : (let s := { withGrp (fun x => { x with park := some (.token 1) }) with quads := [(0, { slots := [(0, 0)] })] }
      s.mayFrost 0 = true) ∧ sReady.mayThaw 0 = true ∧ (s0.cluster 0).elapsed % 10000 = 0 ∧ (s0.cluster 0).baroAt = none ∧
    (s0.core 0).tlb.any (fun e => State.tlbHolds e 0 0x10000) = true ∧
    (let s := withCore fun x => { x with tlb := [] }
     (s.core 0).tlb.any (fun e => State.tlbHolds e 0 0x10000) = false ∧ (s.tlbLookup 0 0 0x10000).isSome = true) ∧
    pow2 57 - 1 < pow2 57 ∧ (withGrp fun x => { x with runendLeft := 1 }).grp.runendLeft = 1 ∧ s0.grp.runendLeft ≠ 1 := by
  decide +kernel

def sHot : State := { withCluster (fun x => { x with temps := [24, 0, 0, 0, 0, 0] }) with quads := [(0, { slots := [(0, 0)] })] }
theorem wit_draftTick : (sHot.cluster 0).elapsed % ((sHot.cluster 0).interval * 1000) = 0 ∧ (sHot.cluster 0).draftAt = none ∧
    sHot.draftEn = true ∧ sHot.draftPair 0 = some (0, 1) ∧ (sHot.cluster 0).swap = none := by decide +kernel

theorem wit_draftSwap : (let w : Swap := { hot := 0, cool := 1, decided := 0, pausing := false }
      let s := sHot.modCluster 0 fun x => { x with swap := some w, elapsed := 10000 }
      (s.cluster 0).swap = some w ∧ (s.cluster 0).elapsed ≤ w.decided + 10000 ∧ w.decided + 10000 ≤ (s.cluster 0).elapsed ∧ s.swapStopped 0 = true ∧ s.swapStopped 1 = true) ∧
    (let w : Swap := { hot := 5, cool := 0, decided := 0, pausing := true }
     w.pausing = true ∧ w.hot ≠ w.cool ∧ w.hot < 6 ∧ w.cool < 6) := by
  decide +kernel

/-! ### Witnesses: operations performed, engines, units, soft errors, debug -/

/-- One operation in flight, number 9, of group 0 of team 0, counted in k7. -/
def fl (b : Body) : Flight := { id := 9, tk := some 7, body := b }
def withFl (b : Body) : State := { s0 with flights := [fl b], ev := { id := 9 } }
def okFl (b : Body) (n : Nat) : Bool :=
  let s := withFl b
  (s.flight s.ev.id).any (fun f => f.id == 9) && (fl b).grp < 32 && s.memPois.isEmpty && (s.core 0).doneJobs.isEmpty &&
    s.inChannel (fl b) && s.sourcesReady (fl b) [(.dev 0x20000, n)] && (s.groups.find 0).isSome &&
    decide ((s.team 0).st = .resident)
theorem wit_Transfers : okFl (.copy [(.dev 0x20000, .dev 0x30000, 64)] 7 0) 64 = true ∧
    okFl (.copy [(.dev 0x20000, .spad 0 0 0xFF8, 8)] 7 0) 8 = true ∧ State.spReduce grid0.alloc 0xFF8 = some 0xFF8 ∧
    okFl (.cpav [(.dev 0x20000, .dev 0x30000, 16)] (.dev 0x30010) 0 false true [7]) 16 = true ∧
    leNat (Memory.bytes s0.mem 0x30010 8) = 0 ∧ 0x30000 + 16 ≤ 0x30010 ∧ (s0.core 0).l1 = [] ∧
    (s0.team 0).gen = 0 ∧ (s0.team 0).gen ≠ 1 := by decide +kernel

theorem wit_multicast : (let b := Body.mcast 0 0 [(.dev 0x20000, 0x100, 8)] none false [7] 0
      (withFl b).sourcesReady (fl b) [(.dev 0x20000, 8)] = true) ∧
    (s0.team 0).st = .resident ∧ (s0.team 1).st = .pending ∧ (∀ l ∈ [2], (s0.team 0).landing.get l 0 < 7) := by decide +kernel

/-- Teams 0 and 1 resident; a remote operation on team 1. -/
def sRem (b : Body) : State := { withFl b with
  teams := [(0, { st := .resident, placed := true }), (1, { st := .resident, placed := true })] }
def lane0 : RmwLane := { lane := 0, data := [1, 0, 0, 0], cmp := [], pois := false }
theorem wit_remote : (let b := Body.remStore 1 [(0xFF8, [(1, false)])]
      (sRem b).remFirst (fl b) 1 = true ∧ ((sRem b).team (teamKey 0 1)).st = .resident ∧ (sRem b).remAbsent 0 1 [(0xFF8, 1)] = false) ∧
    (let b := Body.remRmw 1 0xFFC 1 2 [lane0] none 0
     (sRem b).remFirst (fl b) 1 = true ∧ (sRem b).remAbsent 0 1 [(0xFFC, 4)] = false ∧ 0xFFC + 4 ≤ grid0.alloc ∧
     State.spReduce grid0.alloc 0xFFC = some 0xFFC) ∧
    (let b := Body.remLoad 1 8 [(0, 0xFF8)] 3 1 true false
     (sRem b).remFirst (fl b) 1 = true ∧ (sRem b).remAbsent 0 1 [(0xFF8, 8)] = false) ∧
    ({ st := .exited } : Team).st = .exited := by decide +kernel

theorem wit_atomicExecute : (let b := Body.rmw (.dev 0x20000) 0x20000 1 2 [lane0] none 0
      (withFl b).rmwFirst (fl b) (.dev 0x20000, 4) = true) ∧
    (let b := Body.ctrRead (.glob 0x20000) (.dev 0x20000) 3 1
     (withFl b).rmwFirst (fl b) (.dev 0x20000, 8) = true ∧ (withFl b).devPois 0x20000 8 = false) ∧ (s0.core 0).l1 = [] ∧
    ({ fl .job with tk := none } : Flight).acq = none := by decide +kernel

def log0 (page : Nat) : LogEntry :=
  { g := 0, t := 0, grp := 0, page := page, op := 0, sz := 2, seq := 0, lanes := 1
    recs := [{ addr := page * 65536, data := [1, 2, 3, 4], cmp := [] }] }
theorem wit_sideLog : (s0.cluster 0).elapsed % 20000 = 0 ∧ (s0.storePlace 0 0 (2 * 65536)).isSome = true ∧
    s0.storePlace 0 0 (99 * 65536) = none ∧ ((withCore fun x => { x with sideLog := [log0 2] }).core 0).sideLog = [log0 2] := by
  decide +kernel

theorem wit_tokenPass : let s := { sDet 0 with teams := [(0, { st := .exited })] }
    (s.grids.find 0).isSome = true ∧ (s.grid 0).det = true ∧ (s.grid 0).token < (s.grid 0).nteams ∧ (s.team 0).st = .exited ∧
    s.floatsDone 0 0 = true ∧ ({ s with flights := [{ id := 1, body := .rmw (.dev 0) 0 11 2 [] none 0 }] } : State).floatsDone 0 0 = false := by
  decide +kernel

theorem wit_queueSteps : (let s := { sQ id with flights := [fl (.push 3 0 [] 5)], ev := { q := 3 } }
      (s.flights.find? (State.isPush s.ev.q)).isSome = true ∧ s.pushRoom 3 0 = true) ∧
    (let s := { sQ id with flights := [fl (.pop 3 0 (.spad 0 0 0) [] 5 3)], ev := { q := 3 }, mem := (0x100008, 1) :: mem0 }
     (s.flights.find? (State.isPop s.ev.q)).isSome = true ∧ s.qHeld 3 ≤ (s.queue 3).count ∧ 0 < (s.qTail 3).toNat) ∧
    (let s := { sQ id with mem := (0x100008, 17) :: mem0 }
     (s.queue 3).count < s.qHeld 3) ∧
    (sQ id).memPois = [] ∧ ((sQ id).core 0).l1 = [] ∧ ((sQ id).grid 0).reca = none ∧
    ((sQ id).walkFor 0 ((sQ id).queue 3 |>.slotAt 0) true).isSome = true := by decide +kernel

/-- Each matrix word at the head of the engine's queue, with shape record 0 of the statement on matrix words. -/
def eng (i : Instr) : EngWord :=
  { g := 0, t := 0, grp := 0, word := i, shape := [0x400, 0x0001000000000000, 0x0001000000000000, 0, 0, 0], smooth := none
    sa := 0x200, sb := 0x100000004, sc := 0, tk := none, lines := [], gen := 0 }
theorem wit_engine : ∀ i ∈ [Instr.mma h0 xMma, .maccld h0 xMma, .maccst h0 xMma, .mcvt h0 xMma],
    (s0.core 0).frost = false ∧ State.matFields i = some xMma ∧ (s0.mxOf (eng i) xMma).h.fits = true ∧
    s0.engineReady 0 (eng i) (State.engineReads (s0.mxOf (eng i) xMma) (eng i)) = true ∧ (s0.core 0).tts = [] ∧
    (s0.team 0).gen = (eng i).gen := by decide +kernel

def job0 : TileJob := { g := 0, t := 0, grp := 0, tk := 7, addr := 0x40000, card := card1, smooth := none, i := 0, j := 0, c := 0
                        phase := 1, pages := [], edges := [], id := 1 }
theorem wit_macroOp : (withCore fun x => { x with tts := [job0] }).jobTurn 0 = some job0 ∧ s0.jobTurn 0 = none ∧
    (s0.core 0).engq = [] ∧ job0.mixed = false ∧ job0.phase < 2 := by decide +kernel

theorem wit_nzsRun : let c : ScanCmd := { g := 0, t := 0, grp := 0, tk := 7, src := 0x100, dst := 0x200, n := 8, size := 2
                                          float := false, bitmap := true, lines := [], gen := 0 }
    (s0.team 0).gen = c.gen ∧ (rangeLines grid0.alloc [(c.src, c.n * c.size)]).all (fun l => (s0.team 0).landing.get l 0 ≤
      ([c].filter fun e => e.g == c.g && e.t == c.t && e.lines.contains l).length) = true := by
  decide +kernel

/-- A broadcast from rank 0 to this device's rank 1, and its only flit in port 0's buffer; a home of its own broadcast. -/
def bcast (me : W64) : Coll := { coll0 none with
  desc := [0x0400000010000000 + me * 0x80000, 0, 0, 1, 0, 0, 0, 7], peers := [0, 0], firstAt := [(0, 0)] }
def sColl : State := { s0.modPart 0 fun x => { x with ports := 1 } with
  colls := [(0, bcast 1)], ports := [(0, { rx := [{ flitG 1 20 with payload := [7] ++ List.replicate 19 0 }] })] }
theorem wit_collFlit : (match sColl.collFlit 0 with
      | some (i, f, key) => i == 0 && key == 0 && f.len == 20
      | none => false) = true ∧
    (bcast 1).steps = 1 ∧ (bcast 1).home 0 ≠ (bcast 1).me ∧ 0 < (bcast 1).flitsOf 0 ∧
    ((bcast 1).joined 0 ((SMap.get (bcast 1).got 0 []).put 0 [0, 0, 0, 0])).isSome = true ∧
    (bcast 1).closed.get 0 false = false ∧ (bcast 1).ended.get 0 false = false := by decide +kernel
theorem wit_collTimeouts : (bcast 0).firstAt.find 0 = some 0 ∧ (bcast 0).home 0 = (bcast 0).me ∧ 0 + (bcast 0).tlim ≤ 50000 ∧
    0 < (bcast 1).steps ∧ (bcast 1).started + 4 * (bcast 1).tlim ≤ 200000 ∧ (bcast 1).status = none := by decide +kernel

/-- A command at the head of the array's queue: load, clamp, seed, sweep of beta 1, read. -/
def cmd (op : Nat) : SfaCmd := { g := 0, t := 0, grp := 0, op := op, tk := some 7, a := 1, b := 0x3C00, imm := 0, n := some 1 }
theorem wit_StochasticFieldRuns : s0.sfaHeld (cmd 3) = false ∧ s0.earlierDone 0 0 0 0 = true ∧
    sfaCardOk (List.replicate 8 0) = false ∧ sfaCardOk sfaCard1 = true ∧
    (s0.sfaLoad 0 { cmd 0 with card := [0x10001, 0x50000, 0x60000, 0, 0, 0, 0, 0] }).1 ≤ 9 ∧
    (State.sweepBeta (cmd 3)).isFin = true ∧ State.sweepM (cmd 3) = 1 ∧
    (State.sweepBeta { cmd 3 with b := 0x7C00 }).isFin = false ∧ (cmd 4).n.isSome = true ∧
    (sDet 0).curGrid.det = true ∧ s0.curGrid.det = false := by decide +kernel
/-- An array whose only slot is empty (index 65535) loads. -/
theorem wit_sfaLoad : let s := { s0 with mem := (0x50000, 0xFF) :: (0x50001, 0xFF) :: mem0 }
    (s.sfaLoad 0 { cmd 0 with card := sfaCard1, pages := [(5, 5, 0), (6, 6, 0)] }).1 = 0 := by decide +kernel

theorem wit_deposit : (let b := Body.deposit 0 7 0 16 0 [(.dev 0x20000, 64)] none
      let s := { withFl b with clusters := [(0, { carafe := { cfg := some cfg0, slots := [(0, slot0)] } })] }
      s.sourcesReady (fl b) [(.dev 0x20000, 64)] = true ∧ cfg0.grid = (fl b).g ∧ cfg0.hid = 16 ∧ cfg0.dfmt = 0 ∧
      (match s.judge 9 0 7 0 true with
        | .ok n => n == 0
        | .error _ => false) = true ∧
      (match s.judge 9 0 8 0 true with
        | .ok _ => false
        | .error off => off == 0x320) = true) ∧
    (let x : CrfSlot := { slot0 with k := 2 }
     ([(0, x)].find? fun e => e.2.stamp == 0 && e.2.closed.isNone) = some (0, x) ∧ (0 : Nat) < 8 ∧
     ∃ j ∈ [1], j < x.k ∧ j ≠ 0 ∧ x.have_.getLsbD j = false) ∧
    slot0.deadline = some 100 ∧ slot0.closed = none ∧ (∀ d ∈ slot0.deadline, (s0.cluster 0).elapsed ≤ d) ∧
    (let at_ := fun (n : Nat) (b : Body) => ({ withFl b with
        clusters := [(0, { elapsed := n, carafe := { cfg := some cfg0, slots := [(0, slot0)] } })] } : State)
     ((at_ 101 .job).cluster 0).elapsed = 101 ∧ (at_ 100 .job).depositComing 0 7 = false ∧
       (at_ 100 (.deposit 0 7 0 16 0 [] none)).depositComing 0 7 = true) := by decide +kernel

theorem wit_SoftErrors : 2 ≤ 3 ∧ (s0.groups.find (grpKey 0 0 0)).isSome = true ∧ 127 < 128 ∧ (s0.team (teamKey 0 0)).st = .resident ∧
    (s0.grids.find 0).isSome = true ∧
    (let s := withCore fun x => { x with l1 := [(5, {}), (6, { dirty := 1 })] }
     (s.core (coreKey 0 0)).l1.find 5 = some {} ∧ (s.core (coreKey 0 0)).l1.find 6 = some { dirty := 1 }) := by decide +kernel

/-- Settings of partition 0's page: a log at 0x110000 of 16 entries with its registers at 0x120000; a trace and a sample buffer. -/
def sDbg : State := s0.modPage 0 fun x => { x with
  ckpt1 := 0x120000, ckpt2 := 0x110004, trcb := 0x110000, sampb := 0x110000, trapb := 0x110005 }
theorem wit_DebugSteps : s0.ckptPagesOf 0 = none ∧ (sDbg.ckptPagesOf 0).isSome = true ∧ (s0.grid 0).part = 0 ∧
    (sDbg.settingPages 0 0x110000 8192 true).isSome = true ∧ s0.settingPages 0 0x9990000 64 true = none ∧
    (let v : W64 := 0x0000000000010001
     v.getLsbD 0 = true ∧ v.bits 63 40 = 0 ∧ v.bits 39 20 = 0 ∧ v.bits 19 15 = 2 ∧ 2 < (s0.grid 0).ngroups) ∧
    grpKey 0 0 2 / 32 = teamKey 0 0 ∧ s0.partOfCluster 0 = some 0 ∧
    s0.sampleDone { ident := [], pc := 0, active := 1, replays := 0, sectors := 0, store := false, issued := 0, grpKey := 0
                    first := 0, last := 1 } = true ∧
    s0.cleElapsed % 1000 = 0 ∧ (s0.grid 0).hangAt = none ∧ (s0.grid 0).issued = false ∧ s0.gridAtWork 0 = false ∧
    (s0.grid 0).hangBusy = false ∧ (s0.grid 0).hang + 1300 < pow2 (s0.grid 0).hangx ∧
    pow2 (s0.grid 0).hangx ≤ (pow2 24 - 1300) + 1300 := by decide +kernel

/-! ### Witnesses: results, places and the bytes that land -/

theorem wit_VectorImmediate_sat : let f : VI := { vi with vd := 13, va := 15, sat := true, ty := 0x0B }
    s0.FitsVI f ∧ s0.FitsVI { f with ty := 0 } ∧ f.sat = true :=
  ⟨below_of (by decide +kernel), below_of (by decide +kernel), rfl⟩

theorem wit_ReductionTree_codes : ∀ n ∈ [1, 2, 3, 4], ({ v3 with imm8 := BitVec.ofNat 8 n } : V3).imm8.toNat % 16 = n := by decide

def tfGlobal : TF := { tf with c := 2, l0 := 0x4000, l1 := 0x4000, a0 := { aop := 0x28, vd := 15, va := 1, b := 1 } }
theorem wit_TreeMemory_global : let s := withLanes 1
    let st := (s.lookup .store (((s.activeLanes h0).lanes.filterMap fun l =>
      (tfGlobal.walk s.src l 3 0 {} none).acc.map fun a => (l, a)).flatMap fun e => State.arcPieces e.1 e.2)).1
    okTree s tfGlobal = true ∧ s.curGrid.traced = false ∧ (s.core s.curCore).writeThrough = false ∧ st.length = 1 ∧
    (∀ q ∈ st, q.mt = 0) ∧
    (distinct (State.l1Lines ((s.touchPages .store st).core s.curCore) ++ st.flatMap fun q => linesOf q.pa q.p.n)).length ≤ 2048 := by
  decide +kernel

/-- Cluster 1 is free; the class wants it, in no pool or at rest in another's. -/
def sWant (x : Cluster) : State := { sNoFit with
  parts := s0.parts.modify 0 {} fun x => { x with clusters := 3 }
  clusters := [(0, s0.cluster 0), (1, x)] }
theorem wit_poolReassign : let ok := fun (s : State) => (
      let s1 := s.modPart 0 fun x => { x with poolAt := some (s.cluster (s.lowCluster 0)).elapsed }
      s1.classWants 0 0 = true ∧ s.clusterFree 0 = false ∧ s.clusterFree 1 = true ∧ (s.part 0).clusters.getLsbD 1 = true ∧
        (s.cluster (s.lowCluster 0)).elapsed % 10000 = 0 ∧ (s.part 0).poolAt = none)
    ok (sWant {}) ∧ ((sWant {}).cluster 1).pool = none ∧
    ok (sWant { pool := some 2, freeFor := 50000 }) ∧ ((sWant { pool := some 2, freeFor := 50000 }).cluster 1).pool = some 2 ∧
    ((sWant { pool := some 2, freeFor := 50000 }).cluster 1).freeFor = 50000 ∧ (s0.parts.map Prod.fst).Nodup := by
  decide +kernel

theorem wit_HostInterface_vfWrite : (match s0.bar4Place (.vf 1) 0x20000 8 true with
    | some l => decide l.Nodup
    | none => false) = true ∧ s0.walkFor 0 ((s0.windowOf (.vf 1)).1.toNat + 0x20000) true = some (0x20000, 0) ∧
    s0.walkFor 0 ((s0.windowOf (.vf 1)).1.toNat + 0x20000) false = some (0x20000, 0) := by decide +kernel

theorem wit_atomicResult : mGlob.sx = false ∧ sM.absentLines ((Mask.full).lanes.map fun l =>
    { lane := l, idx := 0, at_ := sM.mSum mOwn l, n := mOwn.size }) = [] ∧ (∀ l ∈ Mask.full.lanes, sM.mSum mOwn l % mOwn.size = 0) ∧
    State.spReduce sM.curGrid.alloc (sM.mSum mOwn 0) = some 0xFF8 := by decide +kernel

theorem wit_remLoad_vector : (let b := Body.remLoad 1 8 [(0, 0xFF0), (1, 0xFF8)] 3 1 false false
     (sRem b).remFirst (fl b) 1 = true ∧ (sRem b).remAbsent 0 1 [(0xFF0, 8), (0xFF8, 8)] = false) ∧
    0xFFC + pow2 2 ≤ pow2 64 ∧ ({ fl .job with tk := none } : Flight).tk = none := by decide +kernel

theorem wit_sideLog_store : let e := log0 2
    (withCore fun x => { x with sideLog := [e] }).replayHeld 0 0 e.page = false ∧
    e.op = 0 ∧ e.recs.length = 1 ∧ s0.storePlace 0 0 (e.page * 65536) = some (0x20000, 0) ∧
    (∀ x ∈ e.recs, 0 < x.data.length ∧ x.addr % x.data.length = 0 ∧ x.addr / 65536 = e.page ∧
      x.addr % 65536 + x.data.length ≤ 65536) := by decide +kernel

/-- Are all these places device memory, no two the same? -/
def devPlaces (l : List (Option Place)) : Bool :=
  (l.all fun p => match p with
    | some (.dev _) => true
    | _ => false) && decide l.Nodup

/-- The configuration with its pages pinned, with REL 0 and 1, and its first slot open. -/
def cfgP (rel : Bool) : CrfCfg :=
  { cfg0 with record := crf1.set 0 (crf1.getD 0 0 ||| (if rel then 0x4000000000 else 0)), pages := [(16, 16, 0), (17, 17, 0), (18, 18, 0), (19, 19, 0)] }
theorem wit_depositLanded : let x : Carafe := { cfg := some (cfgP false), slots := [(0, slot0)] }
    let ps := State.elemPieces (State.elemAt (cfgP false) 0 0 0) 4 (List.replicate 16 (0x3F800000, false))
    (x.slots.find? fun e => e.2.stamp == 0 && e.2.closed.isNone) = some (0, slot0) ∧
    State.leaksPois (cfgP false).pages ps = false ∧ (cfgP false).fieldsOk = true ∧ (cfgP false).hid = 16 ∧
    devPlaces ((List.range 64).map fun i => pinnedPlace (cfgP false).pages (State.elemAt (cfgP false) 0 0 (i / 4) + i % 4)) = true ∧
    (∀ j, j < slot0.k → j = 0 ∨ slot0.have_.getLsbD j = true) ∧
    (∃ j, j < ({ slot0 with k := 2 } : CrfSlot).k ∧ j ≠ 0 ∧ slot0.have_.getLsbD j = false) ∧
    0 < slot0.k ∧ (cfgP false).rel = false ∧ (cfgP true).rel = true ∧ ({ x with next := 8 } : Carafe).slots.all (fun e => e.2.tok != 8) = true ∧
    devPlaces ((List.range (16 * (fmtBits (cfgP false).ofmt / 8))).map fun i =>
      pinnedPlace (cfgP false).pages ((cfgP false).rowa + 0 * (cfgP false).rstr + i)) = true := by decide +kernel

/-- A clamp and a readout of 9 variables, in global memory and in the scratchpad. -/
def cmdP (op : Nat) (imm : BitVec 8) : SfaCmd :=
  { cmd op with a := 0x50000, b := 0x50010, imm := imm, n := some 9, pages := [(5, 5, 0)] }
theorem wit_sfaTransfers : (cmdP 1 1).imm.getLsbD 0 = true ∧ (cmdP 1 0).imm.getLsbD 0 = false ∧
    (s0.team (teamKey 0 0)).st = .resident ∧ s0.spadReady 0 0 0 [(0x500, 2), (0x510, 2)] = true ∧
    (s0.team (teamKey 0 0)).gen = (cmdP 4 1).gen ∧
    devPlaces ((List.range (State.sfaOutBytes 2 9)).map fun j => pinnedPlace (cmdP 4 2).pages ((cmdP 4 2).a.toNat + j)) = true := by decide +kernel

/-- A reduce-scatter of two elements, this device the home of its first step. -/
def scatter : Coll := { coll0 none with desc := [0x0200000010000000, 0, 0, 2, 0, 0, 0, 7], peers := [0, 0], firstAt := [(0, 0)], pages := [(0, 5, 0)] }
theorem wit_collLands : scatter.steps = 2 ∧ scatter.home 0 = scatter.me ∧ scatter.takes 0 = true ∧ scatter.kind ≤ 2 ∧
    scatter.closed.get 0 false = false ∧ scatter.ended.get 1 false = false ∧
    (scatter.result 0 ((List.range scatter.nrank).map (scatter.held 0))).length = 4 ∧
    devPlaces ((List.range 4).map fun j => pinnedPlace scatter.pages (scatter.dstAt 0 + j)) = true ∧
    pinnedPlace scatter.pages scatter.stata = some (.dev 0x50000) ∧
    (bcast 1).takes 0 = true ∧ (∀ r, r < (bcast 0).nrank → (bcast 0).gives r 0 = true → r = 0) ∧
    (let c : Coll := { bcast 0 with have_ := [(0, [(0, [7, 0, 0, 0])])] }
     (c.held 0 0).isSome = true) ∧
    (∀ j, j < (bcast 1).steps → j = 0 ∨ (bcast 1).ended.get j false = true) := by decide +kernel
theorem wit_nzsDone : s0.earlierDone 0 0 0 0 = true := by decide +kernel

/-! ### Witnesses: guards, traps, steps -/

/-- A result due with lookahead 0 stops its lanes' next word; a guard on q0, which is false; a token that is counted. -/
theorem wit_GuardsAndWaits : (let h : Hdr := { h0 with grd := 16 }
      (Instr.vadd h v3).hdr = some h ∧ (Instr.ld h mGlob).hdr = some h ∧ s0.scalarGuard h = false ∧ s0.grp.step = false ∧
        s0.grp.srun = false ∧ s0.cur.t < 1048576 ∧ s0.cur.grp < 32) ∧ (Instr.vadd h0 v3).hdr = some h0 ∧ (Instr.vadd h0 v3).handlerOnly = false ∧ s0.cur.handler = none ∧
    s0.cur.sec = false ∧ s0.grp.park = none ∧ s0.grp.gone = false ∧
    State.laBlocks (withGrp fun x => { x with due := [{ due0 with la := 0 }] }).grp s0.cur.lanes = true ∧
    State.laBlocks s0.grp s0.cur.lanes = false ∧ s0.scalarGuard { h0 with grd := 16 } = false ∧ s0.scalarGuard h0 = true ∧
    (withGrp fun x => { x with kCount := [(7, 1)] }).grp.tokensDone (Instr.ld h0 mGlob).twMask = false := by decide +kernel

theorem wit_Traps : s0.Named ∧ State.laBlocks s0.grp s0.cur.lanes = false ∧ s0.scalarGuard h0 = true ∧
    (∃ n ∈ [({ f15 with va := 16 } : V3).vd, 16, 15], s0.grp.budget ≤ n.toNat) ∧
    (let d : Due := { due0 with dst := [(0, 15)], la := 15 }
     let s := withGrp fun x => { x with sla := true, due := [d] }
     s.grp.due = [d] ∧ (0, f15.va.toNat) ∈ d.dst ∧ State.laBlocks s.grp s.cur.lanes = false) ∧
    slotBound (s0.fslot 7) = false ∧ s0.sreg 3 = 0 ∧ 65536 < ((withS [(3, 65537)]).sreg 3).toNat ∧
    24 ≤ ({ pc := 0, lanes := 1, words := 23 } : Stream).words + s0.cur.words := by
  refine ⟨named_s0, ?_⟩; decide +kernel

theorem wit_Traps_memory : (let s := withS [(1, 0x990000)]
      (s.lookup .load (s.mPieces mGlob Mask.full)).2 ≠ [] ∧ s.mTarget mGlob = .glob) ∧
    (let s := (withS [(2, 0x100)]).modGrp fun x => { x with regs := { x.regs with sPois := [(2, 1)] } }
     s.mPois mOwn Mask.full ≠ 0 ∧ s.mTarget mOwn = .own) ∧
    (let s := withS [(1, 0x20001)]
     (∃ l ∈ Mask.full.lanes, s.mSum mGlob l % mGlob.size ≠ 0) ∧ s.mSum mGlob 0 % 8 ≠ 0) ∧ s0.activeLanes h0 ≠ 0 := by
  decide +kernel

/-- The word `vadd v3, v3, v9` lies at 0x10000. -/
def sFetch : State := { s0 with mem := [(0x10001, 3), (0x10002, 3), (0x10003, 9)] ++ mem0 }
theorem wit_StepRunsDecoded : sFetch.power.clocksOn = true ∧ sFetch.agenda = [] ∧ sFetch.cur.co < 6 ∧
    ((sFetch.quad 0).run.any fun r => !r.secTurn && r.sec.isNone && r.prim.pc == 0x10000 && r.prim.words + 1 ≤ 24 &&
      !sFetch.streamWaits r.grp 0 0 r.prim) = true ∧
    ((sFetch.core 0).icache.find? fun l => State.lineHolds l 0 0x10000) = none ∧
    (match sFetch.fetchPage 0 0 0x10000 with
      | .ok (pa, mt) => pa == 0x10000 && mt != 1
      | .error _ => false) = true ∧
    instrLen (Memory.byte sFetch.mem 0x10000) = 4 ∧ sFetch.devPois 0x10000 4 = false ∧
    decode (Memory.bytes sFetch.mem 0x10000 4) = .ok (.vadd h0 { v3 with vd := 3, va := 3, vb := 9, vc := 3 }, 4) ∧
    State.wordsOf (Memory.bytes sFetch.mem 0x10000 4) = 1 ∧ sFetch.bkptHit 0 0x10000 = none := by decide +kernel
theorem wit_StepRuns_agenda : (∃ s : State, s.agenda = [.event .ident {}] ∧ Instr.ident.hdr = none) ∧
    sY.cur.handler = some 0 ∧ (sY.page 0).hbusy = true ∧ (State.handlerWord (sY.page 0)).isSome = true :=
  ⟨⟨{ s0 with agenda := [.event .ident {}] }, rfl, rfl⟩, by decide +kernel⟩

theorem wit_DecodeEncode : (Instr.vadd h0 v3).hdr = some h0 ∧ (Instr.vadd h0 v3).wellFormed = true ∧
    (Instr.tree h0 tf).hdr = some h0 ∧ (Instr.tree h0 tf).wellFormed = true := by decide +kernel

theorem wit_StepKeepsMemoryForm : State.reset.MemWf ∧ ∃ t, step State.reset = .next t :=
  ⟨by decide, ⟨_, rfl⟩⟩
theorem wit_memForm : s0.MemWf ∧ sFetch.MemWf := by decide +kernel

/-- R253, R451: the accumulator of a tile task that LOAD takes from 3.0 and −2.0: integers in INT32, the pattern in FP32. -/
theorem test_loadAcc : State.loadAcc true (f32 0x40400000) = 3 ∧ State.loadAcc true (f32 0xC0000000) = 0xFFFFFFFE ∧
    State.loadAcc false (f32 0x40400000) = 0x40400000 := by decide

/-- A group parked on k7, which the only operation in flight counts; a group parked on a counter that a hart's store meets. -/
theorem wit_Wakes : (let m : BitVec 8 := 0x80
      let s := (withFl (.copy [(.dev 0x20000, .dev 0x30000, 64)] 7 0)).modGrp fun x =>
        { x with park := some (.token m), kCount := [(7, 1)] }
      m.getLsbD 7 = true ∧ (s.group 0).kc 7 = 1 ∧ (∀ j, j < 8 → m.getLsbD j = true → j ≠ 7 → (s.group 0).kc j = 0)) ∧
    (let s := (withGrp fun x => { x with park := some (.counter (.glob 0x20000) 5 5 false) })
     s.allSlotGroups = [0] ∧ (s.group 0).batonDue = false ∧ ((s.devWrite 0x20000 [5] false).counterStep 0 (.glob 0x20000)).counterValue 0 (.glob 0x20000) = some 5 ∧
     ((s.devWrite 0x20000 [4] false).counterStep 0 (.glob 0x20000)).counterValue 0 (.glob 0x20000) = some 4 ∧ 0x20000 + 1 ≤ devBytes) := by decide +kernel

end Sys2Proof.Tests
end

/-! ## The host interface (R7, R39, R44, R47 to R53, R82)

Lemmas about the host's accesses, first in general (what a walk over page tables and a counter's re-read leave), then for each
operation of HostIf.lean and for the queues' descriptors, and the statement assembled from them. -/

namespace Sys2Proof

/-- Bytes written and one more behind them. -/
theorem Memory.setBytes_concat (l : List Byte) (m : Memory) (a : Nat) (b : Byte) :
    Memory.setBytes m a (l ++ [b]) = Memory.setByte (Memory.setBytes m a l) (a + l.length) b := by
  induction l generalizing m a with
  | nil => rfl
  | cons c l ih => rw [List.cons_append, Memory.setBytes, ih, Memory.setBytes, List.length_cons]; congr 1; omega

/-- Mapping the values of options that are all there. -/
theorem map_some_filterMap_of_all_isSome {α β : Type} (f : α → β) (l : List (Option α)) (h : l.all Option.isSome = true) :
    (l.filterMap fun x => x.map f).map some = l.map fun x => x.map f := by
  induction l with
  | nil => rfl
  | cons x l ih =>
    rw [List.all_cons, Bool.and_eq_true] at h
    obtain ⟨hx, hl⟩ := h
    obtain ⟨a, rfl⟩ := Option.isSome_iff_exists.1 hx
    simp [ih hl]

end Sys2Proof

namespace Sys2Proof.Machine.State

open Sys2Proof

/-! ### A write that no group waits for -/

/-- A group that is not parked for a counter is left alone when counters are read again. -/
theorem recheck_eq_self_of_calm {s : State} (h : s.Calm) (gk : Nat) : s.recheck gk = s := by
  unfold recheck
  split
  · exact absurd ‹_› (h _ _ _ _ _)
  · rfl

theorem recheckAll_eq_self_of_calm {s : State} (h : s.Calm) : s.recheckAll = s := by
  unfold recheckAll
  induction s.allSlotGroups with
  | nil => rfl
  | cons gk l ih => rw [List.foldl_cons, recheck_eq_self_of_calm h, ih]

theorem Calm.of_groups_eq {s t : State} (h : s.Calm) (hg : t.groups = s.groups) : t.Calm := by
  intro gk
  rw [show t.group gk = s.group gk by unfold group; rw [hg]]
  exact h gk

/-! ### Operations that set marks in page tables -/

/-- The two states differ in device memory alone, as after A and D are set in leaves (R152). -/
def SameButMem (s t : State) : Prop := t = { s with mem := t.mem }

theorem SameButMem.refl (s : State) : s.SameButMem s := Eq.refl s

theorem SameButMem.trans {s t u : State} (h : s.SameButMem t) (k : t.SameButMem u) : s.SameButMem u := by
  unfold SameButMem at *
  rw [k, h]

theorem SameButMem.foldl {α : Type} {f : State → α → State} (hf : ∀ (s : State) a, s.SameButMem (f s a)) (l : List α) (s : State) :
    s.SameButMem (l.foldl f s) := by
  induction l generalizing s with
  | nil => exact .refl s
  | cons a l ih => exact (hf s a).trans (ih _)

theorem SameButMem.hostMem {s t : State} (h : s.SameButMem t) : t.hostMem = s.hostMem := by rw [h]
theorem SameButMem.groups {s t : State} (h : s.SameButMem t) : t.groups = s.groups := by rw [h]
theorem SameButMem.queue {s t : State} (h : s.SameButMem t) (q : Nat) : t.queue q = s.queue q := by rw [h]; rfl

theorem sameButMem_setAD (s : State) (p va : Nat) (w : Bool) : s.SameButMem (s.setAD p va w) := by
  unfold setAD
  split
  · exact .refl s
  · rfl

theorem sameButMem_vaTouch (s : State) (p va n : Nat) (w : Bool) : s.SameButMem (s.vaTouch p va n w) := by
  refine .foldl (fun s g => ?_) _ s
  split
  · exact sameButMem_setAD s p _ w
  · exact .refl s

theorem sameButMem_queueRead (s : State) (q : Nat) : s.SameButMem (s.queueRead q) :=
  (sameButMem_vaTouch s _ _ _ _).trans (sameButMem_vaTouch _ _ _ _ _)

theorem sameButMem_bar4Mark (s : State) (fn : Fn) (off len : Nat) (w : Bool) : s.SameButMem (s.bar4Mark fn off len w) := by
  unfold bar4Mark
  split
  · exact .refl s
  · exact .foldl (fun s g => sameButMem_setAD s _ _ w) _ s

/-! ### A miss of the BAR4 window (R48) -/

@[simp] theorem w4Miss_mem (s : State) (fn : Fn) : (s.w4Miss fn).mem = s.mem := by
  unfold w4Miss
  split
  · rfl
  · split <;> rfl

@[simp] theorem w4Miss_hostMem (s : State) (fn : Fn) : (s.w4Miss fn).hostMem = s.hostMem := by
  unfold w4Miss
  split
  · rfl
  · split <;> rfl

/-- A miss counts in the physical function's W4MISS. -/
theorem w4Miss_pf (s : State) : (s.w4Miss .pf).pfW4miss = satAdd64 s.pfW4miss 1 := rfl

/-- A miss of a virtual function counts in its partition's W4MISS. -/
theorem w4Miss_vf {s : State} {fn : Fn} {p : Nat} (hp : fnPart fn = some p) (he : (s.part p).exists_ = true) :
    ((s.w4Miss fn).part p).w4miss = satAdd64 (s.part p).w4miss 1 := by
  simp [w4Miss, hp, he]

/-! ### Where the bytes of an access lie -/

/-- The physical function's accesses go to device memory at WBASE (R48). -/
theorem bar4Place_pf {s : State} {off len : Nat} (w : Bool) (h : s.pfWbase.toNat + off + len ≤ devBytes) :
    s.bar4Place .pf off len w = some ((List.range len).map fun i => (false, s.pfWbase.toNat + off + i)) := if_pos h

theorem bar4Place_pf_none {s : State} {off len : Nat} (w : Bool) (h : devBytes < s.pfWbase.toNat + off + len) :
    s.bar4Place .pf off len w = none := if_neg (by simpa [windowOf, fnPart] using h)

/-- A virtual function's access that is mapped whole: byte `i` lies where its partition's tables map the byte `i` of the
window. -/
theorem map_some_bar4Place {s : State} {fn : Fn} {p off len : Nat} {w : Bool} {l : List (Bool × Nat)} (hp : fnPart fn = some p)
    (hl : s.bar4Place fn off len w = some l) :
    l.map some = (List.range len).map fun i =>
      (s.walkFor p ((s.windowOf fn).1.toNat + off + i) w).map fun y => (y.2 == 1, y.1) := by
  simp only [bar4Place, hp] at hl
  split at hl
  · next hall =>
    rw [← Option.some.inj hl, map_some_filterMap_of_all_isSome _ _ hall, List.map_map]
    rfl
  · cases hl

theorem bar4Place_length {s : State} {fn : Fn} {off len p : Nat} {w : Bool} {l : List (Bool × Nat)} (hp : fnPart fn = some p)
    (hl : s.bar4Place fn off len w = some l) : l.length = len := by
  simpa using congrArg List.length (map_some_bar4Place hp hl)

theorem bar4Place_getElem? {s : State} {fn : Fn} {p off len i pa mt : Nat} {w : Bool} {l : List (Bool × Nat)}
    (hp : fnPart fn = some p) (hl : s.bar4Place fn off len w = some l) (hi : i < len)
    (hw : s.walkFor p ((s.windowOf fn).1.toNat + off + i) w = some (pa, mt)) : l[i]? = some (mt == 1, pa) := by
  have h := congrArg (fun m => m[i]?) (map_some_bar4Place hp hl)
  simpa [hi, hw] using h

/-! ### The bytes of a BAR4 access -/

/-- The byte at a place of a BAR4 access: in host memory or in device memory. -/
def locByte (s : State) (x : Bool × Nat) : Byte := Memory.byte (if x.1 then s.hostMem else s.mem) x.2

/-- The byte at a place that a walk gave. -/
theorem locByte_walk (s : State) (mt pa : Nat) :
    s.locByte (mt == 1, pa) = Memory.byte (if mt = 1 then s.hostMem else s.mem) pa := by
  simp [locByte]

/-- One byte of a BAR4 write put at its place. -/
def bar4PutByte (l : List (Bool × Nat)) (data : List Byte) (s : State) (i : Nat) : State :=
  match l[i]? with
  | some (true, a) => s.hostWrite a [data.getD i 0]
  | some (false, a) => s.devWrite a [data.getD i 0] false
  | none => s

/-- The first `n` bytes of a BAR4 write put at their places. -/
def bar4Put (s : State) (l : List (Bool × Nat)) (data : List Byte) (n : Nat) : State :=
  (List.range n).foldl (bar4PutByte l data) s

theorem bar4Put_succ (s : State) (l : List (Bool × Nat)) (data : List Byte) (n : Nat) :
    s.bar4Put l data (n + 1) = bar4PutByte l data (s.bar4Put l data n) n := by
  simp [bar4Put, List.range_succ]

theorem bar4PutByte_groups (l : List (Bool × Nat)) (data : List Byte) (s : State) (i : Nat) :
    (bar4PutByte l data s i).groups = s.groups := by
  unfold bar4PutByte
  split <;> rfl

theorem bar4Put_groups (s : State) (l : List (Bool × Nat)) (data : List Byte) (n : Nat) :
    (s.bar4Put l data n).groups = s.groups := by
  induction n with
  | zero => rfl
  | succ n ih => rw [bar4Put_succ, bar4PutByte_groups, ih]

/-- A byte put changes its own place and no other. -/
theorem locByte_bar4PutByte {l : List (Bool × Nat)} {i : Nat} {y : Bool × Nat} (hy : l[i]? = some y) (data : List Byte)
    (s : State) (x : Bool × Nat) :
    (bar4PutByte l data s i).locByte x = if x = y then data.getD i 0 else s.locByte x := by
  obtain ⟨host, a⟩ := y
  obtain ⟨host', b⟩ := x
  cases host <;> cases host' <;>
    simp [bar4PutByte, hy, locByte, devWrite, hostWrite, Memory.setBytes, Memory.byte_setByte]

/-- A place that no byte goes to is as it was. -/
theorem locByte_bar4Put_of_not_mem (s : State) (data : List Byte) {l : List (Bool × Nat)} {n : Nat} (hn : n ≤ l.length)
    {x : Bool × Nat} (hx : x ∉ l) : (s.bar4Put l data n).locByte x = s.locByte x := by
  induction n with
  | zero => rfl
  | succ n ih =>
    have hne : x ≠ l[n] := fun h => hx (h ▸ List.getElem_mem hn)
    rw [bar4Put_succ, locByte_bar4PutByte (List.getElem?_eq_getElem hn), if_neg hne, ih (by omega)]

/-- With no two bytes at one place, each place holds its byte. -/
theorem locByte_bar4Put_of_nodup (s : State) (data : List Byte) {l : List (Bool × Nat)} (hd : l.Nodup) {n i : Nat}
    (hn : n ≤ l.length) (hi : i < n) {x : Bool × Nat} (hx : l[i]? = some x) :
    (s.bar4Put l data n).locByte x = data.getD i 0 := by
  induction n with
  | zero => omega
  | succ n ih =>
    rw [bar4Put_succ, locByte_bar4PutByte (List.getElem?_eq_getElem hn)]
    obtain ⟨hil, rfl⟩ := List.getElem?_eq_some_iff.1 hx
    by_cases hin : i = n
    · subst hin; exact if_pos rfl
    · rw [if_neg fun h => hin (hd.getElem_inj_iff.1 h), ih (by omega) (by omega)]

/-- Bytes put in rising order at a range of device memory are one write of the range. -/
theorem bar4Put_range (s : State) (a : Nat) (data : List Byte) {n : Nat} (hn : n ≤ data.length) :
    (s.bar4Put ((List.range data.length).map fun i => (false, a + i)) data n).mem = Memory.setBytes s.mem a (data.take n) ∧
      (s.bar4Put ((List.range data.length).map fun i => (false, a + i)) data n).hostMem = s.hostMem := by
  induction n with
  | zero => exact ⟨rfl, rfl⟩
  | succ n ih =>
    have hlt : n < data.length := hn
    obtain ⟨hmem, hhost⟩ := ih hlt.le
    have hat : ((List.range data.length).map fun i => (false, a + i))[n]? = some (false, a + n) := by simp [hlt]
    have htake : data.take (n + 1) = data.take n ++ [data.getD n 0] := by
      rw [List.take_succ_eq_append_getElem hlt, List.getD_eq_getElem _ _ hlt]
    rw [bar4Put_succ, bar4PutByte, hat, htake]
    refine ⟨?_, hhost⟩
    simp only [devWrite, Memory.setBytes, hmem, Memory.setBytes_concat, List.length_take, Nat.min_eq_left hlt.le]

/-! ### BAR4 accesses -/

section
variable {s : State} {fn : Fn} {off len : Nat} {data : List Byte} {l : List (Bool × Nat)}

/-- R46, R48: an access beyond the window of 256 GiB does nothing. -/
theorem bar4Read_beyond (h : bar4Bytes < off + len) : s.bar4Read fn off len = s := if_pos h
theorem bar4Write_beyond (h : bar4Bytes < off + data.length) : s.bar4Write fn off data = s := if_pos h

/-- R39: in recovery the physical function reads the staging area. -/
theorem bar4Read_recovery (hw : off + len ≤ bar4Bytes) (hr : s.boot.recovery = true) :
    s.bar4Read .pf off len = s.answer (.bytes (Memory.bytes s.boot.staged off len)) := by
  simp [bar4Read, Nat.not_lt.2 hw, hr]

/-- R39: in recovery the physical function writes the staging area of 32 MiB. -/
theorem bar4Write_recovery (hw : off + data.length ≤ 33554432) (hr : s.boot.recovery = true) :
    s.bar4Write .pf off data = { s with boot := { s.boot with staged := Memory.setBytes s.boot.staged off data } } := by
  have hb : ¬ bar4Bytes < off + data.length := by unfold bar4Bytes; omega
  simp [bar4Write, hb, hr, hw]

theorem bar4Read_miss (hw : off + len ≤ bar4Bytes) (hr : s.boot.recovery = false) (hl : s.bar4Place fn off len false = none) :
    s.bar4Read fn off len = (s.w4Miss fn).answer (.bytes (List.replicate len 0xFF)) := by
  simp [bar4Read, Nat.not_lt.2 hw, hr, hl]

theorem bar4Write_miss (hw : off + data.length ≤ bar4Bytes) (hr : s.boot.recovery = false)
    (hl : s.bar4Place fn off data.length true = none) : s.bar4Write fn off data = s.w4Miss fn := by
  simp [bar4Write, Nat.not_lt.2 hw, hr, hl]

theorem bar4Read_mapped (hw : off + len ≤ bar4Bytes) (hr : s.boot.recovery = false)
    (hl : s.bar4Place fn off len false = some l) :
    s.bar4Read fn off len = (s.bar4Mark fn off len false).answer (.bytes (l.map s.locByte)) := by
  simp only [bar4Read, if_neg (Nat.not_lt.2 hw), hr, hl]
  rfl

/-- The bytes that a virtual function's mapped read answers with. -/
theorem getD_map_locByte {p i pa mt : Nat} (hp : fnPart fn = some p) (hl : s.bar4Place fn off len false = some l)
    (hi : i < len) (hw : s.walkFor p ((s.windowOf fn).1.toNat + off + i) false = some (pa, mt)) :
    (l.map s.locByte).getD i 0 = Memory.byte (if mt = 1 then s.hostMem else s.mem) pa := by
  simp [List.getD, bar4Place_getElem? hp hl hi hw, locByte_walk]

/-- R48, R49: when no group waits for a counter, a mapped write leaves memory as its bytes put in their places do. -/
theorem bar4Write_mapped (hw : off + data.length ≤ bar4Bytes) (hr : s.boot.recovery = false) (hc : s.Calm)
    (hl : s.bar4Place fn off data.length true = some l) :
    (s.bar4Write fn off data).SameMem ((s.bar4Mark fn off data.length true).bar4Put l data data.length) := by
  have hs : s.bar4Write fn off data = (((s.bar4Mark fn off data.length true).bar4Put l data data.length).settleHome
      (l.filterMap fun x => if x.1 then none else some (x.2, [(0, false)]))).recheckAll := by
    simp only [bar4Write, if_neg (Nat.not_lt.2 hw), hr, hl]
    rfl
  rw [hs, recheckAll_eq_self_of_calm]
  · exact ⟨rfl, rfl⟩
  · exact hc.of_groups_eq ((bar4Put_groups ..).trans (sameButMem_bar4Mark ..).groups)

/-- R48: the physical function's write is one write of device memory at WBASE. -/
theorem bar4Write_pf_mapped (hw : off + data.length ≤ bar4Bytes) (hr : s.boot.recovery = false) (hc : s.Calm)
    (hd : s.pfWbase.toNat + off + data.length ≤ devBytes) :
    (s.bar4Write .pf off data).mem = Memory.setBytes s.mem (s.pfWbase.toNat + off) data ∧
      (s.bar4Write .pf off data).hostMem = s.hostMem := by
  obtain ⟨hm, hh⟩ := bar4Write_mapped hw hr hc (bar4Place_pf true hd)
  obtain ⟨hm', hh'⟩ := bar4Put_range s (s.pfWbase.toNat + off) data le_rfl
  rw [List.take_length] at hm'
  exact ⟨hm.trans hm', hh.trans hh'⟩

/-- A mapped write seen byte by byte. -/
theorem locByte_bar4Write_eq (hw : off + data.length ≤ bar4Bytes) (hr : s.boot.recovery = false) (hc : s.Calm)
    (hl : s.bar4Place fn off data.length true = some l) (x : Bool × Nat) :
    (s.bar4Write fn off data).locByte x =
      ((s.bar4Mark fn off data.length true).bar4Put l data data.length).locByte x := by
  obtain ⟨hm, hh⟩ := bar4Write_mapped hw hr hc hl
  rw [locByte, hm, hh, locByte]

/-- R48: after a virtual function's write to places all distinct, each byte stands where its partition's tables map it. -/
theorem byte_bar4Write_of_walk {p i pa mt : Nat} (hp : fnPart fn = some p) (hw : off + data.length ≤ bar4Bytes)
    (hr : s.boot.recovery = false) (hc : s.Calm) (hl : s.bar4Place fn off data.length true = some l) (hd : l.Nodup)
    (hi : i < data.length) (hwalk : s.walkFor p ((s.windowOf fn).1.toNat + off + i) true = some (pa, mt)) :
    Memory.byte (if mt = 1 then (s.bar4Write fn off data).hostMem else (s.bar4Write fn off data).mem) pa = data.getD i 0 := by
  rw [← locByte_walk, locByte_bar4Write_eq hw hr hc hl]
  exact locByte_bar4Put_of_nodup _ data hd (bar4Place_length hp hl).ge hi (bar4Place_getElem? hp hl hi hwalk)

/-- R48: a place that no byte of a virtual function's write goes to keeps its byte, but for the marks in page tables. -/
theorem locByte_bar4Write_of_not_mem {p : Nat} (hp : fnPart fn = some p) (hw : off + data.length ≤ bar4Bytes)
    (hr : s.boot.recovery = false) (hc : s.Calm) (hl : s.bar4Place fn off data.length true = some l) {x : Bool × Nat}
    (hx : x ∉ l) : (s.bar4Write fn off data).locByte x = (s.bar4Mark fn off data.length true).locByte x := by
  rw [locByte_bar4Write_eq hw hr hc hl]
  exact locByte_bar4Put_of_not_mem _ data (bar4Place_length hp hl).ge hx

end

/-! ### Registers written (R7, R82) -/

theorem regWrite_page {s : State} {p off : Nat} {v : W64} (hp : p < 8) :
    s.regWrite (.page p) off v = s.pageWrite p off v := if_pos hp

/-- R82: a write of the breakpoint register `n`. -/
theorem pageWrite_bkpt (s : State) (p : Nat) (v : W64) {n : Nat} (hn : n < 4) :
    s.pageWrite p (0x80 + 8 * n) v = s.modPage p fun y => { y with bkpt := y.bkpt.put n (v &&& 0x81FFFFFFFFFFFFFF) } := by
  interval_cases n <;> rfl

/-- R7, R82: ERR and DONE of the pre-emption status cleared by writing 1. -/
theorem w1cWrite_pmStatus {s : State} {p : Nat} {v : W64} (hp : p < 8) : s.w1cWrite (.page p) 0x10 v =
    s.modPage p fun y => { y with pmErr := y.pmErr && !v.getLsbD 3, pmDone := y.pmDone && !v.getLsbD 2 } :=
  if_neg (Nat.not_le.2 hp)

/-- R7, R82: ERR of the recovery points' status cleared by writing 1. -/
theorem w1cWrite_ckptStatus {s : State} {p : Nat} {v : W64} (hp : p < 8) :
    s.w1cWrite (.page p) 0x38 v = s.modPage p fun y => { y with ckptErr := y.ckptErr && !v.getLsbD 0 } :=
  if_neg (Nat.not_le.2 hp)

/-- R7, R360: ERR of HCMD cleared by writing 1, with no other effect of a write of HCMD. -/
theorem w1cWrite_hcmd {s : State} {p : Nat} {v : W64} (hp : p < 8) :
    s.w1cWrite (.page p) 0x108 v = s.modPage p fun y => { y with herr := y.herr && !v.getLsbD 2 } :=
  if_neg (Nat.not_le.2 hp)

/-! ### Queues (R50 to R52) -/

section
variable {s : State} {fn : Fn} {q : Nat} {v : W64}

theorem queueAccess_of_may (f : State → State) (hq : q < 4096) (hr : s.boot.recovery = false)
    (hm : fnMay fn (s.queueOwner q) = true) : s.queueAccess fn q f = f s := by
  simp [queueAccess, Nat.not_le.2 hq, hr, hm]

/-- R50: a queue with the fields that a write of QD0 gives it. -/
def qd0Fields (x : Queue) (v : W64) : Queue :=
  { x with
    base := v &&& 0x01FFFFFFFFFF0000, log2n := BitVec.ofNat 8 (v.bits 15 11), esz := BitVec.ofNat 4 (v.bits 10 9)
    cons := BitVec.ofNat 4 (v.bits 8 7), prod := BitVec.ofNat 4 (v.bits 6 5) }

/-- QD0 written with QEN 1 to a disabled queue: its fields, then the enable. -/
theorem qd0Write_enable (hv : v.getLsbD 0 = true) (he : (s.queue q).en = false) :
    s.qd0Write q v = (s.modQueue q fun _ => qd0Fields (s.queue q) v).queueOn q := by
  simp only [qd0Write, he, hv]
  rfl

/-- QD0 written with QEN 0 to an enabled queue ends with the queue disabled. -/
theorem en_qd0Write_disable (hv : v.getLsbD 0 = false) (he : (s.queue q).en = true) : ((s.qd0Write q v).queue q).en = false := by
  have hoff (t : State) (ht : (t.queue q).en = true) : ((t.queueOff q).queue q).en = false := by
    simp [queueOff, ht]
  simp only [qd0Write, he, hv]
  apply hoff
  split <;> simp [he]

theorem queue_modQueue_const (s : State) (q : Nat) (x : Queue) : (s.modQueue q fun _ => x).queue q = x := by simp

/-- R51: a queue whose fields do not fit is not enabled, and ERR is set. -/
theorem queue_queueOn_of_not_fit {x : Queue} (hx : s.queue q = x) (h : queueFit x = false) :
    (s.queueOn q).queue q = { x with err := true } := by
  subst hx
  simp [queueOn, h]

/-- R51: a queue that fits and whose pages can be pinned is enabled, its pointers at its counters. -/
theorem queue_queueOn {x : Queue} {l : List Nat} (hx : s.queue q = x) (h : queueFit x = true) (hl : s.queuePages x = some l)
    (hroom : s.pltRoom l = true) :
    (s.queueOn q).queue q =
      { x with
        en := true, halted := false, rej := 0, pages := l, pushers := []
        claim := s.vaQ x.part x.taila.toNat, pop := s.vaQ x.part x.heada.toNat } := by
  subst hx
  have hpin : ((s.queueRead q).pin l).queue q = s.queue q := (sameButMem_queueRead s q).queue q
  simp [queueOn, h, hl, hroom, hpin, qTail, qHead]

@[simp] theorem blockWrite_mem (s : State) (fn : Fn) : (s.blockWrite fn).mem = s.mem := by
  unfold blockWrite
  split <;> rfl

/-- R52: a write of the doorbell, not of 0, to a queue: what refuses it, and what becomes of it. -/
theorem doorbell_eq (hq : q < 4096) (hr : s.boot.recovery = false) (hv : v ≠ 0) :
    s.doorbell fn q 0 v =
      if !fnMay fn (s.queueOwner q) || !(s.queue q).en || (s.queue q).prod != 0 || decide ((s.queue q).count < v.toNat) then
        (if fnMay fn (s.queueOwner q) then s else s.blockWrite fn).modQueue q fun x => { x with drop := true }
      else (if fnMay fn (s.queueOwner q) then s else s.blockWrite fn).deviceAdd (s.queue q).part (s.queue q).taila.toNat v := by
  have hq' : decide (4096 ≤ q) = false := decide_eq_false (Nat.not_le.2 hq)
  have hv' : (v == 0) = false := beq_false_of_ne hv
  simp only [doorbell, hq', hr, hv']
  rfl

/-- R52: a doorbell that the queue takes adds to its tail. -/
theorem doorbell_add (hq : q < 4096) (hr : s.boot.recovery = false) (hv : v ≠ 0) (hm : fnMay fn (s.queueOwner q) = true)
    (he : (s.queue q).en = true) (hp : (s.queue q).prod = 0) (hn : v.toNat ≤ (s.queue q).count) :
    s.doorbell fn q 0 v = s.deviceAdd (s.queue q).part (s.queue q).taila.toNat v := by
  simp [doorbell_eq hq hr hv, hm, he, hp, Nat.not_lt.2 hn]

/-- R52: a doorbell that the queue does not take sets DROP and leaves memory as it was. -/
theorem doorbell_drop (hq : q < 4096) (hr : s.boot.recovery = false) (hv : v ≠ 0)
    (h : fnMay fn (s.queueOwner q) = false ∨ (s.queue q).en = false ∨ (s.queue q).prod ≠ 0 ∨ (s.queue q).count < v.toNat) :
    ((s.doorbell fn q 0 v).queue q).drop = true ∧ (s.doorbell fn q 0 v).mem = s.mem := by
  rw [doorbell_eq hq hr hv, if_pos (by simpa [or_assoc] using h)]
  constructor
  · simp
  · split <;> simp

end

/-! ### The steps of the host interface -/

section
variable {s : State} {P : State → Prop}

theorem then_bar4Read (h : P (s.bar4Read s.ev.fn s.ev.off s.ev.len)) : s.Then .bar4Read P := ⟨_, rfl, h⟩
theorem then_bar4Write (h : P (s.bar4Write s.ev.fn s.ev.off s.ev.data)) : s.Then .bar4Write P := ⟨_, rfl, h⟩
theorem then_registerWrite (h : P (s.regWrite s.ev.space s.ev.off s.ev.v)) : s.Then .registerWrite P := ⟨_, rfl, h⟩
theorem then_w1cClear (h : P (s.w1cWrite s.ev.space s.ev.off s.ev.v)) : s.Then .w1cClear P := ⟨_, rfl, h⟩
theorem then_doorbell (h : P (s.doorbell s.ev.fn s.ev.q s.ev.off s.ev.v)) : s.Then .doorbell P := ⟨_, rfl, h⟩

/-- A write of a register in the page of one of the eight partitions. -/
theorem then_registerWrite_page {p off : Nat} (h : P (s.pageWrite p off s.ev.v)) (hp : p < 8) (hs : s.ev.space = .page p)
    (ho : s.ev.off = off) : s.Then .registerWrite P :=
  then_registerWrite (by rwa [hs, ho, regWrite_page hp])

/-- Flags cleared by writing 1 in the page of one of the eight partitions. -/
theorem then_w1cClear_page {p off : Nat} (h : p < 8 → P (s.w1cWrite (.page p) off s.ev.v)) (hp : p < 8)
    (hs : s.ev.space = .page p) (ho : s.ev.off = off) : s.Then .w1cClear P :=
  then_w1cClear (by rw [hs, ho]; exact h hp)

/-- QUEUE_ENABLE (R51) acts on a disabled queue that the function may reach. -/
theorem then_queueEnable (hq : s.ev.q < 4096) (hr : s.boot.recovery = false)
    (hm : fnMay s.ev.fn (s.queueOwner s.ev.q) = true) (hv : s.ev.v.getLsbD 0 = true) (he : (s.queue s.ev.q).en = false)
    (h : P ((s.modQueue s.ev.q fun _ => qd0Fields (s.queue s.ev.q) s.ev.v).queueOn s.ev.q)) : s.Then .queueEnable P :=
  ⟨_, rfl, by rwa [if_pos (by rw [hv, he]; rfl), queueAccess_of_may _ hq hr hm, qd0Write_enable hv he]⟩

/-- QUEUE_DISABLE (R50) acts on an enabled queue that the function may reach. -/
theorem then_queueDisable (hq : s.ev.q < 4096) (hr : s.boot.recovery = false)
    (hm : fnMay s.ev.fn (s.queueOwner s.ev.q) = true) (hv : s.ev.v.getLsbD 0 = false) (he : (s.queue s.ev.q).en = true)
    (h : P (s.qd0Write s.ev.q s.ev.v)) : s.Then .queueDisable P :=
  ⟨_, rfl, by rwa [if_pos (by rw [hv, he]; rfl), queueAccess_of_may _ hq hr hm]⟩

end

end Sys2Proof.Machine.State

namespace Sys2Proof.Proofs

open Sys2Proof Sys2Proof.Machine Sys2Proof.Machine.State

/-- Settles O41: each clause is the lemma above about the operation that the step runs. -/
theorem hostInterface : Obligations.HostInterface := by
  unfold Obligations.HostInterface
  intro s
  refine ⟨?pf, ?vf, ?recovery, ?pages, ?boost, ?cluster, ?enable, ?disable, ?doorbell⟩
  case pf =>
    intro hr hfn hc
    refine ⟨fun hw => then_bar4Read (bar4Read_beyond hw), fun hw => then_bar4Write (bar4Write_beyond hw),
      fun hw hd => then_bar4Read ?_, fun hw hd => then_bar4Read ?_, fun hw hd => then_bar4Write ?_,
      fun hw hd => then_bar4Write ?_⟩ <;> rw [hfn]
    · rw [bar4Read_mapped hw hr (bar4Place_pf false hd), List.map_map]
      exact ⟨rfl, rfl⟩
    · rw [bar4Read_miss hw hr (bar4Place_pf_none false hd)]
      exact ⟨rfl, w4Miss_pf s⟩
    · exact bar4Write_pf_mapped hw hr hc hd
    · rw [bar4Write_miss hw hr (bar4Place_pf_none true hd)]
      exact ⟨w4Miss_mem s .pf, w4Miss_pf s⟩
  case vf =>
    intro p hr hp
    refine ⟨fun hw => ⟨fun l hl => then_bar4Read ?_, fun hl => then_bar4Read ?_⟩,
      fun l hw hl hd hc => then_bar4Write ⟨?_, ?_, ?_⟩, fun hw hl => then_bar4Write ?_⟩
    · rw [bar4Read_mapped hw hr hl]
      exact ⟨l.map s.locByte, rfl, by rw [List.length_map, bar4Place_length hp hl],
        fun i pa mt hi hwalk => getD_map_locByte hp hl hi hwalk⟩
    · rw [bar4Read_miss hw hr hl]
      exact ⟨rfl, w4Miss_mem s _, w4Miss_vf hp⟩
    · exact fun i pa mt hi hwalk => byte_bar4Write_of_walk hp hw hr hc hl hd hi hwalk
    · exact fun a ha => locByte_bar4Write_of_not_mem hp hw hr hc hl ha
    · intro a ha
      rw [← (sameButMem_bar4Mark s s.ev.fn s.ev.off s.ev.data.length true).hostMem]
      exact locByte_bar4Write_of_not_mem hp hw hr hc hl ha
    · rw [bar4Write_miss hw hr hl]
      exact ⟨w4Miss_mem s _, w4Miss_hostMem s _, w4Miss_vf hp⟩
  case recovery =>
    intro hr hfn
    refine ⟨fun hw => then_bar4Read ?_, fun hw => then_bar4Write ?_⟩ <;> rw [hfn]
    · rw [bar4Read_recovery hw hr]
      rfl
    · rw [bar4Write_recovery hw hr]
      exact ⟨rfl, rfl⟩
  case pages =>
    intro p
    refine ⟨?pmreq0, ?ckpt1, ?ckpt2, ?sampb, ?trcb, ?hsel, ?himm, ?hdata, ?bkpt, ?blkacc, ?pmStatus, ?ckptStatus, ?hcmd⟩
    case bkpt => exact fun n hn => then_registerWrite_page (by simp [pageWrite_bkpt s p _ hn, SMap.get_put])
    case pmStatus => exact then_w1cClear_page fun hp => by simp [w1cWrite_pmStatus hp]
    case ckptStatus => exact then_w1cClear_page fun hp => by simp [w1cWrite_ckptStatus hp]
    case hcmd => exact then_w1cClear_page fun hp => by simp [w1cWrite_hcmd hp]
    all_goals exact then_registerWrite_page (by simp [pageWrite, himmWrite])
  case boost => exact fun hs ho => then_registerWrite (by rw [hs, ho]; rfl)
  case cluster => exact fun c hs => then_registerWrite (by rw [hs]; rfl)
  case enable =>
    rintro ⟨hq, hr, hm⟩ hv he
    have hx := queue_modQueue_const s s.ev.q (qd0Fields (s.queue s.ev.q) s.ev.v)
    refine ⟨fun hfit => then_queueEnable hq hr hm hv he ?_, fun l hfit hl hroom => then_queueEnable hq hr hm hv he ?_⟩
    · rw [queue_queueOn_of_not_fit hx hfit]
      exact ⟨he, rfl⟩
    · rw [queue_queueOn hx hfit hl hroom]
      exact ⟨rfl, rfl, rfl, rfl⟩
  case disable =>
    rintro ⟨hq, hr, hm⟩ hv he
    exact then_queueDisable hq hr hm hv he (en_qd0Write_disable hv he)
  case doorbell =>
    intro hq hr ho hv
    refine ⟨fun hm he hp hn => then_doorbell ?_, fun h => then_doorbell ?_⟩ <;> rw [ho]
    · exact doorbell_add hq hr hv hm he hp hn
    · exact doorbell_drop hq hr hv h

end Sys2Proof.Proofs

/-! ## Power, temperature, the sideband and reset (R20 to R26, R91, R94, R95)

Lemmas about the operations of Power.lean and the steps of an operating point, and the statements assembled from them. -/

namespace Sys2Proof.Machine.State

open Sys2Proof

/-- A step outside the words, by what its operation comes to. -/
theorem Then.of_eq {s t u : State} {i : Instr} {P : State → Prop} (h : exec i s = .next t) (e : t = u) (hp : P u) :
    s.Then i P := ⟨u, e ▸ h, hp⟩

/-! ### The highest and the lowest of some readings -/

theorem highest_cons {a : Int} {l : List Int} (h : l ≠ []) : highest (a :: l) = max a (highest l) := by
  obtain ⟨b, l, rfl⟩ := List.exists_cons_of_ne_nil h
  simp only [highest]
  split <;> omega

theorem lowest_cons {a : Int} {l : List Int} (h : l ≠ []) : lowest (a :: l) = min a (lowest l) := by
  obtain ⟨b, l, rfl⟩ := List.exists_cons_of_ne_nil h
  simp only [lowest]
  split <;> omega

theorem le_highest {v : Int} {l : List Int} (h : v ∈ l) : v ≤ highest l := by
  induction l with
  | nil => cases h
  | cons a l ih =>
    rcases eq_or_ne l [] with rfl | hl
    · exact (List.mem_singleton.1 h).le
    · rw [highest_cons hl]
      rcases List.mem_cons.1 h with rfl | h
      · exact le_max_left _ _
      · exact (ih h).trans (le_max_right _ _)

theorem lowest_le {v : Int} {l : List Int} (h : v ∈ l) : lowest l ≤ v := by
  induction l with
  | nil => cases h
  | cons a l ih =>
    rcases eq_or_ne l [] with rfl | hl
    · exact (List.mem_singleton.1 h).ge
    · rw [lowest_cons hl]
      rcases List.mem_cons.1 h with rfl | h
      · exact min_le_left _ _
      · exact (min_le_right _ _).trans (ih h)

theorem highest_mem {l : List Int} (h : l ≠ []) : highest l ∈ l := by
  induction l with
  | nil => exact absurd rfl h
  | cons a l ih =>
    rcases eq_or_ne l [] with rfl | hl
    · exact List.mem_singleton.2 rfl
    · rw [highest_cons hl]
      rcases max_choice a (highest l) with hm | hm <;> rw [hm]
      · exact List.mem_cons_self
      · exact List.mem_cons_of_mem _ (ih hl)

/-- R23: two core readings more than 15 °C apart make the spread high. -/
theorem spreadHigh_of_mem {s : State} {a b : Int} (ha : a ∈ s.coreTemps) (hb : b ∈ s.coreTemps) (h : 60 < a - b) :
    s.spreadHigh = true := by
  have := le_highest ha
  have := lowest_le hb
  exact decide_eq_true (by omega)

/-- R22: the device has sensors. -/
theorem allTemps_ne_nil (s : State) : s.allTemps ≠ [] := by simp [allTemps]

/-! ### Power and rails (R20, R21) -/

section
variable {s : State}

/-- R20, R37: what PWR_OK high does to a device that is held in reset. -/
theorem powerOn_eq (h : s.power.pwrOk = false) : s.powerOn =
    { s with
      power := { s.power with pwrOk := true, clocksOn := true, state := 1 }
      boot := { s.boot with phase := 1 }
      harts := s.harts.put 0 { released := true, running := true } } := if_neg (by simp [h])

/-- R21: what a rail that fails does, when it was not commanded off. -/
theorem railFault_eq {r : Rail} (h : s.power.pwrOk = true) (hr : ∀ c, r = .vcore c → s.power.regOff.getLsbD c = false) :
    s.railFault r = { s with power := { s.power with
      clocksOn := false, state := 3, alert := s.power.alert ||| 2, faultN := false } } := by
  cases r with
  | vcore c => simp [railFault, h, hr c rfl, holdReset, alert]
  | _ => simp [railFault, h, holdReset, alert]

/-! ### Temperatures (R22, R23) -/
@[simp] theorem alert_cluster (s : State) (m : BitVec 3) (cl : Nat) : (s.alert m).cluster cl = s.cluster cl := rfl
@[simp] theorem alert_power (s : State) (m : BitVec 3) :
    (s.alert m).power = { s.power with alert := s.power.alert ||| m } := rfl

/-- R22, R23: a reading of a core at the operating maximum. -/
theorem setTemp_core_of_max {cl co : Nat} {v : Int} (h : s.maxTemp ≤ v) :
    s.setTemp (.core cl co) v =
      (s.modCluster cl fun c => { c with temps := c.temps.set co v, thold := true, budget := 3 }).alert 1 := by
  have hl : (s.modCluster cl fun c =>
      { c with temps := c.temps.set co v, thold := true, budget := 3 }).limitOf (.core cl co) ≤ v := h
  simp only [setTemp, h, decide_true, Bool.or_true, if_true, if_pos hl]

/-- R22, R26: a reading at its sensor's limit sets bit 0 of ALERT. -/
theorem alert_setTemp_of_limit {k : Sensor} {v : Int} (h : s.limitOf k ≤ v) :
    (s.setTemp k v).power.alert = s.power.alert ||| 1 := by
  cases k with
  | core cl co => rw [setTemp_core_of_max h]; rfl
  | l2 i => exact congrArg (fun t : State => t.power.alert) (if_pos h)
  | hbm i => exact congrArg (fun t : State => t.power.alert) (if_pos h)

/-- R22: the trip temperature is above every sensor's limit. -/
theorem limitOf_le_tripTemp (k : Sensor) : s.limitOf k ≤ s.tripTemp := by
  cases k <;> cases h : s.fuses.rGrade <;> simp [limitOf, maxTemp, hbmMax, tripTemp, h]

/-- R23: the hold begins. -/
theorem thermalHold_of_max {cl co : Nat} {v : Int} (h : s.maxTemp ≤ v) :
    s.thermalHold cl co v =
      (s.modCluster cl fun c => { c with temps := c.temps.set co v, thold := true, budget := 3 }).alert 1 := by
  rw [thermalHold, if_pos h, setTemp_core_of_max h]

/-- R23: the hold ends when every core of the cluster is 3 °C below the operating maximum. -/
theorem thermalHoldEnd_of_cool {cl : Nat} (h : ∀ v ∈ (s.cluster cl).temps, v ≤ s.maxTemp - 12) :
    s.thermalHoldEnd cl = s.modCluster cl fun c => { c with thold := false } := if_pos (by simpa using h)

theorem thermalHoldEnd_of_warm {cl : Nat} (h : ∃ v ∈ (s.cluster cl).temps, s.maxTemp - 12 < v) :
    s.thermalHoldEnd cl = s := if_neg (by simpa using h)

/-- R23, R21: the trip stops the clocks and drives the pins. -/
theorem power_thermalTrip {k : Sensor} {v : Int} (h : s.tripTemp ≤ v) :
    (s.thermalTrip k v).power = { (s.setTemp k v).power with
      clocksOn := false, state := 4, alert := s.power.alert ||| 3, thermTripN := false, faultN := false } := by
  rw [thermalTrip, if_pos h]
  simp only [alert, holdReset, alert_setTemp_of_limit ((limitOf_le_tripTemp k).trans h), BitVec.or_assoc]
  rfl

/-- R23: the spread of an -R part is reported. -/
theorem thermalEvent_eq (hr : s.fuses.rGrade = true) (hh : s.spreadHigh = true) (hf : 1000000000 < s.power.spreadFor)
    (ht : s.power.spreadTold = false) : s.thermalEvent =
      { s with power := { s.power with
        thermEvents := s.power.thermEvents + 1, spreadTold := true, alert := s.power.alert ||| 1 } } :=
  if_pos (by simp [hr, hh, hf, ht])

end

/-! ### Steps of an operating point (R94, R95) -/

section
variable {s : State} {cl : Nat}

/-- R94: with the island's rail at the class point, the clock relocks where it is not there yet. -/
theorem nextPointStep_relock (hj : (s.cluster cl).joining ≠ none) (hr : (s.cluster cl).relock = none)
    (hm : (s.cluster cl).voltMoving = false) (hv : (s.cluster cl).volt = (s.cluster cl).voltTo)
    (hf : (s.cluster cl).freq ≠ (s.cluster cl).freqTo) :
    s.nextPointStep cl = s.modCluster cl fun c => { c with relock := some c.elapsed } := by
  simp [nextPointStep, hj, hr, hm, hv, hf]

/-- R94: with rail and clock at the class point, the cluster joins its pool. -/
theorem nextPointStep_join (hj : (s.cluster cl).joining ≠ none) (hr : (s.cluster cl).relock = none)
    (hm : (s.cluster cl).voltMoving = false) (hv : (s.cluster cl).volt = (s.cluster cl).voltTo)
    (hf : (s.cluster cl).freq = (s.cluster cl).freqTo) : s.nextPointStep cl = s.joinPool cl := by
  simp [nextPointStep, hj, hr, hm, hv, hf]

theorem startVoltage_cluster (s : State) (cl : Nat) :
    (s.startVoltage cl).cluster cl = { s.cluster cl with voltMoving := true } := by
  simp only [startVoltage, modCluster_cluster, if_true]
  rfl

/-- R94: with the clock at the class point, the next step leaves frequency, relock and dwell as they are. -/
theorem nextPointStep_keeps_clock (hf : (s.cluster cl).freq = (s.cluster cl).freqTo) :
    ((s.nextPointStep cl).cluster cl).freq = (s.cluster cl).freq ∧
      ((s.nextPointStep cl).cluster cl).relock = (s.cluster cl).relock ∧
      ((s.nextPointStep cl).cluster cl).dwell = (s.cluster cl).dwell := by
  have hne : ((s.cluster cl).freq != (s.cluster cl).freqTo) = false := by simp [hf]
  simp only [nextPointStep, hne]
  split
  · exact ⟨rfl, rfl, rfl⟩
  split
  · rw [startVoltage_cluster]; exact ⟨rfl, rfl, rfl⟩
  split
  · contradiction
  split
  · rw [startVoltage_cluster]; exact ⟨rfl, rfl, rfl⟩
  · simp [joinPool]

/-- R94: the rail has settled and the clock relocks. -/
theorem voltageSettled_relock (hm : (s.cluster cl).voltMoving = true) (hj : (s.cluster cl).joining ≠ none)
    (hr : (s.cluster cl).relock = none) (hf : (s.cluster cl).freq ≠ (s.cluster cl).freqTo) :
    s.voltageSettled cl = (s.modCluster cl fun c => { c with volt := c.voltTo, voltMoving := false }).modCluster cl
      fun c => { c with relock := some c.elapsed } := by
  rw [voltageSettled, if_pos hm]
  exact nextPointStep_relock (by simpa) (by simpa) (by simp) (by simp) (by simpa)

/-- R94: the rail has settled and the cluster joins its pool. -/
theorem voltageSettled_join (hm : (s.cluster cl).voltMoving = true) (hj : (s.cluster cl).joining ≠ none)
    (hr : (s.cluster cl).relock = none) (hf : (s.cluster cl).freq = (s.cluster cl).freqTo) :
    s.voltageSettled cl = (s.modCluster cl fun c => { c with volt := c.voltTo, voltMoving := false }).joinPool cl := by
  rw [voltageSettled, if_pos hm]
  exact nextPointStep_join (by simpa) (by simpa) (by simp) (by simp) (by simpa)

/-- R95: a relock of 2 us ends with the clock at the new frequency. -/
theorem cluster_frequencyEnd {n : Nat} (h : (s.cluster cl).relock = some n) (hn : n + 2000 ≤ (s.cluster cl).elapsed) :
    ((s.frequencyEnd cl).cluster cl).freq = (s.cluster cl).freqTo ∧ ((s.frequencyEnd cl).cluster cl).relock = none ∧
      ((s.frequencyEnd cl).cluster cl).dwell = 0 := by
  simp only [frequencyEnd, h, if_neg (Nat.not_lt.2 hn)]
  simpa using nextPointStep_keeps_clock (cl := cl)
    (s := s.modCluster cl fun c => { c with freq := c.freqTo, relock := none, dwell := 0 }) (by simp)

end

/-! ### The operating classes at reset (R91) -/

theorem opClass_reset_stat (n : Nat) : (State.reset.opClass n).stat = 0 := by
  change (OpClass.reset n).stat = 0
  unfold OpClass.reset
  split <;> rfl

/-! ### The sideband (R26) -/

section
variable {s : State}

/-- R26: a read addressed to the device answers. -/
theorem smbRead_self (h : s.ev.smbTo = s.smbSelf) (code : Byte) (n : Nat) (v : W64) :
    s.smbRead code n v =
      (State.answer { s with power := { s.power with
        pec := smbPec ([s.ev.smbTo.setWidth 8 <<< 1, code, s.ev.smbTo.setWidth 8 <<< 1 ||| 1] ++
          ((if n == 4 then [4#8] else []) ++ leBytes n v.toNat)) } } (.value v)) := by
  rw [smbRead, smbFor, if_pos (beq_iff_eq.2 h), h]

/-- R26: a transfer addressed to the device takes its effect. -/
theorem smbFor_self (h : s.ev.smbTo = s.smbSelf) (f : State → State) : s.smbFor f = f s := if_pos (beq_iff_eq.2 h)

/-- R26: IDENT, by the part's grade. -/
theorem identCode_eq (s : State) : s.identCode =
    if s.fuses.grade28 then (if s.fuses.rGrade then 0xD339001C else 0x5339001C)
    else if s.fuses.rGrade then 0xD3390020 else 0x53390020 := by
  unfold identCode
  cases s.fuses.grade28 <;> cases s.fuses.rGrade <;> rfl

/-- R26: a packet error code is right when it is absent or is the transfer's. -/
theorem pecRight_iff {code b : Byte} (h : s.ev.smbTo = s.smbSelf) :
    s.pecRight code b = true ↔ ∀ c, s.ev.pec = some c → c = smbPec [s.ev.smbTo.setWidth 8 <<< 1, code, b] := by
  rw [pecRight, ← h, Option.all_eq_true]
  simp

/-- R26: SMB_ALERT_N is high when no flag is set. -/
theorem smbAlertN_iff (s : State) : s.smbAlertN = true ↔ ∀ i, i < 3 → s.power.alert.getLsbD i = false := by
  rw [smbAlertN, beq_iff_eq]
  constructor
  · intro h i _
    rw [h]
    exact BitVec.getLsbD_zero
  · intro h
    exact BitVec.eq_of_getLsbD_eq fun i hi => by rw [h i hi]; exact BitVec.getLsbD_zero.symm

/-- R26: ALERT is read, cleared, or its write is NAKed. -/
theorem exec_alertReg_read (hw : s.ev.wr = none) :
    exec .alertReg s = .next (s.smbRead 5 1 (s.power.alert.setWidth 64)) := by
  simp only [show exec .alertReg s = execAlertReg s from rfl, execAlertReg, hw]

theorem exec_alertReg_write {b : Byte} (h : s.ev.smbTo = s.smbSelf) (hw : s.ev.wr = some b) :
    exec .alertReg s = .next (if s.pecRight 5 b then
      { s with power := { s.power with alert := s.power.alert &&& ~~~(b.extractLsb' 0 3) } } else s.answer .nak) := by
  simp only [show exec .alertReg s = execAlertReg s from rfl, execAlertReg, hw, smbFor_self h]

/-- R26: the flags that a byte written to ALERT leaves. -/
theorem getLsbD_alert_cleared (x : BitVec 3) (b : Byte) {i : Nat} (hi : i < 3) :
    (x &&& ~~~(b.extractLsb' 0 3)).getLsbD i = (x.getLsbD i && !b.getLsbD i) := by
  simp [hi]

end

end Sys2Proof.Machine.State

namespace Sys2Proof.Proofs

open Sys2Proof Sys2Proof.Machine Sys2Proof.Machine.State

/-- Settles O35: a clause for each step, by the lemma above about the operation that the step runs. -/
theorem powerAndTemperature : Obligations.PowerAndTemperature := by
  unfold Obligations.PowerAndTemperature
  intro s
  refine ⟨?on, ?perst, ?rail, ?down, ?hold, ?holdEnd, ?holdStays, ?trip, ?spread, ?nak, ?settled, ?relocked⟩
  case on => exact fun h => .of_eq rfl (powerOn_eq h) ⟨rfl, rfl, rfl, rfl, rfl⟩
  case perst => exact fun h => .of_eq rfl (if_pos h) ⟨rfl, rfl⟩
  case rail => exact fun h hr => .of_eq rfl (railFault_eq h hr) ⟨rfl, rfl, rfl, rfl⟩
  case down => exact ⟨_, rfl, rfl, rfl, rfl, rfl, rfl, rfl, rfl, rfl, rfl, rfl⟩
  case hold => exact fun h => .of_eq rfl (thermalHold_of_max h) (by simp)
  case holdEnd => exact fun h => .of_eq rfl (thermalHoldEnd_of_cool h) (by simp)
  case holdStays => exact fun h => .of_eq rfl (thermalHoldEnd_of_warm h) rfl
  case trip =>
    intro h
    refine .of_eq rfl rfl ?_
    rw [power_thermalTrip h]
    exact ⟨rfl, rfl, rfl, rfl, rfl⟩
  case spread =>
    rintro hr ⟨a, ha, b, hb, hab⟩ hf ht
    exact .of_eq rfl (thermalEvent_eq hr (spreadHigh_of_mem ha hb hab) hf ht) ⟨rfl, rfl⟩
  case nak => exact .of_eq rfl rfl rfl
  case settled =>
    intro c hm hj hr
    refine ⟨fun hf => .of_eq rfl (voltageSettled_relock hm (by simp [hj]) hr hf) (by simp),
      fun hf => .of_eq rfl (voltageSettled_join hm (by simp [hj]) hr hf) (by simp [joinPool, hj])⟩
  case relocked => exact fun n hr hn => .of_eq rfl rfl (cluster_frequencyEnd hr hn)

/-- Settles O36: each read is `smbRead_self` with its own code and value; a write of ALERT clears the flags that it names, or is
NAKed. -/
theorem sideband : Obligations.Sideband := by
  unfold Obligations.Sideband
  intro s h
  refine ⟨?ident, ?state, ?pwr, ?clmask, ?tmax, ?refresh, ?read, ?write, ?unknown⟩
  case ident => exact .of_eq rfl (identCode_eq s ▸ smbRead_self h ..) rfl
  case state => exact .of_eq rfl (smbRead_self h ..) rfl
  case pwr => exact .of_eq rfl (smbRead_self h ..) rfl
  case clmask => exact .of_eq rfl (smbRead_self h ..) rfl
  case tmax =>
    exact ⟨highest s.allTemps, highest_mem (allTemps_ne_nil s), fun w => le_highest, .of_eq rfl (smbRead_self h ..) rfl⟩
  case refresh => exact fun ht => .of_eq rfl (if_pos (beq_iff_eq.2 ht)) rfl
  case read => exact fun hw => .of_eq (exec_alertReg_read hw) (smbRead_self h ..) rfl
  case write =>
    intro b hw
    exact ⟨fun hc => .of_eq (exec_alertReg_write h hw) (if_pos ((pecRight_iff h).2 hc))
        ⟨fun i => getLsbD_alert_cleared _ _, smbAlertN_iff _⟩,
      fun c hc hne => .of_eq (exec_alertReg_write h hw) (if_neg fun hr => hne ((pecRight_iff h).1 hr c hc)) rfl⟩
  case unknown => exact fun hc => .of_eq rfl ((smbFor_self h _).trans (if_pos (by simpa using hc))) rfl

/-- Settles O59: the memories are in canonical form by `memWf_reset`, no operating class is in use by `opClass_reset_stat`, and
every other clause reads a field of the reset state. -/
theorem reset : Obligations.Reset := by
  unfold Obligations.Reset
  refine ⟨memWf_reset, fun _ => rfl, rfl, rfl, rfl, rfl, rfl, rfl, opClass_reset_stat, ?_⟩
  exact ⟨rfl, rfl, rfl, rfl, rfl, rfl, rfl, rfl, rfl, rfl, rfl, rfl, rfl, rfl, rfl, rfl, fun _ => ⟨rfl, rfl⟩⟩

end Sys2Proof.Proofs

/-! ## The fabric ports (R27 to R34)

A port's receiving side is kept apart from its sending side: most operations of a link leave what the port has received
(`SameReceipt`). Then the operations of Ports.lean one by one, and the statement assembled from them. -/

namespace Sys2Proof.Machine.State

open Sys2Proof

/-! ### What an operation of a link leaves -/

/-- The two states differ in ports alone. -/
def SameButPorts (s t : State) : Prop := t = { s with ports := t.ports }

/-- The two ports differ in their sending side and their FEC counts alone. -/
def Port.SameReceipt (x y : Port) : Prop :=
  y = { x with
    txSeq := y.txSeq, retry := y.retry, backlog := y.backlog, sent := y.sent, unacked := y.unacked, replays := y.replays
    fecCorr := y.fecCorr, fecUnc := y.fecUnc }

/-- The two states differ in ports alone, and in port `n` in its sending side and its FEC counts alone. -/
structure SameReceipt (n : Nat) (s t : State) : Prop where
  others : s.SameButPorts t
  port : Port.SameReceipt (s.port n) (t.port n)

theorem SameButPorts.trans {s t u : State} (h : s.SameButPorts t) (k : t.SameButPorts u) : s.SameButPorts u := by
  unfold SameButPorts at *
  rw [k, h]

namespace SameButPorts

variable {s t : State}

theorem flights (h : s.SameButPorts t) : t.flights = s.flights := by rw [h]
theorem portOwner (h : s.SameButPorts t) (n : Nat) : t.portOwner n = s.portOwner n := by rw [h]; rfl
theorem physCluster (h : s.SameButPorts t) (p v : Nat) : t.physCluster p v = s.physCluster p v := by rw [h]; rfl
theorem carafeOf (h : s.SameButPorts t) (p cl : Nat) : t.carafeOf p cl = s.carafeOf p cl := by rw [h]; rfl

end SameButPorts

theorem sameButPorts_modPort (s : State) (n : Nat) (f : Port → Port) : s.SameButPorts (s.modPort n f) := rfl

theorem port_modPort (s : State) (n : Nat) (f : Port → Port) : (s.modPort n f).port n = f (s.port n) := by simp

namespace SameReceipt

variable {n : Nat} {s t u : State}

theorem refl (n : Nat) (s : State) : SameReceipt n s s := ⟨rfl, rfl⟩

theorem trans (h : SameReceipt n s t) (k : SameReceipt n t u) : SameReceipt n s u := by
  refine ⟨h.others.trans k.others, ?_⟩
  have hp := h.port
  have kp := k.port
  unfold Port.SameReceipt at *
  rw [kp, hp]

theorem modPort {f : Port → Port} (h : Port.SameReceipt (s.port n) (f (s.port n))) : SameReceipt n s (s.modPort n f) :=
  ⟨rfl, by rwa [port_modPort]⟩

theorem port_eq (h : SameReceipt n s t) : t.port n = { s.port n with
    txSeq := (t.port n).txSeq, retry := (t.port n).retry, backlog := (t.port n).backlog, sent := (t.port n).sent
    unacked := (t.port n).unacked, replays := (t.port n).replays, fecCorr := (t.port n).fecCorr
    fecUnc := (t.port n).fecUnc } := h.port

theorem rxSeq (h : SameReceipt n s t) : (t.port n).rxSeq = (s.port n).rxSeq := by rw [h.port_eq]
theorem accept (h : SameReceipt n s t) : (t.port n).accept = (s.port n).accept := by rw [h.port_eq]
theorem rx (h : SameReceipt n s t) : (t.port n).rx = (s.port n).rx := by rw [h.port_eq]
theorem dropBad (h : SameReceipt n s t) : (t.port n).dropBad = (s.port n).dropBad := by rw [h.port_eq]
theorem up (h : SameReceipt n s t) : (t.port n).up = (s.port n).up := by rw [h.port_eq]
theorem width (h : SameReceipt n s t) : (t.port n).width = (s.port n).width := by rw [h.port_eq]

end SameReceipt

/-! ### Sending (R28, R29) -/

section
variable {s : State} {n : Nat}

/-- A flit of a type that names a sequence number has gone out. -/
def Port.Sent (y : Port) (ftype : Nat) (seq : BitVec 8) : Prop := ∃ o ∈ y.sent, o.ftype = ftype ∧ o.ackseq = seq

theorem sameReceipt_pump (s : State) (n fuel : Nat) : SameReceipt n s (s.pump n fuel) := by
  induction fuel generalizing s with
  | zero => exact .refl n s
  | succ fuel ih =>
    unfold pump
    dsimp only
    split
    · exact .refl n s
    · split
      · exact .refl n s
      · exact .trans (.modPort (by rfl)) (ih _)

/-- With no flit waiting, no flit is sent. -/
theorem pump_of_backlog_nil (h : (s.port n).backlog = []) (fuel : Nat) : s.pump n fuel = s := by
  cases fuel with
  | zero => rfl
  | succ fuel => simp [pump, h]

theorem sameReceipt_sendControl (s : State) (n ftype : Nat) (seq : BitVec 8) : SameReceipt n s (s.sendControl n ftype seq) :=
  .modPort rfl

theorem sent_sendControl (s : State) (n ftype : Nat) (seq : BitVec 8) :
    Port.Sent ((s.sendControl n ftype seq).port n) ftype seq := by
  rw [sendControl, port_modPort]
  exact ⟨_, List.mem_append_right _ List.mem_cons_self, rfl, rfl⟩

/-- R29: a flit that is turned away is asked for again. -/
theorem sent_askReplay (s : State) (n : Nat) : Port.Sent ((s.askReplay n).port n) 3 (s.port n).rxSeq := sent_sendControl ..

theorem sameReceipt_askReplay (s : State) (n : Nat) : SameReceipt n s (s.askReplay n) := sameReceipt_sendControl ..

theorem port_fecCount (s : State) (n : Nat) (f : Flit) : (s.fecCount n f).port n =
    { s.port n with
      fecCorr := satAdd64 (s.port n).fecCorr f.fecFixed, fecUnc := satAdd64 (s.port n).fecUnc f.fecBad } := port_modPort ..

theorem sameReceipt_fecCount (s : State) (n : Nat) (f : Flit) : SameReceipt n s (s.fecCount n f) := .modPort rfl

/-! ### Acknowledgements (R29) -/

theorem sameReceipt_ackTo (s : State) (n : Nat) (seq : BitVec 8) : SameReceipt n s (s.ackTo n seq) := by
  unfold ackTo
  dsimp only
  split
  · exact .refl n s
  · exact .trans (.modPort (by rfl)) (sameReceipt_pump ..)

/-- With no flit waiting, an acknowledgement frees the flits up to the one that it names, and no more. -/
theorem ackTo_of_findIdx? {seq : BitVec 8} {i : Nat} (hb : (s.port n).backlog = [])
    (hi : (s.port n).retry.findIdx? (fun f => f.seq == seq) = some i) :
    s.ackTo n seq = s.modPort n fun x =>
      { x with retry := x.retry.drop (i + 1)
               replays := if (x.retry.take (i + 1)).any fun f => f.seq == x.replaySeq then 0 else x.replays } := by
  simp only [ackTo, hi]
  exact pump_of_backlog_nil (by rw [port_modPort]; exact hb) _

theorem unacked_ackTo {seq : BitVec 8} (hb : (s.port n).backlog = []) :
    ((s.ackTo n seq).port n).unacked = (s.port n).unacked := by
  cases hi : (s.port n).retry.findIdx? (fun f => f.seq == seq) with
  | none => simp only [ackTo, hi]
  | some i => rw [ackTo_of_findIdx? hb hi, port_modPort]

theorem sameReceipt_ackSixteenth (s : State) (n : Nat) : SameReceipt n s (s.ackSixteenth n) := by
  unfold ackSixteenth
  dsimp only
  split
  · exact .refl n s
  · exact (sameReceipt_sendControl ..).trans (.modPort rfl)

theorem ackSixteenth_of_lt (h : (s.port n).unacked < 16) : s.ackSixteenth n = s := if_pos h

theorem ackSixteenth_of_le (h : 16 ≤ (s.port n).unacked) :
    s.ackSixteenth n = (s.sendControl n 2 (Port.ackSeq (s.port n))).modPort n fun x => { x with unacked := 0 } :=
  if_neg (Nat.not_lt.2 h)

/-- R29: an acknowledgement of the last flit received in order, after which none is unacknowledged. -/
theorem sent_acknowledgement (s : State) (n : Nat) (seq : BitVec 8) :
    Port.Sent (((s.sendControl n 2 seq).modPort n fun x => { x with unacked := 0 }).port n) 2 seq ∧
      (((s.sendControl n 2 seq).modPort n fun x => { x with unacked := 0 }).port n).unacked = 0 := by
  rw [port_modPort]
  exact ⟨sent_sendControl s n 2 seq, rfl⟩

/-! ### A data flit in link mode (R29) -/

/-- The state once a flit's header has been heard: its FEC counts, and its acknowledgement. -/
def heard (s : State) (n : Nat) (f : Flit) : State :=
  if f.sound && f.ackv then (s.fecCount n f).ackTo n f.ackseq else s.fecCount n f

/-- A port that has accepted a flit. -/
def Port.accepted (x : Port) : Port :=
  { x with accept := satAdd64 x.accept 1, rxSeq := x.rxSeq + 1, unacked := x.unacked + 1 }

/-- The state once a flit is accepted and, when it is the sixteenth, acknowledged. -/
def acceptFlit (s : State) (n : Nat) (f : Flit) : State := ((s.heard n f).modPort n Port.accepted).ackSixteenth n

theorem dataFlit_eq (s : State) (n : Nat) (f : Flit) : s.dataFlit n f =
    if !(f.sound && f.validData) then ((s.heard n f).dropBad n).askReplay n
    else if f.seq != ((s.heard n f).port n).rxSeq || !rxRoom ((s.heard n f).port n) then (s.heard n f).askReplay n
    else (s.acceptFlit n f).deliver n f := rfl

variable {f : Flit}

theorem sameReceipt_heard (s : State) (n : Nat) (f : Flit) : SameReceipt n s (s.heard n f) := by
  unfold heard
  split
  · exact (sameReceipt_fecCount s n f).trans (sameReceipt_ackTo ..)
  · exact sameReceipt_fecCount s n f

theorem unacked_heard (hb : (s.port n).backlog = []) : ((s.heard n f).port n).unacked = (s.port n).unacked := by
  have hf := port_fecCount s n f
  unfold heard
  split
  · rw [unacked_ackTo (by rw [hf]; exact hb), hf]
  · rw [hf]

/-- R29, R34: a flit with an error is counted and asked for again. -/
theorem dataFlit_unsound (h : f.sound = false) : s.dataFlit n f = ((s.heard n f).dropBad n).askReplay n := by
  rw [dataFlit_eq, if_pos (by simp [h])]

/-- R29: a good flit out of order is asked for again. -/
theorem dataFlit_outOfOrder (hs : f.sound = true) (hv : f.validData = true) (hq : f.seq ≠ (s.port n).rxSeq) :
    s.dataFlit n f = (s.heard n f).askReplay n := by
  rw [dataFlit_eq, if_neg (by simp [hs, hv]), if_pos (by simp [(sameReceipt_heard s n f).rxSeq, hq])]

/-- R29: a good flit in order, for which there is room, is accepted and delivered. -/
theorem dataFlit_inOrder (hs : f.sound = true) (hv : f.validData = true) (hq : f.seq = (s.port n).rxSeq)
    (hr : (s.port n).rx.length < Config.rxRoom) : s.dataFlit n f = (s.acceptFlit n f).deliver n f := by
  have h := sameReceipt_heard s n f
  rw [dataFlit_eq, if_neg (by simp [hs, hv]), if_neg (by simp [h.rxSeq, hq, rxRoom, h.rx, hr])]

theorem port_dropBad (s : State) (n : Nat) :
    (s.dropBad n).port n = { s.port n with dropBad := satAdd64 (s.port n).dropBad 1 } := port_modPort ..

/-- R29, R34: what a flit with an error leaves of its port. -/
theorem port_dataFlit_unsound (s : State) (n : Nat) (f : Flit) :
    let t := ((s.heard n f).dropBad n).askReplay n
    Port.Sent (t.port n) 3 (s.port n).rxSeq ∧ (t.port n).dropBad = satAdd64 (s.port n).dropBad 1 ∧
      (t.port n).rxSeq = (s.port n).rxSeq ∧ (t.port n).accept = (s.port n).accept ∧ (t.port n).rx = (s.port n).rx := by
  have h := sameReceipt_heard s n f
  have hr := sameReceipt_askReplay ((s.heard n f).dropBad n) n
  have hs := sent_askReplay ((s.heard n f).dropBad n) n
  rw [port_dropBad] at hs
  exact ⟨h.rxSeq ▸ hs, by simp only [hr.dropBad, port_dropBad, h.dropBad], by simp only [hr.rxSeq, port_dropBad, h.rxSeq],
    by simp only [hr.accept, port_dropBad, h.accept], by simp only [hr.rx, port_dropBad, h.rx]⟩

/-- R29: what a flit out of order leaves of its port. -/
theorem port_dataFlit_outOfOrder (s : State) (n : Nat) (f : Flit) :
    let t := (s.heard n f).askReplay n
    Port.Sent (t.port n) 3 (s.port n).rxSeq ∧ (t.port n).rxSeq = (s.port n).rxSeq ∧
      (t.port n).accept = (s.port n).accept ∧ (t.port n).rx = (s.port n).rx := by
  have h := sameReceipt_heard s n f
  have hr := h.trans (sameReceipt_askReplay (s.heard n f) n)
  exact ⟨h.rxSeq ▸ sent_askReplay (s.heard n f) n, hr.rxSeq, hr.accept, hr.rx⟩

/-- An accepted flit changes nothing but its port. -/
theorem sameButPorts_acceptFlit (s : State) (n : Nat) (f : Flit) : s.SameButPorts (s.acceptFlit n f) :=
  ((sameReceipt_heard s n f).others.trans (sameButPorts_modPort ..)).trans (sameReceipt_ackSixteenth ..).others

/-- R29: an accepted flit counts, and the next one is expected. -/
theorem port_acceptFlit (s : State) (n : Nat) (f : Flit) :
    ((s.acceptFlit n f).port n).rxSeq = (s.port n).rxSeq + 1 ∧
      ((s.acceptFlit n f).port n).accept = satAdd64 (s.port n).accept 1 ∧
      ((s.acceptFlit n f).port n).rx = (s.port n).rx := by
  have h := sameReceipt_heard s n f
  have hr := sameReceipt_ackSixteenth ((s.heard n f).modPort n Port.accepted) n
  have hp := port_modPort (s.heard n f) n Port.accepted
  refine ⟨hr.rxSeq.trans ?_, hr.accept.trans ?_, hr.rx.trans ?_⟩ <;> rw [hp]
  · exact congrArg (· + 1) h.rxSeq
  · exact congrArg (satAdd64 · 1) h.accept
  · exact h.rx

/-- R29: every sixteenth flit that is not acknowledged is acknowledged at once. -/
theorem unacked_acceptFlit (hb : (s.port n).backlog = []) :
    ((s.port n).unacked < 15 → ((s.acceptFlit n f).port n).unacked = (s.port n).unacked + 1) ∧
      ((s.port n).unacked = 15 →
        Port.Sent ((s.acceptFlit n f).port n) 2 (s.port n).rxSeq ∧ ((s.acceptFlit n f).port n).unacked = 0) := by
  have hp := port_modPort (s.heard n f) n Port.accepted
  have hu : (((s.heard n f).modPort n Port.accepted).port n).unacked = (s.port n).unacked + 1 := by
    rw [hp]; exact congrArg (· + 1) (unacked_heard hb)
  have ha : Port.ackSeq (((s.heard n f).modPort n Port.accepted).port n) = (s.port n).rxSeq := by
    rw [hp]
    simp [Port.ackSeq, Port.accepted, (sameReceipt_heard s n f).rxSeq]
  refine ⟨fun h => ?_, fun h => ?_⟩ <;> unfold acceptFlit
  · rw [ackSixteenth_of_lt (by omega), hu]
  · rw [ackSixteenth_of_le (by omega), ha]
    exact sent_acknowledgement ..

/-! ### Delivery (R29, R220) -/

theorem port_deliver_coll (h : f.vc = 2) :
    (s.deliver n f).port n = { s.port n with rx := (s.port n).rx ++ [f] } := by
  rw [deliver, if_pos (beq_iff_eq.2 h), port_modPort]

theorem deliver_carafe (h : f.vc = 3) : s.deliver n f = s.depositFlit n f := by
  simp [deliver, h]

theorem deliver_other (h2 : f.vc ≠ 2) (h3 : f.vc ≠ 3) : s.deliver n f = s := by
  rw [deliver, if_neg (by simpa using h2), if_neg (by simpa using h3)]

/-- A deposit is kept among the operations in flight, not in the port. -/
theorem ports_depositFlit (s : State) (n : Nat) (f : Flit) : (s.depositFlit n f).ports = s.ports := by
  unfold depositFlit
  dsimp only
  split
  · rfl
  · split
    · split <;> rfl
    · split
      · rfl
      · split
        · split <;> rfl
        · rfl

theorem port_deliver_of_ne (h : f.vc ≠ 2) : (s.deliver n f).port n = s.port n := by
  unfold port
  by_cases h3 : f.vc = 3
  · rw [deliver_carafe h3, ports_depositFlit]
  · rw [deliver_other h h3]

/-- R220: `k` bytes of a deposit's header from byte `i`, as a number. -/
def depositField (f : Flit) (i k : Nat) : Nat := leNat ((f.payload.drop i).take k)

/-- R220: the chunk of data that a deposit's flit carries. -/
def depositData (f : Flit) : List Byte := (f.payload.drop 16).take (f.len.toNat - 16)

/-- R220: a deposit's flit is well formed: data behind the header, a position and an index in range, and, but for the last, full. -/
def WellFormedDeposit (f : Flit) : Prop :=
  16 < f.len.toNat ∧ depositField f 10 6 = 0 ∧ depositField f 4 1 ≤ 7 ∧ depositField f 6 2 < depositField f 8 2 ∧
    (depositField f 6 2 + 1 = depositField f 8 2 ∨ f.len = 240)

/-- R220: the first chunk of a deposit is kept as an operation of its own. -/
theorem flights_depositFlit_first {p cl : Nat} (hp : s.portOwner n = some p)
    (hc : s.physCluster p (depositField f 5 1) = some cl) (hq : s.carafeOf p cl = true) (hf : WellFormedDeposit f)
    (hn : ∀ y ∈ s.flights, ∀ m src c t j k ch v, y.body ≠ .peerDeposit m src c t j k ch v) :
    ∃ y, (s.depositFlit n f).flights = s.flights ++ [y] ∧
      y.body = .peerDeposit n f.src.toNat cl (depositField f 0 4) (depositField f 4 1) (depositField f 8 2)
        [(depositField f 6 2, depositData f)] none := by
  obtain ⟨hlen, hz, hpos, hidx, hfull⟩ := hf
  unfold depositField depositData at *
  have hfull' : (leNat ((f.payload.drop 6).take 2) + 1 == leNat ((f.payload.drop 8).take 2) || f.len.toNat == 240) = true := by
    rcases hfull with h | h <;> simp [h]
  simp only [depositFlit, hp, hc]
  rw [if_neg (by simp [hlen, hz, hpos, hidx, hfull', hq]), List.find?_eq_none.2]
  · exact ⟨_, rfl, rfl⟩
  · intro y hy
    split
    · exact (hn y hy _ _ _ _ _ _ _ _ ‹_›).elim
    · exact Bool.false_ne_true

/-! ### Replays (R27 to R29) -/

/-- R28: what is sent again names what its port has received by now. -/
theorem port_resend (s : State) (n : Nat) (fs : List OutFlit) : (s.resend n fs).port n =
    { s.port n with
      sent := (s.port n).sent ++ fs.map (OutFlit.acked (s.port n)), replay := satAdd64 (s.port n).replay fs.length
      unacked := if fs.isEmpty then (s.port n).unacked else 0 } := port_modPort ..

/-- R29: how often the flit `seq` has been asked for in a row, this time included. -/
def Port.replayCount (x : Port) (seq : BitVec 8) : Nat :=
  if x.replays != 0 && x.replaySeq == seq then x.replays + 1 else 1

/-- R29: the unacknowledged flits from `seq` on. -/
def Port.unackedFrom (x : Port) (seq : BitVec 8) : List OutFlit := x.retry.dropWhile fun f => f.seq != seq

/-- The state once the unacknowledged flits from `seq` on are sent again. -/
def sentAgain (s : State) (n : Nat) (seq : BitVec 8) : State :=
  (s.modPort n fun x => { x with replays := Port.replayCount (s.port n) seq, replaySeq := seq }).resend n
    (Port.unackedFrom (s.port n) seq)

/-- R29: a replay request for a flit that the retry buffer holds. -/
theorem replayFrom_eq {seq : BitVec 8} (h : Port.unackedFrom (s.port n) seq ≠ []) : s.replayFrom n seq =
    if Port.replayCount (s.port n) seq < 8 then s.sentAgain n seq
    else (s.sentAgain n seq).modPort n fun x =>
      { x with replays := 0, retraining := true, up := false, width := 0
               retrain := if x.retrain == 15 then 15 else x.retrain + 1 } :=
  if_neg (by simpa [Port.unackedFrom] using h)

theorem port_sentAgain (s : State) (n : Nat) (seq : BitVec 8) :
    ((s.sentAgain n seq).port n).sent = (s.port n).sent ++ (Port.unackedFrom (s.port n) seq).map (OutFlit.acked (s.port n)) ∧
      ((s.sentAgain n seq).port n).replay = satAdd64 (s.port n).replay (Port.unackedFrom (s.port n) seq).length := by
  rw [sentAgain, port_resend, port_modPort]
  exact ⟨rfl, rfl⟩

/-- R29: up to the seventh replay of a flit in a row the port sends again. -/
theorem replayFrom_of_lt {seq : BitVec 8} (h : Port.unackedFrom (s.port n) seq ≠ []) (hr : (s.port n).replays < 7) :
    s.replayFrom n seq = s.sentAgain n seq := by
  rw [replayFrom_eq h, if_pos]
  unfold Port.replayCount
  split <;> omega

/-- R29: after the eighth replay of a flit in a row the port retrains. -/
theorem port_replayFrom_eighth {seq : BitVec 8} (h : Port.unackedFrom (s.port n) seq ≠ []) (hr : (s.port n).replays = 7)
    (hs : (s.port n).replaySeq = seq) :
    ((s.replayFrom n seq).port n).sent = ((s.sentAgain n seq).port n).sent ∧
      ((s.replayFrom n seq).port n).retraining = true ∧ ((s.replayFrom n seq).port n).up = false := by
  have hc : ¬ Port.replayCount (s.port n) seq < 8 := by simp [Port.replayCount, hr, hs]
  rw [replayFrom_eq h, if_neg hc, port_modPort]
  exact ⟨rfl, rfl, rfl⟩

/-! ### Stream mode (R32, R33) -/

theorem SameButMem.port {s t : State} (h : s.SameButMem t) (n : Nat) : t.port n = s.port n := by rw [h]; rfl

/-- R33: a flit fit for a stream port: no error, FTYPE 5 and LEN from 1 to 240. -/
def StreamFlitGood (f : Flit) : Prop := f.sound = true ∧ f.ftype = 5 ∧ 1 ≤ f.len.toNat ∧ f.len.toNat ≤ 240

theorem streamFlitGood_iff (f : Flit) :
    (f.sound && f.ftype == 5 && 1 ≤ f.len.toNat && f.len.toNat ≤ 240) = true ↔ StreamFlitGood f := by
  simp only [StreamFlitGood, Bool.and_eq_true, beq_iff_eq, decide_eq_true_eq, and_assoc]

/-- The room in a stream port's queue does not depend on FEC counts. -/
theorem streamRoom_fecCount (s : State) (n : Nat) (f : Flit) : (s.fecCount n f).streamRoom n = s.streamRoom n := by
  simp only [streamRoom, port_fecCount]
  rfl

/-- R152: the state once the counters of a stream port's queue are read, when that queue runs. -/
def streamCounted (s : State) (n : Nat) : State :=
  let q := (s.port n).queue.toNat
  if (s.queue q).en && !(s.queue q).halted then s.queueRead q else s

theorem port_streamCounted (s : State) (n : Nat) : (s.streamCounted n).port n = s.port n := by
  unfold streamCounted
  dsimp only
  split
  · exact (sameButMem_queueRead s _).port n
  · rfl

/-- R33: a stream port that has accepted a flit, with its entry, which is visible 410 ns later. -/
def Port.withEntry (x : Port) (f : Flit) : Port :=
  { x with
    accept := satAdd64 x.accept 1
    entries := x.entries ++
      [{ queue := x.queue.toNat, bytes := streamEntry { x with accept := satAdd64 x.accept 1 } f, left := 410 }] }

/-- R33: a flit arrives in stream mode: what is dropped, and what becomes an entry. -/
theorem streamFlit_eq (s : State) (n : Nat) (f : Flit) : s.streamFlit n f =
    if !(f.sound && f.ftype == 5 && 1 ≤ f.len.toNat && f.len.toNat ≤ 240) then (s.fecCount n f).dropBad n
    else if !(s.fecCount n f).streamRoom n then
      ((s.fecCount n f).streamCounted n).modPort n fun x => { x with dropFull := satAdd64 x.dropFull 1 }
    else ((s.fecCount n f).streamCounted n).modPort n fun x => Port.withEntry x f := rfl

theorem port_streamFlit_bad (h : ¬ StreamFlitGood f) :
    (s.streamFlit n f).port n =
      { (s.fecCount n f).port n with dropBad := satAdd64 ((s.fecCount n f).port n).dropBad 1 } := by
  rw [streamFlit_eq, Bool.eq_false_iff.2 (mt (streamFlitGood_iff f).1 h), Bool.not_false, if_pos rfl, port_dropBad]

theorem port_streamFlit_full (h : StreamFlitGood f) (hr : s.streamRoom n = false) :
    (s.streamFlit n f).port n =
      { (s.fecCount n f).port n with dropFull := satAdd64 ((s.fecCount n f).port n).dropFull 1 } := by
  rw [streamFlit_eq, (streamFlitGood_iff f).2 h, Bool.not_true, if_neg Bool.false_ne_true, streamRoom_fecCount,
    if_pos (by simp [hr]), port_modPort, port_streamCounted]

theorem port_streamFlit_room (h : StreamFlitGood f) (hr : s.streamRoom n = true) :
    (s.streamFlit n f).port n = Port.withEntry ((s.fecCount n f).port n) f := by
  rw [streamFlit_eq, (streamFlitGood_iff f).2 h, Bool.not_true, if_neg Bool.false_ne_true, streamRoom_fecCount,
    if_neg (by simp [hr]), port_modPort, port_streamCounted]

/-- R33: a stream entry begins with the flit's payload. -/
theorem take_streamEntry (x : Port) (h : f.len.toNat ≤ 240) :
    (streamEntry x f).take f.len.toNat = (f.payload.take f.len.toNat ++ List.replicate 240 0).take f.len.toNat := by
  have hl : f.len.toNat ≤ ((f.payload.take f.len.toNat ++ List.replicate 240 0).take 240).length := by
    simp only [List.length_take, List.length_append, List.length_replicate]
    omega
  simp only [streamEntry, List.append_assoc]
  rw [List.take_append_of_le_length hl, List.take_take, Nat.min_eq_left h]

/-- R32: the oldest entry, once its time has come, is written to its queue. -/
theorem streamWrite_due {e : StreamEntry} {rest : List StreamEntry} (h : (s.port n).entries = e :: rest) (he : e.left = 0) :
    s.streamWrite n 0 = (s.modPort n fun y => { y with entries := rest }).streamPut e := by
  simp [streamWrite, h, he]

theorem streamWrite_early {e : StreamEntry} {rest : List StreamEntry} (h : (s.port n).entries = e :: rest) (he : e.left ≠ 0) :
    s.streamWrite n 0 = s := by
  simp [streamWrite, h, Nat.pos_of_ne_zero he]

/-! ### Enable and mode (R31, R32, R34) -/

section
variable {pages : List Nat} {stream : Bool}

theorem portAccess_of_may {fn : Fn} (g : State → State) (hn : n < 48) (hr : s.boot.recovery = false)
    (hm : fnMay fn (s.portOwner n) = true) : s.portAccess fn n g = g s := by
  simp [portAccess, Nat.not_le.2 hn, hr, hm]

section
variable {P : State → Prop}

theorem then_portEnable (hn : s.ev.n < 48) (hr : s.boot.recovery = false) (hm : fnMay s.ev.fn (s.portOwner s.ev.n) = true)
    (h : P (s.portOn s.ev.n)) : s.Then .portEnable P := .of_eq rfl (portAccess_of_may _ hn hr hm) h

theorem then_portDisable (hn : s.ev.n < 48) (hr : s.boot.recovery = false) (hm : fnMay s.ev.fn (s.portOwner s.ev.n) = true)
    (h : P (s.portOff s.ev.n)) : s.Then .portDisable P := .of_eq rfl (portAccess_of_may _ hn hr hm) h

theorem then_portModeSet (hn : s.ev.n < 48) (hr : s.boot.recovery = false) (hm : fnMay s.ev.fn (s.portOwner s.ev.n) = true)
    (h : P (s.portMode s.ev.n s.ev.flag)) : s.Then .portModeSet P := .of_eq rfl (portAccess_of_may _ hn hr hm) h

end

theorem port_pin (s : State) (pages : List Nat) (n : Nat) : (s.pin pages).port n = s.port n := rfl
theorem port_unpin (s : State) (pages : List Nat) (n : Nat) : (s.unpin pages).port n = s.port n := rfl

theorem port_portOn_link (he : (s.port n).en = false) (hs : (s.port n).stream = false) :
    (s.portOn n).port n = Port.enabled (s.port n) [] := by
  simp [portOn, he, hs]

/-- R32: a stream port without a fit ring is refused. -/
theorem port_portOn_noRing (he : (s.port n).en = false) (hs : (s.port n).stream = true) (hr : s.streamRing n = none) :
    (s.portOn n).port n = { s.port n with err := true, enWait := false } := by
  simp [portOn, he, hs, hr]

theorem port_portOn_ring (he : (s.port n).en = false) (hs : (s.port n).stream = true) (hr : s.streamRing n = some pages)
    (hl : s.pltRoom pages = true) : (s.portOn n).port n = Port.enabled (s.port n) pages := by
  simp [portOn, he, hs, hr, hl, port_pin]

/-- R159: a stream port waits for room in the page-lock table. -/
theorem port_portOn_wait (he : (s.port n).en = false) (hs : (s.port n).stream = true) (hr : s.streamRing n = some pages)
    (hl : s.pltRoom pages = false) : (s.portOn n).port n = { s.port n with enWait := true } := by
  simp [portOn, he, hs, hr, hl]

theorem port_portOff (he : (s.port n).en = true) : (s.portOff n).port n = Port.down (s.port n) := by
  simp [portOff, he, port_unpin]

/-- An enable leaves the mode. -/
theorem stream_portOn (s : State) (n : Nat) : ((s.portOn n).port n).stream = (s.port n).stream := by
  unfold portOn
  dsimp only
  split
  · rfl
  · split
    · split
      · split
        · rw [port_modPort]; rfl
        · rw [port_modPort]
      · rw [port_modPort]
    · rw [port_modPort]; rfl

/-- R31: while the port is up another mode is refused. -/
theorem port_portMode_up (hu : (s.port n).up = true) (hs : (s.port n).stream ≠ stream) :
    (s.portMode n stream).port n = { s.port n with err := true } := by
  simp [portMode, hu, hs]

/-- R31: a port that is down takes the mode. -/
theorem stream_portMode (hu : (s.port n).up = false) : ((s.portMode n stream).port n).stream = stream := by
  unfold portMode
  dsimp only
  split
  · exact beq_iff_eq.1 ‹_›
  · split
    · simp_all
    · split
      · rw [stream_portOn, port_modPort]
      · rw [port_modPort]

/-- R31: a port that is enabled and not yet up is enabled anew in link mode. -/
theorem port_portMode_link (he : (s.port n).en = true) (hu : (s.port n).up = false) (hs : (s.port n).stream = true) :
    (s.portMode n false).port n = Port.enabled { Port.down (s.port n) with stream := false } [] := by
  have hp : ((s.unpin (s.port n).pages).modPort n fun x => { Port.down x with stream := false }).port n =
      { Port.down (s.port n) with stream := false } := port_modPort ..
  simp only [portMode, he, hu, hs]
  refine (port_portOn_link ?_ ?_).trans ?_ <;> rw [hp]
  rfl

end

end

/-! ### The steps of a link -/

section
variable {s : State} {n : Nat}

theorem linkUp_of (h : (s.port n).en = true ∧ (s.port n).up = true) (hs : (s.port n).stream = false) : s.linkUp n = true := by
  simp [linkUp, h, hs]

theorem streamUp_of (h : (s.port n).en = true ∧ (s.port n).up = true) (hs : (s.port n).stream = true) : s.streamUp n = true := by
  simp [streamUp, h, hs]

/-- ACK_FLIT_RECEIVE (R29) on a link that is up. -/
theorem exec_ackFlitReceive (hl : s.linkUp s.ev.n = true) : exec .ackFlitReceive s = .next
    (if !s.ev.flit.sound then (s.fecCount s.ev.n s.ev.flit).dropBad s.ev.n
    else if s.ev.flit.ftype == 2 && s.ev.flit.ackv then (s.fecCount s.ev.n s.ev.flit).ackTo s.ev.n s.ev.flit.ackseq
    else s.fecCount s.ev.n s.ev.flit) := congrArg Host.Outcome.next (if_pos hl)

/-- REPLAY_REQUEST (R29) on a link that is up. -/
theorem exec_replayRequest (hl : s.linkUp s.ev.n = true) : exec .replayRequest s = .next
    (if !s.ev.flit.sound then (s.fecCount s.ev.n s.ev.flit).dropBad s.ev.n
    else if s.ev.flit.ftype == 3 then (s.fecCount s.ev.n s.ev.flit).replayFrom s.ev.n s.ev.flit.ackseq
    else s.fecCount s.ev.n s.ev.flit) := congrArg Host.Outcome.next (if_pos hl)

/-- R34: a flit without data that has an error is counted, and does nothing else. -/
theorem port_dropBad_fecCount (s : State) (n : Nat) (f : Flit) :
    let y := ((s.fecCount n f).dropBad n).port n
    y.dropBad = satAdd64 (s.port n).dropBad 1 ∧ y.retry = (s.port n).retry ∧ y.sent = (s.port n).sent := by
  rw [port_dropBad, port_fecCount]
  exact ⟨rfl, rfl, rfl⟩

end

end Sys2Proof.Machine.State

namespace Sys2Proof.Proofs

open Sys2Proof Sys2Proof.Machine Sys2Proof.Machine.State

/-- Settles O37: a case for each part of the statement: the controls, training, the flits of a link, a retraining, the flits of
stream mode and its entries; each clause is the lemma above about the operation that the step runs. -/
theorem ports : Obligations.Ports := by
  unfold Obligations.Ports
  intro s
  refine ⟨?control, ?trained, ?link, ?retrained, ?stream, ?entry⟩
  case control =>
    intro hn hr hm
    refine ⟨fun he hs => then_portEnable hn hr hm ?_, fun he hs hg => then_portEnable hn hr hm ?_,
      fun l he hs hg => ⟨fun hl => then_portEnable hn hr hm ?_, fun hl => then_portEnable hn hr hm ?_⟩,
      fun he => then_portDisable hn hr hm ?_, fun he hu => then_portModeSet hn hr hm (stream_portMode hu),
      fun he hu hs hf => then_portModeSet hn hr hm ?_, fun hu hs => then_portModeSet hn hr hm ?_⟩
    · rw [port_portOn_link he hs]
      exact ⟨rfl, rfl, rfl, rfl, rfl, rfl, rfl⟩
    · rw [port_portOn_noRing he hs hg]
      exact ⟨he, rfl⟩
    · rw [port_portOn_ring he hs hg hl]
      exact ⟨rfl, rfl, rfl⟩
    · rw [port_portOn_wait he hs hg hl]
      exact ⟨he, rfl, rfl⟩
    · rw [port_portOff he]
      exact ⟨rfl, rfl, rfl, rfl, rfl⟩
    · rw [hf, port_portMode_link he hu hs]
      exact ⟨rfl, rfl, rfl, rfl⟩
    · rw [port_portMode_up hu hs]
      exact ⟨rfl, rfl⟩
  case trained =>
    intro he hu hr
    refine .of_eq rfl (if_pos (by simp [he, hu, hr]))
      ⟨(sameReceipt_pump ..).up.trans ?_, (sameReceipt_pump ..).width.trans ?_⟩ <;> rw [port_modPort]
    rfl
  case link =>
    intro hup hs
    have hl := linkUp_of hup hs
    refine ⟨?coll, ?other, ?bad, ?order, ?ack, ?unsound, ?replay, ?timer⟩
    case coll =>
      intro hf hv hq hr hc
      refine .of_eq rfl ((if_pos hl).trans (dataFlit_inOrder hf hv hq hr)) ?_
      obtain ⟨hseq, hacc, hrx⟩ := port_acceptFlit s s.ev.n s.ev.flit
      rw [port_deliver_coll hc]
      exact ⟨hseq, hacc, congrArg (· ++ [s.ev.flit]) hrx, unacked_acceptFlit⟩
    case other =>
      intro hf hv hq hr hc
      refine .of_eq rfl ((if_pos hl).trans (dataFlit_inOrder hf hv hq hr)) ?_
      obtain ⟨hseq, hacc, hrx⟩ := port_acceptFlit s s.ev.n s.ev.flit
      have hb := sameButPorts_acceptFlit s s.ev.n s.ev.flit
      rw [port_deliver_of_ne hc]
      refine ⟨hseq, hacc, hrx, fun h3 => by rw [deliver_other hc h3, hb.flights], unacked_acceptFlit, ?_⟩
      intro b data p cl h3 hp hcl hcar hlen hz hpos hidx hfull hnone
      rw [deliver_carafe h3, ← hb.flights]
      exact flights_depositFlit_first (by rwa [hb.portOwner]) (by rwa [hb.physCluster]) (by rwa [hb.carafeOf])
        ⟨hlen, hz, hpos, hidx, hfull⟩ (by rwa [hb.flights])
    case bad => exact fun hf => .of_eq rfl ((if_pos hl).trans (dataFlit_unsound hf)) (port_dataFlit_unsound ..)
    case order =>
      exact fun hf hv hq => .of_eq rfl ((if_pos hl).trans (dataFlit_outOfOrder hf hv hq)) (port_dataFlit_outOfOrder ..)
    case ack =>
      intro i hf ht hv hb hi
      refine .of_eq (exec_ackFlitReceive hl) ((if_neg (by simp [hf])).trans (if_pos (by simp [ht, hv]))) ?_
      have hp := port_fecCount s s.ev.n s.ev.flit
      rw [ackTo_of_findIdx? (by rw [hp]; exact hb) (by rw [hp]; exact hi), port_modPort, hp]
      exact ⟨rfl, rfl⟩
    case unsound =>
      intro hf
      obtain ⟨hdrop, hretry, hsent⟩ := port_dropBad_fecCount s s.ev.n s.ev.flit
      exact ⟨.of_eq (exec_ackFlitReceive hl) (if_pos (by simp [hf])) ⟨hdrop, hretry⟩,
        .of_eq (exec_replayRequest hl) (if_pos (by simp [hf])) ⟨hdrop, hsent⟩⟩
    case replay =>
      intro hf ht again hne
      have hp := port_fecCount s s.ev.n s.ev.flit
      have hex := exec_replayRequest hl
      rw [if_neg (by simp [hf]), if_pos (by simp [ht])] at hex
      have hne' : Port.unackedFrom ((s.fecCount s.ev.n s.ev.flit).port s.ev.n) s.ev.flit.ackseq ≠ [] := by rw [hp]; exact hne
      obtain ⟨hsent, hcount⟩ := port_sentAgain (s.fecCount s.ev.n s.ev.flit) s.ev.n s.ev.flit.ackseq
      rw [hp] at hsent hcount
      refine ⟨fun h7 => .of_eq hex (replayFrom_of_lt hne' (by rw [hp]; exact h7)) ⟨hsent, hcount⟩,
        fun h7 hseq => .of_eq hex rfl ?_⟩
      obtain ⟨hsame, hretrain, hdown⟩ := port_replayFrom_eighth hne' (by rw [hp]; exact h7) (by rw [hp]; exact hseq)
      exact ⟨hsame.trans hsent, hretrain, hdown⟩
    case timer => exact fun hu => .of_eq rfl (if_pos (by simp [hl, hu])) (sent_acknowledgement ..)
  case retrained =>
    intro he hr hb
    refine .of_eq rfl ((if_pos (by simp [he, hr])).trans (pump_of_backlog_nil ?_ _)) ?_ <;> rw [port_resend, port_modPort]
    · exact hb
    · exact ⟨rfl, rfl, rfl, rfl⟩
  case stream =>
    intro hup hs
    have hl := streamUp_of hup hs
    refine ⟨fun hg hr => .of_eq rfl (if_pos hl) ?_, fun hg hr => .of_eq rfl (if_pos hl) ?_, fun hg => .of_eq rfl (if_pos hl) ?_⟩
    · rw [port_streamFlit_room hg hr, port_fecCount]
      obtain ⟨_, _, _, hlen⟩ := hg
      exact ⟨rfl, _, rfl, take_streamEntry _ hlen⟩
    · rw [port_streamFlit_full hg hr, port_fecCount]
      exact ⟨rfl, rfl⟩
    · rw [port_streamFlit_bad hg, port_fecCount]
      exact ⟨rfl, rfl⟩
  case entry =>
    intro e rest he
    exact ⟨fun h => .of_eq rfl (streamWrite_due he h) rfl, fun h => .of_eq rfl (streamWrite_early he h) rfl⟩

end Sys2Proof.Proofs

/-! ## Boot, recovery and attestation (R37 to R40)

Lemmas about maps and the operations of Boot.lean, and the statement assembled from them. -/

namespace Sys2Proof

/-- The value of a key after a map over the values, for keys listed or not. -/
theorem SMap.get_map_values {α β : Type} (f : α → β) (m : SMap α) (k : Nat) (d : α) :
    SMap.get (m.map fun e => (e.1, f e.2)) k (f d) = f (m.get k d) := by
  unfold SMap.get
  induction m with
  | nil => rfl
  | cons e l ih =>
    obtain ⟨j, v⟩ := e
    by_cases hj : j = k
    · simp [SMap.find, hj]
    · simpa [SMap.find, hj] using ih

/-- The value of a key after one change of each key of a list without repetition. -/
theorem SMap.get_foldl_modify {α : Type} (f : α → α) (d : α) (l : List Nat) (hl : l.Nodup) (m : SMap α) (k : Nat) :
    (l.foldl (fun m j => SMap.modify m j d f) m).get k d = if k ∈ l then f (m.get k d) else m.get k d := by
  induction l generalizing m with
  | nil => rfl
  | cons j l ih =>
    obtain ⟨hj, hl⟩ := List.nodup_cons.1 hl
    rw [List.foldl_cons, ih hl, SMap.get_modify]
    by_cases hk : k = j
    · subst hk
      simp [hj]
    · simp [hk]

end Sys2Proof

namespace Sys2Proof.Machine.State

open Sys2Proof

/-! ### Images (R37, R39) -/

/-- R37, R39: what an image must be to be started. -/
def ImageGood (s : State) (x : List (Nat × Byte)) : Prop :=
  Config.imageFormed x = true ∧ Config.imageSigned x = true ∧ s.fuses.minVer ≤ Config.imageVersion x

section
variable {s : State} {x : List (Nat × Byte)}

theorem imageCode_eq_zero_iff : s.imageCode x = 0 ↔ s.ImageGood x := by
  unfold imageCode ImageGood
  cases Config.imageFormed x <;> cases Config.imageSigned x <;> simp

theorem imageCode_of_malformed (hf : Config.imageFormed x = false) : s.imageCode x = 3 := by simp [imageCode, hf]

theorem imageCode_of_unsigned (hf : Config.imageFormed x = true) (hs : Config.imageSigned x = false) :
    s.imageCode x = 1 := by simp [imageCode, hf, hs]

theorem imageCode_of_old (hf : Config.imageFormed x = true) (hs : Config.imageSigned x = true)
    (hv : Config.imageVersion x < s.fuses.minVer) : s.imageCode x = 2 := by simp [imageCode, hf, hs, hv]

end

/-! ### The islands that are commanded off (R19) -/

theorem foldl_islandOff_frame (l : List Nat) (s : State) : l.foldl islandOff s = { s with
    power := { s.power with regOff := (l.foldl islandOff s).power.regOff, svb := (l.foldl islandOff s).power.svb } } := by
  induction l generalizing s with
  | nil => rfl
  | cons cl l ih => rw [List.foldl_cons, ih]; rfl

/-- R19: the off commands change the regulators' commands alone. -/
theorem islandsOff_frame (s : State) : s.islandsOff = { s with
    power := { s.power with regOff := s.islandsOff.power.regOff, svb := s.islandsOff.power.svb } } := by
  unfold islandsOff
  split
  · exact foldl_islandOff_frame _ s
  · rfl

@[simp] theorem islandsOff_boot (s : State) : s.islandsOff.boot = s.boot := by rw [islandsOff_frame]

theorem imageCode_islandsOff (s : State) (x : List (Nat × Byte)) : s.islandsOff.imageCode x = s.imageCode x := by
  rw [islandsOff_frame]; rfl

theorem regOff_islandOff (s : State) {cl c : Nat} (hc : c < 32) :
    (s.islandOff cl).power.regOff.getLsbD c = (s.power.regOff.getLsbD c || decide (c = cl)) := by
  have h : (BitVec.ofNat 32 (pow2 cl)).getLsbD c = decide (c = cl) := by
    rw [BitVec.getLsbD_ofNat, pow2, Nat.testBit_two_pow]
    simp [hc, eq_comm]
  simp only [islandOff, BitVec.getLsbD_or, h]

theorem regOff_foldl_islandOff {c : Nat} (hc : c < 32) (l : List Nat) (s : State) :
    (l.foldl islandOff s).power.regOff.getLsbD c = (s.power.regOff.getLsbD c || decide (c ∈ l)) := by
  induction l generalizing s with
  | nil => simp
  | cons cl l ih => simp [ih, regOff_islandOff s hc, Bool.or_assoc]

/-- R19: on a 28-cluster part each disabled island's regulator has the off command. -/
theorem regOff_islandsOff {s : State} (hg : s.fuses.grade28 = true) {c : Nat} (hc : c < 32)
    (he : s.fuses.enabled.getLsbD c = false) : s.islandsOff.power.regOff.getLsbD c = true := by
  rw [islandsOff, if_pos hg, regOff_foldl_islandOff hc]
  have hmem : c ∈ (List.range 32).filter fun c => !s.fuses.enabled.getLsbD c := by
    rw [List.mem_filter, he]
    exact ⟨List.mem_range.2 hc, rfl⟩
  rw [decide_eq_true hmem, Bool.or_true]

/-! ### The start of the monitor (R37) -/

theorem hart_startMonitor_zero (s : State) : s.startMonitor.hart 0 = { released := true, running := true } := by
  have h := SMap.get_foldl_modify (fun x : Hart => { x with released := true }) {} ((List.range 15).map fun i => i + 1)
    (by decide) (s.harts.put 0 { released := true, running := true }) 0
  rw [hart, startMonitor, h]
  simp [SMap.get_put]

theorem released_startMonitor (s : State) {h : Nat} (hh : h < 16) : (s.startMonitor.hart h).released = true := by
  rcases h with _ | n
  · rw [hart_startMonitor_zero]
  · have hget := SMap.get_foldl_modify (fun x : Hart => { x with released := true }) {} ((List.range 15).map fun i => i + 1)
      (by decide) (s.harts.put 0 { released := true, running := true }) (n + 1)
    rw [hart, startMonitor, hget, if_pos (by simp; omega)]

theorem port_startMonitor (s : State) (n : Nat) : s.startMonitor.port n = Port.down (s.port n) :=
  SMap.get_map_values Port.down s.ports n {}

/-! ### BOOT_VERIFY (R37) -/

section
variable {s : State}

/-- R40: the measurement blocks that the boot ROM and the monitor fill. -/
def measured (s : State) : State :=
  (((s.measure 1 (digestBytes Config.romDigest)).measure 2 (imageBlock s.boot.slot)).measureMonitor).measure 4 s.fuseBlock

/-- R37: the boot is complete. -/
def bootDone (s : State) : State :=
  { s with boot := { s.boot with phase := 5, recovery := false }, power := { s.power with state := 2 } }

@[simp] theorem hart_bootDone (s : State) (h : Nat) : s.bootDone.hart h = s.hart h := rfl
@[simp] theorem port_bootDone (s : State) (n : Nat) : s.bootDone.port n = s.port n := rfl

/-- R37: an image that verifies is started. -/
theorem bootVerify_good (hp : s.boot.phase = 1) (hr : Config.romIntact = true) (hg : s.ImageGood s.boot.slot) :
    s.bootVerify = s.islandsOff.measured.startMonitor.bootDone := by
  have hc : s.islandsOff.imageCode s.boot.slot = 0 := by rw [imageCode_islandsOff, imageCode_eq_zero_iff.2 hg]
  simp only [bootVerify, hp, islandsOff_boot, hr, hc]
  rfl

/-- R37, R39: with an image that does not verify the boot ROM enters recovery. -/
theorem bootVerify_bad (hp : s.boot.phase = 1) (hr : Config.romIntact = true) (hg : ¬ s.ImageGood s.boot.slot) :
    s.bootVerify = s.islandsOff.enterRecovery := by
  have hc : s.islandsOff.imageCode s.boot.slot ≠ 0 := by rwa [imageCode_islandsOff, ne_eq, imageCode_eq_zero_iff]
  simp [bootVerify, hp, hr, hc]

/-- R40: block 2 holds the digest of the image and its security version. -/
theorem meas_measured (s : State) : s.measured.boot.meas.get 2 [] = imageBlock s.boot.slot := by
  simp [measured, measureMonitor, measure, SMap.get_put]

/-! ### Requests from outside (R38 to R40) -/

theorem configRequest_retry (h : s.boot.phase < 5) : s.configRequest = s.answer .retry := if_pos h

theorem configRequest_value (h : 5 ≤ s.boot.phase) : ∃ v, s.configRequest.reply = .value v := by
  rw [configRequest, if_neg (Nat.not_lt.2 h)]
  exact ⟨_, rfl⟩

/-- R39: RCVGO with an image that verifies. -/
theorem rcvgo_good {v : W64} (hr : s.boot.recovery = true) (hv : v.getLsbD 0 = true) (hg : s.ImageGood s.boot.staged) :
    s.rcvgo v =
      { s with
        boot := { s.boot with slot := s.boot.staged, recovery := false, phase := 1, rcvst := 0 }
        power := { s.power with state := 1 } } := by
  simp [rcvgo, hr, hv, imageCode_eq_zero_iff.2 hg]

/-- R39: RCVGO with an image that does not verify gives its code. -/
theorem rcvgo_bad {v : W64} {n : Nat} (hr : s.boot.recovery = true) (hv : v.getLsbD 0 = true)
    (hc : s.imageCode s.boot.staged = n) (hn : n ≠ 0) : s.rcvgo v = { s with boot := { s.boot with rcvst := w64 n } } := by
  subst hc
  simp [rcvgo, hr, hv, hn]

/-- R40: an SPDM request is answered to the physical function alone, and changes nothing of the boot. -/
theorem then_spdm {i : Instr} {r : Reply} (h : exec i s = .next (s.spdm s.ev.fn r)) :
    (s.ev.fn = .pf → s.Then i fun t => t.reply = r ∧ t.boot = s.boot) ∧
      ∀ n, s.ev.fn = .vf n → s.Then i fun t => t.reply = .none ∧ t.boot = s.boot :=
  ⟨fun hf => .of_eq h (congrArg (s.spdm · r) hf) ⟨rfl, rfl⟩, fun _ hf => .of_eq h (congrArg (s.spdm · r) hf) ⟨rfl, rfl⟩⟩

end

end Sys2Proof.Machine.State

namespace Sys2Proof.Proofs

open Sys2Proof Sys2Proof.Machine Sys2Proof.Machine.State

/-- Settles O38: each clause is the lemma above about the step's operation. -/
theorem bootAndAttestation : Obligations.BootAndAttestation := by
  unfold Obligations.BootAndAttestation
  intro s
  refine ⟨?good, ?bad, ?retry, ?value, ?rcvgo, ?spdm⟩
  case good =>
    intro hp hr hg
    refine .of_eq rfl (bootVerify_good hp hr hg) ⟨rfl, rfl, rfl, ?meas, ?running, ?mode, fun h hh => ?released, fun n => ?port,
      fun hgr c hc he => ?island⟩
    case meas => exact (meas_measured s.islandsOff).trans (by rw [islandsOff_boot]; rfl)
    case running => rw [hart_bootDone, hart_startMonitor_zero]
    case mode => rw [hart_bootDone, hart_startMonitor_zero]
    case released => rw [hart_bootDone, released_startMonitor _ hh]
    case port =>
      rw [port_bootDone, port_startMonitor]
      exact ⟨rfl, rfl⟩
    case island => exact regOff_islandsOff hgr hc he
  case bad => exact fun hp hr hg => .of_eq rfl (bootVerify_bad hp hr hg) ⟨rfl, rfl, rfl⟩
  case retry => exact fun hp => .of_eq rfl (configRequest_retry hp) rfl
  case value => exact fun hp => .of_eq rfl rfl (configRequest_value hp)
  case rcvgo =>
    intro hr hv
    refine ⟨fun hg => .of_eq rfl (rcvgo_good hr hv hg) ⟨rfl, rfl, rfl, rfl⟩, ?_⟩
    rintro n (⟨hf, rfl⟩ | ⟨hf, hs, rfl⟩ | ⟨hf, hs, hver, rfl⟩)
    · exact .of_eq rfl (rcvgo_bad hr hv (imageCode_of_malformed hf) (by decide)) ⟨rfl, rfl, hr⟩
    · exact .of_eq rfl (rcvgo_bad hr hv (imageCode_of_unsigned hf hs) (by decide)) ⟨rfl, rfl, hr⟩
    · exact .of_eq rfl (rcvgo_bad hr hv (imageCode_of_old hf hs hver) (by decide)) ⟨rfl, rfl, hr⟩
  case spdm =>
    exact ⟨then_spdm rfl, then_spdm rfl, then_spdm rfl, then_spdm rfl, then_spdm rfl, then_spdm rfl, then_spdm rfl,
      then_spdm rfl⟩

end Sys2Proof.Proofs

/-! ## What the units of the device leave alone

Writing memory, reading a counter again, waking a group, taking a trap and posting a notice touch memory, caches, translations,
counters, the pages of partitions, and of a group only its park. `Served` says so once, for each of these operations; the
leaked-write log (R267) touches the grids besides. -/

namespace Sys2Proof.Machine

/-- A park for another reason than a counter, or none. -/
def NotCounter (w : Option Park) : Prop := ∀ l want scp rmt, w ≠ some (.counter l want scp rmt)

/-- A group after the other, but for its park, which a wake or a trap may have changed, and the trap that it took. -/
structure Group.SameButPark (x y : Group) : Prop where
  rest : y = { x with park := y.park, stepPend := y.stepPend, trapCause := y.trapCause }
  park : y.park = x.park ∨ NotCounter y.park

theorem Group.SameButPark.refl (x : Group) : x.SameButPark x := ⟨rfl, .inl rfl⟩

theorem Group.SameButPark.trans {x y z : Group} (h : x.SameButPark y) (k : y.SameButPark z) : x.SameButPark z where
  rest := by rw [k.rest, h.rest]
  park := k.park.elim (fun e => h.park.imp (e.trans ·) (e ▸ ·)) .inr

namespace State

open Sys2Proof

/-- What memory, counters, wakes and notices leave of a state: see above. -/
structure Served (s t : State) : Prop where
  rest : t = { s with
    mem := t.mem, memPois := t.memPois, hostMem := t.hostMem, cores := t.cores, clusters := t.clusters, groups := t.groups
    parts := t.parts, free := t.free }
  group : ∀ gk, (s.group gk).SameButPark (t.group gk)
  listed : ∀ gk, (s.groups.find gk).isSome = true → (t.groups.find gk).isSome = true
  part : ∀ p, t.part p = { s.part p with page := (t.part p).page }
  log : ∀ k, (t.core k).sideLog = (s.core k).sideLog

namespace Served

variable {s t u : State}

theorem refl (s : State) : s.Served s := ⟨rfl, fun _ => .refl _, fun _ h => h, fun _ => rfl, fun _ => rfl⟩

theorem trans (h : s.Served t) (k : t.Served u) : s.Served u where
  rest := by rw [k.rest, h.rest]
  group gk := (h.group gk).trans (k.group gk)
  listed gk hg := k.listed gk (h.listed gk hg)
  part p := by rw [k.part p, h.part p]
  log c := (k.log c).trans (h.log c)

theorem foldl {α : Type} {f : State → α → State} (hf : ∀ (s : State) a, s.Served (f s a)) (l : List α) (s : State) :
    s.Served (l.foldl f s) := by
  induction l generalizing s with
  | nil => exact refl s
  | cons a l ih => exact (hf s a).trans (ih _)

theorem withCores (h : s.Served t) (g : SMap Grid) (c : SMap Core) :
    { s with grids := g, cores := c }.Served { t with grids := g, cores := c } where
  rest := by rw [h.rest]
  group := h.group
  listed := h.listed
  part := h.part
  log _ := rfl

theorem withGrids (h : s.Served t) (g : SMap Grid) : { s with grids := g }.Served { t with grids := g } where
  rest := by rw [h.rest]
  group := h.group
  listed := h.listed
  part := h.part
  log := h.log

/-- An operation that leaves groups and partitions alone too. -/
theorem of_memory (h : t = { s with
    mem := t.mem, memPois := t.memPois, hostMem := t.hostMem, cores := t.cores, clusters := t.clusters, free := t.free })
    (hl : ∀ k, (t.core k).sideLog = (s.core k).sideLog) : s.Served t where
  rest := by rw [h]
  group gk := by rw [h]; exact .refl _
  listed gk hg := by rwa [h]
  part p := by rw [h]; rfl
  log := hl

theorem of_sameButMem (h : s.SameButMem t) : s.Served t := of_memory (by rw [h]) fun _ => by rw [h]; rfl

theorem ite {c : Prop} [Decidable c] (h : c → s.Served t) (k : ¬ c → s.Served u) : s.Served (if c then t else u) := by
  split
  · exact h ‹_›
  · exact k ‹_›

end Served

/-! ### Fields that are left alone -/

namespace Served

variable {s t : State}

theorem queues (h : s.Served t) : t.queues = s.queues := by rw [h.rest]
theorem queue (h : s.Served t) (q : Nat) : t.queue q = s.queue q := by rw [h.rest]; rfl
theorem flights (h : s.Served t) : t.flights = s.flights := by rw [h.rest]
theorem grids (h : s.Served t) : t.grids = s.grids := by rw [h.rest]
theorem grid (h : s.Served t) (g : Nat) : t.grid g = s.grid g := by rw [h.rest]; rfl
theorem teams (h : s.Served t) : t.teams = s.teams := by rw [h.rest]
theorem team (h : s.Served t) (k : Nat) : t.team k = s.team k := by rw [h.rest]; rfl
theorem cur (h : s.Served t) : t.cur = s.cur := by rw [h.rest]
theorem regs (h : s.Served t) (gk : Nat) : (t.group gk).regs = (s.group gk).regs := by rw [(h.group gk).rest]
theorem due (h : s.Served t) (gk : Nat) : (t.group gk).due = (s.group gk).due := by rw [(h.group gk).rest]

theorem calm (h : s.Served t) (hc : s.Calm) : t.Calm := by
  intro gk
  rcases (h.group gk).park with e | e
  · rw [e]
    exact hc gk
  · exact e

theorem root (h : s.Served t) (p : Nat) : (t.part p).root = (s.part p).root := by rw [h.part p]

end Served

/-! ### Memory, caches and translations -/

theorem served_devWrite (s : State) (pa : Nat) (bs : List Byte) (p : Bool) : s.Served (s.devWrite pa bs p) :=
  .of_memory rfl fun _ => rfl
theorem served_hostWrite (s : State) (pa : Nat) (bs : List Byte) : s.Served (s.hostWrite pa bs) :=
  .of_memory rfl fun _ => rfl
theorem served_modCore {s : State} {k : Nat} {f : Core → Core} (hf : ∀ c, (f c).sideLog = c.sideLog) : s.Served (s.modCore k f) :=
  .of_memory rfl fun j => by
    rw [modCore_core]
    split
    · next h => rw [hf, h]
    · rfl

theorem served_putL1 (s : State) (k sec : Nat) (e : Sector) : s.Served (s.modCore k fun c => { c with l1 := c.l1.put sec e }) :=
  served_modCore fun _ => rfl

theorem served_modCluster (s : State) (k : Nat) (f : Cluster → Cluster) : s.Served (s.modCluster k f) :=
  .of_memory rfl fun _ => rfl
theorem served_count (s : State) (cl off n : Nat) : s.Served (s.count cl off n) :=
  .of_memory rfl fun _ => rfl
theorem served_settleHome (s : State) (ws : List (Nat × List PByte)) : s.Served (s.settleHome ws) :=
  .of_memory rfl fun _ => rfl

theorem served_countWritten (s : State) (cl : Nat) (ds : List (List PByte)) : s.Served (s.countWritten cl ds) :=
  .ite (fun _ => .refl s) fun _ => served_count ..

theorem served_devWriteP (s : State) (pa : Nat) (bs : List PByte) : s.Served (s.devWriteP pa bs) :=
  .foldl (fun _ _ => served_devWrite ..) _ s

theorem served_wbSector (s : State) (k sec : Nat) : s.Served (s.wbSector k sec) := by
  unfold wbSector
  split
  · exact .refl s
  · split
    · exact .refl s
    · refine Served.trans ?_ (served_putL1 _ k sec _)
      exact .of_memory rfl fun _ => rfl

theorem served_wbCore (s : State) (k : Nat) : s.Served (s.wbCore k) := .foldl (fun _ _ => served_wbSector ..) _ s
theorem served_wbRange (s : State) (k pa n : Nat) : s.Served (s.wbRange k pa n) := .foldl (fun _ _ => served_wbSector ..) _ s

theorem served_dropSector (s : State) (k sec : Nat) : s.Served (s.dropSector k sec) :=
  (served_wbSector s k sec).trans (served_modCore fun _ => rfl)

theorem served_dropRange (s : State) (k pa n : Nat) : s.Served (s.dropRange k pa n) :=
  .foldl (fun _ _ => served_dropSector ..) _ s

theorem served_l1Room (s : State) (k sec : Nat) : s.Served (s.l1Room k sec) := by
  refine .ite (fun _ => .refl s) fun _ => ?_
  exact Served.trans (t := { s with free := s.free + 1 }) (.of_memory rfl fun _ => rfl) (.foldl (fun _ _ => served_dropSector ..) _ _)

theorem served_storeSector (s : State) (k pa : Nat) (bs : List Byte) (p : Bool) (sec : Nat) :
    s.Served (s.storeSector k pa bs p sec) :=
  have h := fun e => (served_l1Room s k sec).trans (served_putL1 _ k sec e)
  .ite (fun _ => (h _).trans (served_wbSector ..)) fun _ => h _

theorem served_glStore (s : State) (k pa mt : Nat) (bs : List Byte) (p : Bool) : s.Served (s.glStore k pa mt bs p) :=
  .ite (fun _ => served_hostWrite ..) fun _ =>
    .ite (fun _ => (served_dropRange ..).trans (served_devWrite ..)) fun _ => .foldl (fun _ _ => served_storeSector ..) _ s

theorem served_settleMarks (s : State) (k : Nat) (ws : List (Nat × List PByte)) : s.Served (s.settleMarks k ws) := by
  refine .foldl (fun s e => ?_) _ s
  dsimp only
  split
  · split
    · exact (served_putL1 s k _ _).trans (.of_memory rfl fun _ => rfl)
    · exact served_putL1 ..
  · exact .of_memory rfl fun _ => rfl

theorem served_setAD (s : State) (p va : Nat) (w : Bool) : s.Served (s.setAD p va w) := .of_sameButMem (sameButMem_setAD ..)
theorem served_vaTouch (s : State) (p va n : Nat) (w : Bool) : s.Served (s.vaTouch p va n w) :=
  .of_sameButMem (sameButMem_vaTouch ..)
theorem served_queueRead (s : State) (q : Nat) : s.Served (s.queueRead q) := .of_sameButMem (sameButMem_queueRead ..)

theorem served_tlbTouch (s : State) (k : Nat) (e : TlbEntry) (va : Nat) : s.Served (s.tlbTouch k e va) := by
  refine Served.trans (t := s.modCore k _) ?_ (served_modCluster ..)
  exact served_modCore fun _ => rfl

theorem served_xlatTouch (s : State) (k p va : Nat) (a : Acc) : s.Served (s.xlatTouch k p va a) := by
  unfold xlatTouch
  split
  · exact .refl s
  · exact .ite (fun _ => (served_tlbTouch ..).trans (served_setAD ..)) fun _ => served_tlbTouch ..

theorem served_vaWrite (s : State) (p va : Nat) (bs : List Byte) : s.Served (s.vaWrite p va bs) := by
  refine (served_vaTouch s p va bs.length true).trans (.foldl (fun s c => ?_) _ _)
  split
  · exact .ite (fun _ => served_hostWrite ..) fun _ => served_devWrite ..
  · exact .refl s

/-! ### Acquires and releases (R139, R169, R171) -/

theorem served_promoteFor (s : State) (gk : Nat) (rmt : Bool) : s.Served (s.promoteFor gk rmt) :=
  .ite (fun _ => .foldl (fun _ _ => served_wbCore ..) _ s) fun _ => .refl s

theorem served_acquireEnds (s : State) (gk scp : Nat) : s.Served (s.acquireEnds gk scp) :=
  .ite (fun _ => served_modCore fun _ => rfl) fun _ => .refl s

/-! ### Pages of partitions -/

theorem served_modPage (s : State) (p : Nat) (f : Page → Page) : s.Served (s.modPage p f) where
  rest := rfl
  group _ := .refl _
  listed _ h := h
  part q := by
    rw [modPage, modPart_part]
    split
    · next h => rw [h]
    · rfl
  log _ := rfl

theorem served_ringRead (s : State) (p : Nat) : s.Served (s.ringRead p) :=
  .ite (fun _ => (served_vaTouch ..).trans (served_vaTouch ..)) fun _ => .refl s

theorem served_notice (s : State) (p : Nat) (r : TrapRec) : s.Served (s.notice p r) :=
  .ite (fun _ => (served_ringRead ..).trans (served_modPage ..)) fun _ => (served_ringRead ..).trans (served_modPage ..)

theorem served_errorEvent (s : State) (g code : Nat) (page : W64) (t grp : Nat) :
    s.Served (s.errorEvent g code page t grp) := served_notice ..

/-! ### Traps and wakes -/

theorem notCounter_afterPark (y : Group) : NotCounter (afterPark y) := by
  unfold afterPark
  split <;> exact nofun

theorem find_isSome_modify {α : Type} (m : SMap α) (k : Nat) (d : α) (f : α → α) {j : Nat} (h : (m.find j).isSome = true) :
    ((m.modify k d f).find j).isSome = true := by
  rw [SMap.modify, SMap.find_put]
  split
  · rfl
  · exact h

theorem served_modGroup {s : State} {gk : Nat} {f : Group → Group} (h : (s.group gk).SameButPark (f (s.group gk))) :
    s.Served (s.modGroup gk f) where
  rest := rfl
  group g := by
    rw [modGroup_group]
    split
    · next hg => rwa [hg]
    · exact .refl _
  listed _ h := find_isSome_modify _ _ _ _ h
  part _ := rfl
  log _ := rfl

theorem served_trapGroup (s : State) (gk pc : Nat) (sec : Bool) (t : Trap) : s.Served (s.trapGroup gk pc sec t) :=
  have h := (served_modPage s (s.grid (grpKeyGrid gk)).part _).trans
    (served_modGroup (gk := gk) (f := fun y => { y with park := some .trap, trapCause := some t.cause })
      ⟨rfl, .inr nofun⟩)
  .ite (fun _ => h.trans (served_count ..)) fun _ => .ite (fun _ => h.trans (served_count ..)) fun _ => h

theorem served_rouse (s : State) (k : Nat) : s.Served (s.rouse k) := served_modCore fun _ => rfl

theorem served_wake (s : State) (gk : Nat) : s.Served (s.wake gk) := by
  unfold wake
  dsimp only
  split
  · exact (served_rouse ..).trans (served_modGroup (f := fun y => { y with park := afterPark y }) ⟨rfl, .inr (notCounter_afterPark _)⟩)
  · refine .trans ?_ (served_trapGroup ..)
    exact (served_rouse ..).trans (served_modGroup (f := fun y => { y with park := none, stepPend := none }) ⟨rfl, .inr nofun⟩)

/-! ### Counters (R169, R410) -/

theorem served_counterStep (s : State) (gk : Nat) (l : Loc) : s.Served (s.counterStep gk l) := by
  unfold counterStep
  split
  · split
    · exact .ite (fun _ => .refl s) fun _ => served_dropRange ..
    · exact .refl s
  · exact .refl s

theorem served_recheck (s : State) (gk : Nat) : s.Served (s.recheck gk) := by
  unfold recheck
  split
  · next l want scp rmt _ =>
    refine .ite (fun _ => .refl s) fun _ => ?_
    have h : s.Served ((s.counterStep gk l).promoteFor gk rmt) := (served_counterStep s gk l).trans (served_promoteFor ..)
    dsimp only
    split
    · refine .ite (fun _ => h.trans ?_) fun _ => served_counterStep s gk l
      exact (Served.ite (fun _ => served_count ..) fun _ => .refl _).trans ((served_acquireEnds ..).trans (served_wake ..))
    · exact served_counterStep s gk l
  · exact .refl s

theorem served_recheckAll (s : State) : s.Served s.recheckAll := .foldl served_recheck _ s

theorem served_vaAdd (s : State) (p va : Nat) (n : W64) : s.Served (s.vaAdd p va n) := served_vaWrite ..

theorem served_deviceAdd (s : State) (p va : Nat) (n : W64) : s.Served (s.deviceAdd p va n) :=
  (served_vaAdd ..).trans (served_recheckAll _)

theorem served_wakeLog (s : State) (k : Nat) : s.Served (s.wakeLog k) := by
  refine .foldl (fun s gk => ?_) _ s
  dsimp only
  split
  · exact .ite (fun _ => served_wake ..) fun _ => .refl s
  · exact .refl s

/-! ### The leaked-write log (R267) -/

/-- As `Served`, and of a grid its leaked-write log may have grown, and the note of who last added to a counter (R282). -/
structure ServedLogged (s t : State) : Prop where
  served : { s with grids := t.grids }.Served t
  grid : ∀ g, t.grid g = { s.grid g with
    nlog := (t.grid g).nlog, ovfl := (t.grid g).ovfl, lastAdd := (t.grid g).lastAdd }

namespace ServedLogged

variable {s t u : State}

theorem of_served (h : s.Served t) : s.ServedLogged t where
  served := by
    rw [show t.grids = s.grids from h.grids]
    exact h
  grid g := by rw [h.grid]

theorem refl (s : State) : s.ServedLogged s := .of_served (.refl s)

theorem trans (h : s.ServedLogged t) (k : t.ServedLogged u) : s.ServedLogged u where
  served := (Served.withGrids h.served u.grids).trans k.served
  grid g := by rw [k.grid, h.grid]

theorem foldl {α : Type} {f : State → α → State} (hf : ∀ (s : State) a, s.ServedLogged (f s a)) (l : List α) (s : State) :
    s.ServedLogged (l.foldl f s) := by
  induction l generalizing s with
  | nil => exact refl s
  | cons a l ih => exact (hf s a).trans (ih _)

theorem ite {c : Prop} [Decidable c] (h : c → s.ServedLogged t) (k : ¬ c → s.ServedLogged u) :
    s.ServedLogged (if c then t else u) := by
  split
  · exact h ‹_›
  · exact k ‹_›

theorem part (h : s.ServedLogged t) (p : Nat) : t.part p = { s.part p with page := (t.part p).page } := h.served.part p
theorem queue (h : s.ServedLogged t) (q : Nat) : t.queue q = s.queue q := h.served.queue q
theorem team (h : s.ServedLogged t) (k : Nat) : t.team k = s.team k := h.served.team k
theorem group (h : s.ServedLogged t) (gk : Nat) : (s.group gk).SameButPark (t.group gk) := h.served.group gk
theorem reca (h : s.ServedLogged t) (g : Nat) : (t.grid g).reca = (s.grid g).reca := by rw [h.grid]

end ServedLogged

theorem servedLogged_modGrid {s : State} {g : Nat} {f : Grid → Grid}
    (hf : ∀ r, f r = { r with nlog := (f r).nlog, ovfl := (f r).ovfl, lastAdd := (f r).lastAdd }) : s.ServedLogged (s.modGrid g f) where
  served := .of_memory rfl fun _ => rfl
  grid j := by
    rw [modGrid_grid]
    split
    · next h => rw [h]; exact hf _
    · rfl

theorem servedLogged_logLeak (s : State) (g kind addr len dev : Nat) : s.ServedLogged (s.logLeak g kind addr len dev) := by
  refine .ite (fun _ => .refl s) fun _ => .ite (fun _ => .of_served (served_vaWrite ..)) fun _ => .ite (fun _ => ?_) fun _ => ?_
  · exact (ServedLogged.of_served (served_vaWrite ..)).trans (servedLogged_modGrid fun _ => rfl)
  · exact servedLogged_modGrid fun _ => rfl

/-! ### The side log (R157) -/

theorem servedLogged_rmwAt {s : State} {core g va op sz : Nat} {lanes : List RmwLane} {pl : Place}
    (hpl : ∀ g t off, pl ≠ .spad g t off) : s.ServedLogged (s.rmwAt core g pl va op sz lanes).1 := by
  cases pl with
  | dev pa =>
    exact .of_served (((served_dropRange ..).trans (served_devWrite ..)).trans (served_countWritten ..))
  | host pa va' => exact (ServedLogged.of_served (served_hostWrite ..)).trans (servedLogged_logLeak ..)
  | spad g t off => exact absurd rfl (hpl g t off)

/-- What the replay of one piece of a store does. -/
theorem servedLogged_replayPiece (s : State) (k a mt g at_ n : Nat) (bs : List Byte) (pois wide : Bool) :
    s.ServedLogged (if mt == 1 then (s.glStore k a mt bs pois).logLeak g 0 at_ n 0
      else if wide then (s.glStore k a mt bs pois).wbRange k a n else s.glStore k a mt bs pois) := by
  have h := ServedLogged.of_served (served_glStore s k a mt bs pois)
  refine .ite (fun _ => h.trans (servedLogged_logLeak ..)) fun _ => ?_
  exact .ite (fun _ => h.trans (.of_served (served_wbRange ..))) fun _ => h

theorem servedLogged_replayRec (s : State) (k : Nat) (e : LogEntry) (r : LogRec) : s.ServedLogged (s.replayRec k e r) := by
  unfold replayRec
  split
  · exact .refl s
  · split
    · exact .of_served (served_errorEvent ..)
    · split
      · exact .foldl (fun s p => servedLogged_replayPiece ..) _ s
      · refine servedLogged_rmwAt fun g t off => ?_
        split <;> exact nofun

/-- The replay of one entry of a page. -/
def replayEntry (s : State) (k p page : Nat) (e : LogEntry) : State :=
  let s := e.recs.foldl (fun s r => s.replayRec k e r) s
  match s.storePlace k p (page * 65536) with
  | some (pa, mt) => if e.op == 0 && mt != 1 then s.settleMarks k (logWrites e (pa / 65536)) else s
  | none => s

theorem replayPage_eq {s : State} {k p page : Nat}
    (h : ((s.storePlace k p (page * 65536)).isNone || s.replayHeld k p page) = false) : s.replayPage k p page =
    (s.logOf k p page).foldl (fun s e => replayEntry s k p page e)
      ((s.modCore k fun c => { c with sideLog := c.sideLog.filter fun e => !(e.page == page && (s.grid e.g).part == p) }).xlatTouch
        k p (page * 65536) .store) := by
  rw [replayPage, if_neg (by simp [h])]
  rfl

theorem servedLogged_replayEntry (s : State) (k p page : Nat) (e : LogEntry) : s.ServedLogged (s.replayEntry k p page e) := by
  have h : s.ServedLogged (e.recs.foldl (fun s r => s.replayRec k e r) s) := .foldl (fun _ _ => servedLogged_replayRec ..) _ s
  unfold replayEntry
  dsimp only
  split
  · exact .ite (fun _ => h.trans (.of_served (served_settleMarks ..))) fun _ => h
  · exact h

/-- As `ServedLogged`, and the side logs may have changed. -/
def Replayed (s t : State) : Prop := { s with grids := t.grids, cores := t.cores }.Served t

namespace Replayed

variable {s t u : State}

theorem of_logged (h : s.ServedLogged t) : s.Replayed t := h.served.withCores t.grids t.cores

theorem refl (s : State) : s.Replayed s := .of_logged (.refl s)

theorem trans (h : s.Replayed t) (k : t.Replayed u) : s.Replayed u := (Served.withCores h u.grids u.cores).trans k

theorem foldl {α : Type} {f : State → α → State} (hf : ∀ (s : State) a, s.Replayed (f s a)) (l : List α) (s : State) :
    s.Replayed (l.foldl f s) := by
  induction l generalizing s with
  | nil => exact refl s
  | cons a l ih => exact (hf s a).trans (ih _)

theorem ev (h : s.Replayed t) : t.ev = s.ev := by rw [Served.rest h]
theorem root (h : s.Replayed t) (p : Nat) : (t.part p).root = (s.part p).root := by rw [Served.part h p]; rfl

end Replayed

theorem replayed_modCore (s : State) (k : Nat) (f : Core → Core) : s.Replayed (s.modCore k f) :=
  Served.of_memory rfl fun _ => rfl

theorem replayed_replayPage (s : State) (k p page : Nat) : s.Replayed (s.replayPage k p page) := by
  have hf (l : List LogEntry) (t : State) : t.ServedLogged (l.foldl (fun s e => replayEntry s k p page e) t) :=
    .foldl (fun _ _ => servedLogged_replayEntry ..) l t
  unfold replayPage
  split
  · exact .refl s
  · exact (replayed_modCore s k _).trans (.of_logged (.trans (.of_served (served_xlatTouch ..)) (hf _ _)))

theorem replayed_retryLog (s : State) (k : Nat) : s.Replayed (s.retryLog k) := by
  have hf (l : List (Nat × Nat)) : s.Replayed (l.foldl (fun s x => replayPage s k x.1 x.2) s) :=
    .foldl (fun _ _ => replayed_replayPage ..) l s
  exact (hf _).trans (.of_logged (.of_served ((served_wakeLog _ k).trans (served_recheckAll _))))

end State
end Sys2Proof.Machine

/-! ## The services of an image (R43) -/

namespace Sys2Proof.Machine.State

open Sys2Proof

/-! ### The answer of a call -/

theorem hart_sbiAnswer (s : State) (e : Int) (v : W64) :
    (s.sbiAnswer e v).hart s.ev.hart = ((s.hart s.ev.hart).xset 10 (BitVec.ofInt 64 e)).xset 11 v := by
  rw [show (s.sbiAnswer e v).hart s.ev.hart =
    (s.modHart s.ev.hart fun x => (x.xset 10 (BitVec.ofInt 64 e)).xset 11 v).hart s.ev.hart from rfl]
  simp [hart, modHart, SMap.get_modify]

theorem xget_xset_same (x : Hart) {n : Nat} (hn : n ≠ 0) (v : W64) : (x.xset n v).xget n = v := by
  simp [Hart.xget, Hart.xset, hn, SMap.get_set]

theorem xget_xset_other (x : Hart) {n m : Nat} (h : m ≠ n) (v : W64) : (x.xset n v).xget m = x.xget m := by
  by_cases hn : n = 0
  · simp [Hart.xset, hn]
  · simp [Hart.xget, Hart.xset, hn, SMap.get_set, h]

/-- R43: the caller of a service finds the error code in a0 and the value in a1. -/
def Answered (s : State) (h : Nat) (e : Int) (v : W64) : Prop :=
  s.reply = .sbi e v ∧ (s.hart h).xget 10 = BitVec.ofInt 64 e ∧ (s.hart h).xget 11 = v

theorem answered_sbiAnswer (s : State) (e : Int) (v : W64) : (s.sbiAnswer e v).Answered s.ev.hart e v := by
  refine ⟨rfl, ?_, ?_⟩ <;> rw [hart_sbiAnswer]
  · rw [xget_xset_other _ (by decide), xget_xset_same _ (by decide)]
  · rw [xget_xset_same _ (by decide)]

theorem sbiAnswer_part (s : State) (e : Int) (v : W64) (p : Nat) : (s.sbiAnswer e v).part p = s.part p := rfl

theorem answered_sbiFail (s : State) (e : Int) :
    (s.sbiFail e).parts = s.parts ∧ ∃ v, (s.sbiFail e).Answered s.ev.hart e v :=
  ⟨rfl, Config.freeWord s.free, answered_sbiAnswer { s with free := s.free + 1 } e _⟩

/-! ### The call -/

/-- R43: the hart of the event is an image's, in VS-mode, and calls the function `fid` of the monitor's extension. -/
structure Calls (s : State) (p : Nat) (fid : W64) : Prop where
  part : (s.hart s.ev.hart).part = some p
  running : (s.hart s.ev.hart).running = true
  mode : (s.hart s.ev.hart).mode = .vs
  extension : (s.hart s.ev.hart).xget 17 = 0x09533941
  function : (s.hart s.ev.hart).xget 16 = fid

theorem Calls.sbi {s : State} {p : Nat} {n : W64} (h : s.Calls p n) {fid : W64 → Bool} (hf : fid n = true)
    (f : Nat → State → State) : s.sbi s.ev.hart fid f = f p s := by
  obtain ⟨hpart, hrun, hmode, hext, hfun⟩ := h
  have hext : (s.hart s.ev.hart).x.get 17 0 = 0x09533941 := hext
  have hfun : (s.hart s.ev.hart).x.get 16 0 = n := hfun
  rw [State.sbi, hpart, hrun, hmode, hext, hfun, hf]
  rfl

theorem Calls.sbiCall {s : State} {p n : Nat} (h : s.Calls p (w64 n)) (f : W64 → Nat → State → State) :
    s.sbiCall n f = f ((s.hart s.ev.hart).xget 10) p s :=
  Calls.sbi (fid := (· == w64 n)) h (beq_self_eq_true _) _

/-! ### SET_ROOT drops translations (R43, R151) -/

theorem replayed_tlbDrop (s : State) (p : Nat) (f : TlbEntry → Bool) : s.Replayed (s.tlbDrop p f) := by
  have hfold (l : List Nat) (t : State) : t.Replayed (l.foldl retryLog t) := .foldl replayed_retryLog l t
  have hdrop (c : SMap Core) (cl : SMap Cluster) : s.Replayed { s with cores := c, clusters := cl } :=
    Served.of_memory rfl fun _ => rfl
  unfold tlbDrop
  exact (hdrop _ _).trans (hfold _ _)

/-! ### The functions -/

section
variable {s : State} {p : Nat} {a : W64}

theorem sbiInfo_unknown (ha : 6 < a.toNat) : sbiInfo a p s = s.sbiFail (-3) := by
  obtain ⟨n, hn⟩ : ∃ n, a.toNat = n + 7 := ⟨a.toNat - 7, by omega⟩
  rw [sbiInfo, hn]
  rfl

theorem sbiRoot_ok (ha : a.toNat % 16384 = 0) (hm : s.inHbm p a.toNat 16384 = true) : sbiRoot a p s =
    ((s.modPart p fun x => { x with root := some a.toNat }).tlbDrop p fun _ => true).sbiAnswer 0 0 := by
  simp [sbiRoot, ha, hm]

theorem sbiRoot_bad (h : a.toNat % 16384 ≠ 0 ∨ s.inHbm p a.toNat 16384 = false) : sbiRoot a p s = s.sbiFail (-5) :=
  if_pos (by simpa using h)

theorem sbiTrapHart_ok (ha : a.toNat < 16) (hm : (s.part p).harts.getLsbD a.toNat = true) : sbiTrapHart a p s =
    (s.modPart p fun x => { x with trapHart := some a.toNat }).sbiAnswer 0 0 := if_neg (by simp [ha, hm])

theorem sbiTrapHart_bad (h : 16 ≤ a.toNat ∨ (s.part p).harts.getLsbD a.toNat = false) : sbiTrapHart a p s = s.sbiFail (-3) :=
  if_pos (by simpa using h)

theorem sbiWbase_ok (hl : a.bits 15 0 = 0) (hh : a.bits 63 57 = 0) : sbiWbase a p s =
    (s.modPart p fun x => { x with wbase := a }).sbiAnswer 0 0 := if_neg (by simp [hl, hh])

theorem sbiWbase_bad (h : a.bits 15 0 ≠ 0 ∨ a.bits 63 57 ≠ 0) : sbiWbase a p s = s.sbiFail (-3) :=
  if_pos (by simpa using h)

end

/-! ### What a call leaves -/

section
variable {s : State} {p : Nat}

/-- A call that tells a value. -/
theorem Calls.tells {n : Nat} {f : W64 → Nat → State → State} {i : Instr} {v : W64} (h : s.Calls p (w64 n))
    (hi : exec i s = .next (s.sbiCall n f)) (hf : f ((s.hart s.ev.hart).xget 10) p s = s.sbiAnswer 0 v) :
    s.Then i fun t => t.Answered s.ev.hart 0 v ∧ t.parts = s.parts :=
  .of_eq hi ((h.sbiCall f).trans hf) ⟨answered_sbiAnswer .., rfl⟩

/-- A call that fails. -/
theorem Calls.fails {n : Nat} {f : W64 → Nat → State → State} {i : Instr} {e : Int} (h : s.Calls p (w64 n))
    (hi : exec i s = .next (s.sbiCall n f)) (hf : f ((s.hart s.ev.hart).xget 10) p s = s.sbiFail e) :
    s.Then i fun t => t.parts = s.parts ∧ ∃ v, t.Answered s.ev.hart e v :=
  .of_eq hi ((h.sbiCall f).trans hf) (answered_sbiFail s e)

/-- A call that changes the partition. -/
theorem Calls.sets {n : Nat} {f : W64 → Nat → State → State} {i : Instr} {u : State} {P : State → Prop} (h : s.Calls p (w64 n))
    (hi : exec i s = .next (s.sbiCall n f)) (hf : f ((s.hart s.ev.hart).xget 10) p s = u.sbiAnswer 0 0) (hu : u.ev = s.ev)
    (hP : P (u.sbiAnswer 0 0)) : s.Then i fun t => P t ∧ t.Answered s.ev.hart 0 0 :=
  .of_eq hi ((h.sbiCall f).trans hf) ⟨hP, hu ▸ answered_sbiAnswer u 0 0⟩

end

end Sys2Proof.Machine.State

namespace Sys2Proof.Proofs

open Sys2Proof Sys2Proof.Machine Sys2Proof.Machine.State

/-- Settles O40: each function by its branches, with the answer of a call said once. -/
theorem imageServices : Obligations.ImageServices := by
  intro s p hpart hrun hmode hext x a fid answers tells fails
  have call {n : Nat} (h : fid = n) : s.Calls p (w64 n) := by
    refine ⟨hpart, hrun, hmode, hext, ?_⟩
    rw [← h, w64, BitVec.ofNat_toNat, BitVec.setWidth_eq]
  refine ⟨fun h0 => ?info, fun h1 => ⟨fun ha hm => ?root, fun hbad => (call h1).fails rfl (sbiRoot_bad hbad)⟩,
    fun h2 => ⟨fun ha hm => ?trapHart, fun hbad => (call h2).fails rfl (sbiTrapHart_bad hbad)⟩,
    fun h3 => ⟨fun hl hh => ?wbase, fun hbad => (call h3).fails rfl (sbiWbase_bad hbad)⟩,
    fun h4 => (call h4).tells rfl rfl, fun h5 => ?unknown⟩
  case info =>
    have told {c v : W64} (ha : a = c) (hv : sbiInfo c p s = s.sbiAnswer 0 v) : tells .getInfo 0 v :=
      (call h0).tells rfl (show sbiInfo a p s = _ from ha ▸ hv)
    refine ⟨fun ha => told ha rfl, fun ha => told ha rfl, fun ha => told ha ?_, fun ha => told ha ?_, fun ha => told ha rfl,
      fun ha => told ha ?_, fun ha => told ha rfl, fun ha => (call h0).fails rfl (sbiInfo_unknown ha)⟩
    · rw [List.countP_eq_length_filter]; rfl
    · rw [← BitVec.ofNat_toNat]; rfl
    · rw [← BitVec.ofNat_toNat]; rfl
  case root =>
    have hdrop := replayed_tlbDrop (s.modPart p fun x => { x with root := some a.toNat }) p fun _ => true
    refine (call h1).sets rfl (sbiRoot_ok ha hm) hdrop.ev ?_
    rw [sbiAnswer_part, hdrop.root]
    simp
  case trapHart =>
    refine (call h2).sets rfl (sbiTrapHart_ok ha hm) rfl ?_
    simp [trapHartOf, sbiAnswer_part, a]
  case wbase =>
    refine (call h3).sets rfl (sbiWbase_ok hl hh) rfl ?_
    simp [sbiAnswer_part, a]
  case unknown =>
    refine .of_eq rfl ?_ (answered_sbiFail s (-2))
    have hfid : (w64 fid).toNat = fid := Nat.mod_eq_of_lt (BitVec.isLt _)
    exact (call rfl).sbi (fid := fun n => 4 < n.toNat) (decide_eq_true (hfid.symm ▸ h5)) _

end Sys2Proof.Proofs

/-! ## The mailbox (R41, R42, R45) -/

namespace Sys2Proof.Machine.State

open Sys2Proof

/-! ### A command is carried out, and ends -/

theorem mbRun_eq {s : State} {code : Nat} {f : Nat → State → State} (hup : s.monitorUp = true) (hbusy : s.mb.busy = true)
    (hcode : s.mb.runs.toNat = code) (hstop : (s.part s.mb.runsPart).stopping = false) (hrsv : s.mb.rsv = false) :
    s.mbRun code f = f s.mb.runsPart s := by
  simp [mbRun, hup, hbusy, hcode, hstop, hrsv]

theorem mbRun_of_monitorUp_eq_false {s : State} (h : s.monitorUp = false) (code : Nat) (f : Nat → State → State) :
    s.mbRun code f = s := by simp [mbRun, h]

/-- R42: a command of the mailbox that ends with a code, and what holds then. -/
theorem mbRun_ends {s u : State} {i : Instr} {code n : Nat} {f : Nat → State → State} {P : State → Prop}
    (hi : exec i s = .next (s.mbRun code f)) (hf : f s.mb.runsPart s = u.mbEnd n) (hn : n < 256)
    (hmsgs : u.msgs = s.msgs) (hP : P (u.mbEnd n)) :
    s.monitorUp = true → s.mb.busy = true → s.mb.runs.toNat = code → (s.part s.mb.runsPart).stopping = false →
      s.mb.rsv = false → s.Then i fun t => t.mb.busy = false ∧ t.mb.done = true ∧ t.mb.result.toNat = n ∧
        t.msgs = s.msgs ++ [.msix0] ∧ P t :=
  fun hup hbusy hcode hstop hrsv => .of_eq hi ((mbRun_eq hup hbusy hcode hstop hrsv).trans hf)
    ⟨rfl, rfl, Nat.mod_eq_of_lt hn, congrArg (fun l => l ++ [Msg.msix0]) hmsgs, hP⟩

/-- R42: a command that ends with a code and changes no partition. -/
theorem mbRun_ends_same {s : State} {i : Instr} {code n : Nat} {f : Nat → State → State}
    (hi : exec i s = .next (s.mbRun code f)) (hf : f s.mb.runsPart s = s.mbEnd n) (hn : n < 256) :
    s.monitorUp = true → s.mb.busy = true → s.mb.runs.toNat = code → (s.part s.mb.runsPart).stopping = false →
      s.mb.rsv = false → s.Then i fun t => t.mb.busy = false ∧ t.mb.done = true ∧ t.mb.result.toNat = n ∧
        t.msgs = s.msgs ++ [.msix0] ∧ t.parts = s.parts :=
  mbRun_ends hi hf hn rfl rfl

@[simp] theorem mbEnd_parts (s : State) (n : Nat) : (s.mbEnd n).parts = s.parts := rfl
@[simp] theorem mbEnd_part (s : State) (n p : Nat) : (s.mbEnd n).part p = s.part p := rfl
@[simp] theorem mbEnd_cluster (s : State) (n c : Nat) : (s.mbEnd n).cluster c = s.cluster c := rfl
@[simp] theorem mbEnd_hart (s : State) (n h : Nat) : (s.mbEnd n).hart h = s.hart h := rfl
@[simp] theorem mbEnd_res (s : State) (n : Nat) : (s.mbEnd n).mb.res = s.mb.res := rfl
@[simp] theorem mbRes_part (s : State) (n : Nat) (v : W64) (p : Nat) : (s.mbRes n v).part p = s.part p := rfl
@[simp] theorem mbRes_cluster (s : State) (n : Nat) (v : W64) (c : Nat) : (s.mbRes n v).cluster c = s.cluster c := rfl
@[simp] theorem mbRes_res (s : State) (n : Nat) (v : W64) : (s.mbRes n v).mb.res = s.mb.res.put n v := rfl
@[simp] theorem measureMonitor_part (s : State) (p : Nat) : s.measureMonitor.part p = s.part p := rfl
@[simp] theorem measureMonitor_cluster (s : State) (c : Nat) : s.measureMonitor.cluster c = s.cluster c := rfl

/-! ### Clusters join a partition (R93, R261) -/

/-- A cluster that joins a partition. -/
def joined (reset : Bool) (c : Cluster) : Cluster :=
  { c with pool := none, joining := none, freeFor := 0, counters := if reset then [] else c.counters }

theorem foldl_modCluster (f : Cluster → Cluster) (l : List Nat) (s : State) :
    l.foldl (fun s cl => modCluster s cl f) s =
      { s with clusters := l.foldl (fun m cl => SMap.modify m cl {} f) s.clusters } := by
  induction l generalizing s with
  | nil => rfl
  | cons cl l ih => exact ih _

/-- A fold of changes to clusters leaves the partitions and the messages. -/
theorem foldl_modCluster_parts (f : Cluster → Cluster) (l : List Nat) (s : State) :
    (l.foldl (fun s cl => modCluster s cl f) s).parts = s.parts := (congrArg State.parts (foldl_modCluster f l s)).trans rfl
theorem foldl_modCluster_msgs (f : Cluster → Cluster) (l : List Nat) (s : State) :
    (l.foldl (fun s cl => modCluster s cl f) s).msgs = s.msgs := (congrArg State.msgs (foldl_modCluster f l s)).trans rfl

theorem cluster_foldl_modCluster {f : Cluster → Cluster} {l : List Nat} (hl : l.Nodup) (s : State) {c : Nat} (hc : c ∈ l) :
    (l.foldl (fun s cl => modCluster s cl f) s).cluster c = f (s.cluster c) := by
  rw [foldl_modCluster]
  exact (SMap.get_foldl_modify _ _ l hl _ c).trans (if_pos hc)

theorem joinPart_eq (reset : Bool) : joinPart reset = fun s cl => modCluster s cl (joined reset) := rfl

/-! ### The trap hart (R36, R42) -/

theorem getLsbD_lowHart {m : BitVec 16} (hm : m ≠ 0) : m.getLsbD (lowHart m) = true := by
  obtain ⟨h, hlt, hh⟩ : ∃ h, h < 16 ∧ m.getLsbD h = true := by
    by_contra hno
    refine hm (BitVec.eq_of_getLsbD_eq fun i hi => ?_)
    have : m.getLsbD i ≠ true := fun ht => hno ⟨i, hi, ht⟩
    simpa using this
  have hsome : ((List.range 16).find? fun h => m.getLsbD h).isSome = true :=
    List.find?_isSome.2 ⟨h, List.mem_range.2 hlt, hh⟩
  obtain ⟨k, hk⟩ := Option.isSome_iff_exists.1 hsome
  rw [lowHart, hk]
  exact List.find?_some hk

/-- The trap hart that an image named, dropped where it is no more the partition's. -/
theorem getLsbD_filter_getD_lowHart (o : Option Nat) {m : BitVec 16} (hm : m ≠ 0) :
    m.getLsbD ((o.filter fun h => m.getLsbD h).getD (lowHart m)) = true := by
  cases ho : o.filter fun h => m.getLsbD h with
  | none => exact getLsbD_lowHart hm
  | some h => exact (Option.filter_eq_some_iff.1 ho).2

theorem harts_ne_zero_of_resRange {s : State} {p : Nat} {x : Part} (h : s.resRange p x = false) : x.harts ≠ 0 := by
  rintro h0
  simp [resRange, h0] at h

/-! ### The commands -/

section
variable {s : State} {p : Nat}

theorem mbCreate_reserved (h : s.resReserved = true) : mbCreate p s = s.mbEnd 1 := if_pos h

theorem mbCreate_exists (h : s.resReserved = false) (hx : (s.part p).exists_ = true) : mbCreate p s = s.mbEnd 2 := by
  simp only [mbCreate, h, hx, Bool.false_eq_true, reduceIte]

theorem mbCreate_taken (h : s.resReserved = false) (hx : (s.part p).exists_ = false)
    (ht : s.resTaken p (s.resPart { exists_ := true }) = true) : mbCreate p s = s.mbEnd 3 := by
  simp only [mbCreate, h, hx, ht, Bool.false_eq_true, reduceIte]

theorem mbCreate_range (h : s.resReserved = false) (hx : (s.part p).exists_ = false)
    (ht : s.resTaken p (s.resPart { exists_ := true }) = false)
    (hr : s.resRange p (s.resPart { exists_ := true }) = true) : mbCreate p s = s.mbEnd 4 := by
  simp only [mbCreate, h, hx, ht, hr, Bool.false_eq_true, reduceIte]

/-- The clusters of a partition, in order. -/
def clustersOf (x : Part) : List Nat := (List.range 32).filter fun c => x.clusters.getLsbD c

theorem nodup_clustersOf (x : Part) : (clustersOf x).Nodup := List.nodup_range.filter _

theorem mem_clustersOf {x : Part} {c : Nat} (hc : c < 32) (h : x.clusters.getLsbD c = true) : c ∈ clustersOf x :=
  List.mem_filter.2 ⟨List.mem_range.2 hc, h⟩

/-- R42, R261: a partition is laid down, and its clusters join it with their counters reset. -/
def created (s : State) (p : Nat) (y : Part) : State :=
  (((clustersOf y).foldl (joinPart true) { s with parts := s.parts.put p y }).measureMonitor).mbRes 0 (w64 (clusterCount y))

theorem mbCreate_ok (h : s.resReserved = false) (hx : (s.part p).exists_ = false)
    (ht : s.resTaken p (s.resPart { exists_ := true }) = false)
    (hr : s.resRange p (s.resPart { exists_ := true }) = false) :
    mbCreate p s = (s.created p (s.resPart { exists_ := true })).mbEnd 0 := by
  simp only [mbCreate, h, hx, ht, hr, Bool.false_eq_true, reduceIte]
  rfl

theorem created_msgs (y : Part) : (s.created p y).msgs = s.msgs :=
  foldl_modCluster_msgs ..

theorem created_part (y : Part) : (s.created p y).part p = y := by
  rw [created, mbRes_part, measureMonitor_part, joinPart_eq, part, foldl_modCluster_parts, SMap.get_put, if_pos rfl]

theorem created_cluster {y : Part} {c : Nat} (hc : c ∈ clustersOf y) : (s.created p y).cluster c = joined true (s.cluster c) := by
  rw [created, mbRes_cluster, measureMonitor_cluster, joinPart_eq, cluster_foldl_modCluster (nodup_clustersOf y) _ hc]
  rfl

theorem created_res (y : Part) : (s.created p y).mb.res.get 0 0 = w64 (clusterCount y) := by
  simp [created, SMap.get_put]

theorem mbModify_reserved (h : s.resReserved = true) : mbModify p s = s.mbEnd 1 := if_pos h

theorem mbModify_absent (h : s.resReserved = false) (hx : (s.part p).exists_ = false) : mbModify p s = s.mbEnd 2 := by
  simp only [mbModify, h, hx, Bool.not_false, Bool.false_eq_true, reduceIte]

theorem mbModify_taken (h : s.resReserved = false) (hx : (s.part p).exists_ = true)
    (ht : s.resTaken p (s.resPart (s.part p)) = true) : mbModify p s = s.mbEnd 3 := by
  simp only [mbModify, h, hx, ht, Bool.not_true, Bool.false_eq_true, reduceIte]

theorem mbModify_range (h : s.resReserved = false) (hx : (s.part p).exists_ = true)
    (ht : s.resTaken p (s.resPart (s.part p)) = false)
    (hr : s.resRange p (s.resPart (s.part p)) = true) : mbModify p s = s.mbEnd 4 := by
  simp only [mbModify, h, hx, ht, hr, Bool.not_true, Bool.false_eq_true, reduceIte]

theorem mbModify_running (h : s.resReserved = false) (hx : (s.part p).exists_ = true)
    (ht : s.resTaken p (s.resPart (s.part p)) = false)
    (hr : s.resRange p (s.resPart (s.part p)) = false) (hrun : (s.part p).running = true) : mbModify p s = s.mbEnd 5 := by
  simp only [mbModify, h, hx, ht, hr, hrun, Bool.not_true, Bool.false_eq_true, reduceIte]

/-- R42, R36: a partition with other resources; the trap hart that its image named stands while the partition owns it. -/
def remade (s : State) (x : Part) : Part :=
  { s.resPart x with trapHart := x.trapHart.filter fun h => (s.resPart x).harts.getLsbD h }

/-- R42: a partition gets other resources, and the clusters that are new to it join it. -/
def modified (s : State) (p : Nat) : State :=
  (((List.range 32).filter fun c => (s.resPart (s.part p)).clusters.getLsbD c && !(s.part p).clusters.getLsbD c).foldl
    (joinPart false) { s with parts := s.parts.put p (s.remade (s.part p)) }).mbRes 0
      (w64 (clusterCount (s.resPart (s.part p))))

theorem mbModify_ok (h : s.resReserved = false) (hx : (s.part p).exists_ = true)
    (ht : s.resTaken p (s.resPart (s.part p)) = false)
    (hr : s.resRange p (s.resPart (s.part p)) = false) (hrun : (s.part p).running = false) :
    mbModify p s = (s.modified p).mbEnd 0 := by
  simp only [mbModify, h, hx, ht, hr, hrun, Bool.not_true, Bool.false_eq_true, reduceIte]
  rfl

theorem modified_msgs : (s.modified p).msgs = s.msgs :=
  foldl_modCluster_msgs ..

theorem modified_part : (s.modified p).part p = s.remade (s.part p) := by
  rw [modified, mbRes_part, joinPart_eq, part, foldl_modCluster_parts, SMap.get_put, if_pos rfl]

theorem mbStart_absent (hx : (s.part p).exists_ = false) : mbStart p s = s.mbEnd 2 := by simp [mbStart, hx]

theorem mbStart_outside (hx : (s.part p).exists_ = true) (ha : (s.mbArg 0).toNat < (s.part p).base ∨
    (s.part p).base + (s.part p).size ≤ (s.mbArg 0).toNat) : mbStart p s = s.mbEnd 4 := by
  simp [mbStart, hx, ha]

theorem mbStart_running (hx : (s.part p).exists_ = true) (hlo : (s.part p).base ≤ (s.mbArg 0).toNat)
    (hhi : (s.mbArg 0).toNat < (s.part p).base + (s.part p).size) (hrun : (s.part p).running = true) :
    mbStart p s = s.mbEnd 5 := by
  simp [mbStart, hx, Nat.not_lt.2 hlo, Nat.not_le.2 hhi, hrun]

theorem mbStart_ok (hx : (s.part p).exists_ = true) (hlo : (s.part p).base ≤ (s.mbArg 0).toNat)
    (hhi : (s.mbArg 0).toNat < (s.part p).base + (s.part p).size) (hrun : (s.part p).running = false) :
    mbStart p s = ((s.modHart (lowHart (s.part p).harts) fun h => Hart.image h p (s.mbArg 0) (w64 p) (s.mbArg 1)).modPart p
      fun x => { x with running := true }).mbEnd 0 := by
  simp [mbStart, hx, Nat.not_lt.2 hlo, Nat.not_le.2 hhi, hrun]

theorem mbStop_absent (hx : (s.part p).exists_ = false) : mbStop p s = s.mbEnd 2 := by simp [mbStop, hx]

theorem mbStop_idle (hx : (s.part p).exists_ = true) (hrun : (s.part p).running = false) : mbStop p s = s.mbEnd 0 := by
  simp [mbStop, hx, hrun]

theorem mbStop_running (hx : (s.part p).exists_ = true) (hrun : (s.part p).running = true) :
    mbStop p s = s.modPart p fun x => { x with stopping := true } := by
  simp [mbStop, hx, hrun]

theorem mbDelete_absent (hx : (s.part p).exists_ = false) : mbDelete p s = s.mbEnd 2 := by simp [mbDelete, hx]

theorem mbDelete_running (hx : (s.part p).exists_ = true) (hrun : (s.part p).running = true) : mbDelete p s = s.mbEnd 5 := by
  simp [mbDelete, hx, hrun]

/-- R42: a partition is gone, and its clusters are free. -/
def deleted (s : State) (p : Nat) : State :=
  ((clustersOf (s.part p)).foldl (fun s cl => modCluster s cl fun c => { c with pool := none, joining := none })
    { s.unpin ((s.part p).page.ringPages ++ (s.part p).page.trcPages ++ (s.part p).page.sampPages) with
      parts := s.parts.erase p }).measureMonitor

theorem mbDelete_ok (hx : (s.part p).exists_ = true) (hrun : (s.part p).running = false) :
    mbDelete p s = (s.deleted p).mbEnd 0 := by
  simp only [mbDelete, hx, hrun, Bool.false_eq_true, if_false, Bool.not_true]
  rfl

theorem deleted_part : (s.deleted p).part p = {} := by
  rw [deleted, measureMonitor_part, part, foldl_modCluster_parts, SMap.get_erase, if_pos rfl]

theorem deleted_msgs : (s.deleted p).msgs = s.msgs := foldl_modCluster_msgs ..

/-- R42: what QUERY tells. -/
def queried (s : State) (p : Nat) : State :=
  let x := s.part p
  (((s.mbRes 0 (w64 (if !x.exists_ then 0 else if x.running then 2 else 1))).mbRes 1
    (if x.exists_ then x.clusters.setWidth 64 else 0)).mbRes 2 (if x.exists_ then x.blkacc else 0)).mbRes 3
      (if x.exists_ then w64 (x.harts.toNat + 65536 * s.trapHartOf p) else 0)

theorem mbQuery_eq : mbQuery p s = (s.queried p).mbEnd 0 := rfl

theorem queried_msgs : (s.queried p).msgs = s.msgs := rfl

theorem queried_parts : (s.queried p).parts = s.parts := rfl

theorem mbSetwin_reserved (h : (s.mbArg 0).bits 63 40 ≠ 0) : mbSetwin p s = s.mbEnd 1 := by simp [mbSetwin, h]

theorem mbSetwin_ok (h : (s.mbArg 0).bits 63 40 = 0) (hx : (s.part p).exists_ = true) (hl : (s.mbArg 0).bits 15 0 = 0) :
    mbSetwin p s = { s with pfWbase := s.mbArg 0 }.mbEnd 0 := by simp [mbSetwin, h, hx, hl]

end

/-! ### The end of a partition (R45) -/

theorem pmSettle_part_flags (s : State) (p : Nat) :
    ((s.pmSettle p).part p).running = (s.part p).running ∧ ((s.pmSettle p).part p).stopping = (s.part p).stopping := by
  unfold pmSettle
  split
  · simp [modPage]
  · exact ⟨rfl, rfl⟩

/-- What the last steps of a stop leave of a partition. -/
theorem part_flags_of_halted (s : State) (p : Nat) (f : Page → Page) :
    ((((s.modPart p fun x => { x with running := false, stopping := false }).modPage p f).pmSettle p).part p).running = false ∧
    ((((s.modPart p fun x => { x with running := false, stopping := false }).modPage p f).pmSettle p).part p).stopping =
      false := by
  have hpart : ((s.modPart p fun x => { x with running := false, stopping := false }).modPage p f).part p =
      { s.part p with running := false, stopping := false, page := f (s.part p).page } := by
    rw [modPage, modPart_part, if_pos rfl, modPart_part, if_pos rfl]
  generalize (s.modPart p fun x => { x with running := false, stopping := false }).modPage p f = u at hpart ⊢
  obtain ⟨hr, hs⟩ := pmSettle_part_flags u p
  rw [hr, hs, hpart]
  exact ⟨rfl, rfl⟩

theorem stopFinish_part_flags (s : State) (p : Nat) :
    ((s.stopFinish p).part p).running = false ∧ ((s.stopFinish p).part p).stopping = false :=
  part_flags_of_halted ..

theorem partitionStopped_part_flags {s : State} {p : Nat} (hs : (s.part p).stopping = true) (hw : (s.stopWork p).2 = true) :
    ((s.partitionStopped p).part p).running = false ∧ ((s.partitionStopped p).part p).stopping = false := by
  have h := stopFinish_part_flags (s.stopWork p).1 p
  rw [partitionStopped, hs]
  dsimp only
  rw [hw]
  generalize (s.stopWork p).1.stopFinish p = t at h ⊢
  rw [if_neg (by decide), if_neg (by decide)]
  split
  · exact h
  · exact h

end Sys2Proof.Machine.State

namespace Sys2Proof.Proofs

open Sys2Proof Sys2Proof.Machine Sys2Proof.Machine.State

/-- Settles O39: each command by its branches, `mbRun_ends` saying once what its end leaves. -/
theorem mailbox : Obligations.Mailbox := by
  intro s p x y z runs same arg
  refine ⟨fun hr => ⟨mbRun_ends_same rfl (mbCreate_reserved hr) (by decide), mbRun_ends_same rfl (mbModify_reserved hr) (by decide)⟩,
    fun hr => ⟨fun hx => mbRun_ends_same rfl (mbCreate_exists hr hx) (by decide),
      fun hx ht => mbRun_ends_same rfl (mbCreate_taken hr hx ht) (by decide),
      fun hx ht hg => mbRun_ends_same rfl (mbCreate_range hr hx ht hg) (by decide), fun hx ht hg => ?create,
      fun hx => mbRun_ends_same rfl (mbModify_absent hr hx) (by decide),
      fun hx ht => mbRun_ends_same rfl (mbModify_taken hr hx ht) (by decide),
      fun hx ht hg => mbRun_ends_same rfl (mbModify_range hr hx ht hg) (by decide),
      fun hx ht hg hrun => mbRun_ends_same rfl (mbModify_running hr hx ht hg hrun) (by decide), fun hx ht hg hrun => ?modify⟩,
    fun hx => ⟨mbRun_ends_same rfl (mbStart_absent hx) (by decide), mbRun_ends_same rfl (mbStop_absent hx) (by decide),
      mbRun_ends_same rfl (mbDelete_absent hx) (by decide)⟩,
    fun hx => ⟨fun ha => mbRun_ends_same rfl (mbStart_outside hx ha) (by decide),
      fun hlo hhi hrun => mbRun_ends_same rfl (mbStart_running hx hlo hhi hrun) (by decide), fun hlo hhi hrun => ?start,
      fun hrun => mbRun_ends_same rfl (mbStop_idle hx hrun) (by decide), fun hrun => ?stop,
      fun hrun => mbRun_ends_same rfl (mbDelete_running hx hrun) (by decide), fun hrun => ?delete⟩,
    fun h => mbRun_ends_same rfl (mbSetwin_reserved h) (by decide),
    fun h hx hl => mbRun_ends rfl (mbSetwin_ok h hx hl) (by decide) rfl rfl, ?query, ?unknown, ?waits, ?stopped⟩
  case create =>
    refine mbRun_ends rfl (mbCreate_ok hr hx ht hg) (by decide) (created_msgs y) ⟨created_part y, ?_, created_res y, ?_⟩
    · rw [trapHartOf, mbEnd_part, created_part]
      rfl
    · intro c hc hy
      rw [mbEnd_cluster, created_cluster (mem_clustersOf hc hy)]
      exact ⟨rfl, rfl⟩
  case modify =>
    refine mbRun_ends rfl (mbModify_ok hr hx ht hg hrun) (by decide) modified_msgs ?_
    rw [trapHartOf, mbEnd_part, modified_part]
    refine ⟨rfl, rfl, rfl, rfl, hx, getLsbD_filter_getD_lowHart x.trapHart (harts_ne_zero_of_resRange hg), fun hnone => ?_⟩
    rw [remade, show (s.part s.mb.runsPart).trapHart = none from hnone]
    rfl
  case start =>
    refine mbRun_ends rfl (mbStart_ok hx hlo hhi hrun) (by decide) rfl ⟨?_, ?_⟩
    · simp [p]
    · have hhart : (((s.modHart (lowHart x.harts) fun h => Hart.image h p (s.mbArg 0) (w64 p) (s.mbArg 1)).modPart p
          fun x => { x with running := true }).mbEnd 0).hart (lowHart x.harts) =
          Hart.image (s.hart (lowHart x.harts)) p (s.mbArg 0) (w64 p) (s.mbArg 1) := by simp
      intro y
      rw [show y = _ from hhart]
      refine ⟨rfl, rfl, rfl, rfl, ?_, ?_⟩
      · rw [Hart.image, xget_xset_other _ (by decide), xget_xset_same _ (by decide)]
      · rw [Hart.image, xget_xset_same _ (by decide)]
  case stop =>
    intro hup hbusy hcode hstop hrsv
    refine .of_eq rfl ((mbRun_eq hup hbusy (congrArg BitVec.toNat hcode) hstop hrsv).trans (mbStop_running hx hrun)) ?_
    simp [p, hbusy]
  case delete =>
    refine mbRun_ends rfl (mbDelete_ok hx hrun) (by decide) deleted_msgs ?_
    rw [mbEnd_part, deleted_part]
  case query =>
    refine mbRun_ends rfl mbQuery_eq (by decide) queried_msgs ?_
    rw [mbEnd_parts, mbEnd_res, queried_parts]
    refine ⟨rfl, ?_, ?_⟩
    · simp only [queried, mbRes_res, SMap.get_put]
      show w64 (if !x.exists_ then 0 else if x.running then 2 else 1) = _
      cases x.exists_
      · rfl
      · cases x.running
        · rfl
        · rfl
    · simp [queried, SMap.get_put, x, p]
  case unknown =>
    intro hup hbusy hcode
    refine .of_eq rfl (if_pos ?_) ⟨rfl, rfl, rfl⟩
    simpa [hup, hbusy] using hcode
  case waits =>
    intro hup i hi
    have waits {i : Instr} {code : Nat} {f : Nat → State → State} (h : exec i s = .next (s.mbRun code f)) : s.Then i fun t => t = s :=
      .of_eq h (mbRun_of_monitorUp_eq_false hup ..) rfl
    simp only [List.mem_cons, List.not_mem_nil, or_false] at hi
    rcases hi with rfl | rfl | rfl | rfl | rfl | rfl | rfl | rfl
    · exact waits (code := 1) (f := mbCreate) rfl
    · exact waits (code := 2) (f := mbModify) rfl
    · exact waits (code := 3) (f := mbStart) rfl
    · exact waits (code := 4) (f := mbStop) rfl
    · exact waits (code := 5) (f := mbDelete) rfl
    · exact waits (code := 6) (f := mbSetwin) rfl
    · exact waits (code := 7) (f := mbQuery) rfl
    · exact .of_eq rfl (if_neg (by simp [hup])) rfl
  case stopped =>
    rintro q rfl hs hw
    exact .of_eq rfl rfl (partitionStopped_part_flags hs hw)

end Sys2Proof.Proofs

/-! ## Writes through a partition's tables, and writes by sector

What the walker and the units' writes depend on: memory, host memory and what a partition says of its tables. -/

namespace Sys2Proof

namespace Memory

/-- Bytes written in two pieces, one behind the other. -/
theorem setBytes_append (l l' : List Byte) (m : Memory) (a : Nat) :
    setBytes m a (l ++ l') = setBytes (setBytes m a l) (a + l.length) l' := by
  induction l generalizing m a with
  | nil => rfl
  | cons b l ih => rw [List.cons_append, setBytes, ih, setBytes, List.length_cons]; congr 1; omega

/-- Writes in order, each of some bytes at an address. -/
def puts (m : Memory) (ws : List (Nat × List Byte)) : Memory := ws.foldl (fun m c => setBytes m c.1 c.2) m

theorem puts_append (m : Memory) (ws ws' : List (Nat × List Byte)) : puts m (ws ++ ws') = puts (puts m ws) ws' :=
  List.foldl_append

end Memory

namespace Machine

/-- The bytes of one sector of a write. -/
def sectorChunk {α : Type} (a : Nat) (bs : List α) (sec : Nat) : Nat × List α :=
  (Nat.max a (32 * sec), (bs.drop (Nat.max a (32 * sec) - a)).take (32 * sec + 32 - Nat.max a (32 * sec)))

/-- The first `n` sectors of a write hold its bytes up to their end. -/
theorem puts_sectorChunk (m : Memory) (a : Nat) (bs : List Byte) (n : Nat) (hn : 32 * (a / 32 + n) < a + bs.length + 32) :
    Memory.puts m ((List.range n).map fun i => sectorChunk a bs (a / 32 + i)) =
      Memory.setBytes m a (bs.take (32 * (a / 32 + n) - a)) := by
  induction n with
  | zero =>
    rw [show 32 * (a / 32 + 0) - a = 0 by omega]
    rfl
  | succ n ih =>
    rw [List.range_succ, List.map_append, Memory.puts_append, ih (by omega)]
    have hlo : Nat.max a (32 * (a / 32 + n)) = a + (32 * (a / 32 + n) - a) := show max _ _ = _ by omega
    have hlen : (bs.take (32 * (a / 32 + n) - a)).length = 32 * (a / 32 + n) - a := by
      rw [List.length_take]; omega
    have hsplit : 32 * (a / 32 + (n + 1)) - a =
        (32 * (a / 32 + n) - a) + (32 * (a / 32 + n) + 32 - (a + (32 * (a / 32 + n) - a))) := by omega
    rw [hsplit, List.take_add, Memory.setBytes_append, hlen]
    simp only [List.map_cons, List.map_nil, Memory.puts, List.foldl_cons, List.foldl_nil, sectorChunk, hlo]
    rw [Nat.add_sub_cancel_left]

/-- A write sector by sector is the write. -/
theorem puts_bySector (m : Memory) (a : Nat) (bs : List Byte) : Memory.puts m (bySector a bs) = Memory.setBytes m a bs := by
  unfold bySector sectorsOf
  by_cases h0 : bs.length = 0
  · rw [List.eq_nil_of_length_eq_zero h0]; rfl
  · rw [if_neg (by simpa using h0), List.map_map]
    refine (puts_sectorChunk m a bs _ (by omega)).trans ?_
    rw [List.take_of_length_le (by omega)]

theorem bySector_map {α β : Type} (f : α → β) (a : Nat) (bs : List α) :
    bySector a (bs.map f) = (bySector a bs).map fun c => (c.1, c.2.map f) := by
  simp [bySector, List.map_drop, List.map_take]

namespace State

open Sys2Proof

/-- Bytes with marks written at the home slices. -/
theorem mem_devWriteP (s : State) (pa : Nat) (bs : List PByte) :
    (s.devWriteP pa bs).mem = Memory.setBytes s.mem pa (bs.map Prod.fst) := by
  have h (l : List (Nat × List PByte)) (s : State) :
      (l.foldl (fun s c => s.devWrite c.1 (c.2.map Prod.fst) (anyPois c.2)) s).mem =
        Memory.puts s.mem (l.map fun c => (c.1, c.2.map Prod.fst)) := by
    induction l generalizing s with
    | nil => rfl
    | cons c l ih => exact ih _
  rw [← puts_bySector, bySector_map]
  exact h _ s

/-- The bytes of a state's two memories, and what its partitions say of their tables. -/
structure SameMaps (s t : State) : Prop where
  mem : t.mem = s.mem
  hostMem : t.hostMem = s.hostMem
  part : ∀ p, t.part p = { s.part p with page := (t.part p).page }

namespace SameMaps

variable {s t u : State}

theorem refl (s : State) : s.SameMaps s := ⟨rfl, rfl, fun _ => rfl⟩

theorem trans (h : s.SameMaps t) (k : t.SameMaps u) : s.SameMaps u :=
  ⟨k.mem.trans h.mem, k.hostMem.trans h.hostMem, fun p => by rw [k.part p, h.part p]⟩

theorem foldl {α : Type} {f : State → α → State} (hf : ∀ (s : State) a, s.SameMaps (f s a)) (l : List α) (s : State) :
    s.SameMaps (l.foldl f s) := by
  induction l generalizing s with
  | nil => exact refl s
  | cons a l ih => exact (hf s a).trans (ih _)

/-- A change of neither memory nor partitions. -/
theorem of_parts_eq (hm : t.mem = s.mem) (hh : t.hostMem = s.hostMem) (hp : t.parts = s.parts) : s.SameMaps t :=
  ⟨hm, hh, fun p => by rw [State.part, hp]; rfl⟩

theorem sameMem (h : s.SameMaps t) : t.SameMem s := ⟨h.mem, h.hostMem⟩

theorem root (h : s.SameMaps t) (p : Nat) : (t.part p).root = (s.part p).root := by rw [h.part p]

theorem inHbm (h : s.SameMaps t) (p a n : Nat) : t.inHbm p a n = s.inHbm p a n := by
  rw [State.inHbm, h.part p]; rfl

theorem devQ (h : s.SameMaps t) (a : Nat) : t.devQ a = s.devQ a := by rw [State.devQ, devRead, h.mem]; rfl

theorem tableEntry (h : s.SameMaps t) (p a : Nat) : t.tableEntry p a = s.tableEntry p a := by
  simp only [State.tableEntry, h.devQ, h.inHbm]

theorem leafEntry (h : s.SameMaps t) (p a : Nat) : t.leafEntry p a = s.leafEntry p a := by
  simp only [State.leafEntry, h.devQ, h.inHbm]

theorem leafTable (h : s.SameMaps t) (p va : Nat) : t.leafTable p va = s.leafTable p va := by
  simp only [State.leafTable, h.root, h.tableEntry]

theorem walk (h : s.SameMaps t) (p va : Nat) : t.walk p va = s.walk p va := by
  simp only [State.walk, h.leafTable, h.leafEntry]

theorem walkFor (h : s.SameMaps t) (p va : Nat) (w : Bool) : t.walkFor p va w = s.walkFor p va w := by
  simp only [State.walkFor, h.walk]

theorem vaRead (h : s.SameMaps t) (p va n : Nat) : t.vaRead p va n = s.vaRead p va n := by
  simp only [State.vaRead, h.walkFor, h.mem, h.hostMem]

theorem vaQ (h : s.SameMaps t) (p va : Nat) : t.vaQ p va = s.vaQ p va := by simp only [State.vaQ, h.vaRead]

/-- A fold of an operation that keeps two states alike. -/
theorem foldl₂ {α : Type} {f : State → α → State} (hf : ∀ {s t : State} a, s.SameMaps t → (f s a).SameMaps (f t a)) (l : List α)
    (h : s.SameMaps t) : (l.foldl f s).SameMaps (l.foldl f t) := by
  induction l generalizing s t with
  | nil => exact h
  | cons a l ih => exact ih (hf a h)

theorem setAD (h : s.SameMaps t) (p va : Nat) (w : Bool) : (s.setAD p va w).SameMaps (t.setAD p va w) := by
  unfold State.setAD
  rw [h.walk]
  cases s.walk p va with
  | none => exact h
  | some l => exact ⟨by simp only [h.mem], h.hostMem, h.part⟩

theorem vaTouch (h : s.SameMaps t) (p va n : Nat) (w : Bool) : (s.vaTouch p va n w).SameMaps (t.vaTouch p va n w) := by
  refine foldl₂ (fun {s t} g h => ?_) _ h
  rw [h.walkFor]
  split
  · exact h.setAD ..
  · exact h

theorem hostWrite (h : s.SameMaps t) (pa : Nat) (bs : List Byte) : (s.hostWrite pa bs).SameMaps (t.hostWrite pa bs) :=
  ⟨h.mem, by rw [State.hostWrite, h.hostMem]; rfl, h.part⟩

theorem devWrite (h : s.SameMaps t) (pa : Nat) (bs : List Byte) (pois : Bool) :
    (s.devWrite pa bs pois).SameMaps (t.devWrite pa bs pois) :=
  ⟨by rw [State.devWrite, h.mem]; rfl, h.hostMem, h.part⟩

theorem vaWrite (h : s.SameMaps t) (p va : Nat) (bs : List Byte) : (s.vaWrite p va bs).SameMaps (t.vaWrite p va bs) := by
  refine foldl₂ (fun {s t} c h => ?_) _ (h.vaTouch ..)
  rw [h.walkFor]
  split
  · split
    · exact h.hostWrite ..
    · exact h.devWrite ..
  · exact h

theorem raised (h : s.SameMaps t) (p va : Nat) (n : W64) : (s.raised p va n).SameMaps (t.raised p va n) := by
  unfold State.raised
  rw [h.vaQ]
  exact h.vaWrite ..

theorem putPhys (h : s.SameMaps t) (pa mt : Nat) (bs : List Byte) : (s.putPhys pa mt bs).SameMaps (t.putPhys pa mt bs) := by
  unfold State.putPhys
  split
  · exact ⟨h.mem, by rw [h.hostMem], h.part⟩
  · exact ⟨by rw [h.mem], h.hostMem, h.part⟩

end SameMaps
theorem sameMaps_devWriteP (s : State) (pa : Nat) (bs : List PByte) :
    (s.putPhys pa 0 (bs.map Prod.fst)).SameMaps (s.devWriteP pa bs) := by
  have h (l : List (Nat × List PByte)) (s : State) :
      (l.foldl (fun s c => devWrite s c.1 (c.2.map Prod.fst) (anyPois c.2)) s).hostMem = s.hostMem ∧
      (l.foldl (fun s c => devWrite s c.1 (c.2.map Prod.fst) (anyPois c.2)) s).parts = s.parts := by
    induction l generalizing s with
    | nil => exact ⟨rfl, rfl⟩
    | cons c l ih => exact ih _
  exact .of_parts_eq (mem_devWriteP ..) (h _ s).1 (h _ s).2

theorem vaTouch_cores (s : State) (p va n : Nat) (w : Bool) : (s.vaTouch p va n w).cores = s.cores := by
  rw [sameButMem_vaTouch s p va n w]

theorem vaTouch_memPois (s : State) (p va n : Nat) (w : Bool) : (s.vaTouch p va n w).memPois = s.memPois := by
  rw [sameButMem_vaTouch s p va n w]

/-! ### Operations that change neither memory nor tables -/

section
variable (s : State)

theorem sameMaps_modGroup (gk : Nat) (f : Group → Group) : s.SameMaps (s.modGroup gk f) := .of_parts_eq rfl rfl rfl
theorem sameMaps_modTeam (tk : Nat) (f : Team → Team) : s.SameMaps (s.modTeam tk f) := .of_parts_eq rfl rfl rfl
theorem sameMaps_modGrid (g : Nat) (f : Grid → Grid) : s.SameMaps (s.modGrid g f) := .of_parts_eq rfl rfl rfl
theorem sameMaps_modQueue (q : Nat) (f : Queue → Queue) : s.SameMaps (s.modQueue q f) := .of_parts_eq rfl rfl rfl
theorem sameMaps_modCore (k : Nat) (f : Core → Core) : s.SameMaps (s.modCore k f) := .of_parts_eq rfl rfl rfl
theorem sameMaps_count (cl off n : Nat) : s.SameMaps (s.count cl off n) := .of_parts_eq rfl rfl rfl
theorem sameMaps_dropFlight (id : Nat) : s.SameMaps (s.dropFlight id) := .of_parts_eq rfl rfl rfl
theorem sameMaps_settleHome (ws : List (Nat × List PByte)) : s.SameMaps (s.settleHome ws) := .of_parts_eq rfl rfl rfl

theorem sameMaps_noteAdder (g t : Nat) (l : Loc) : s.SameMaps (s.noteAdder g t l) := sameMaps_modGrid ..

theorem sameMaps_countWritten (cl : Nat) (ds : List (List PByte)) : s.SameMaps (s.countWritten cl ds) := by
  unfold countWritten
  dsimp only
  split
  · exact .refl s
  · exact sameMaps_count ..

theorem sameMaps_duePart (gk id : Nat) (w : List RegWr) : s.SameMaps (s.duePart gk id w) := by
  unfold duePart
  split
  · exact .refl s
  · exact sameMaps_modGroup ..

theorem sameMaps_acquireEnds (gk scp : Nat) : s.SameMaps (s.acquireEnds gk scp) := by
  unfold acquireEnds
  split
  · exact sameMaps_modCore ..
  · exact .refl s

theorem sameMaps_modPage (p : Nat) (f : Page → Page) : s.SameMaps (s.modPage p f) := ⟨rfl, rfl, (served_modPage s p f).part⟩

theorem sameMaps_trapGroup (gk pc : Nat) (sec : Bool) (t : Trap) : s.SameMaps (s.trapGroup gk pc sec t) := by
  have h (p : Nat) (f : Page → Page) (g : Group → Group) : s.SameMaps ((s.modPage p f).modGroup gk g) :=
    (sameMaps_modPage ..).trans (sameMaps_modGroup ..)
  unfold trapGroup
  dsimp only
  split
  · exact (h _ _ _).trans (sameMaps_count ..)
  · split
    · exact (h _ _ _).trans (sameMaps_count ..)
    · exact h _ _ _

theorem sameMaps_wake (gk : Nat) : s.SameMaps (s.wake gk) := by
  unfold wake
  dsimp only
  split
  · exact (sameMaps_modCore s _ _).trans (sameMaps_modGroup ..)
  · exact ((sameMaps_modCore s _ _).trans (sameMaps_modGroup ..)).trans (sameMaps_trapGroup ..)

theorem sameMaps_wakeClaim (gk q i : Nat) (pop : Bool) : s.SameMaps (s.wakeClaim gk q i pop) := by
  unfold wakeClaim
  split
  · split
    · exact sameMaps_wake ..
    · exact .refl s
  · exact .refl s

theorem sameMaps_wakeWhere (gs : List Nat) (f : Park → Bool) : s.SameMaps (s.wakeWhere gs f) := by
  refine .foldl (fun s gk => ?_) gs s
  split
  · split
    · exact sameMaps_wake ..
    · exact .refl s
  · exact .refl s

end

/-! ### A counter add of a unit (R169, R267) -/

/-- R266: a grid without a recovery point logs nothing. -/
theorem logLeak_eq_self {s : State} {g : Nat} (h : (s.grid g).reca = none) (kind addr len dev : Nat) :
    s.logLeak g kind addr len dev = s := by simp [logLeak, h]

theorem deviceAdd_eq_raised {s : State} (h : s.Calm) (p va : Nat) (n : W64) : s.deviceAdd p va n = s.raised p va n :=
  recheckAll_eq_self_of_calm ((served_vaAdd s p va n).calm h)

theorem served_raised (s : State) (p va : Nat) (n : W64) : s.Served (s.raised p va n) := served_vaWrite ..

theorem gridAdd_eq_raised {s : State} {g : Nat} (h : s.Calm) (hr : (s.grid g).reca = none) (p va : Nat) (n : W64) :
    s.gridAdd g p va n = s.raised p va n := by
  have hr' : ((s.raised p va n).grid g).reca = none := by rw [(served_raised s p va n).grid, hr]
  unfold gridAdd
  rw [deviceAdd_eq_raised h]
  dsimp only
  split
  · exact logLeak_eq_self hr' ..
  · rfl

theorem servedLogged_gridAdd (s : State) (g p va : Nat) (n : W64) : s.ServedLogged (s.gridAdd g p va n) := by
  unfold gridAdd
  dsimp only
  split
  · exact (ServedLogged.of_served (served_deviceAdd ..)).trans (servedLogged_logLeak ..)
  · exact .of_served (served_deviceAdd ..)

theorem servedLogged_noteAdder (s : State) (g t : Nat) (l : Loc) : s.ServedLogged (s.noteAdder g t l) :=
  servedLogged_modGrid fun _ => rfl

/-- R53, R413: what a unit's add to a queue's counter does: the add, its entries in the log of the grid, and the note of who
added. -/
theorem sameMem_counterAdd {s : State} {g : Nat} (h : s.Calm) (hr : (s.grid g).reca = none) (p va t : Nat) (l : Loc) (n : W64) :
    (s.raised p va n).SameMaps (((s.gridAdd g p va n).logLeak g 2 va 8 0).noteAdder g t l) := by
  have hr' : ((s.raised p va n).grid g).reca = none := by rw [(served_raised s p va n).grid, hr]
  rw [gridAdd_eq_raised h hr, logLeak_eq_self hr']
  exact sameMaps_noteAdder ..

/-! ### An L1 that holds nothing dirty -/

/-- A core's L1 holds no dirty byte. -/
def CleanL1 (s : State) (k : Nat) : Prop := ∀ sec x, (s.core k).l1.find sec = some x → x.dirty = 0

theorem cleanL1_of_eq_nil {s : State} {k : Nat} (h : (s.core k).l1 = []) : s.CleanL1 k := by
  intro sec x hx
  rw [h] at hx
  cases hx

theorem CleanL1.of_cores_eq {s t : State} {k : Nat} (h : s.CleanL1 k) (hc : t.cores = s.cores) : t.CleanL1 k := by
  unfold CleanL1 core at *
  rwa [hc]

/-- R139: there is nothing to write back of a sector that is not dirty. -/
theorem wbSector_of_cleanL1 {s : State} {k : Nat} (h : s.CleanL1 k) (sec : Nat) : s.wbSector k sec = s := by
  unfold wbSector
  split
  · rfl
  · next x hx => exact if_pos (by rw [h sec x hx]; rfl)

theorem dropSector_of_cleanL1 {s : State} {k : Nat} (h : s.CleanL1 k) (sec : Nat) :
    s.dropSector k sec = s.modCore k fun c => { c with l1 := c.l1.erase sec } := by
  rw [dropSector, wbSector_of_cleanL1 h]

theorem CleanL1.dropSector {s : State} {k : Nat} (h : s.CleanL1 k) (sec : Nat) : (s.dropSector k sec).CleanL1 k := by
  rw [dropSector_of_cleanL1 h]
  intro j x hx
  rw [modCore_core, if_pos rfl] at hx
  by_cases hj : j = sec
  · subst hj
    rw [SMap.find_erase_self] at hx
    cases hx
  · rw [SMap.find_erase_ne _ hj] at hx
    exact h j x hx

/-- R139: a core with a clean L1 gives up sectors without a write. -/
theorem dropRange_of_cleanL1 {s : State} {k : Nat} (h : s.CleanL1 k) (pa n : Nat) :
    s.SameMaps (s.dropRange k pa n) ∧ (s.dropRange k pa n).memPois = s.memPois := by
  unfold dropRange
  induction sectorsOf pa n generalizing s with
  | nil => exact ⟨.refl s, rfl⟩
  | cons sec l ih =>
    obtain ⟨hm, hp⟩ := ih (h.dropSector sec)
    rw [dropSector_of_cleanL1 h] at hm hp
    rw [List.foldl_cons, dropSector_of_cleanL1 h]
    exact ⟨(sameMaps_modCore ..).trans hm, hp⟩

/-- R139: bytes put in device memory past a core's clean L1. -/
theorem sameMaps_devWriteP_of_cleanL1 {s : State} {k : Nat} (h : s.CleanL1 k) (pa n : Nat) (bs : List PByte) :
    (s.putPhys pa 0 (bs.map Prod.fst)).SameMaps ((s.dropRange k pa n).devWriteP pa bs) :=
  ((dropRange_of_cleanL1 h pa n).1.putPhys ..).trans (sameMaps_devWriteP ..)

end State
end Machine
end Sys2Proof

/-! ## The claims of the queues, served (R413, R414)

What the units write into scratchpads and memories, and the two transfers of a queue in steps: the entry written, the counter
raised, the status, and the end of the claim. -/

namespace Sys2Proof

theorem Memory.bytes_eq_map (m : Memory) (a n : Nat) : m.bytes a n = (List.range n).map fun i => m.byte (a + i) := by
  induction n generalizing a with
  | zero => rfl
  | succ n ih =>
    rw [Memory.bytes, ih, List.range_succ_eq_map, List.map_cons, List.map_map]
    congr 1
    exact List.map_congr_left fun i _ => by rw [Function.comp_apply]; congr 1; omega

end Sys2Proof

namespace Sys2Proof.Machine

/-- A team after the other, but for its scratchpad, its marks and the landing counts of its lines. -/
def Team.SameButPad (x y : Team) : Prop :=
  y = { x with spad := y.spad, spadPois := y.spadPois, used := y.used, landing := y.landing }

theorem Team.SameButPad.refl (x : Team) : x.SameButPad x := Eq.refl x

theorem Team.SameButPad.trans {x y z : Team} (h : x.SameButPad y) (k : y.SameButPad z) : x.SameButPad z := by
  unfold Team.SameButPad at *
  rw [k, h]

theorem Team.SameButPad.st {x y : Team} (h : x.SameButPad y) : y.st = x.st := by rw [h]

namespace State

open Sys2Proof

/-- As `ServedLogged`, and scratchpads and the note of who pushed to a queue may have changed. -/
structure Worked (s t : State) : Prop where
  served : { s with grids := t.grids, teams := t.teams, queues := t.queues }.Served t
  grid : ∀ g, t.grid g = { s.grid g with
    nlog := (t.grid g).nlog, ovfl := (t.grid g).ovfl, lastAdd := (t.grid g).lastAdd }
  team : ∀ k, (s.team k).SameButPad (t.team k)
  queue : ∀ q, t.queue q = { s.queue q with pushers := (t.queue q).pushers }

namespace Worked

variable {s t u : State}

theorem of_logged (h : s.ServedLogged t) : s.Worked t where
  served := by
    have := h.served
    rwa [show t.teams = s.teams from this.teams, show t.queues = s.queues from this.queues]
  grid := h.grid
  team k := by rw [h.team]; exact .refl _
  queue q := by rw [h.queue]

theorem of_served (h : s.Served t) : s.Worked t := .of_logged (.of_served h)

theorem refl (s : State) : s.Worked s := .of_served (.refl s)

theorem trans (h : s.Worked t) (k : t.Worked u) : s.Worked u where
  served := by
    refine Served.trans (t := { t with grids := u.grids, teams := u.teams, queues := u.queues }) ?_ k.served
    exact ⟨by rw [h.served.rest], h.served.group, h.served.listed, h.served.part, h.served.log⟩
  grid g := by rw [k.grid, h.grid]
  team g := (h.team g).trans (k.team g)
  queue q := by rw [k.queue, h.queue]

theorem foldl {α : Type} {f : State → α → State} (hf : ∀ (s : State) a, s.Worked (f s a)) (l : List α) (s : State) :
    s.Worked (l.foldl f s) := by
  induction l generalizing s with
  | nil => exact refl s
  | cons a l ih => exact (hf s a).trans (ih _)

theorem flights (h : s.Worked t) : t.flights = s.flights := h.served.flights
theorem group (h : s.Worked t) (gk : Nat) : (s.group gk).SameButPark (t.group gk) := h.served.group gk
theorem due (h : s.Worked t) (gk : Nat) : (t.group gk).due = (s.group gk).due := h.served.due gk
theorem listed (h : s.Worked t) (gk : Nat) : (s.groups.find gk).isSome = true → (t.groups.find gk).isSome = true :=
  h.served.listed gk
theorem calm (h : s.Worked t) (hc : s.Calm) : t.Calm := h.served.calm hc
theorem st (h : s.Worked t) (k : Nat) : (t.team k).st = (s.team k).st := (h.team k).st
theorem coreOfGrp (h : s.Worked t) (gk : Nat) : t.coreOfGrp gk = s.coreOfGrp gk := by
  rw [State.coreOfGrp, h.team]; rfl
theorem reca (h : s.Worked t) (g : Nat) : (t.grid g).reca = (s.grid g).reca := by rw [h.grid]
theorem alloc (h : s.Worked t) (g : Nat) : (t.grid g).alloc = (s.grid g).alloc := by rw [h.grid]; rfl

end Worked

theorem worked_modTeam {s : State} {tk : Nat} {f : Team → Team} (hf : (s.team tk).SameButPad (f (s.team tk))) :
    s.Worked (s.modTeam tk f) where
  served := .of_memory rfl fun _ => rfl
  grid _ := rfl
  team k := by
    rw [modTeam_team]
    split
    · next h => rwa [h]
    · exact .refl _
  queue _ := rfl

theorem worked_pushers (s : State) (q : Nat) (f : Queue → SMap (Nat × W64)) :
    s.Worked (s.modQueue q fun x => { x with pushers := f x }) where
  served := .of_memory rfl fun _ => rfl
  grid _ := rfl
  team _ := .refl _
  queue j := by
    rw [modQueue_queue]
    split
    · next h => rw [h]
    · rfl

/-! ### A team's image and its scratchpad (R150, R479) -/

theorem served_imgWriteP (s : State) (tk off : Nat) (bs : List PByte) : s.Served (s.imgWriteP tk off bs) := by
  refine .foldl (fun s c => ?_) _ s
  split
  · exact served_devWrite ..
  · exact served_hostWrite ..
  · exact .refl s

theorem served_imgWrite (s : State) (tk off : Nat) (bs : List Byte) : s.Served (s.imgWrite tk off bs) := served_imgWriteP ..

theorem served_imgSpadWrite (s : State) (g t off : Nat) (bs : List PByte) : s.Served (s.imgSpadWrite g t off bs) := by
  unfold imgSpadWrite
  exact (served_imgWriteP ..).trans (.foldl (fun _ _ => served_imgWrite ..) _ _)

theorem sameButPad_spPut (x : Team) (off : Nat) (bs : List Byte) (pois : Bool) : x.SameButPad (spPut x off bs pois) := Eq.refl _

theorem worked_spadWrite (s : State) (g t off : Nat) (bs : List Byte) (pois : Bool) : s.Worked (s.spadWrite g t off bs pois) := by
  unfold spadWrite
  dsimp only
  split
  · exact .of_served (served_imgSpadWrite ..)
  · exact worked_modTeam (sameButPad_spPut ..)

theorem worked_landing (s : State) (g t line : Nat) (d : Int) : s.Worked (s.landing g t line d) := by
  unfold landing
  dsimp only
  split
  · exact .of_served (served_imgWrite ..)
  · exact worked_modTeam (Eq.refl _)

theorem served_wakeWhere (s : State) (gs : List Nat) (f : Park → Bool) : s.Served (s.wakeWhere gs f) := by
  refine .foldl (fun s gk => ?_) gs s
  split
  · exact .ite (fun _ => served_wake ..) fun _ => .refl s
  · exact .refl s

theorem worked_landLines (s : State) (g t : Nat) (lines : List Nat) : s.Worked (s.landLines g t lines) := by
  have hl : s.Worked (lines.foldl (fun s l => s.landing g t l (-1)) s) := .foldl (fun _ _ => worked_landing ..) lines s
  unfold landLines
  split
  · exact .refl s
  · dsimp only
    split
    · exact hl.trans (.of_served ((served_wakeWhere ..).trans (served_recheckAll _)))
    · exact hl

theorem served_wakeClaim (s : State) (gk q i : Nat) (pop : Bool) : s.Served (s.wakeClaim gk q i pop) := by
  unfold wakeClaim
  split
  · exact .ite (fun _ => served_wake ..) fun _ => .refl s
  · exact .refl s

/-! ### A push in steps (R413) -/

/-- R169, R267, R282: a unit adds 1 to a counter of a queue for a flight. -/
def flightAdd (s : State) (f : Flight) (p va : Nat) : State :=
  ((s.gridAdd f.g p va 1).logLeak f.g 2 va 8 0).noteAdder f.g f.t (.glob va)

/-- R413: the entry of a push in its slot, where the partition's tables map it. -/
def slotWrite (s : State) (f : Flight) (p a : Nat) (entry : List PByte) : State :=
  match s.walkFor p a true with
  | some (pa, mt) =>
    if mt == 1 then ((s.vaTouch p a entry.length true).hostWrite pa (entry.map Prod.fst)).logLeak f.g 0 a entry.length 0
    else (((s.vaTouch p a entry.length true).dropRange ((s.vaTouch p a entry.length true).coreOfGrp (grpKey f.g f.t f.grp)) pa
      entry.length).devWriteP pa entry).countWritten (f.core / 6) [entry]
  | none => s

/-- R76, R413: for a queue of launch records, who pushed. -/
def notePusher (s : State) (x : Queue) (f : Flight) (q i : Nat) : State :=
  if x.cons == 0 then s.modQueue q fun x => { x with pushers := x.pushers.put i (f.g, (s.grid f.g).root13) } else s

/-- R413: a push before its status: the entry in its slot and the tail raised. -/
def pushStored (s : State) (f : Flight) (q i : Nat) (entry : List PByte) : State :=
  ((s.slotWrite f (s.queue q).part ((s.queue q).slotAt i) entry).notePusher (s.queue q) f q i).flightAdd f (s.queue q).part
    (s.queue q).taila.toNat

theorem worked_flightAdd (s : State) (f : Flight) (p va : Nat) : s.Worked (s.flightAdd f p va) :=
  .of_logged (((servedLogged_gridAdd ..).trans (servedLogged_logLeak ..)).trans (servedLogged_noteAdder ..))

theorem worked_slotWrite (s : State) (f : Flight) (p a : Nat) (entry : List PByte) : s.Worked (s.slotWrite f p a entry) := by
  have h := ServedLogged.of_served (served_vaTouch s p a entry.length true)
  unfold slotWrite
  refine .of_logged ?_
  split
  · split
    · exact (h.trans (.of_served (served_hostWrite ..))).trans (servedLogged_logLeak ..)
    · exact h.trans (.of_served (((served_dropRange ..).trans (served_devWriteP ..)).trans (served_countWritten ..)))
  · exact .refl s

theorem worked_notePusher (s : State) (x : Queue) (f : Flight) (q i : Nat) : s.Worked (s.notePusher x f q i) := by
  unfold notePusher
  split
  · exact worked_pushers ..
  · exact .refl s

theorem worked_pushStored (s : State) (f : Flight) (q i : Nat) (entry : List PByte) : s.Worked (s.pushStored f q i entry) :=
  ((worked_slotWrite ..).trans (worked_notePusher ..)).trans (worked_flightAdd ..)

theorem pushDo_eq {s : State} {f : Flight} {q i st : Nat} {entry : List PByte} (hb : f.body = .push q i entry st) :
    s.pushDo f = (((s.pushStored f q i entry).unitScalar (grpKey f.g f.t f.grp) st (w64 (i * 256))).dropFlight f.id).wakeClaim
      (grpKey f.g f.t f.grp) q i false := by
  rw [pushDo, hb]
  rfl

/-! ### What a push leaves in memory -/

theorem sameMaps_slotWrite {s : State} {f : Flight} (hr : (s.grid f.g).reca = none)
    (hl : s.CleanL1 (s.coreOfGrp (grpKey f.g f.t f.grp))) (p a : Nat) (entry : List PByte) :
    (s.putAt p a (entry.map Prod.fst)).SameMaps (s.slotWrite f p a entry) := by
  have ht := served_vaTouch s p a entry.length true
  unfold putAt slotWrite
  rw [List.length_map]
  cases s.walkFor p a true with
  | none => exact .refl s
  | some r =>
    obtain ⟨pa, mt⟩ := r
    dsimp only
    by_cases hm : mt = 1
    · rw [putPhys, if_pos hm, if_pos (by simpa using hm), logLeak_eq_self]
      · exact .refl _
      · exact (congrArg Grid.reca (ht.grid f.g)).trans hr
    · rw [putPhys, if_neg hm, if_neg (by simpa using hm)]
      refine .trans ?_ (sameMaps_countWritten ..)
      refine (SameMaps.of_parts_eq rfl rfl rfl).trans (sameMaps_devWriteP_of_cleanL1 (k := _) ?_ pa entry.length entry)
      rw [(Worked.of_served ht).coreOfGrp]
      exact hl.of_cores_eq (vaTouch_cores ..)

theorem sameMaps_flightAdd {s : State} {f : Flight} (hc : s.Calm) (hr : (s.grid f.g).reca = none) (p va : Nat) :
    (s.raised p va 1).SameMaps (s.flightAdd f p va) := sameMem_counterAdd hc hr ..

/-- R413: a push in memory: the entry in its slot, and the tail 1 higher. -/
theorem sameMaps_pushStored {s : State} {f : Flight} (hc : s.Calm) (hr : (s.grid f.g).reca = none)
    (hl : s.CleanL1 (s.coreOfGrp (grpKey f.g f.t f.grp))) (q i : Nat) (entry : List PByte) :
    ((s.putAt (s.queue q).part ((s.queue q).slotAt i) (entry.map Prod.fst)).raised (s.queue q).part (s.queue q).taila.toNat
      1).SameMaps (s.pushStored f q i entry) := by
  have hnote (t : State) : t.SameMaps (t.notePusher (s.queue q) f q i) := by
    unfold notePusher
    split
    · exact sameMaps_modQueue ..
    · exact .refl t
  have hw := (worked_slotWrite s f (s.queue q).part ((s.queue q).slotAt i) entry).trans (worked_notePusher _ (s.queue q) f q i)
  unfold pushStored
  exact (((sameMaps_slotWrite hr hl ..).trans (hnote _)).raised ..).trans
    (sameMaps_flightAdd (hw.calm hc) ((hw.reca f.g).trans hr) ..)

/-! ### The status of a claim -/

/-- R480: an s register of a group whose team is on its core. -/
theorem unitScalar_of_resident {s : State} {gk n : Nat} (h : (s.team (gk / 32)).st = .resident) (hn : n ≠ 0) (v : W64) :
    s.unitScalar gk n v = s.modGroup gk fun x => { x with regs := x.regs.sset n v 0 } := by
  have ha : atImage (s.team (gk / 32)) = false := by rw [atImage, h]; rfl
  rw [unitScalar, if_neg (by simpa using hn), ha, if_neg (by decide)]

theorem unitScalar_flights (s : State) (gk n : Nat) (v : W64) : (s.unitScalar gk n v).flights = s.flights := by
  unfold unitScalar
  split
  · rfl
  · split
    · exact (served_imgWrite ..).flights
    · rfl

theorem unitScalar_queues (s : State) (gk n : Nat) (v : W64) : (s.unitScalar gk n v).queues = s.queues := by
  unfold unitScalar
  split
  · rfl
  · split
    · exact (served_imgWrite ..).queues
    · rfl

theorem sameMaps_unitScalar {s : State} {gk : Nat} (h : (s.team (gk / 32)).st = .resident) (n : Nat) (v : W64) :
    s.SameMaps (s.unitScalar gk n v) := by
  by_cases hn : n = 0
  · subst hn
    exact .refl s
  · rw [unitScalar_of_resident h hn]
    exact sameMaps_modGroup ..

theorem grpKey_div (g t : Nat) {n : Nat} (h : n < 32) : grpKey g t n / 32 = teamKey g t := by
  unfold grpKey
  omega

@[simp] theorem dropFlight_group (s : State) (id gk : Nat) : (s.dropFlight id).group gk = s.group gk := rfl
@[simp] theorem dropFlight_team (s : State) (id k : Nat) : (s.dropFlight id).team k = s.team k := rfl

theorem unitScalar_regs {s : State} {gk : Nat} (h : (s.team (gk / 32)).st = .resident) (n : Nat) (v : W64) :
    ((s.unitScalar gk n v).group gk).regs = (s.group gk).regs.sset n v 0 := by
  by_cases hn : n = 0
  · subst hn
    rfl
  · rw [unitScalar_of_resident h hn, modGroup_group, if_pos rfl]

/-! ### What a push leaves -/

section
variable {s : State} {f : Flight} {q i st : Nat} {entry : List PByte} (hb : f.body = .push q i entry st)
include hb

theorem pushDo_flights : (s.pushDo f).flights = s.flights.filter fun y => y.id != f.id := by
  rw [pushDo_eq hb, (served_wakeClaim ..).flights, dropFlight, unitScalar_flights, (worked_pushStored ..).flights]

theorem sameMaps_pushDo (hg : f.grp < 32) (hres : (s.team (teamKey f.g f.t)).st = .resident) (hc : s.Calm)
    (hr : (s.grid f.g).reca = none) (hl : s.CleanL1 (s.coreOfGrp (grpKey f.g f.t f.grp))) :
    ((s.putAt (s.queue q).part ((s.queue q).slotAt i) (entry.map Prod.fst)).raised (s.queue q).part (s.queue q).taila.toNat
      1).SameMaps (s.pushDo f) := by
  have hst : ((s.pushStored f q i entry).team (grpKey f.g f.t f.grp / 32)).st = .resident := by
    rw [grpKey_div _ _ hg, (worked_pushStored ..).st, hres]
  rw [pushDo_eq hb]
  exact (((sameMaps_pushStored hc hr hl q i entry).trans (sameMaps_unitScalar hst ..)).trans (sameMaps_dropFlight ..)).trans
    (sameMaps_wakeClaim ..)

/-- R413: the status of a push. -/
theorem pushDo_regs (hg : f.grp < 32) (hres : (s.team (teamKey f.g f.t)).st = .resident) :
    ((s.pushDo f).group (grpKey f.g f.t f.grp)).regs = (s.group (grpKey f.g f.t f.grp)).regs.sset st (w64 (i * 256)) 0 := by
  have hw := worked_pushStored s f q i entry
  have hst : ((s.pushStored f q i entry).team (grpKey f.g f.t f.grp / 32)).st = .resident := by
    rw [grpKey_div _ _ hg, hw.st, hres]
  rw [pushDo_eq hb, (served_wakeClaim ..).regs]
  rw [dropFlight_group, unitScalar_regs hst, hw.served.regs]
  rfl

end

/-! ### A pop in steps (R414) -/

/-- R414: the entry of a pop, as its slot holds it. -/
def slotRead (s : State) (p a n : Nat) : List PByte :=
  match s.walkFor p a false with
  | some (pa, mt) => if mt == 1 then (s.hostRead pa n).map fun b => (b, false) else s.devReadP pa n
  | none => List.replicate n (0, false)

/-- R134: the words of an entry that reach a scratchpad. -/
def padWrites (s : State) (g off n : Nat) (bs : List PByte) : List (Nat × List PByte) :=
  (List.range (n / 4)).filterMap fun j =>
    (spReduce (s.grid g).alloc ((off + 4 * j) % pow2 64)).map fun o => (o, (bs.drop (4 * j)).take 4)

/-- Words written to a team's scratchpad. -/
def padPut (s : State) (g t : Nat) (ws : List (Nat × List PByte)) : State :=
  ws.foldl (fun s w => spadWrite s g t w.1 (w.2.map Prod.fst) (anyPois w.2)) s

/-- R134, R263, R414: the entry of a pop at its destination. -/
def popPut (s : State) (f : Flight) (n : Nat) (dst : Place) (bs : List PByte) : State :=
  match dst with
  | .spad g t off =>
    let ws := s.padWrites g off n bs
    let s := s.padPut g t ws
    (s.settleHome (ws.filterMap fun w => (s.imgSpadAt g t w.1).map fun pa => (pa, w.2))).countWritten (f.core / 6) (ws.map Prod.snd)
  | .dev pa => ((s.dropRange (s.coreOfGrp (grpKey f.g f.t f.grp)) pa n).devWriteP pa bs).countWritten (f.core / 6) [bs]
  | .host pa va =>
    if anyPois bs then s.errorEvent f.g 2 0 f.t f.grp
    else (s.hostWrite pa (bs.map Prod.fst)).logLeak f.g 0 va n 0

/-- R414: a pop before its status: the entry at its destination, its lines there, and the head raised. -/
def popMoved (s : State) (f : Flight) (q i : Nat) (dst : Place) (lines : List Nat) : State :=
  let x := s.queue q
  (((s.popPut f x.size dst (s.slotRead x.part (x.slotAt i) x.size)).landLines f.g f.t lines).vaTouch x.part (x.slotAt i) x.size
    false).flightAdd f x.part x.heada.toNat

/-- R169: the acquire of a claim. -/
def claimAcquire (s : State) (f : Flight) : State :=
  if f.acq.isSome then s.acquireEnds (grpKey f.g f.t f.grp) 5 else s

theorem popDo_eq {s : State} {f : Flight} {q i st d : Nat} {dst : Place} {lines : List Nat}
    (hb : f.body = .pop q i dst lines st d) :
    s.popDo f = ((((s.popMoved f q i dst lines).duePart (grpKey f.g f.t f.grp) d [.scal st (w64 (i * 256)) 0]).claimAcquire
      f).dropFlight f.id).wakeClaim (grpKey f.g f.t f.grp) q i true := by
  rw [popDo, hb]
  rfl

theorem worked_padPut (s : State) (g t : Nat) (ws : List (Nat × List PByte)) : s.Worked (s.padPut g t ws) :=
  .foldl (fun _ _ => worked_spadWrite ..) ws s

theorem worked_popPut (s : State) (f : Flight) (n : Nat) (dst : Place) (bs : List PByte) : s.Worked (s.popPut f n dst bs) := by
  cases dst with
  | spad g t off => exact (worked_padPut ..).trans (.of_served ((served_settleHome ..).trans (served_countWritten ..)))
  | dev pa => exact .of_served (((served_dropRange ..).trans (served_devWriteP ..)).trans (served_countWritten ..))
  | host pa va =>
    unfold popPut
    dsimp only
    split
    · exact .of_served (served_errorEvent ..)
    · exact .of_logged ((ServedLogged.of_served (served_hostWrite ..)).trans (servedLogged_logLeak ..))

theorem worked_popMoved (s : State) (f : Flight) (q i : Nat) (dst : Place) (lines : List Nat) :
    s.Worked (s.popMoved f q i dst lines) :=
  (((worked_popPut ..).trans (worked_landLines ..)).trans (.of_served (served_vaTouch ..))).trans (worked_flightAdd ..)

theorem served_claimAcquire (s : State) (f : Flight) : s.Served (s.claimAcquire f) := by
  unfold claimAcquire
  split
  · exact served_acquireEnds ..
  · exact .refl s

theorem duePart_due {s : State} {gk : Nat} (h : (s.groups.find gk).isSome = true) (id : Nat) (w : List RegWr) :
    ((s.duePart gk id w).group gk).due =
      (s.group gk).due.map fun d => if d.id = id then { d with writes := d.writes ++ w, left := d.left - 1 } else d := by
  rw [duePart, if_neg (by rw [Option.isNone_iff_eq_none]; exact Option.isSome_iff_ne_none.1 h), modGroup_group, if_pos rfl]
  simp only [beq_iff_eq]

theorem duePart_flights (s : State) (gk id : Nat) (w : List RegWr) : (s.duePart gk id w).flights = s.flights := by
  unfold duePart
  split <;> rfl

theorem duePart_queues (s : State) (gk id : Nat) (w : List RegWr) : (s.duePart gk id w).queues = s.queues := by
  unfold duePart
  split <;> rfl

theorem duePart_team (s : State) (gk id : Nat) (w : List RegWr) (k : Nat) : (s.duePart gk id w).team k = s.team k := by
  unfold duePart
  split <;> rfl

/-! ### What a pop leaves -/

section
variable {s : State} {f : Flight} {q i st d : Nat} {dst : Place} {lines : List Nat} (hb : f.body = .pop q i dst lines st d)
include hb

theorem popDo_flights : (s.popDo f).flights = s.flights.filter fun y => y.id != f.id := by
  rw [popDo_eq hb, (served_wakeClaim ..).flights, dropFlight, (served_claimAcquire ..).flights, duePart_flights,
    (worked_popMoved ..).flights]

/-- R414: the status of a pop arrives. -/
theorem popDo_due (h : (s.groups.find (grpKey f.g f.t f.grp)).isSome = true) :
    ((s.popDo f).group (grpKey f.g f.t f.grp)).due = (s.group (grpKey f.g f.t f.grp)).due.map fun e =>
      if e.id = d then { e with writes := e.writes ++ [.scal st (w64 (i * 256)) 0], left := e.left - 1 } else e := by
  have hw := worked_popMoved s f q i dst lines
  rw [popDo_eq hb, (served_wakeClaim ..).due, dropFlight_group, (served_claimAcquire ..).due, duePart_due (hw.listed _ h), hw.due]

theorem popDo_team (k : Nat) : (s.popDo f).team k = (s.popMoved f q i dst lines).team k := by
  rw [popDo_eq hb, (served_wakeClaim ..).team, dropFlight_team, (served_claimAcquire ..).team, duePart_team]

theorem sameMaps_popDo : (s.popMoved f q i dst lines).SameMaps (s.popDo f) := by
  have hacq (t : State) : t.SameMaps (t.claimAcquire f) := by
    unfold claimAcquire
    split
    · exact sameMaps_acquireEnds ..
    · exact .refl t
  rw [popDo_eq hb]
  exact (((sameMaps_duePart ..).trans (hacq _)).trans (sameMaps_dropFlight ..)).trans (sameMaps_wakeClaim ..)

end

/-! ### The entry of a pop in memory -/

section
variable {s : State}

theorem fst_devReadP (s : State) (pa n : Nat) : (s.devReadP pa n).map Prod.fst = Memory.bytes s.mem pa n := by
  rw [devReadP, List.map_map]
  exact (Memory.bytes_eq_map ..).symm

/-- R414: the bytes of a slot. -/
theorem fst_slotRead (s : State) (p a n : Nat) : (s.slotRead p a n).map Prod.fst =
    match s.walkFor p a false with
    | some (pa, mt) => Memory.bytes (if mt = 1 then s.hostMem else s.mem) pa n
    | none => List.replicate n 0 := by
  unfold slotRead
  cases s.walkFor p a false with
  | none => simp
  | some r =>
    obtain ⟨pa, mt⟩ := r
    by_cases hm : mt = 1
    · simp [hm, hostRead, Function.comp_def]
    · simp [hm, fst_devReadP]

/-- R262: without a mark in memory the bytes of a slot have none. -/
theorem anyPois_slotRead (h : s.memPois = []) (p a n : Nat) : anyPois (s.slotRead p a n) = false := by
  have hd (pa : Nat) : anyPois (s.devReadP pa n) = false := by
    simp [anyPois, devReadP, h, SMap.get, SMap.find]
  unfold slotRead
  cases s.walkFor p a false with
  | none => simp [anyPois]
  | some r =>
    obtain ⟨pa, mt⟩ := r
    by_cases hm : mt = 1
    · simp [hm, anyPois]
    · simp [hm, hd]

theorem inImage_of_resident {x : Team} (h : x.st = .resident) : inImage x = false := by rw [inImage, h]; rfl

theorem landing_of_resident {g t : Nat} (h : (s.team (teamKey g t)).st = .resident) (l : Nat) (d : Int) :
    s.landing g t l d = s.modTeam (teamKey g t) fun x => { x with landing := x.landing.set 0 l ((x.landing.get l 0 + d).toNat) } := by
  rw [landing, inImage_of_resident h, if_neg (by decide)]

/-- R137: lines of a resident team land: neither memory nor scratchpad changes. -/
theorem foldl_landing_of_resident {g t : Nat} (h : (s.team (teamKey g t)).st = .resident) (d : Int) (lines : List Nat) :
    s.SameMaps (lines.foldl (fun s l => landing s g t l d) s) ∧
      ∀ k, ((lines.foldl (fun s l => landing s g t l d) s).team k).spad = (s.team k).spad := by
  induction lines generalizing s with
  | nil => exact ⟨.refl s, fun _ => rfl⟩
  | cons l lines ih =>
    obtain ⟨hm, hs⟩ := ih (s := s.landing g t l d) (by rw [(worked_landing ..).st, h])
    rw [List.foldl_cons]
    refine ⟨SameMaps.trans ?_ hm, fun k => (hs k).trans ?_⟩
    · rw [landing_of_resident h]
      exact sameMaps_modTeam ..
    · rw [landing_of_resident h, modTeam_team]
      split
      · next hk => rw [hk]
      · rfl

theorem landLines_of_resident {g t : Nat} (hc : s.Calm) (h : (s.team (teamKey g t)).st = .resident) (lines : List Nat) :
    s.SameMaps (s.landLines g t lines) ∧ ∀ k, ((s.landLines g t lines).team k).spad = (s.team k).spad := by
  obtain ⟨hm, hs⟩ := foldl_landing_of_resident h (-1) lines
  have hl : s.Worked (lines.foldl (fun s l => landing s g t l (-1)) s) := .foldl (fun _ _ => worked_landing ..) lines s
  unfold landLines
  dsimp only
  generalize lines.foldl (fun s l => landing s g t l (-1)) s = u at hm hs hl ⊢
  by_cases he : lines.isEmpty = true
  · rw [if_pos he]
    exact ⟨.refl s, fun _ => rfl⟩
  · rw [if_neg he, if_pos (by rw [hl.st, h]; rfl), recheckAll_eq_self_of_calm ((served_wakeWhere ..).calm (hl.calm hc))]
    exact ⟨hm.trans (sameMaps_wakeWhere ..), fun k => by rw [(served_wakeWhere ..).team, hs]⟩

/-! ### The entry of a pop at its destination -/

theorem spadWrite_of_resident {g t : Nat} (h : (s.team (teamKey g t)).st = .resident) (off : Nat) (bs : List Byte) (pois : Bool) :
    s.spadWrite g t off bs pois = s.modTeam (teamKey g t) fun x => spPut x off bs pois := by
  rw [spadWrite, inImage_of_resident h, if_neg (by decide)]

/-- Words written to a resident team's scratchpad. -/
theorem padPut_of_resident {g t : Nat} (h : (s.team (teamKey g t)).st = .resident) (ws : List (Nat × List PByte)) :
    s.SameMaps (s.padPut g t ws) ∧ ((s.padPut g t ws).team (teamKey g t)).spad =
      ws.foldl (fun m w => Memory.setBytes m w.1 (w.2.map Prod.fst)) (s.team (teamKey g t)).spad := by
  unfold padPut
  induction ws generalizing s with
  | nil => exact ⟨.refl s, rfl⟩
  | cons w ws ih =>
    obtain ⟨hm, hs⟩ := ih (s := s.spadWrite g t w.1 (w.2.map Prod.fst) (anyPois w.2)) (by rw [(worked_spadWrite ..).st, h])
    rw [List.foldl_cons, List.foldl_cons]
    refine ⟨SameMaps.trans ?_ hm, hs.trans ?_⟩
    · rw [spadWrite_of_resident h]
      exact sameMaps_modTeam ..
    · rw [spadWrite_of_resident h, modTeam_team, if_pos rfl]
      rfl

/-- R134: the words of an entry, put one by one where they lie within the allocation. -/
theorem foldl_padWrites (g off n : Nat) (bs : List PByte) (m : Memory) :
    (s.padWrites g off n bs).foldl (fun m w => Memory.setBytes m w.1 (w.2.map Prod.fst)) m =
      spadAfter (s.grid g).alloc (entryPieces off n) (fun p => ((bs.map Prod.fst).drop p.idx).take 4) m := by
  unfold padWrites spadAfter entryPieces
  induction List.range (n / 4) generalizing m with
  | nil => rfl
  | cons j l ih =>
    rw [List.map_cons, List.foldl_cons]
    cases h : spReduce (s.grid g).alloc ((off + 4 * j) % pow2 64) with
    | none => rw [List.filterMap_cons_none (by simp [h]), ih]
    | some o =>
      rw [List.filterMap_cons_some (b := (o, (bs.drop (4 * j)).take 4)) (by rw [h]; rfl), List.foldl_cons, ih]
      simp only [List.map_drop, List.map_take]

/-- R414: an entry put in device memory, past a clean L1. -/
theorem sameMaps_popPut_dev {f : Flight} (hl : s.CleanL1 (s.coreOfGrp (grpKey f.g f.t f.grp))) (n pa : Nat) (bs : List PByte) :
    (s.putPhys pa 0 (bs.map Prod.fst)).SameMaps (s.popPut f n (.dev pa) bs) :=
  (sameMaps_devWriteP_of_cleanL1 hl ..).trans (sameMaps_countWritten ..)

/-- R414: an entry without poison put in host memory. -/
theorem sameMaps_popPut_host {f : Flight} (hr : (s.grid f.g).reca = none) (n pa va : Nat) {bs : List PByte}
    (hp : anyPois bs = false) : (s.putPhys pa 1 (bs.map Prod.fst)).SameMaps (s.popPut f n (.host pa va) bs) := by
  have hw : s.popPut f n (.host pa va) bs = s.hostWrite pa (bs.map Prod.fst) := by
    unfold popPut
    dsimp only
    rw [hp, if_neg (by decide), logLeak_eq_self]
    rw [(served_hostWrite ..).grid, hr]
  rw [hw]
  exact .refl _

/-- R134, R414: an entry put in a resident team's scratchpad. -/
theorem popPut_spad {f : Flight} {g t : Nat} (h : (s.team (teamKey g t)).st = .resident) (n off : Nat) (bs : List PByte) :
    s.SameMaps (s.popPut f n (.spad g t off) bs) ∧ ((s.popPut f n (.spad g t off) bs).team (teamKey g t)).spad =
      spadAfter (s.grid g).alloc (entryPieces off n) (fun p => ((bs.map Prod.fst).drop p.idx).take 4)
        (s.team (teamKey g t)).spad := by
  obtain ⟨hm, hs⟩ := padPut_of_resident h (s.padWrites g off n bs)
  refine ⟨hm.trans ((sameMaps_settleHome ..).trans (sameMaps_countWritten ..)), ?_⟩
  unfold popPut
  rw [(served_countWritten ..).team, (served_settleHome ..).team, hs, foldl_padWrites]

/-- R414: a pop before its status, once its entry is at its destination. -/
theorem popMoved_of_popPut {f : Flight} {u : State} (hc : s.Calm) (hr : (s.grid f.g).reca = none)
    (hres : (s.team (teamKey f.g f.t)).st = .resident) (q i : Nat) (dst : Place) (lines : List Nat)
    (hu : u.SameMaps (s.popPut f (s.queue q).size dst (s.slotRead (s.queue q).part ((s.queue q).slotAt i) (s.queue q).size))) :
    ((u.vaTouch (s.queue q).part ((s.queue q).slotAt i) (s.queue q).size false).raised (s.queue q).part
      (s.queue q).heada.toNat 1).SameMaps (s.popMoved f q i dst lines) ∧
    ∀ k, ((s.popMoved f q i dst lines).team k).spad =
      ((s.popPut f (s.queue q).size dst (s.slotRead (s.queue q).part ((s.queue q).slotAt i) (s.queue q).size)).team k).spad := by
  have hw := worked_popPut s f (s.queue q).size dst (s.slotRead (s.queue q).part ((s.queue q).slotAt i) (s.queue q).size)
  unfold popMoved
  dsimp only
  generalize s.popPut f (s.queue q).size dst (s.slotRead (s.queue q).part ((s.queue q).slotAt i) (s.queue q).size) = t at hu hw ⊢
  obtain ⟨hm, hs⟩ := landLines_of_resident (hw.calm hc) ((hw.st _).trans hres) lines
  have hl := worked_landLines t f.g f.t lines
  have ht := served_vaTouch (t.landLines f.g f.t lines) (s.queue q).part ((s.queue q).slotAt i) (s.queue q).size false
  refine ⟨(((hu.trans hm).vaTouch ..).raised ..).trans (sameMaps_flightAdd (ht.calm (hl.calm (hw.calm hc))) ?_ ..), fun k => ?_⟩
  · rw [ht.grid, hl.reca, hw.reca, hr]
  · rw [flightAdd, (servedLogged_noteAdder ..).team, (servedLogged_logLeak ..).team, (servedLogged_gridAdd ..).team, ht.team, hs]

end

/-! ### What a transfer leaves of a queue -/

/-- Of each queue no more than the note of who pushed has changed. -/
def QueuesKept (s t : State) : Prop := ∀ q, t.queue q = { s.queue q with pushers := (t.queue q).pushers }

namespace QueuesKept

variable {s t u : State}

theorem of_eq (h : t.queues = s.queues) : s.QueuesKept t := fun q => by
  rw [show t.queue q = s.queue q by unfold queue; rw [h]]

theorem refl (s : State) : s.QueuesKept s := .of_eq rfl

theorem trans (h : s.QueuesKept t) (k : t.QueuesKept u) : s.QueuesKept u := fun q => by rw [k q, h q]

theorem foldl {α : Type} {f : State → α → State} (hf : ∀ (s : State) a, s.QueuesKept (f s a)) (l : List α) (s : State) :
    s.QueuesKept (l.foldl f s) := by
  induction l generalizing s with
  | nil => exact refl s
  | cons a l ih => exact (hf s a).trans (ih _)

end QueuesKept

/-- The end of a claim. -/
theorem dropClaim_queues (s : State) (id gk q i : Nat) (pop : Bool) : ((s.dropFlight id).wakeClaim gk q i pop).queues = s.queues :=
  (served_wakeClaim ..).queues

theorem queuesKept_pushDo (s : State) (f : Flight) : s.QueuesKept (s.pushDo f) := by
  cases hb : f.body with
  | push q i entry st =>
    rw [pushDo_eq hb]
    exact QueuesKept.trans (worked_pushStored ..).queue (.of_eq ((dropClaim_queues ..).trans (unitScalar_queues ..)))
  | _ => rw [pushDo, hb]; exact .refl s

theorem queuesKept_popDo (s : State) (f : Flight) : s.QueuesKept (s.popDo f) := by
  cases hb : f.body with
  | pop q i dst lines st d =>
    rw [popDo_eq hb]
    refine QueuesKept.trans (worked_popMoved s f q i dst lines).queue (.of_eq ((dropClaim_queues ..).trans ?_))
    rw [(served_claimAcquire ..).queues, duePart_queues]
  | _ => rw [popDo, hb]; exact .refl s

theorem queuesKept_claimFail (s : State) (f : Flight) : s.QueuesKept (s.claimFail f) := by
  cases hb : f.body with
  | push q i entry st =>
    rw [claimFail, hb]
    exact .of_eq ((dropClaim_queues ..).trans (unitScalar_queues ..))
  | pop q i dst lines st d =>
    rw [claimFail, hb]
    exact QueuesKept.trans (worked_landLines ..).queue (.of_eq ((dropClaim_queues ..).trans (duePart_queues ..)))
  | _ => rw [claimFail, hb]; exact .refl s

/-- R53: a queue that a consumer found over-full is halted with OVF set. -/
theorem queueOverflow_flags (s : State) (q : Nat) :
    ((s.queueOverflow q).queue q).ovf = true ∧ ((s.queueOverflow q).queue q).halted = true := by
  have hstop (t : State) : ((t.queueStop q).queue q).ovf = (t.queue q).ovf ∧ ((t.queueStop q).queue q).halted = (t.queue q).halted := by
    have hf (l : List Flight) (s : State) : s.QueuesKept (l.foldl claimFail s) := .foldl queuesKept_claimFail l s
    have hd (l : List Flight) (s : State) :
        s.QueuesKept (l.foldl (fun s f => if isPop q f then s.popDo f else s.pushDo f) s) := by
      refine .foldl (fun s f => ?_) l s
      split
      · exact queuesKept_popDo s f
      · exact queuesKept_pushDo s f
    unfold queueStop
    dsimp only
    rw [modQueue_queue, if_pos rfl, (served_queueRead ..).queue]
    dsimp only
    rw [((hf _ t).trans (hd _ _)) q]
    exact ⟨rfl, rfl⟩
  obtain ⟨ho, hh⟩ := hstop (s.modQueue q fun x => { x with ovf := true, halted := true })
  rw [queueOverflow, ho, hh, modQueue_queue, if_pos rfl]
  exact ⟨rfl, rfl⟩

end State
end Sys2Proof.Machine

/-! ## Remote accesses and atomics, performed (R138, R150, R160, R407, R411) -/

namespace Sys2Proof

/-- A write word by word is the write. -/
theorem Memory.setBytes_words (bs : List Byte) (m : Memory) (a : Nat) : (List.range (ceilDiv bs.length 4)).foldl
    (fun m i => Memory.setBytes m (a + 4 * i) ((bs.drop (4 * i)).take 4)) m = Memory.setBytes m a bs := by
  have h (n : Nat) (hn : 4 * n < bs.length + 4) : (List.range n).foldl
      (fun m i => Memory.setBytes m (a + 4 * i) ((bs.drop (4 * i)).take 4)) m = Memory.setBytes m a (bs.take (4 * n)) := by
    induction n with
    | zero => rfl
    | succ n ih =>
      have hlen : (bs.take (4 * n)).length = 4 * n := by rw [List.length_take]; omega
      rw [List.range_succ, List.foldl_append, ih (by omega), show 4 * (n + 1) = 4 * n + 4 by omega, List.take_add,
        Memory.setBytes_append, hlen]
      rfl
  rw [h _ (by unfold ceilDiv; omega), List.take_of_length_le (by unfold ceilDiv; omega)]

theorem le_ceilPow2 (n : Nat) : n ≤ ceilPow2 n := by
  unfold ceilPow2
  split
  · assumption
  · have := Nat.lt_log2_self (n := n - 1)
    unfold pow2
    omega

end Sys2Proof

namespace Sys2Proof.Machine

/-- R134: offsets within an allocation are reduced alike. -/
theorem spReduce_add {alloc a o n i : Nat} (h : State.spReduce alloc a = some o) (hn : o + n ≤ alloc) (ha : a + n ≤ pow2 64)
    (hi : i < n) : State.spReduce alloc ((a + i) % pow2 64) = some (o + i) := by
  have hp := le_ceilPow2 alloc
  unfold State.spReduce at h ⊢
  rw [Nat.mod_eq_of_lt (show a + i < pow2 64 by omega)]
  by_cases h0 : alloc = 0
  · simp [h0] at h
  · simp only [beq_iff_eq, h0, if_false] at h ⊢
    split at h
    · next hlt =>
      have ho : a % ceilPow2 alloc = o := Option.some.inj h
      rw [Nat.add_mod, ho, Nat.mod_eq_of_lt (show i < ceilPow2 alloc by omega), Nat.mod_eq_of_lt (by omega), if_pos (by omega)]
    · cases h

namespace State

open Sys2Proof

section
variable {s : State}

/-! ### What an operation's end leaves -/

theorem acquireStart_of_acq_eq_none {f : Flight} (h : f.acq = none) : s.acquireStart f = s := by
  simp [acquireStart, promoteFor, h]

theorem acquireEnd_of_acq_eq_none {f : Flight} (h : f.acq = none) : s.acquireEnd f = s := by
  simp [acquireEnd, h]

/-- R143, R159: an operation without a token has landed: its flight is gone, and the pages that it alone used are unpinned. -/
theorem landed_eq_unpin {f : Flight} (h : f.tk = none) (st : Nat) : ∃ pages, s.landed f st = (s.dropFlight f.id).unpin pages := by
  rw [landed, h]
  exact ⟨_, rfl⟩

section
variable {f : Flight} (h : f.tk = none) (st : Nat)
include h

theorem landed_flights : (s.landed f st).flights = s.flights.filter fun y => y.id != f.id := by
  obtain ⟨pages, e⟩ := landed_eq_unpin (s := s) h st
  rw [e]; rfl

theorem landed_team (k : Nat) : (s.landed f st).team k = s.team k := by
  obtain ⟨pages, e⟩ := landed_eq_unpin (s := s) h st
  rw [e]; rfl

theorem landed_groups : (s.landed f st).groups = s.groups := by
  obtain ⟨pages, e⟩ := landed_eq_unpin (s := s) h st
  rw [e]; rfl

theorem landed_mem : (s.landed f st).mem = s.mem := by
  obtain ⟨pages, e⟩ := landed_eq_unpin (s := s) h st
  rw [e]; rfl

end

theorem recheckOf_eq_self_of_calm (h : s.Calm) (gk t : Nat) : s.recheckOf gk t = s := by
  unfold recheckOf
  split
  · next hp => exact absurd hp (h _ _ _ _ _)
  · rfl

/-- Nothing waits for a counter, so that an operation ends with its landing. -/
theorem landed_rechecks (h : s.Calm) {f : Flight} (hf : f.tk = none) (gk t : Nat) :
    ((s.landed f 0).recheckOf gk t).recheckAll = s.landed f 0 := by
  have hc : (s.landed f 0).Calm := h.of_groups_eq (landed_groups hf 0)
  rw [recheckOf_eq_self_of_calm hc, recheckAll_eq_self_of_calm hc]

/-! ### A resident team's scratchpad -/

/-- R150: bytes written to a resident team's scratchpad, word by word. -/
theorem spadWriteP_of_resident {g t : Nat} (h : (s.team (teamKey g t)).st = .resident) (off : Nat) (bs : List PByte) :
    s.Worked (s.spadWriteP g t off bs) ∧ ((s.spadWriteP g t off bs).team (teamKey g t)).spad =
      Memory.setBytes (s.team (teamKey g t)).spad off (bs.map Prod.fst) := by
  have hf (l : List Nat) (s : State) (h : (s.team (teamKey g t)).st = .resident) :
      s.Worked (l.foldl (fun s i => spadWrite s g t (off + 4 * i) (((bs.drop (4 * i)).take 4).map Prod.fst)
        (anyPois ((bs.drop (4 * i)).take 4))) s) ∧
      ((l.foldl (fun s i => spadWrite s g t (off + 4 * i) (((bs.drop (4 * i)).take 4).map Prod.fst)
        (anyPois ((bs.drop (4 * i)).take 4))) s).team (teamKey g t)).spad =
      l.foldl (fun m i => Memory.setBytes m (off + 4 * i) (((bs.map Prod.fst).drop (4 * i)).take 4)) (s.team (teamKey g t)).spad := by
    induction l generalizing s with
    | nil => exact ⟨.refl s, rfl⟩
    | cons i l ih =>
      have hw := worked_spadWrite s g t (off + 4 * i) (((bs.drop (4 * i)).take 4).map Prod.fst) (anyPois ((bs.drop (4 * i)).take 4))
      obtain ⟨hw', hs⟩ := ih _ ((hw.st _).trans h)
      refine ⟨hw.trans hw', hs.trans ?_⟩
      rw [List.foldl_cons, spadWrite_of_resident h, modTeam_team, if_pos rfl]
      simp only [spPut, List.map_drop, List.map_take]
  obtain ⟨hw, hs⟩ := hf (List.range (ceilDiv bs.length 4)) s h
  rw [spadWriteP, inImage_of_resident h, if_neg (by decide)]
  exact ⟨hw, hs.trans (by rw [← Memory.setBytes_words, List.length_map])⟩

/-- R150: a range of a resident team's scratchpad that lies in its allocation. -/
theorem fst_remBytes_of_resident {g t a o n : Nat} (h : (s.team (teamKey g t)).st = .resident)
    (ho : spReduce (s.grid g).alloc a = some o) (hn : o + n ≤ (s.grid g).alloc) (ha : a + n ≤ pow2 64) :
    (s.remBytes g t a n).map Prod.fst = Memory.bytes (s.team (teamKey g t)).spad o n := by
  rw [remBytes, List.map_map, Memory.bytes_eq_map]
  refine List.map_congr_left fun i hi => ?_
  rw [Function.comp_apply, spReduce_add ho hn ha (List.mem_range.1 hi)]
  simp [spadRead, inImage_of_resident h, spBytes, Memory.bytes]

/-! ### A remote access in steps (R150) -/

/-- R134: the accesses beyond the allocation counted at the target's cluster. -/
def overCounted (s : State) (g t : Nat) (as : List Nat) : State :=
  if s.remOver g as == 0 then s else s.count (s.team (teamKey g t)).cl 0x100 (s.remOver g as)

theorem served_overCounted (s : State) (g t : Nat) (as : List Nat) : s.Served (s.overCounted g t as) := by
  unfold overCounted
  split
  · exact .refl s
  · exact served_count ..

/-- R150, R262: the runs of a remote store written, with the marks of the image's sectors that they cover whole. -/
def storeApplied (s : State) (f : Flight) (t : Nat) (runs : List (Nat × List PByte)) : State :=
  let s := runs.foldl (fun s r => remWrite s f.g t r.1 r.2) (s.overCounted f.g t (runs.map Prod.fst))
  s.settleHome (runs.filterMap fun r => (spReduce (s.grid f.g).alloc r.1).bind fun o =>
    (s.imgSpadAt f.g t o).map fun pa => (pa, r.2))

section
variable {f : Flight} (hacq : f.acq = none)
include hacq

theorem remDo_store {t : Nat} {runs : List (Nat × List PByte)} (hb : f.body = .remStore t runs)
    (hr : (s.reachable f.g t).isSome = true) : s.remDo f =
      (((s.storeApplied f t runs).landed f 0).recheckOf (grpKey f.g f.t f.grp) t).recheckAll := by
  unfold remDo
  rw [hb]
  dsimp only
  rw [acquireStart_of_acq_eq_none hacq, if_neg (by rw [Option.isNone_iff_eq_none]; exact Option.isSome_iff_ne_none.1 hr)]
  rfl

theorem remDo_store_dropped {t : Nat} {runs : List (Nat × List PByte)} (hb : f.body = .remStore t runs)
    (hr : s.reachable f.g t = none) : s.remDo f =
      ((s.count (s.homeCl f.g t) 0x110 runs.length).landed f 0).recheckOf (grpKey f.g f.t f.grp) t := by
  unfold remDo
  rw [hb]
  dsimp only
  rw [acquireStart_of_acq_eq_none hacq, hr]
  rfl

theorem remDo_load {t n due vd : Nat} {offs : List (Nat × Nat)} {scalar sx : Bool} (hb : f.body = .remLoad t n offs due vd scalar sx)
    (hr : (s.reachable f.g t).isSome = true) : s.remDo f =
      ((((s.overCounted f.g t (offs.flatMap fun o => remAccesses o.2 n)).duePart (grpKey f.g f.t f.grp) due
        (if scalar then [RegWr.scal vd (loadScalar sx (s.remBytes f.g t ((offs.map Prod.snd).getD 0 0) n)).1
          (loadScalar sx (s.remBytes f.g t ((offs.map Prod.snd).getD 0 0) n)).2]
        else vecWrites vd (Nat.max 1 (n / 4)) (maskOf fun l => offs.any fun o => o.1 == l)
          (offs.map fun o => (o.1, loadWords sx (s.remBytes f.g t o.2 n))))).landed f 0).recheckOf (grpKey f.g f.t f.grp) t) := by
  unfold remDo
  rw [hb]
  dsimp only
  rw [acquireStart_of_acq_eq_none hacq, acquireEnd_of_acq_eq_none hacq]
  simp only [hr, if_true]
  rw [if_neg (by rw [Option.isNone_iff_eq_none]; exact Option.isSome_iff_ne_none.1 hr)]
  rfl

/-- R160: what an atomic of some lanes leaves of a range of a team's scratchpad, and the old values. -/
def remLanes (s : State) (g t a op sz : Nat) (lanes : List RmwLane) : (List Byte × Bool) × SMap (List PByte) :=
  applyLanes op (pow2 sz) ((s.remBytes g t a (pow2 sz)).map Prod.fst) (anyPois (s.remBytes g t a (pow2 sz))) lanes

/-- R150, R262: the bytes that a remote atomic leaves, written, and poison counted. -/
def remStored (s : State) (g t a n : Nat) (r : List Byte × Bool) : State :=
  if r.2 then (s.remWrite g t a (r.1.map fun b => (b, r.2))).count (s.team (teamKey g t)).cl 0x3A0 (ceilDiv n 4)
  else s.remWrite g t a (r.1.map fun b => (b, r.2))

/-- A part of a result that may be due. -/
def dueTo (s : State) (gk : Nat) (due : Option Nat) (ws : List RegWr) : State :=
  match due with
  | some d => s.duePart gk d ws
  | none => s

theorem remDo_rmw {t a op sz vd : Nat} {lanes : List RmwLane} {due : Option Nat} (hb : f.body = .remRmw t a op sz lanes due vd)
    (hr : (s.reachable f.g t).isSome = true) (ha : (spReduce (s.grid f.g).alloc a).isSome = true) : s.remDo f =
      ((((s.remStored f.g t a (pow2 sz) (s.remLanes f.g t a op sz lanes).1).dueTo (grpKey f.g f.t f.grp) due
        (rmwWrites vd (pow2 sz) (s.remLanes f.g t a op sz lanes).2)).landed f 0).recheckOf (grpKey f.g f.t f.grp) t).recheckAll := by
  unfold remDo
  rw [hb]
  dsimp only
  rw [acquireStart_of_acq_eq_none hacq, hr, ha]
  simp only [acquireEnd_of_acq_eq_none hacq]
  rfl

end

theorem groups_duePart_park (s : State) (gk id : Nat) (w : List RegWr) (j : Nat) :
    ((s.duePart gk id w).group j).park = (s.group j).park := by
  unfold duePart
  split
  · rfl
  · rw [modGroup_group]
    split
    · next h => rw [h]
    · rfl

theorem Calm.duePart (h : s.Calm) (gk id : Nat) (w : List RegWr) : (s.duePart gk id w).Calm := by
  intro j l want scp rmt
  rw [groups_duePart_park]
  exact h j l want scp rmt

theorem Calm.dueTo (h : s.Calm) (gk : Nat) (due : Option Nat) (w : List RegWr) : (s.dueTo gk due w).Calm := by
  unfold State.dueTo
  split
  · exact h.duePart _ _ _
  · exact h

theorem dueTo_flights (s : State) (gk : Nat) (due : Option Nat) (w : List RegWr) : (s.dueTo gk due w).flights = s.flights := by
  unfold dueTo
  split
  · exact duePart_flights ..
  · rfl

theorem dueTo_team (s : State) (gk : Nat) (due : Option Nat) (w : List RegWr) (k : Nat) : (s.dueTo gk due w).team k = s.team k := by
  unfold dueTo
  split
  · exact duePart_team ..
  · rfl

theorem dueTo_mem (s : State) (gk : Nat) (due : Option Nat) (w : List RegWr) : (s.dueTo gk due w).mem = s.mem := by
  unfold dueTo
  split
  · exact (sameMaps_duePart ..).mem
  · rfl

theorem worked_remWrite {g t : Nat} (h : (s.team (teamKey g t)).st = .resident) (a : Nat) (bs : List PByte) :
    s.Worked (s.remWrite g t a bs) := by
  unfold remWrite
  split
  · exact (spadWriteP_of_resident h _ bs).1
  · exact .refl s

/-- R134, R150: bytes written from an offset that lies in the allocation. -/
theorem spad_remWrite {g t a o : Nat} (h : (s.team (teamKey g t)).st = .resident) (ho : spReduce (s.grid g).alloc a = some o)
    (bs : List PByte) : ((s.remWrite g t a bs).team (teamKey g t)).spad =
      Memory.setBytes (s.team (teamKey g t)).spad o (bs.map Prod.fst) := by
  rw [remWrite, ho]
  exact (spadWriteP_of_resident h o bs).2

theorem remStored_of_resident {g t a o : Nat} (h : (s.team (teamKey g t)).st = .resident)
    (ho : spReduce (s.grid g).alloc a = some o) (n : Nat) (r : List Byte × Bool) :
    s.Worked (s.remStored g t a n r) ∧
      ((s.remStored g t a n r).team (teamKey g t)).spad = Memory.setBytes (s.team (teamKey g t)).spad o r.1 := by
  have hw := worked_remWrite h a (r.1.map fun b => (b, r.2))
  have hs := spad_remWrite h ho (r.1.map fun b => (b, r.2))
  rw [List.map_map, show (Prod.fst ∘ fun b => (b, r.2)) = (id : Byte → Byte) from rfl, List.map_id] at hs
  unfold remStored
  split
  · exact ⟨hw.trans (.of_served (served_count ..)), by rw [(served_count ..).team, hs]⟩
  · exact ⟨hw, hs⟩

theorem reachable_of_resident {g t : Nat} (h : (s.team (teamKey g t)).st = .resident) : s.reachable g t = some true := by
  rw [reachable, h]

/-- REMOTE_ACCESS performs an access that nothing holds. -/
theorem exec_remoteAccess {f : Flight} {t : Nat} {os : List (Nat × Nat)} (hf : s.flight s.ev.id = some f)
    (ht : remTouches f.body = some (t, os)) (h1 : s.remFirst f t = true) (h2 : s.reachable f.g t ≠ some false)
    (h3 : s.remAbsent f.g t os = false) : exec .remoteAccess s = .next (s.remDo f) := by
  show execRemoteAccess s = _
  unfold execRemoteAccess
  rw [hf]
  dsimp only
  rw [ht]
  dsimp only
  rw [h1, h3, if_neg (by simpa using h2)]

/-! ### The remote accesses of O47 -/

variable {f : Flight} (hc : s.Calm) (hf : s.flight s.ev.id = some f) (hacq : f.acq = none) (htk : f.tk = none)
include hc hf hacq htk

/-- R150: a remote store to a resident team. -/
theorem then_remStore {u a o : Nat} {bs : List Byte} (hb : f.body = .remStore u [(a, bs.map fun b => (b, false))])
    (h1 : s.remFirst f u = true) (hres : (s.team (teamKey f.g u)).st = .resident)
    (h3 : s.remAbsent f.g u [(a, bs.length)] = false) (ho : spReduce (s.grid f.g).alloc a = some o) :
    s.Then .remoteAccess fun t => t.flights = s.flights.filter (fun y => y.id != f.id) ∧
      (t.team (teamKey f.g u)).spad = Memory.setBytes (s.team (teamKey f.g u)).spad o bs := by
  have hreach := reachable_of_resident hres
  have hov := served_overCounted s f.g u [a]
  have hrw := worked_remWrite (s := s.overCounted f.g u [a]) (by rw [hov.team, hres]) a (bs.map fun b => (b, false))
  have hw : s.Worked (s.storeApplied f u [(a, bs.map fun b => (b, false))]) :=
    ((Worked.of_served hov).trans hrw).trans (.of_served (served_settleHome ..))
  have hx := exec_remoteAccess hf (os := [(a, bs.length)]) (by rw [hb, remTouches]; simp) h1 (by rw [hreach]; decide) h3
  refine .of_eq hx ((remDo_store hacq hb (by rw [hreach]; rfl)).trans (landed_rechecks (hw.calm hc) htk ..)) ⟨?_, ?_⟩
  · rw [landed_flights htk, hw.flights]
  · have hspad := spad_remWrite (s := s.overCounted f.g u [a]) (t := u) (by rw [hov.team, hres]) (by rw [hov.grid, ho])
      (bs.map fun b => (b, false))
    rw [hov.team, List.map_map, show (Prod.fst ∘ fun b => (b, false)) = (id : Byte → Byte) from rfl, List.map_id] at hspad
    rw [landed_team htk]
    exact hspad

/-- R150: a store to a team that has exited is dropped. -/
theorem then_remStore_exited {u : Nat} {runs : List (Nat × List PByte)} (hb : f.body = .remStore u runs)
    (h1 : s.remFirst f u = true) (hex : (s.team (teamKey f.g u)).st = .exited) :
    s.Then .remoteAccess fun t => t.flights = s.flights.filter (fun y => y.id != f.id) ∧
      (t.team (teamKey f.g u)).spad = (s.team (teamKey f.g u)).spad := by
  have hreach : s.reachable f.g u = none := by rw [reachable, hex]
  have hx := exec_remoteAccess hf (os := runs.map fun r => (r.1, r.2.length)) (by rw [hb, remTouches]) h1 (by rw [hreach]; decide)
    (by rw [remAbsent, hex]; rfl)
  have hn := served_count s (s.homeCl f.g u) 0x110 runs.length
  have hcl := (hn.calm hc).of_groups_eq (landed_groups htk 0)
  refine .of_eq hx ((remDo_store_dropped hacq hb hreach).trans (recheckOf_eq_self_of_calm hcl ..)) ⟨?_, ?_⟩
  · rw [landed_flights htk, hn.flights]
  · rw [landed_team htk, hn.team]

/-- R150: a remote load from a resident team: its part of the result arrives. -/
theorem then_remLoad {u n d vd : Nat} {offs : List (Nat × Nat)} {scalar sx : Bool} (hb : f.body = .remLoad u n offs d vd scalar sx)
    (h1 : s.remFirst f u = true) (hres : (s.team (teamKey f.g u)).st = .resident)
    (h3 : s.remAbsent f.g u (offs.map fun o => (o.2, n)) = false) :
    s.Then .remoteAccess fun t => t.flights = s.flights.filter (fun y => y.id != f.id) ∧
      ((s.groups.find (grpKey f.g f.t f.grp)).isSome = true → (t.group (grpKey f.g f.t f.grp)).due =
        (s.group (grpKey f.g f.t f.grp)).due.map fun e => if e.id = d then { e with
          writes := e.writes ++ (if scalar then [RegWr.scal vd (loadScalar sx (s.remBytes f.g u ((offs.map Prod.snd).getD 0 0) n)).1
            (loadScalar sx (s.remBytes f.g u ((offs.map Prod.snd).getD 0 0) n)).2]
          else vecWrites vd (Nat.max 1 (n / 4)) (maskOf fun l => offs.any fun o => o.1 == l)
            (offs.map fun o => (o.1, loadWords sx (s.remBytes f.g u o.2 n))))
          left := e.left - 1 } else e) := by
  have hreach := reachable_of_resident hres
  have hov := served_overCounted s f.g u (offs.flatMap fun o => remAccesses o.2 n)
  have hx := exec_remoteAccess hf (os := offs.map fun o => (o.2, n)) (by rw [hb, remTouches]) h1 (by rw [hreach]; decide) h3
  have hcl (w : List RegWr) := ((hov.calm hc).duePart (grpKey f.g f.t f.grp) d w).of_groups_eq (landed_groups htk 0)
  refine .of_eq hx ((remDo_load hacq hb (by rw [hreach]; rfl)).trans (recheckOf_eq_self_of_calm (hcl _) ..)) ⟨?_, fun hg => ?_⟩
  · rw [landed_flights htk, duePart_flights, hov.flights]
  · rw [group, landed_groups htk]
    exact (duePart_due (hov.listed _ hg) ..).trans (by rw [hov.due])

/-- R150, R160: a remote atomic of one lane on a location of a resident team: it is performed, and the old value arrives. -/
theorem then_remRmw {u a op sz vd o : Nat} {l : RmwLane} {d : Option Nat} (hb : f.body = .remRmw u a op sz [l] d vd)
    (h1 : s.remFirst f u = true) (hres : (s.team (teamKey f.g u)).st = .resident)
    (h3 : s.remAbsent f.g u [(a, pow2 sz)] = false) (ho : spReduce (s.grid f.g).alloc a = some o)
    (hn : o + pow2 sz ≤ (s.grid f.g).alloc) (ha : a + pow2 sz ≤ pow2 64) :
    s.Then .remoteAccess fun t => t.flights = s.flights.filter (fun y => y.id != f.id) ∧
      (t.team (teamKey f.g u)).spad = Memory.setBytes (s.team (teamKey f.g u)).spad o
        (rmwNew op (pow2 sz) (Memory.bytes (s.team (teamKey f.g u)).spad o (pow2 sz)) l.data l.cmp) ∧
      ∀ id, d = some id → (s.groups.find (grpKey f.g f.t f.grp)).isSome = true → (t.group (grpKey f.g f.t f.grp)).due =
        (s.group (grpKey f.g f.t f.grp)).due.map fun e => if e.id = id then { e with
          writes := e.writes ++ rmwWrites vd (pow2 sz)
            [(l.lane, (s.remBytes f.g u a (pow2 sz)).map fun b => (b.1, anyPois (s.remBytes f.g u a (pow2 sz))))]
          left := e.left - 1 } else e := by
  have hreach := reachable_of_resident hres
  have hx := exec_remoteAccess hf (os := [(a, pow2 sz)]) (by rw [hb, remTouches]) h1 (by rw [hreach]; decide) h3
  have hold := fst_remBytes_of_resident hres ho hn ha
  have hlanes : s.remLanes f.g u a op sz [l] =
      ((rmwNew op (pow2 sz) (Memory.bytes (s.team (teamKey f.g u)).spad o (pow2 sz)) l.data l.cmp,
        rmwPois op (anyPois (s.remBytes f.g u a (pow2 sz))) l.pois),
       [(l.lane, (s.remBytes f.g u a (pow2 sz)).map fun b => (b.1, anyPois (s.remBytes f.g u a (pow2 sz))))]) := by
    rw [remLanes, hold, applyLanes, applyLanes, ← hold, List.map_map]
    rfl
  have hstored : s.Worked (s.remStored f.g u a (pow2 sz) (s.remLanes f.g u a op sz [l]).1) ∧
      ((s.remStored f.g u a (pow2 sz) (s.remLanes f.g u a op sz [l]).1).team (teamKey f.g u)).spad =
        Memory.setBytes (s.team (teamKey f.g u)).spad o ((s.remLanes f.g u a op sz [l]).1.1) :=
    remStored_of_resident hres ho ..
  obtain ⟨hw, hs⟩ := hstored
  refine .of_eq hx ((remDo_rmw hacq hb (by rw [hreach]; rfl) (by rw [ho]; rfl)).trans
    (landed_rechecks ((hw.calm hc).dueTo _ _ _) htk ..)) ⟨?_, ?_, ?_⟩
  · rw [landed_flights htk, dueTo_flights, hw.flights]
  · rw [landed_team htk, dueTo_team, hs, hlanes]
  · rintro id rfl hg
    rw [group, landed_groups htk, hlanes]
    rw [hlanes] at hw
    exact (duePart_due (hw.listed _ hg) ..).trans (by rw [hw.due])

end

/-! ### Atomics at their executing unit (R160, R407) -/

theorem applyLanes_bytes (op n : Nat) (lanes : List RmwLane) (old : List Byte) (m : Bool) :
    (applyLanes op n old m lanes).1.1 = lanes.foldl (fun b l => rmwNew op n b l.data l.cmp) old := by
  induction lanes generalizing old m with
  | nil => rfl
  | cons l lanes ih => exact ih ..

section
variable {s : State}

/-- R139, R160: an operation on a location of device memory by a core whose L1 is clean. -/
theorem rmwAt_dev {core : Nat} (hl : s.CleanL1 core) (g pa va op sz : Nat) (lanes : List RmwLane) :
    (s.rmwAt core g (.dev pa) va op sz lanes).1.mem = Memory.setBytes s.mem pa
      (lanes.foldl (fun b l => rmwNew op (pow2 sz) b l.data l.cmp) (Memory.bytes s.mem pa (pow2 sz))) ∧
    (s.rmwAt core g (.dev pa) va op sz lanes).2 =
      (applyLanes op (pow2 sz) (Memory.bytes s.mem pa (pow2 sz)) (s.devPois pa (pow2 sz)) lanes).2 := by
  obtain ⟨hm, hp⟩ := dropRange_of_cleanL1 hl pa (pow2 sz)
  have hold : (s.dropRange core pa (pow2 sz)).placeRead (.dev pa) (pow2 sz) =
      (Memory.bytes s.mem pa (pow2 sz), s.devPois pa (pow2 sz)) := by
    rw [placeRead, devRead, hm.mem, devPois, hp]
    rfl
  unfold rmwAt
  dsimp only
  rw [hold, ← applyLanes_bytes op (pow2 sz) lanes _ (s.devPois pa (pow2 sz))]
  refine ⟨?_, rfl⟩
  rw [(sameMaps_countWritten ..).mem]
  exact congrArg (Memory.setBytes · pa _) hm.mem

theorem served_rmwAt_dev (core g pa va op sz : Nat) (lanes : List RmwLane) :
    s.Served (s.rmwAt core g (.dev pa) va op sz lanes).1 :=
  ((served_dropRange ..).trans (served_devWrite ..)).trans (served_countWritten ..)

/-- ATOMIC_EXECUTE performs an operation that nothing must precede. -/
theorem exec_atomicExecute {f : Flight} {pl : Place × Nat} (hf : s.flight s.ev.id = some f) (hp : flightPlace f.body = some pl)
    (h1 : s.rmwFirst f pl = true) : exec .atomicExecute s = .next (s.atomDo f) := by
  show execAtomicExecute s = _
  unfold execAtomicExecute
  rw [hf]
  dsimp only
  rw [hp]
  dsimp only
  rw [if_pos h1]

variable {f : Flight} (hacq : f.acq = none)
include hacq

theorem atomDo_rmw {pl : Place} {va op sz vd : Nat} {ls : List RmwLane} {dst : Option Nat} (hb : f.body = .rmw pl va op sz ls dst vd) :
    s.atomDo f = (((s.rmwAt (s.coreOfGrp (grpKey f.g f.t f.grp)) f.g pl va op sz ls).1.recheckAll.dueTo (grpKey f.g f.t f.grp) dst
      (rmwWrites vd (pow2 sz) (s.rmwAt (s.coreOfGrp (grpKey f.g f.t f.grp)) f.g pl va op sz ls).2)).landed f 0) := by
  unfold atomDo
  rw [hb]
  dsimp only
  rw [acquireStart_of_acq_eq_none hacq, acquireEnd_of_acq_eq_none hacq]
  rfl

theorem atomDo_ctrRead {loc : Loc} {pa d sd : Nat} (hb : f.body = .ctrRead loc (.dev pa) d sd) :
    s.atomDo f = ((s.dropRange (s.coreOfGrp (grpKey f.g f.t f.grp)) pa 8).duePart (grpKey f.g f.t f.grp) d
      [.scal sd (w64 (leNat ((s.dropRange (s.coreOfGrp (grpKey f.g f.t f.grp)) pa 8).placeRead (.dev pa) 8).1))
        (if ((s.dropRange (s.coreOfGrp (grpKey f.g f.t f.grp)) pa 8).placeRead (.dev pa) 8).2 then 3 else 0)]).landed f 0 := by
  unfold atomDo
  rw [hb]
  dsimp only
  rw [acquireStart_of_acq_eq_none hacq, acquireEnd_of_acq_eq_none hacq]

variable (hf : s.flight s.ev.id = some f) (htk : f.tk = none)
include hf htk

/-- R160, R407: an atomic on a location of device memory. -/
theorem then_rmw {pa va op sz vd : Nat} {ls : List RmwLane} {dst : Option Nat} (hc : s.Calm)
    (hb : f.body = .rmw (.dev pa) va op sz ls dst vd) (h1 : s.rmwFirst f (.dev pa, pow2 sz) = true)
    (hl : s.CleanL1 (s.coreOfGrp (grpKey f.g f.t f.grp))) :
    s.Then .atomicExecute fun t => t.flights = s.flights.filter (fun y => y.id != f.id) ∧
      t.mem = Memory.setBytes s.mem pa
        (ls.foldl (fun b l => rmwNew op (pow2 sz) b l.data l.cmp) (Memory.bytes s.mem pa (pow2 sz))) ∧
      ∀ l id, ls = [l] → dst = some id → (s.groups.find (grpKey f.g f.t f.grp)).isSome = true →
        (t.group (grpKey f.g f.t f.grp)).due = (s.group (grpKey f.g f.t f.grp)).due.map fun e => if e.id = id then { e with
          writes := e.writes ++ rmwWrites vd (pow2 sz)
            [(l.lane, (Memory.bytes s.mem pa (pow2 sz)).map fun b => (b, s.devPois pa (pow2 sz)))]
          left := e.left - 1 } else e := by
  have hx := exec_atomicExecute hf (pl := (.dev pa, pow2 sz)) (by rw [hb, flightPlace]) h1
  obtain ⟨hm, hold⟩ := rmwAt_dev hl f.g pa va op sz ls
  have hw := served_rmwAt_dev (s := s) (s.coreOfGrp (grpKey f.g f.t f.grp)) f.g pa va op sz ls
  have hdo := atomDo_rmw (s := s) hacq hb
  rw [recheckAll_eq_self_of_calm (hw.calm hc), hold] at hdo
  refine .of_eq hx hdo ⟨?_, ?_, ?_⟩
  · rw [landed_flights htk, dueTo_flights, hw.flights]
  · rw [landed_mem htk, dueTo_mem, hm]
  · rintro l id rfl rfl hg
    rw [group, landed_groups htk]
    exact (duePart_due (hw.listed _ hg) ..).trans (by rw [hw.due]; rfl)

/-- R411: a counter in device memory read. -/
theorem then_ctrRead {loc : Loc} {pa d sd : Nat} (hb : f.body = .ctrRead loc (.dev pa) d sd)
    (h1 : s.rmwFirst f (.dev pa, 8) = true) (hl : s.CleanL1 (s.coreOfGrp (grpKey f.g f.t f.grp)))
    (hp : s.devPois pa 8 = false) :
    s.Then .atomicExecute fun t => t.flights = s.flights.filter (fun y => y.id != f.id) ∧ t.mem = s.mem ∧
      ((s.groups.find (grpKey f.g f.t f.grp)).isSome = true → (t.group (grpKey f.g f.t f.grp)).due =
        (s.group (grpKey f.g f.t f.grp)).due.map fun e => if e.id = d then { e with
          writes := e.writes ++ [.scal sd (w64 (leNat (Memory.bytes s.mem pa 8))) 0], left := e.left - 1 } else e) := by
  have hx := exec_atomicExecute hf (pl := (.dev pa, 8)) (by rw [hb, flightPlace]) h1
  obtain ⟨hm, hpois⟩ := dropRange_of_cleanL1 hl pa 8
  have hw := served_dropRange s (s.coreOfGrp (grpKey f.g f.t f.grp)) pa 8
  have hold : (s.dropRange (s.coreOfGrp (grpKey f.g f.t f.grp)) pa 8).placeRead (.dev pa) 8 = (Memory.bytes s.mem pa 8, false) := by
    rw [placeRead, devRead, hm.mem, devPois, hpois]
    exact congrArg _ hp
  have hdo := atomDo_ctrRead (s := s) hacq hb
  rw [hold] at hdo
  refine .of_eq hx hdo ⟨?_, ?_, fun hg => ?_⟩
  · rw [landed_flights htk, duePart_flights, hw.flights]
  · rw [landed_mem htk, (sameMaps_duePart ..).mem, hm.mem]
  · rw [group, landed_groups htk]
    exact (duePart_due (hw.listed _ hg) ..).trans (by rw [hw.due]; rfl)

end

end State
end Sys2Proof.Machine

/-! ## The side log, replayed (R156, R157)

A byte that a core has stored stays what the core sees, whatever its L1 writes back or gives up; and the page of an entry still
maps to where the retry found it. -/

namespace Sys2Proof.Machine

theorem getLsbD_coverMask (sec a n : Nat) {i : Nat} (hi : i < 32) :
    (coverMask sec a n).getLsbD i = (decide (a ≤ 32 * sec + i) && decide (32 * sec + i < a + n)) := by
  rw [coverMask, BitVec.getLsbD_ofNat]
  have h := (maskOf_sum (fun i => decide (a ≤ 32 * sec + i) && decide (32 * sec + i < a + n)) 32 i).1
  rw [h]
  simp [hi]

namespace State

open Sys2Proof

theorem getD_mergeBytes (m : BitVec 32) (new old : List Byte) {i : Nat} (hi : i < 32) :
    (mergeBytes m new old).getD i 0 = if m.getLsbD i then new.getD i 0 else old.getD i 0 := by
  simp [mergeBytes, List.getD, hi]

theorem length_mergeBytes (m : BitVec 32) (new old : List Byte) : (mergeBytes m new old).length = 32 := by simp [mergeBytes]

theorem getD_bytes (m : Memory) (a : Nat) {n i : Nat} (hi : i < n) : (Memory.bytes m a n).getD i 0 = Memory.byte m (a + i) := by
  simp [Memory.bytes_eq_map, List.getD, hi]

/-! ### A byte that a core has stored -/

/-- The sector of an address in a core's L1. -/
def sectorAt (s : State) (k a : Nat) : Sector := (s.core k).l1.get (a / 32) {}

/-- A core's store of a byte stands: dirty in its L1, or written back. -/
def Stored (s : State) (k a : Nat) (b : Byte) : Prop :=
  ((s.sectorAt k a).dirty.getLsbD (a % 32) = true ∧ (s.sectorAt k a).valid.getLsbD (a % 32) = true ∧
    (s.sectorAt k a).data.getD (a % 32) 0 = b) ∨
  ((s.sectorAt k a).dirty.getLsbD (a % 32) = false ∧ Memory.byte s.mem a = b ∧
    ((s.sectorAt k a).valid.getLsbD (a % 32) = true → (s.sectorAt k a).data.getD (a % 32) 0 = b))

theorem Stored.seen {s : State} {k a : Nat} {b : Byte} (h : s.Stored k a b) : s.seen k a = b := by
  unfold State.seen
  change (if (s.sectorAt k a).valid.getLsbD (a % 32) then (s.sectorAt k a).data.getD (a % 32) 0 else Memory.byte s.mem a) = b
  rcases h with ⟨-, hv, hb⟩ | ⟨-, hm, hv⟩
  · rw [if_pos hv, hb]
  · split
    · exact hv ‹_›
    · exact hm

/-- An operation that leaves memory, and of the byte's sector what it holds. -/
theorem Stored.of_eq {s t : State} {k a : Nat} {b : Byte} (h : s.Stored k a b) (hm : t.mem = s.mem)
    (hs : (t.sectorAt k a).dirty = (s.sectorAt k a).dirty ∧ (t.sectorAt k a).valid = (s.sectorAt k a).valid ∧
      (t.sectorAt k a).data = (s.sectorAt k a).data) : t.Stored k a b := by
  obtain ⟨hd, hv, hb⟩ := hs
  unfold Stored
  rw [hm, hd, hv, hb]
  exact h

theorem sectorAt_of_cores_eq {s t : State} (h : t.cores = s.cores) (k a : Nat) : t.sectorAt k a = s.sectorAt k a := by
  unfold sectorAt core
  rw [h]

theorem sectorAt_putL1 (s : State) (k sec a : Nat) (x : Sector) :
    (s.modCore k fun c => { c with l1 := c.l1.put sec x }).sectorAt k a = if a / 32 = sec then x else s.sectorAt k a := by
  rw [sectorAt, modCore_core, if_pos rfl, SMap.get_put]
  rfl

theorem sectorAt_eraseL1 (s : State) (k sec a : Nat) :
    (s.modCore k fun c => { c with l1 := c.l1.erase sec }).sectorAt k a = if a / 32 = sec then {} else s.sectorAt k a := by
  rw [sectorAt, modCore_core, if_pos rfl, SMap.get_erase]
  rfl

theorem get_of_find {α : Type} {m : SMap α} {k : Nat} {x : α} (h : m.find k = some x) (d : α) : m.get k d = x := by
  rw [SMap.get, h]; rfl

section
variable {s : State} {k a : Nat} {b : Byte}

/-- R139: a sector written back: what it holds, and memory. -/
theorem wbSector_cases (s : State) (k sec : Nat) :
    (s.wbSector k sec = s ∧ ((s.core k).l1.get sec {}).dirty = 0) ∨
    ((s.wbSector k sec).mem = Memory.setBytes s.mem (32 * sec)
      (mergeBytes ((s.core k).l1.get sec {}).dirty ((s.core k).l1.get sec {}).data (Memory.bytes s.mem (32 * sec) 32)) ∧
      ∀ a, (s.wbSector k sec).sectorAt k a = if a / 32 = sec then { (s.core k).l1.get sec {} with dirty := 0 } else s.sectorAt k a) := by
  unfold wbSector
  split
  · next h =>
    refine .inl ⟨rfl, ?_⟩
    rw [SMap.get, h]; rfl
  · next x h =>
    rw [get_of_find h]
    by_cases hd : x.dirty = 0
    · exact .inl ⟨if_pos (by simpa using hd), hd⟩
    · refine .inr ?_
      rw [if_neg (by simpa using hd)]
      exact ⟨rfl, fun a => sectorAt_putL1 ..⟩

theorem Stored.wbSector (h : s.Stored k a b) (sec : Nat) : (s.wbSector k sec).Stored k a b := by
  rcases wbSector_cases s k sec with ⟨e, -⟩ | ⟨hm, hs⟩
  · rwa [e]
  · by_cases ha : a / 32 = sec
    · subst ha
      have hbyte : Memory.byte (s.wbSector k (a / 32)).mem a =
          if (s.sectorAt k a).dirty.getLsbD (a % 32) then (s.sectorAt k a).data.getD (a % 32) 0 else Memory.byte s.mem a := by
        have hin := Memory.byte_setBytes_in (mergeBytes (s.sectorAt k a).dirty (s.sectorAt k a).data
          (Memory.bytes s.mem (32 * (a / 32)) 32)) s.mem (32 * (a / 32)) (a % 32) (by rw [length_mergeBytes]; omega)
        rw [Nat.div_add_mod, getD_mergeBytes _ _ _ (by omega), getD_bytes _ _ (by omega), Nat.div_add_mod] at hin
        rw [hm]
        exact hin
      refine .inr ⟨?_, ?_, ?_⟩
      · rw [hs, if_pos rfl]; simp
      · rw [hbyte]
        rcases h with ⟨hd, -, hb⟩ | ⟨hd, hm, -⟩
        · rw [if_pos hd, hb]
        · rw [hd]; exact hm
      · rw [hs, if_pos rfl]
        rcases h with ⟨-, -, hb⟩ | ⟨-, -, hv⟩
        · exact fun _ => hb
        · exact hv
    · unfold Stored
      rw [hs, if_neg ha, hm, Memory.byte_setBytes_out]
      · exact h
      · rw [length_mergeBytes]; omega

theorem Stored.dropSector (h : s.Stored k a b) (sec : Nat) : (s.dropSector k sec).Stored k a b := by
  have hw := h.wbSector sec
  unfold State.dropSector
  by_cases ha : a / 32 = sec
  · have hd : ((s.wbSector k sec).sectorAt k a).dirty = 0 := by
      rcases wbSector_cases s k sec with ⟨e, hd⟩ | ⟨-, hs⟩
      · rw [e, sectorAt, ha, hd]
      · rw [hs, if_pos ha]
    rcases hw with ⟨hd', -⟩ | ⟨-, hm, -⟩
    · rw [hd] at hd'
      simp at hd'
    · refine .inr ?_
      rw [sectorAt_eraseL1, if_pos ha]
      exact ⟨by simp, hm, by simp⟩
  · refine hw.of_eq rfl ?_
    rw [sectorAt_eraseL1, if_neg ha]
    exact ⟨rfl, rfl, rfl⟩

theorem Stored.foldl {α : Type} {f : State → α → State} (hf : ∀ {s : State} x, s.Stored k a b → (f s x).Stored k a b) (l : List α)
    (h : s.Stored k a b) : (l.foldl f s).Stored k a b := by
  induction l generalizing s with
  | nil => exact h
  | cons x l ih => exact ih (hf x h)

theorem Stored.wbRange (h : s.Stored k a b) (pa n : Nat) : (s.wbRange k pa n).Stored k a b := h.foldl (fun _ h => h.wbSector _) _

theorem Stored.l1Room (h : s.Stored k a b) (sec : Nat) : (s.l1Room k sec).Stored k a b := by
  unfold State.l1Room
  dsimp only
  split
  · exact h
  · exact Stored.foldl (s := { s with free := s.free + 1 }) (fun _ h => h.dropSector _) _ h

theorem Stored.ite {c : Prop} [Decidable c] {t : State} (h : s.Stored k a b) (h' : t.Stored k a b) :
    (if c then s else t).Stored k a b := by
  split
  · exact h
  · exact h'

/-- R139: a sector with the bytes of a store. -/
def storedSector (x : Sector) (pa : Nat) (bs : List Byte) (p : Bool) (sec : Nat) : Sector where
  data := mergeBytes (coverMask sec pa bs.length) ((List.range 32).map fun i => bs.getD (32 * sec + i - pa) 0) x.data
  valid := x.valid ||| coverMask sec pa bs.length
  dirty := x.dirty ||| coverMask sec pa bs.length
  pois := if coverMask sec pa bs.length == BitVec.allOnes 32 then p else x.pois || p

/-- R139: a store in the sector of a core's L1. -/
def sectorPut (s : State) (k pa : Nat) (bs : List Byte) (p : Bool) (sec : Nat) : State :=
  (s.l1Room k sec).modCore k fun c =>
    { c with l1 := c.l1.put sec (storedSector (((s.l1Room k sec).core k).l1.get sec {}) pa bs p sec) }

theorem storeSector_eq (s : State) (k pa : Nat) (bs : List Byte) (p : Bool) (sec : Nat) : s.storeSector k pa bs p sec =
    if ((s.sectorPut k pa bs p sec).core k).writeThrough then (s.sectorPut k pa bs p sec).wbSector k sec
    else s.sectorPut k pa bs p sec := rfl

/-- A cached store to another sector. -/
theorem Stored.storeSector_other (h : s.Stored k a b) {sec : Nat} (ha : a / 32 ≠ sec) (pa : Nat) (bs : List Byte) (p : Bool) :
    (s.storeSector k pa bs p sec).Stored k a b := by
  have hput : (s.sectorPut k pa bs p sec).Stored k a b := by
    refine (h.l1Room sec).of_eq rfl ?_
    rw [sectorPut, sectorAt_putL1, if_neg ha]
    exact ⟨rfl, rfl, rfl⟩
  rw [storeSector_eq]
  exact (hput.wbSector sec).ite hput

/-- A cached store to the byte's sector: the byte is what the store holds for it. -/
theorem stored_storeSector {pa : Nat} {bs : List Byte} (hlo : pa ≤ a) (hhi : a < pa + bs.length) (s : State) (k : Nat) (p : Bool) :
    (s.storeSector k pa bs p (a / 32)).Stored k a (bs.getD (a - pa) 0) := by
  have hmod : a % 32 < 32 := Nat.mod_lt _ (by decide)
  have hcov : (coverMask (a / 32) pa bs.length).getLsbD (a % 32) = true := by
    rw [getLsbD_coverMask _ _ _ hmod, Nat.div_add_mod, decide_eq_true hlo, decide_eq_true hhi]
    rfl
  have hput : (s.sectorPut k pa bs p (a / 32)).Stored k a (bs.getD (a - pa) 0) := by
    refine .inl ?_
    rw [sectorPut, sectorAt_putL1, if_pos rfl]
    refine ⟨?_, ?_, ?_⟩
    · rw [storedSector, BitVec.getLsbD_or, hcov, Bool.or_true]
    · rw [storedSector, BitVec.getLsbD_or, hcov, Bool.or_true]
    · rw [storedSector, getD_mergeBytes _ _ _ hmod, if_pos hcov, List.getD_eq_getElem?_getD, List.getElem?_map,
        List.getElem?_range hmod, Option.map_some, Option.getD_some, Nat.div_add_mod]
  rw [storeSector_eq]
  exact (hput.wbSector _).ite hput

theorem mem_sectorsOf {pa n : Nat} (hlo : pa ≤ a) (hhi : a < pa + n) : a / 32 ∈ sectorsOf pa n := by
  unfold sectorsOf
  rw [if_neg (by simp; omega), List.mem_map]
  exact ⟨a / 32 - pa / 32, List.mem_range.2 (by omega), by omega⟩

/-- R139: a byte that a core stores in device memory. -/
theorem stored_glStore {pa : Nat} {bs : List Byte} (hlo : pa ≤ a) (hhi : a < pa + bs.length) (s : State) (k : Nat) (p : Bool) :
    (s.glStore k pa 0 bs p).Stored k a (bs.getD (a - pa) 0) := by
  have h (l : List Nat) (s : State) (hs : a / 32 ∈ l ∨ s.Stored k a (bs.getD (a - pa) 0)) :
      (l.foldl (fun s sec => s.storeSector k pa bs p sec) s).Stored k a (bs.getD (a - pa) 0) := by
    induction l generalizing s with
    | nil => exact hs.resolve_left (by simp)
    | cons sec l ih =>
      refine ih _ ?_
      by_cases ha : a / 32 = sec
      · exact .inr (ha ▸ stored_storeSector hlo hhi s k p)
      · rcases hs with hm | hs
        · exact .inl ((List.mem_cons.1 hm).resolve_left ha)
        · exact .inr (hs.storeSector_other ha ..)
  exact h _ s (.inl (mem_sectorsOf hlo hhi))

/-- R262: marks alone. -/
theorem Stored.settleMarks (h : s.Stored k a b) (ws : List (Nat × List PByte)) : (s.settleMarks k ws).Stored k a b := by
  refine h.foldl (fun {s} e h => ?_) _
  dsimp only
  split
  · next x hx =>
    have hput : (s.modCore k fun c => { c with l1 := c.l1.put e.1 { x with pois := e.2 } }).Stored k a b := by
      refine h.of_eq rfl ?_
      rw [sectorAt_putL1]
      split
      · next ha =>
        rw [sectorAt, ha, get_of_find hx]
        exact ⟨rfl, rfl, rfl⟩
      · exact ⟨rfl, rfl, rfl⟩
    split
    · exact hput.of_eq rfl ⟨rfl, rfl, rfl⟩
    · exact hput
  · exact h.of_eq rfl ⟨rfl, rfl, rfl⟩

theorem Stored.of_cores_eq {t : State} (h : s.Stored k a b) (hm : t.mem = s.mem) (hc : t.cores = s.cores) : t.Stored k a b :=
  h.of_eq hm (by rw [sectorAt_of_cores_eq hc]; exact ⟨rfl, rfl, rfl⟩)

theorem Stored.trapGroup (h : s.Stored k a b) (gk pc : Nat) (sec : Bool) (t : Trap) : (s.trapGroup gk pc sec t).Stored k a b := by
  unfold State.trapGroup
  dsimp only
  split
  · exact h.of_cores_eq rfl rfl
  · split
    · exact h.of_cores_eq rfl rfl
    · exact h.of_cores_eq rfl rfl

theorem Stored.wake (h : s.Stored k a b) (gk : Nat) : (s.wake gk).Stored k a b := by
  have hr : (s.rouse (s.coreOfGrp gk)).Stored k a b := by
    refine h.of_eq rfl ?_
    rw [sectorAt, rouse, modCore_core]
    split
    · next hk => rw [sectorAt, hk]; exact ⟨rfl, rfl, rfl⟩
    · exact ⟨rfl, rfl, rfl⟩
  unfold State.wake
  dsimp only
  split
  · exact hr.of_cores_eq rfl rfl
  · exact (hr.of_cores_eq (t := (s.rouse (s.coreOfGrp gk)).modGroup gk _) rfl rfl).trapGroup ..

theorem Stored.wakeLog (h : s.Stored k a b) (j : Nat) : (s.wakeLog j).Stored k a b := by
  refine h.foldl (fun {s} gk h => ?_) _
  dsimp only
  split
  · exact (h.wake gk).ite h
  · exact h

end

/-! ### The entry that a lookup finds (R153) -/

/-- R153: the block that a walk forms holds the page that was walked for. -/
theorem tlbHolds_of_walkBlock {s : State} {p va : Nat} {e : TlbEntry} (h : s.walkBlock p va = some e) : tlbHolds e p va = true := by
  unfold walkBlock at h
  split at h
  · next t0 need ht hw =>
    have hleaf : s.leafEntry p (t0 + 8 * (bitsOf va 25 21 * 32) + 8 * bitsOf va 20 16) = some need := by
      have haddr : t0 + 8 * (bitsOf va 25 21 * 32) + 8 * bitsOf va 20 16 = t0 + 8 * bitsOf va 25 16 := by
        simp only [bitsOf, pow2]; omega
      rw [haddr]
      simp only [walk, ht] at hw
      split at hw
      · cases hw
      · exact hw
    have hlt : bitsOf va 20 16 < 32 := by simp only [bitsOf, pow2]; omega
    rw [← Option.some.inj h]
    simp only [tlbHolds, beq_self_eq_true, Bool.true_and, BitVec.getLsbD_ofNat, hlt, decide_true]
    rw [(maskOf_sum _ 32 _).1, hleaf]
    simp [hlt]
  · cases h

theorem tlbHolds_of_tlbLookup {s : State} {k p va : Nat} {e : TlbEntry} (h : s.tlbLookup k p va = some e) :
    tlbHolds e p va = true := by
  unfold tlbLookup at h
  split at h
  · cases h
  · split at h
    · next hf =>
      rw [← Option.some.inj h]
      exact List.find?_some (p := fun e => tlbHolds e p va) hf
    · split at h
      · next hf =>
        rw [← Option.some.inj h]
        exact List.find?_some (p := fun e => tlbHolds e p va) hf
      · exact tlbHolds_of_walkBlock h

theorem setAD_cores (s : State) (p va : Nat) (w : Bool) : (s.setAD p va w).cores = s.cores := by
  rw [sameButMem_setAD s p va w]

theorem tlb_tlbTouch (s : State) (k : Nat) (e : TlbEntry) (va : Nat) : ∃ l, ((s.tlbTouch k e va).core k).tlb = e :: l := by
  unfold tlbTouch
  dsimp only
  rw [modCluster_core_frame, modCore_core, if_pos rfl]
  exact ⟨_, rfl⟩

/-- R153: after a lookup its entry is the first that the core tries, for every address of the page. -/
theorem tlbLookup_xlatTouch {s : State} {k p va va' : Nat} {e : TlbEntry} (hva : va' / 65536 = va / 65536) (a : Acc)
    (h : s.tlbLookup k p va = some e) :
    ∃ e', (s.xlatTouch k p va a).tlbLookup k p va' = some e' ∧ e'.w = e.w ∧ e'.mt = e.mt ∧ tlbPage e' va' = tlbPage e va := by
  have hhold := tlbHolds_of_tlbLookup h
  have hlt : ¬pow2 57 ≤ va := fun hle => by
    simp only [tlbLookup, hle, if_true] at h
    cases h
  have hlt' : ¬pow2 57 ≤ va' := by
    unfold pow2 at hlt ⊢
    omega
  have hbits : bitsOf va' 20 16 = bitsOf va 20 16 := by simp only [bitsOf, pow2]; omega
  have hblock : va' / 2097152 = va / 2097152 := by omega
  have hfind (e' : TlbEntry) (t : State) (hc : t.cores = (s.tlbTouch k e' va).cores) (hp : e'.part = e.part)
      (hb : e'.block = e.block) (hv : e'.valid = e.valid) : t.tlbLookup k p va' = some e' := by
    obtain ⟨l, hl⟩ := tlb_tlbTouch s k e' va
    have hl' : (t.core k).tlb = e' :: l := by
      rw [core, hc]
      exact hl
    have he' : tlbHolds e' p va' = true := by
      rw [tlbHolds, hp, hb, hv, hblock, hbits]
      exact hhold
    simp only [tlbLookup, hlt', if_false, hl', List.find?_cons, he']
  unfold xlatTouch
  rw [h]
  dsimp only
  split
  · exact ⟨_, hfind _ _ (setAD_cores ..) rfl rfl rfl, rfl, rfl, by simp only [tlbPage, hbits]⟩
  · exact ⟨_, hfind _ _ rfl rfl rfl rfl, rfl, rfl, by simp only [tlbPage, hbits]⟩

/-- R157: where a page's bytes are stored begins a page. -/
theorem storePlace_page {s : State} {k p va : Nat} {r : Nat × Nat} (h0 : va % 65536 = 0) (h : s.storePlace k p va = some r) :
    ∃ n, r.1 = n * 65536 := by
  unfold storePlace at h
  split at h
  · next e _ =>
    by_cases hew : e.w = true
    · rw [if_pos hew, h0, Nat.add_zero] at h
      rw [← Option.some.inj h]
      exact ⟨_, rfl⟩
    · rw [if_neg hew] at h
      cases h
  · cases h

/-- R157: where the bytes of a page are stored, once the retry has looked its page up. -/
theorem storePlace_xlatTouch {s : State} {k p va va' : Nat} {r : Nat × Nat} (h0 : va % 65536 = 0) (hva : va' / 65536 = va / 65536)
    (a : Acc) (h : s.storePlace k p va = some r) :
    (s.xlatTouch k p va a).storePlace k p va' = some (r.1 + va' % 65536, r.2) := by
  unfold storePlace at h ⊢
  cases he : s.tlbLookup k p va with
  | none => rw [he] at h; cases h
  | some e =>
    obtain ⟨e', he', hw, hmt, hpage⟩ := tlbLookup_xlatTouch hva a he
    rw [he] at h
    rw [he']
    dsimp only at h ⊢
    by_cases hew : e.w = true
    · rw [if_pos hew, h0, Nat.add_zero] at h
      obtain rfl := Option.some.inj h
      rw [hw, if_pos hew, hmt, hpage]
    · rw [if_neg hew] at h
      cases h

/-- R157, R163: a logged store that lies whole and aligned in its page is replayed as one store. -/
theorem replayRec_whole {u : State} {k n : Nat} {e : LogEntry} {x : LogRec} (hop : e.op = 0)
    (hal : x.addr % x.data.length = 0) (hpg : x.addr / 65536 = e.page)
    (hu : u.storePlace k (u.grid e.g).part (e.page * 65536 + x.addr % 65536) = some (n * 65536 + x.addr % 65536, 0)) :
    u.replayRec k e x = if e.wide
      then (u.glStore k (n * 65536 + x.addr % 65536) 0 x.data x.pois).wbRange k (n * 65536 + x.addr % 65536) x.data.length
      else u.glStore k (n * 65536 + x.addr % 65536) 0 x.data x.pois := by
  have hpieces : (pieces 0 x.addr x.data.length).filter (fun p => p.at_ / 65536 == e.page) =
      [{ lane := 0, idx := 0, at_ := x.addr, n := x.data.length }] := by
    rw [pieces, hal, if_pos (by decide), List.filter_cons_of_pos (by simpa using hpg), List.filter_nil]
  have hat : (n * 65536 + x.addr % 65536) / 65536 * 65536 + x.addr % 65536 = n * 65536 + x.addr % 65536 := by omega
  unfold replayRec
  rw [hu]
  dsimp only
  rw [hop, hpieces, if_neg (show ¬(0 == 1 && x.pois) = true by simp), if_pos (by decide), List.foldl_cons, List.foldl_nil]
  dsimp only
  rw [hat, List.drop_zero, List.take_length, if_neg (by decide)]

/-! ### A retry with one entry -/

section
variable {s : State} {k : Nat} {e : LogEntry}

/-- R157: a core whose log holds one entry retries its page. -/
theorem retryLog_of_singleton (hlog : (s.core k).sideLog = [e]) :
    s.retryLog k = ((s.replayPage k (s.grid e.g).part e.page).wakeLog k).recheckAll := by
  unfold retryLog
  rw [hlog]
  rfl

/-- R157: the entries of a page taken off a core's log. -/
def unlogged (s : State) (k p page : Nat) : State :=
  s.modCore k fun c => { c with sideLog := c.sideLog.filter fun e => !(e.page == page && (s.grid e.g).part == p) }

theorem tlb_unlogged (s : State) (k p page : Nat) : ((s.unlogged k p page).core k).tlb = (s.core k).tlb := by
  rw [unlogged, modCore_core, if_pos rfl]

theorem storePlace_unlogged (s : State) (k p page q va : Nat) : (s.unlogged k p page).storePlace k q va = s.storePlace k q va := by
  have hmaps : s.SameMaps (s.unlogged k p page) := sameMaps_modCore ..
  have hlook : (s.unlogged k p page).tlbLookup k q va = s.tlbLookup k q va := by
    simp only [tlbLookup, tlb_unlogged, walkBlock, hmaps.leafTable, hmaps.walk, hmaps.leafEntry]
    rfl
  simp only [storePlace, hlook]

/-- R157: the retry leaves the entry where its page does not map. -/
theorem retryLog_of_unmapped (hlog : (s.core k).sideLog = [e])
    (hm : s.storePlace k (s.grid e.g).part (e.page * 65536) = none) : ((s.retryLog k).core k).sideLog = [e] := by
  rw [retryLog_of_singleton hlog, replayPage, hm]
  exact ((served_recheckAll _).log k).trans (((served_wakeLog s k).log k).trans hlog)

variable {r : Nat × Nat} (hlog : (s.core k).sideLog = [e]) (hm : s.storePlace k (s.grid e.g).part (e.page * 65536) = some r)
  (hheld : s.replayHeld k (s.grid e.g).part e.page = false)
include hlog hm hheld

/-- R157: the entry's page is replayed. -/
theorem replayPage_of_singleton : s.replayPage k (s.grid e.g).part e.page =
    ((s.unlogged k (s.grid e.g).part e.page).xlatTouch k (s.grid e.g).part (e.page * 65536) .store).replayEntry k
      (s.grid e.g).part e.page e := by
  have hof : s.logOf k (s.grid e.g).part e.page = [e] := by simp [logOf, hlog]
  rw [replayPage_eq (by rw [hm, hheld]; rfl), hof]
  rfl

theorem retryLog_log : ((s.retryLog k).core k).sideLog = [] := by
  rw [retryLog_of_singleton hlog, replayPage_of_singleton hlog hm hheld, (served_recheckAll _).log, (served_wakeLog ..).log,
    (servedLogged_replayEntry ..).served.log]
  refine ((served_xlatTouch ..).log k).trans ?_
  rw [unlogged, modCore_core, if_pos rfl, hlog]
  simp

/-- R157: the bytes of a logged store that lies whole in its page are what the core sees. -/
theorem seen_retryLog {x : LogRec} (hc : s.Calm) (hop : e.op = 0) (hrecs : e.recs = [x]) (hmt : r.2 = 0)
    (hal : x.addr % x.data.length = 0) (hpg : x.addr / 65536 = e.page) {i : Nat} (hi : i < x.data.length) :
    (s.retryLog k).seen k (r.1 + x.addr % 65536 + i) = x.data.getD i 0 := by
  rw [retryLog_of_singleton hlog, replayPage_of_singleton hlog hm hheld]
  obtain ⟨n, hn⟩ := storePlace_page (Nat.mul_mod_left ..) hm
  have hu := served_xlatTouch (s.unlogged k (s.grid e.g).part e.page) k (s.grid e.g).part (e.page * 65536) .store
  have hplace := storePlace_xlatTouch (s := s.unlogged k (s.grid e.g).part e.page) (va' := e.page * 65536 + x.addr % 65536)
    (Nat.mul_mod_left ..) (by omega) .store ((storePlace_unlogged ..).trans hm)
  have hcu := hu.calm (hc.of_groups_eq rfl)
  have hgrid : ((s.unlogged k (s.grid e.g).part e.page).xlatTouch k (s.grid e.g).part (e.page * 65536) .store).grid e.g =
      s.grid e.g := hu.grid _
  generalize (s.unlogged k (s.grid e.g).part e.page).xlatTouch k (s.grid e.g).part (e.page * 65536) .store = u at hplace hcu hgrid ⊢
  have hrec : (u.replayRec k e x).Stored k (r.1 + x.addr % 65536 + i) (x.data.getD i 0) := by
    have hput := stored_glStore (a := r.1 + x.addr % 65536 + i) (pa := r.1 + x.addr % 65536) (bs := x.data) (by omega) (by omega)
      u k x.pois
    rw [Nat.add_sub_cancel_left] at hput
    have hmod : (e.page * 65536 + x.addr % 65536) % 65536 = x.addr % 65536 := by omega
    rw [hmt, hn, hmod, ← hgrid] at hplace
    rw [replayRec_whole hop hal hpg hplace, ← hn]
    exact (hput.wbRange _ _).ite hput
  have hentry : (u.replayEntry k (s.grid e.g).part e.page e).Stored k (r.1 + x.addr % 65536 + i) (x.data.getD i 0) := by
    unfold replayEntry
    rw [hrecs, List.foldl_cons, List.foldl_nil]
    dsimp only
    split
    · exact (hrec.settleMarks _).ite hrec
    · exact hrec
  have hce : (u.replayEntry k (s.grid e.g).part e.page e).Calm :=
    (servedLogged_replayEntry ..).served.calm (hcu.of_groups_eq rfl)
  rw [recheckAll_eq_self_of_calm ((served_wakeLog ..).calm hce)]
  exact (hentry.wakeLog k).seen

end

end State
end Sys2Proof.Machine

/-! ## Operations out of a group are performed (R53, R138, R150, R156, R157, R160, R257, R407, R411, R413, R414)

The token of the float atomics, the queues' claims in their turn, and the statement assembled. -/

namespace Sys2Proof.Machine.State

open Sys2Proof

/-! ### The float-atomic token (R257, R258) -/

theorem drainTeam_of_empty {s : State} {k g t : Nat} (h : ((s.core k).fbuf.all fun e => !(e.g == g && e.t == t)) = true)
    (n : Nat) : s.drainTeam k g t n = s := by
  cases n with
  | zero => rfl
  | succ n =>
    have hnone : (s.core k).fbuf.find? (fun e => e.g == g && e.t == t) = none := by
      rw [List.find?_eq_none]
      intro e he
      simpa [imp_iff_not_or] using List.all_eq_true.1 h e he
    rw [drainTeam, hnone]

section
variable {s : State} (hg : (s.grids.find s.ev.g).isSome = true) (hd : (s.grid s.ev.g).det = true)
  (hn : (s.grid s.ev.g).token < (s.grid s.ev.g).nteams)
  (hx : (s.team (teamKey s.ev.g (s.grid s.ev.g).token)).st = .exited)
  (hb : ((s.core (coreKey (s.team (teamKey s.ev.g (s.grid s.ev.g).token)).cl
    (s.team (teamKey s.ev.g (s.grid s.ev.g).token)).co)).fbuf.all fun e => !(e.g == s.ev.g && e.t == (s.grid s.ev.g).token)) = true)
include hg hd hn hx hb

/-- R257: an exited holder whose float atomics are done passes the token on. -/
theorem exec_atomicTokenPass : exec .atomicTokenPass s = .next (if s.floatsDone s.ev.g (s.grid s.ev.g).token
    then s.modGrid s.ev.g fun r => { r with token := r.token + 1 } else s) := by
  show execAtomicTokenPass s = _
  unfold execAtomicTokenPass
  dsimp only
  have hgo : ((s.grids.find s.ev.g).isNone || !(s.grid s.ev.g).det ||
      decide ((s.grid s.ev.g).nteams ≤ (s.grid s.ev.g).token)) = false := by
    rw [hd, decide_eq_false (Nat.not_le.2 hn), Bool.or_false, ← Option.not_isSome, hg]
    rfl
  rw [hgo, if_neg (by decide), drainTeam_of_empty hb, ite_self, hx]
  rfl

end

/-! ### The claims of a queue in their turn (R413, R414) -/

section
variable {s : State} {f : Flight}

theorem queueRead_cores (s : State) (q : Nat) : (s.queueRead q).cores = s.cores :=
  (vaTouch_cores ..).trans (vaTouch_cores ..)

theorem queueRead_memPois (s : State) (q : Nat) : (s.queueRead q).memPois = s.memPois :=
  (vaTouch_memPois ..).trans (vaTouch_memPois ..)

theorem claimServed_of_resident (h : (s.team (teamKey f.g f.t)).st = .resident) : s.claimServed f = true := by
  rw [claimServed, h]; rfl

/-- R413: the lowest push of a queue that has room. -/
theorem exec_qpushSlotWrite {i st : Nat} {entry : List PByte} (hf : s.flights.find? (isPush s.ev.q) = some f)
    (hb : f.body = .push s.ev.q i entry st) (hres : (s.team (teamKey f.g f.t)).st = .resident)
    (hroom : s.pushRoom s.ev.q i = true) : exec .qpushSlotWrite s = .next ((s.headRead s.ev.q).pushDo f) := by
  show execQpushSlotWrite s = _
  unfold execQpushSlotWrite
  dsimp only
  rw [hf]
  dsimp only
  rw [hb]
  dsimp only
  rw [claimServed_of_resident hres, hroom]
  rfl

theorem exec_qpopEntryCopy {i st d : Nat} {dst : Place} {lines : List Nat} (hf : s.flights.find? (isPop s.ev.q) = some f)
    (hb : f.body = .pop s.ev.q i dst lines st d) (hres : (s.team (teamKey f.g f.t)).st = .resident) :
    exec .qpopEntryCopy s = .next (if (s.queue s.ev.q).count < s.qHeld s.ev.q then (s.queueRead s.ev.q).queueOverflow s.ev.q
      else if i < (s.qTail s.ev.q).toNat then (s.queueRead s.ev.q).popDo f else s.queueRead s.ev.q) := by
  show execQpopEntryCopy s = _
  unfold execQpopEntryCopy
  dsimp only
  rw [hf]
  dsimp only
  rw [hb]
  dsimp only
  rw [claimServed_of_resident hres, if_neg (by decide)]

end

end Sys2Proof.Machine.State

namespace Sys2Proof.Proofs

open Sys2Proof Sys2Proof.Machine Sys2Proof.Machine.State

/-- Settles O47: what each operation leaves, read off its steps. -/
theorem operations : Obligations.Operations := by
  intro s hc k
  refine ⟨?access, ?retry, ?unmapped, ?token, ?push, ?pop⟩
  case access =>
    intro f hf _ hacq htk gk gone due free
    refine ⟨?store, ?rmw, ?load, ?vload, ?dropped, ?atomic, ?counter⟩
    case store =>
      rintro u a bs o hb ⟨h1, hres, h3⟩ ho
      exact then_remStore hc hf hacq htk hb h1 hres h3 ho
    case rmw =>
      rintro u a op sz l d vd o hb ⟨h1, hres, h3⟩ ho hn ha
      exact then_remRmw hc hf hacq htk hb h1 hres h3 ho hn ha
    case load =>
      rintro u n a d sd sx hb ⟨h1, hres, h3⟩
      exact then_remLoad hc hf hacq htk hb h1 hres h3
    case vload =>
      rintro u n offs d vd sx hb ⟨h1, hres, h3⟩
      exact then_remLoad hc hf hacq htk hb h1 hres h3
    case dropped =>
      intro u runs hb h1 hex
      exact then_remStore_exited hc hf hacq htk hb h1 hex
    case atomic =>
      intro pa va op sz ls dst vd hb h1 hl
      exact then_rmw hacq hf htk hc hb h1 (cleanL1_of_eq_nil hl)
    case counter =>
      intro loc pa d sd hb h1 hl hp
      exact then_ctrRead hacq hf htk hb h1 (cleanL1_of_eq_nil hl) hp
  case retry =>
    intro e r ht hlog hm hheld
    refine .of_eq rfl (if_pos (by simpa using ht)) ⟨retryLog_log hlog hm hheld, ?_⟩
    intro x hop hrecs hmt _ hal hpg _ i hi
    exact seen_retryLog hlog hm hheld hc hop hrecs hmt hal hpg hi
  case unmapped =>
    intro e ht hlog hm
    exact .of_eq rfl (if_pos (by simpa using ht)) (retryLog_of_unmapped hlog hm)
  case token =>
    intro g r x hg hd hn hx hb
    have hexec := exec_atomicTokenPass hg hd hn hx hb
    refine ⟨fun h => ?_, fun h => ?_⟩
    · rw [h, if_pos rfl] at hexec
      exact .of_eq hexec rfl (by rw [modGrid_grid, if_pos rfl])
    · rw [h, if_neg (by decide)] at hexec
      exact .of_eq hexec rfl rfl
  case push =>
    intro f i entry st hf hb hg hres hroom
    have hh : s.Served (s.headRead s.ev.q) := served_vaTouch ..
    have hres' : ((s.headRead s.ev.q).team (teamKey f.g f.t)).st = .resident := by rw [hh.team, hres]
    refine .of_eq (exec_qpushSlotWrite hf hb hres hroom) rfl ⟨fun hst => ?_, ?_, fun hr hl => ?_⟩
    · rw [pushDo_regs hb hg hres', Regs.sset_sget, if_pos rfl, if_neg (by omega)]
    · rw [pushDo_flights hb, hh.flights]
    · have hl' : (s.headRead s.ev.q).CleanL1 ((s.headRead s.ev.q).coreOfGrp (grpKey f.g f.t f.grp)) := by
        rw [(Worked.of_served hh).coreOfGrp]
        exact (cleanL1_of_eq_nil hl).of_cores_eq (vaTouch_cores ..)
      have hm := sameMaps_pushDo hb hg hres' (hh.calm hc) (by rw [hh.grid, hr]) hl'
      rw [hh.queue] at hm
      exact hm.sameMem
  case pop =>
    intro f i dst lines st d hf hb hres
    have hexec := exec_qpopEntryCopy hf hb hres
    have hh := served_queueRead s s.ev.q
    refine ⟨fun hheld htail => ?served, fun hheld => ?halted⟩
    case served =>
      rw [if_neg (Nat.not_lt.2 hheld), if_pos htail] at hexec
      refine .of_eq hexec rfl ⟨?_, fun hg => ?_, fun hr hg hp => ?mem⟩
      · rw [popDo_flights hb, hh.flights]
      · rw [popDo_due hb (hh.listed _ hg), hh.due]
      case mem =>
        have hc' := hh.calm hc
        have hr' : ((s.queueRead s.ev.q).grid f.g).reca = none := by rw [hh.grid, hr]
        have hres' : ((s.queueRead s.ev.q).team (teamKey f.g f.t)).st = .resident := by rw [hh.team, hres]
        have hall (u : State) (hu : u.SameMaps _) := popMoved_of_popPut hc' hr' hres' s.ev.q i dst lines hu
        simp only [hh.queue] at hall
        refine ⟨?_, ?_, ?_⟩
        · rintro pa rfl hl
          have hl' : (s.queueRead s.ev.q).CleanL1 ((s.queueRead s.ev.q).coreOfGrp (grpKey f.g f.t f.grp)) := by
            rw [(Worked.of_served hh).coreOfGrp]
            exact (cleanL1_of_eq_nil hl).of_cores_eq (queueRead_cores ..)
          have hm := sameMaps_popPut_dev hl' (s.queue s.ev.q).size pa
            ((s.queueRead s.ev.q).slotRead (s.queue s.ev.q).part ((s.queue s.ev.q).slotAt i) (s.queue s.ev.q).size)
          rw [fst_slotRead] at hm
          exact ((hall _ hm).1.trans (sameMaps_popDo hb)).sameMem
        · rintro pa va rfl
          have hm := sameMaps_popPut_host hr' (s.queue s.ev.q).size pa va (anyPois_slotRead ((queueRead_memPois s s.ev.q).trans hp)
            (s.queue s.ev.q).part ((s.queue s.ev.q).slotAt i) (s.queue s.ev.q).size)
          rw [fst_slotRead] at hm
          exact ((hall _ hm).1.trans (sameMaps_popDo hb)).sameMem
        · rintro off rfl
          obtain ⟨hm, hs⟩ := popPut_spad hres' (s.queue s.ev.q).size off
            ((s.queueRead s.ev.q).slotRead (s.queue s.ev.q).part ((s.queue s.ev.q).slotAt i) (s.queue s.ev.q).size)
          obtain ⟨hm', hs'⟩ := hall _ hm
          rw [fst_slotRead, hh.grid, hh.team] at hs
          exact ⟨(hm'.trans (sameMaps_popDo hb)).sameMem, by rw [popDo_team hb, hs']; exact hs⟩
    case halted =>
      rw [if_pos hheld] at hexec
      exact .of_eq hexec rfl (queueOverflow_flags ..)

end Sys2Proof.Proofs

/-! ## A queue whose tail counter lies in the page tables (R152, R412, R414)

`qpop` reads the head and the tail, which sets the accessed bit of their page's entry, and only then judges whether to park.
Where the tail counter is that very entry, the reading itself raises the tail past the claim. -/

namespace Sys2Proof.Proofs

open Sys2Proof Sys2Proof.Machine Sys2Proof.Machine.State

/-- Page tables of which page 32 is the page of the tables themselves, with the accessed bit clear. -/
def selfTables : Memory :=
  [(0x200000, 0x01), (0x200001, 0x40), (0x200002, 0x20), (0x204000, 0x01), (0x204001, 0x60), (0x204002, 0x20),
    (0x206000, 0x01), (0x206001, 0x80), (0x206002, 0x20), (0x208100, 0x0F), (0x208102, 0x20)]

/-- A queue with its counters in the entry of page 32, whose next pop is the tail that the entry spells. -/
def selfQueue : Queue :=
  { base := 0x100000, log2n := 4, cons := 1, prod := 1, en := true, ownv := true, pop := 0x20000F
    heada := 0x208100, taila := 0x208100 }

/-- A group about to pop from that queue, number 3. -/
def selfMapped : State :=
  { State.reset with
    parts := [(0, { exists_ := true, running := true, size := 0x10000000, qcount := 16, root := some 0x200000 })]
    mem := selfTables
    queues := [(3, selfQueue)]
    teams := [(0, { st := .resident, placed := true })]
    groups := [(0, { regs := { s := [(1, 3), (2, 0x40)] } })]
    cur := { lanes := Mask.full, pc := 0x10000, len := 13 } }

/-- `qpop s5, [s2]` of the queue that s1 names, with its entry in the scratchpad. -/
def popHdr : Hdr := { bnd := false, la := 0, gn := false, grd := 0 }
def popWord : MF := { vd := 1, va := 0, sb := 2, spc := 1, rk := 5, rki := false, sz := 0, sx := false, av := false, scp := 0
                      ord := 0, rmt := false, tw := 0, off := 0 }

/-- R152, R414: the tail before the word, and after the reading of the counters. -/
theorem selfMapped_qTail : (selfMapped.qTail 3).toNat = 0x20000F ∧ ((selfMapped.queueRead 3).qTail 3).toNat = 0x20001F := by
  decide +kernel

theorem selfMapped_issues : selfMapped.Issues popHdr 0 := by
  constructor <;> decide +kernel

/-- R414: the pop takes its claim and does not park. -/
theorem exec_qpop_selfMapped : ∃ t, exec (.qpop popHdr popWord) selfMapped = .next t ∧ t.grp.park = none :=
  ⟨_, rfl, by decide +kernel⟩

/-- Refutes O28: a pop in scratchpad with its entry beyond the tail at issue does not park, because the word's own reading of the
counters sets an accessed bit in the tail. -/
theorem not_queueWords : ¬ Obligations.QueueWords := by
  unfold Obligations.QueueWords
  intro h
  obtain ⟨-, hpop⟩ := h selfMapped popHdr popWord selfMapped_issues ⟨by decide, by decide⟩ (by decide +kernel)
    (by decide +kernel) (by decide +kernel)
  obtain ⟨-, -, hgo⟩ := hpop (by decide +kernel)
  obtain ⟨t, ht, -, -, -, -, -, hpark⟩ := hgo (by decide +kernel) (by decide +kernel) (by decide +kernel)
  obtain ⟨u, hu, hnone⟩ := exec_qpop_selfMapped
  obtain rfl : t = u := Host.Outcome.next.inj (ht.symm.trans hu)
  have htail : ¬ (selfMapped.queue 3).pop.toNat < (selfMapped.qTail 3).toNat := by
    rw [selfMapped_qTail.1]
    decide +kernel
  exact absurd (hnone.symm.trans (hpark.trans (if_neg htail))) (by simp)

end Sys2Proof.Proofs

/-! ## A root that is not aligned (R54, R58, R152)

The launch unit reads a queue's counters, which sets accessed bits, before it looks for room for the record's pages. `SET_ROOT`
(R43) takes aligned roots only, but a state may hold any: where an entry of an unaligned root overlaps the entry that maps the
counters, the reading moves the record's pages to others, and these may have no room. -/

namespace Sys2Proof.Machine.State

open Sys2Proof

/-- R58: a record for whose pages the page-lock table has no room, once the counters have been read, waits. -/
theorem consumeRecord_of_noRoom {s : State} {p q : Nat} {r : Grid}
    (hr : s.recordGrid p q ((s.queue q).slotAt (s.qHead q).toNat) = r) (hheld : s.qHeld q ≤ (s.queue q).count)
    (hcode : s.recordCode r = 0) (hroom : (s.queueRead q).pltRoom ((s.queueRead q).gridPages r) = false) :
    s.consumeRecord p q = s.queueRead q := by
  unfold consumeRecord
  dsimp only
  rw [hr, hcode, if_neg (Nat.not_lt.2 hheld), hroom]
  simp

end Sys2Proof.Machine.State

namespace Sys2Proof.Proofs

open Sys2Proof Sys2Proof.Machine Sys2Proof.Machine.State

/-- A launch record of one team of one group, at 0x100000 of host memory: its code on page 1, its arguments on page 0, its completion counter on
page 3 and its save area from page 1 on. -/
def movedRecord : Memory :=
  [(0x100002, 0x10), (0x100006, 0x10), (0x100007, 0x01), (0x10000A, 0x01), (0x10001E, 0x41), (0x10001F, 0x08), (0x100027, 0x44),
    (0x100032, 0x03), (0x100038, 0x01), (0x10004A, 0x01), (0x100050, 0x04)]

/-- Tables whose root lies at 0x20802E. Its first entry spells 0x70000, from where pages 0 to 4 map to themselves, page 16 to host
memory and page 6 to page 0; byte 2 of that entry is also byte 0 of the entry of page 6, whose accessed bit is clear. With that
bit set the root's first entry spells 0x170000, from where page 3 maps to page 7. -/
def movedTables : Memory :=
  [(0x206000, 0x01), (0x206001, 0x80), (0x206002, 0x20), (0x208000, 0x3F), (0x208008, 0x3F), (0x20800A, 0x01), (0x208010, 0x3F),
    (0x208012, 0x02), (0x208018, 0x3F), (0x20801A, 0x03), (0x208020, 0x3F), (0x208022, 0x04), (0x20802E, 0x01), (0x208030, 0x07),
    (0x208080, 0x7F), (0x208082, 0x10)]

/-- The second-level tables of the root's first entry, before and after. -/
def movedRoots : Memory := [(0x70000, 0x01), (0x70001, 0x60), (0x70002, 0x20)]
def movedChain : Memory :=
  [(0x170000, 0x01), (0x170001, 0x60), (0x170002, 0x17), (0x176000, 0x01), (0x176001, 0x80), (0x176002, 0x17), (0x178018, 0x3F),
    (0x17801A, 0x07)]

/-- A launch queue with its counters on page 6. -/
def movedQueue : Queue :=
  { base := 0x100000, log2n := 4, esz := 1, en := true, ownv := true, heada := 0x60800, taila := 0x60808 }

/-- One record waits in the launch queue, number 3; page 7 is pinned as often as it can be. -/
def movedRoot : State :=
  { State.reset with
    parts := [(0, { exists_ := true, running := true, size := 0x10000000, qcount := 16, clsok := 1, root := some 0x20802E })]
    mem := movedRoots ++ movedTables ++ movedChain ++ [(0x808, 0x01)]
    hostMem := movedRecord
    queues := [(3, movedQueue)]
    plt := [(7, 65535)] }

/-- The record that the unit reads. -/
def movedGrid : Grid :=
  { part := 0, queue := 3
    record := [0x0110000000100000, 0x10000, 0, 0x0841000000000000, 0x4400000000000000, 0, 0x30000, 1, 0, 0x10000, 4, 0, 0, 0, 0, 0] }

theorem movedRoot_recordGrid :
    movedRoot.recordGrid movedRoot.ev.p 3 ((movedRoot.queue 3).slotAt (movedRoot.qHead 3).toNat) = movedGrid := by
  decide +kernel

theorem movedRoot_recordCode : movedRoot.recordCode movedGrid = 0 := by decide +kernel

theorem movedRoot_qHeld : movedRoot.qHeld 3 ≤ (movedRoot.queue 3).count := by decide +kernel

theorem movedRoot_launchQueue : movedRoot.launchQueue movedRoot.ev.p = some 3 := by decide +kernel

/-- R58: page 3 is pinned as itself before the counters are read, and as page 7 after. -/
theorem movedGrid_pages :
    movedRoot.gridPages movedGrid = [3] ∧ (movedRoot.queueRead 3).gridPages movedGrid = [7] := by
  decide +kernel

/-- R54: the record is not taken. -/
theorem exec_launchRecordConsume_movedRoot : exec .launchRecordConsume movedRoot = .next (movedRoot.queueRead 3) := by
  have hroom : (movedRoot.queueRead 3).pltRoom ((movedRoot.queueRead 3).gridPages movedGrid) = false := by
    rw [movedGrid_pages.2]
    decide +kernel
  show Host.Outcome.next (movedRoot.launchConsume movedRoot.ev.p) = _
  rw [launchConsume, if_neg (by decide +kernel), movedRoot_launchQueue]
  exact congrArg _ (consumeRecord_of_noRoom movedRoot_recordGrid movedRoot_qHeld movedRoot_recordCode hroom)

/-- Refutes O42: a record that passes its checks and has room for its pages is not accepted, because the reading of the queue's
counters changed the walk to those pages. -/
theorem not_launchAndDispatch : ¬ Obligations.LaunchAndDispatch := by
  unfold Obligations.LaunchAndDispatch
  intro h
  obtain ⟨hlaunch, -⟩ := h movedRoot
  have hgo := hlaunch 3 (by decide +kernel) movedRoot_launchQueue movedRoot_qHeld (by decide +kernel)
  dsimp only at hgo
  rw [movedRoot_recordGrid] at hgo
  have hroom : movedRoot.pltRoom (movedRoot.gridPages movedGrid) = true := by
    rw [movedGrid_pages.1]
    decide +kernel
  obtain ⟨t, ht, hnext, -⟩ := hgo.2 movedRoot_recordCode hroom
  obtain rfl : movedRoot.queueRead 3 = t := Host.Outcome.next.inj (exec_launchRecordConsume_movedRoot.symm.trans ht)
  have hsame : (movedRoot.queueRead 3).gridNext = movedRoot.gridNext := by rw [(served_queueRead movedRoot 3).rest]
  exact absurd (hsame.symm.trans hnext) (by decide +kernel)

end Sys2Proof.Proofs

/-! ## Register budgets, the baton, range tasks, progress and the yield of a team (R78, R114, R116, R425 to R431)

First the ways in which a word ends, said once each: it takes its effect, parks its group, or traps. Then what rows handed on (R114)
and the end of a grid's tasks (R79) leave of the group that issues, and each word of a team by its cases. -/

namespace Sys2Proof.Machine.State

open Sys2Proof

/-! ### The group of a word and what surrounds it -/

theorem OnlyGroup.symm {s t : State} (h : s.OnlyGroup t) : t.OnlyGroup s := by
  have hg : t.curGrp = s.curGrp := by unfold curGrp; rw [h.cur]
  have hq : t.curQuad = s.curQuad := by unfold curQuad; rw [h.cur]
  exact ⟨fun gk hne => (h.others gk (hg ▸ hne)).symm, fun k => (h.teams k).symm, fun g => (h.grids g).symm,
    fun c => (h.clusters c).symm, fun q hne => (h.quads q (hq ▸ hne)).symm, by rw [h.device]⟩

/-- An effect leaves the word's context, and of its group what the end of the word looks at. -/
structure KeepsIssuer (s e : State) : Prop where
  cur : e.cur = s.cur
  step : e.grp.step = s.grp.step
  srun : e.grp.srun = s.grp.srun
  exited : e.grp.exited = s.grp.exited

theorem KeepsIssuer.of_grp {s e : State} (hc : e.cur = s.cur) (hg : e.grp = s.grp) : s.KeepsIssuer e :=
  ⟨hc, by rw [hg], by rw [hg], by rw [hg]⟩

theorem KeepsIssuer.refl (s : State) : s.KeepsIssuer s := .of_grp rfl rfl

theorem KeepsIssuer.trans {s t u : State} (h : s.KeepsIssuer t) (k : t.KeepsIssuer u) : s.KeepsIssuer u :=
  ⟨k.cur.trans h.cur, k.step.trans h.step, k.srun.trans h.srun, k.exited.trans h.exited⟩

theorem KeepsIssuer.of_served {s t : State} (h : s.Served t) : s.KeepsIssuer t := by
  have hg : t.grp = { s.grp with park := t.grp.park, stepPend := t.grp.stepPend, trapCause := t.grp.trapCause } := by
    unfold grp
    rw [show t.curGrp = s.curGrp by unfold curGrp; rw [h.cur]]
    exact (h.group s.curGrp).rest
  exact ⟨h.cur, by rw [hg], by rw [hg], by rw [hg]⟩

theorem keepsIssuer_modGroup (s : State) (gk : Nat) {f : Group → Group} (hstep : ∀ x, (f x).step = x.step)
    (hsrun : ∀ x, (f x).srun = x.srun) (hexited : ∀ x, (f x).exited = x.exited) : s.KeepsIssuer (s.modGroup gk f) := by
  have hg : (s.modGroup gk f).grp = if s.curGrp = gk then f (s.group gk) else s.grp := modGroup_group s gk f s.curGrp
  have hc : s.curGrp = gk → s.group gk = s.grp := fun h => h ▸ rfl
  refine ⟨rfl, ?_, ?_, ?_⟩ <;> rw [hg] <;> split
  · next h => rw [hstep, hc h]
  · rfl
  · next h => rw [hsrun, hc h]
  · rfl
  · next h => rw [hexited, hc h]
  · rfl

theorem keepsIssuer_putS (s : State) (n : Nat) (v : W64) (p : Bool) : s.KeepsIssuer (s.putS n v p) where
  cur := (onlyGroup_putS s n v p).cur
  step := by rw [putS_grp]
  srun := by rw [putS_grp]
  exited := by rw [putS_grp]

/-! ### How a word ends -/

theorem countLa_setPc (x : Group) (m lanes : Mask) (target before : Nat) :
    countLa (x.setPc m target) before lanes = { countLa x before lanes with pcs := (x.setPc m target).pcs } := by
  rw [Group.setPc_rest]; rfl

section
variable {s e : State} {h : Hdr} {u : Uses} {i : Instr} {eff : Mask → State → Eff}

/-- The lanes of a group that are set to the next word stand there, but for those that have exited. -/
theorem passed_of_setPc {t : State} {x : Group}
    (hpcs : t.grp.pcs = (x.setPc (s.cur.lanes &&& ~~~(0 : Mask) &&& ~~~x.exited) ((s.cur.pc + s.cur.len) % pow2 64)).pcs)
    (hex : x.exited = s.grp.exited) : s.Passed t := by
  intro l hl hlane hout
  have hpc : t.grp.pcOf l = (x.setPc (s.cur.lanes &&& ~~~(0 : Mask) &&& ~~~x.exited) ((s.cur.pc + s.cur.len) % pow2 64)).pcOf l := by
    unfold Group.pcOf; rw [hpcs]
  rw [hpc, Group.pcOf_setPc _ _ _ _ hl]
  simp only [BitVec.getLsbD_and, BitVec.getLsbD_not, hex, hlane, hout, hl]
  simp

/-- A word whose conditions hold and whose effect takes place goes on. -/
theorem takes_of_issue {b : Bool} (hx : exec i s = .next (s.issueWord h u eff)) (hi : s.Issues h u.tw)
    (hu : s.issueCheck h u (s.activeLanes h) = none) (he : eff (s.activeLanes h) s = { s := e, ends := b })
    (hk : s.KeepsIssuer e) : s.Takes i e := by
  rw [issueWord_go s h u _ hi hu, he] at hx
  have hstep : e.grp.step = false := hk.step.trans hi.noStep
  have hsrun : e.grp.srun = false := hk.srun.trans hi.noStrictRun
  have hgrp := finish_done_grp s h { s := e, ends := b } rfl hi.awake hstep hsrun
  refine ⟨_, hx, passed_of_setPc (x := e.grp) ?_ hk.exited,
    finish_done_frame s h { s := e, ends := b } rfl hk.cur hi.awake hstep hsrun, ?_⟩
  · rw [hgrp]; rfl
  · rw [hgrp, Group.setPc_rest]; rfl

/-- What `finish` leaves of an effect that parks its group. -/
theorem finish_park {w : Park} (hp : s.grp.park = none) :
    ∃ r : Quad → Quad, s.finish h { s := e, fate := .park w } =
      ((e.markIssued.modGrp fun x => countLa (x.setPc (s.cur.lanes &&& ~~~(0 : Mask) &&& ~~~x.exited)
        ((s.cur.pc + s.cur.len) % pow2 64)) s.nextId s.cur.lanes).modQuad s.curQuad r).modGrp
          fun x => { x with park := some w, stepPend := if x.step then some (s.cur.pc, s.activeLanes h) else none } := by
  unfold finish
  simp only [hp, Option.isSome_none, Bool.and_false, Bool.false_and]
  exact ⟨_, rfl⟩

/-- A word whose conditions hold and whose effect parks its group. -/
theorem parks_of_issue {w : Park} (hx : exec i s = .next (s.issueWord h u eff)) (hi : s.Issues h u.tw)
    (hu : s.issueCheck h u (s.activeLanes h) = none) (he : eff (s.activeLanes h) s = { s := e, fate := .park w })
    (hk : s.KeepsIssuer e) : s.Parks i e w := by
  rw [issueWord_go s h u _ hi hu, he] at hx
  have hstep : e.grp.step = false := hk.step.trans hi.noStep
  obtain ⟨r, hr⟩ := finish_park (h := h) (w := w) hi.awake
  rw [hr] at hx
  have hq : s.curQuad = (e.markIssued.modGrp fun x => countLa (x.setPc (s.cur.lanes &&& ~~~(0 : Mask) &&& ~~~x.exited)
      ((s.cur.pc + s.cur.len) % pow2 64)) s.nextId s.cur.lanes).curQuad := by
    unfold curQuad; simp [hk.cur]
  refine ⟨_, hx, passed_of_setPc (x := e.grp) ?_ hk.exited, ?_, ?_⟩
  · simp [countLa]
  · refine OnlyGroup.trans ?_ (onlyGroup_modGrp _ _)
    rw [hq]
    exact ((onlyGroup_markIssued e).trans (onlyGroup_modGrp _ _)).trans (onlyGroup_modQuad _ _)
  · simp only [modGrp_grp, modQuad_grp, markIssued_grp, countLa_setPc]
    rw [show (countLa e.grp s.nextId s.cur.lanes).step = false from hstep]
    rfl

/-- The effect may be named by another state that differs in the quadrant's run and the counters alone. -/
theorem Takes.of_onlyGroup {e' : State} (ht : s.Takes i e') (ho : e.OnlyGroup e') (hg : e.grp = e'.grp) : s.Takes i e := by
  obtain ⟨t, hx, hpass, hot, hgrp⟩ := ht
  exact ⟨t, hx, hpass, ho.trans hot, by rw [hg]; exact hgrp⟩

/-- An effect on the registers of the group alone yields them. -/
theorem Takes.yields {R : Regs → Prop} (ht : s.Takes i e) (ho : s.OnlyGroup e) (hg : e.grp = { s.grp with regs := e.grp.regs })
    (hR : R e.grp.regs) : s.Yields i R := by
  obtain ⟨t, hx, hpass, hot, hgrp⟩ := ht
  have hregs : t.grp.regs = e.grp.regs := by rw [hgrp]; rfl
  exact ⟨t, hx, hpass, ho.trans hot, hregs ▸ hR, by rw [hregs, hgrp, hg]; rfl⟩

end

/-! ### A trap before the effect (R268, R271) -/

theorem trapGroup_rest (s : State) (gk pc : Nat) (sec : Bool) (t : Trap) : s.trapGroup gk pc sec t =
    { s with groups := (s.trapGroup gk pc sec t).groups, clusters := (s.trapGroup gk pc sec t).clusters
             parts := (s.trapGroup gk pc sec t).parts } := by
  unfold trapGroup; dsimp only; split
  · rfl
  · split <;> rfl

theorem trapGroup_group (s : State) (gk pc : Nat) (sec : Bool) (t : Trap) (j : Nat) : (s.trapGroup gk pc sec t).group j =
    if j = gk then { s.group gk with park := some .trap, trapCause := some t.cause } else s.group j := by
  unfold trapGroup; dsimp only; split
  · simp
  · split <;> simp

/-- R268, R269: the record of a trap of a group. -/
def trapRec (s : State) (gk pc : Nat) (sec : Bool) (t : Trap) : TrapRec where
  g := grpKeyGrid gk
  t := grpKeyTeam gk
  grp := grpKeyIdx gk
  ident := s.identity (grpKeyGrid gk) (grpKeyTeam gk) (grpKeyIdx gk) 0
  cause := t.cause
  kind := 0
  flags := bit sec + 2 * bit (s.group gk).step
  pc := w64 (pc % pow2 57)
  mask := t.mask
  cycles := s.cyclesOf (s.coreOfGrp gk)
  elapsed := s.elapsedOf (s.coreOfGrp gk / 6)
  detail := t.detail
  detail2 := 0
  addrs := t.addrs
  hang := []

theorem trapGroup_trapq (s : State) (gk pc : Nat) (sec : Bool) (t : Trap) :
    ((s.trapGroup gk pc sec t).page (s.grid (grpKeyGrid gk)).part).trapq =
      (s.page (s.grid (grpKeyGrid gk)).part).trapq ++ [s.trapRec gk pc sec t] := by
  unfold trapGroup; dsimp only; split
  · rw [count_page_frame, modGroup_page_frame, modPage_page, if_pos rfl]; rfl
  · split
    · rw [count_page_frame, modGroup_page_frame, modPage_page, if_pos rfl]; rfl
    · rw [modGroup_page_frame, modPage_page, if_pos rfl]; rfl

theorem grpKeyGrid_curGrp {s : State} (hn : s.Named) : grpKeyGrid s.curGrp = s.cur.g := by
  unfold Named at hn; unfold grpKeyGrid curGrp grpKey teamKey; omega
theorem grpKeyTeam_curGrp {s : State} (hn : s.Named) : grpKeyTeam s.curGrp = s.cur.t := by
  unfold Named at hn; unfold grpKeyTeam curGrp grpKey teamKey; omega
theorem grpKeyIdx_curGrp {s : State} (hn : s.Named) : grpKeyIdx s.curGrp = s.cur.grp := by
  unfold Named at hn; unfold grpKeyIdx curGrp grpKey teamKey; omega

/-- A word that fails a condition of R271 traps. -/
theorem traps_of_check {s : State} {h : Hdr} {u : Uses} {i : Instr} {eff : Mask → State → Eff} {t : Trap}
    (hx : exec i s = .next (s.issueWord h u eff)) (hi : s.Issues h u.tw) (hn : s.Named)
    (hu : s.issueCheck h u (s.activeLanes h) = some t) : s.Traps i t.cause t.mask t.detail := by
  have hgo : s.issueWord h u eff = s.finish h { s := s, fate := .trap t } := by
    simp [issueWord, mustWait, hi.noWait, hi.guard, hi.tokens, hu]
  have hfin : ∃ r : Quad → Quad, s.finish h { s := s, fate := .trap t } =
      (s.markIssued.modQuad s.curQuad r).trapGroup s.curGrp s.cur.pc s.cur.sec t := by
    unfold finish
    simp only [hi.awake, Option.isSome_none, Bool.and_false]
    exact ⟨_, rfl⟩
  obtain ⟨r, hr⟩ := hfin
  rw [hgo, hr] at hx
  have hgrp : ((s.markIssued.modQuad s.curQuad r).trapGroup s.curGrp s.cur.pc s.cur.sec t).grp =
      { s.grp with park := some .trap, trapCause := some t.cause } := by
    have hcur : ((s.markIssued.modQuad s.curQuad r).trapGroup s.curGrp s.cur.pc s.cur.sec t).curGrp = s.curGrp := by
      unfold curGrp; rw [trapGroup_rest]; simp
    rw [grp, hcur, trapGroup_group, if_pos rfl, modQuad_group_frame]
    have : s.markIssued.group s.curGrp = s.grp := by
      rw [← markIssued_grp]; unfold grp curGrp; rw [markIssued_cur]
    rw [this]
  have hpart : ((s.markIssued.modQuad s.curQuad r).grid (grpKeyGrid s.curGrp)).part = s.curGrid.part := by
    rw [grpKeyGrid_curGrp hn, modQuad_grid_frame]
    exact (congrArg Grid.part ((onlyGroup_markIssued s).grids s.cur.g)).trans rfl
  have hpage : ∀ p, s.markIssued.page p = s.page p := fun p => by
    unfold page part; rw [show s.markIssued.parts = s.parts by rw [(onlyGroup_markIssued s).device]]
  refine ⟨_, hx, by rw [hgrp], by rw [hgrp], by rw [hgrp], by rw [hgrp], ?_,
    (s.markIssued.modQuad s.curQuad r).trapRec s.curGrp s.cur.pc s.cur.sec t, ?_, rfl, rfl,
    grpKeyGrid_curGrp hn, grpKeyTeam_curGrp hn, grpKeyIdx_curGrp hn, rfl, rfl, rfl⟩
  · rw [(sameMaps_trapGroup ..).mem, modQuad_mem, (onlyGroup_markIssued s).mem]
  · rw [← hpart, trapGroup_trapq, hpart, modQuad_page_frame, hpage]

/-! ### What goes to parked groups -/

/-- Rows, task results or a wake given to parked groups: teams and the word's context stay, and so does every group that is not
parked. -/
structure Handed (s t : State) : Prop where
  rest : t = { s with groups := t.groups, cores := t.cores, clusters := t.clusters, parts := t.parts, grids := t.grids }
  awake : ∀ j, (s.group j).park = none → t.group j = s.group j

namespace Handed

variable {s t u : State}

theorem refl (s : State) : s.Handed s := ⟨rfl, fun _ _ => rfl⟩

theorem trans (h : s.Handed t) (k : t.Handed u) : s.Handed u where
  rest := by rw [k.rest, h.rest]
  awake j hj := (k.awake j ((congrArg Group.park (h.awake j hj)).trans hj)).trans (h.awake j hj)

theorem foldl {α : Type} {f : State → α → State} (hf : ∀ (s : State) a, s.Handed (f s a)) (l : List α) (s : State) :
    s.Handed (l.foldl f s) := by
  induction l generalizing s with
  | nil => exact refl s
  | cons a l ih => exact (hf s a).trans (ih _)

theorem cur (h : s.Handed t) : t.cur = s.cur := by rw [h.rest]
theorem teams (h : s.Handed t) : t.teams = s.teams := by rw [h.rest]

/-- The group that issues is not parked. -/
theorem grp (h : s.Handed t) (hp : s.grp.park = none) : t.grp = s.grp := by
  have hc : t.curGrp = s.curGrp := by unfold curGrp; rw [h.cur]
  unfold State.grp
  rw [hc]
  exact h.awake _ hp

end Handed

theorem handed_modGroup {s : State} {gk : Nat} (h : (s.group gk).park ≠ none) (f : Group → Group) : s.Handed (s.modGroup gk f) where
  rest := rfl
  awake j hj := by rw [modGroup_group, if_neg (by rintro rfl; exact h hj)]

theorem handed_trapGroup {s : State} {gk : Nat} (h : (s.group gk).park ≠ none) (pc : Nat) (sec : Bool) (t : Trap) :
    s.Handed (s.trapGroup gk pc sec t) where
  rest := by rw [trapGroup_rest]
  awake j hj := by rw [trapGroup_group, if_neg (by rintro rfl; exact h hj)]

theorem group_wake_of_ne (s : State) {gk j : Nat} (h : j ≠ gk) : (s.wake gk).group j = s.group j := by
  unfold wake; dsimp only; split
  · simp [rouse, h]
  · simp [rouse, trapGroup_group, h]

theorem wake_rest (s : State) (gk : Nat) : s.wake gk =
    { s with groups := (s.wake gk).groups, cores := (s.wake gk).cores, clusters := (s.wake gk).clusters
             parts := (s.wake gk).parts } := by
  unfold wake; dsimp only; split
  · rfl
  · rw [trapGroup_rest]; rfl

theorem handed_wake {s : State} {gk : Nat} (h : (s.group gk).park ≠ none) : s.Handed (s.wake gk) where
  rest := by rw [wake_rest]
  awake j hj := group_wake_of_ne s (by rintro rfl; exact h hj)

/-- R114: free rows go to waiters alone. -/
theorem handed_grantRows (s : State) (qk fuel : Nat) : s.Handed (s.grantRows qk fuel) := by
  induction fuel generalizing s with
  | zero => exact .refl s
  | succ fuel ih =>
    unfold grantRows
    split
    · exact .refl s
    · next gk _ =>
      split
      · next n sd hpark =>
        split
        · have hp : (s.group gk).park ≠ none := by rw [hpark]; exact nofun
          refine ((handed_modGroup hp _).trans (handed_wake ?_)).trans (ih _)
          simpa using hp
        · exact .refl s
      · exact .refl s

/-- R79: the end of the grid's tasks reaches the groups parked for one alone. -/
theorem handed_tasksEnd (s : State) (g : Nat) : s.Handed (s.tasksEnd g) := by
  unfold tasksEnd
  split
  · exact .refl s
  · refine Handed.trans (t := s.modGrid g fun r => { r with tasksOver := true }) ⟨rfl, fun _ _ => rfl⟩ (.foldl (fun s gk => ?_) _ _)
    split
    · split
      · next sd hpark =>
        have hp : (s.group gk).park ≠ none := by rw [hpark]; exact nofun
        refine (handed_modGroup hp _).trans (handed_wake ?_)
        simpa using hp
      · exact .refl s
    · exact .refl s

/-! ### Register budgets (R114, R425 to R427) -/

section
variable {s : State} {h : Hdr} {f : SF}

/-- R433: a target count of registers that is admitted. -/
abbrev AdmittedCount (n : Nat) : Prop := n % 8 = 0 ∧ 8 ≤ n ∧ n ≤ 256

theorem countDyn_of_admitted {n : Nat} (h : AdmittedCount n) : countDyn n = none := by
  unfold countDyn
  rw [if_neg]
  simp only [Bool.or_eq_true, bne_iff_ne, decide_eq_true_eq]
  omega

/-- A word of a team whose operand is admitted passes the checks of issue. -/
theorem teamUses_check {dyn : Option Nat} (hi : s.Issues h 0) (hd : dyn = none) :
    s.issueCheck h (teamUses f dyn) (s.activeLanes h) = none :=
  scalar_check s h _ hi.noStrictLook hd rfl rfl rfl rfl

/-- What `reggrow` names: its operand, and a count beyond the ceiling. -/
def growUses (s : State) (f : SF) : Uses :=
  { teamUses f (countDyn (s.teamOperand f)) with
    beyond := if s.grp.budget < s.teamOperand f && s.curGrid.ceiling s.cur.grp < s.teamOperand f then
      [(s.teamOperand f, s.curGrid.ceiling s.cur.grp)] else [] }

theorem growUses_check (hi : s.Issues h 0) (hc : AdmittedCount (s.teamOperand f))
    (hb : s.teamOperand f ≤ s.grp.budget ∨ s.teamOperand f ≤ s.curGrid.ceiling s.cur.grp) :
    s.issueCheck h (s.growUses f) (s.activeLanes h) = none := by
  refine scalar_check s h _ hi.noStrictLook (countDyn_of_admitted hc) rfl rfl rfl rfl (if_neg ?_)
  simp only [Bool.and_eq_true, decide_eq_true_eq]
  omega

/-- R426: beyond the ceiling, the trap names the count and the ceiling. -/
theorem growUses_trap (hc : AdmittedCount (s.teamOperand f))
    (hb : s.grp.budget < s.teamOperand f) (ht : s.curGrid.ceiling s.cur.grp < s.teamOperand f) :
    s.issueCheck h (s.growUses f) (s.activeLanes h) =
      some (Trap.budget (s.activeLanes h) (s.teamOperand f) (s.curGrid.ceiling s.cur.grp)) := by
  have hover : s.overBudget (s.growUses f) = [(s.teamOperand f, s.curGrid.ceiling s.cur.grp)] :=
    if_pos (by simp [hb, ht])
  unfold issueCheck
  rw [show (s.growUses f).dyn = none from countDyn_of_admitted hc, show (s.growUses f).unbound = none from rfl, hover]
  simp [Nat.mod_one]

/-- R426: a count that the group has already. -/
theorem reggrow_within (hi : s.Issues h 0) (hc : AdmittedCount (s.teamOperand f)) (hb : s.teamOperand f ≤ s.grp.budget) :
    s.Yields (.reggrow h f) (s.ScalIs f.sd.toNat 0 0) := by
  have ht : s.Takes (.reggrow h f) (s.putS f.sd.toNat 0 false) :=
    takes_of_issue (u := s.growUses f) rfl hi (growUses_check hi hc (.inl hb)) (if_pos hb) (keepsIssuer_putS ..)
  refine ht.yields (onlyGroup_putS ..) (by rw [putS_grp]) ?_
  rw [putS_grp]
  exact scalIs_sset s _ _ _

/-- R114, R426: rows are free. -/
theorem reggrow_free (hi : s.Issues h 0) (hc : AdmittedCount (s.teamOperand f)) (hb : s.grp.budget < s.teamOperand f)
    (ht : s.teamOperand f ≤ s.curGrid.ceiling s.cur.grp)
    (hrows : 512 * (s.teamOperand f - s.grp.budget) ≤ s.rowsFree s.curQuad) :
    s.Takes (.reggrow h f)
      (s.modGrp fun x => { x with budget := s.teamOperand f, regs := x.regs.sset f.sd.toNat 0 0 }) := by
  have hgrp : ((s.modGrp fun x => { x with budget := s.teamOperand f }).putS f.sd.toNat 0 false).grp =
      (s.modGrp fun x => { x with budget := s.teamOperand f, regs := x.regs.sset f.sd.toNat 0 0 }).grp := by
    rw [putS_grp, modGrp_grp, modGrp_grp]; rfl
  have ho := (onlyGroup_modGrp s fun x => { x with budget := s.teamOperand f }).trans (onlyGroup_putS _ f.sd.toNat 0 false)
  refine (takes_of_issue (u := s.growUses f) (b := false)
    (e := (s.modGrp fun x => { x with budget := s.teamOperand f }).putS f.sd.toNat 0 false) rfl hi
    (growUses_check hi hc (.inr ht)) ((if_neg (Nat.not_le.2 hb)).trans (if_pos hrows)) ⟨ho.cur, ?_, ?_, ?_⟩).of_onlyGroup
    ((onlyGroup_modGrp s _).symm.trans ho) hgrp.symm
  all_goals rw [hgrp, modGrp_grp]

/-- R114, R426: rows are not free, and the group waits for them. -/
theorem reggrow_waits (hi : s.Issues h 0) (hc : AdmittedCount (s.teamOperand f)) (hb : s.grp.budget < s.teamOperand f)
    (ht : s.teamOperand f ≤ s.curGrid.ceiling s.cur.grp)
    (hrows : s.rowsFree s.curQuad < 512 * (s.teamOperand f - s.grp.budget)) :
    s.Parks (.reggrow h f) s (.reggrow (s.teamOperand f) f.sd.toNat) :=
  parks_of_issue (u := s.growUses f) rfl hi (growUses_check hi hc (.inr ht))
    ((if_neg (Nat.not_le.2 hb)).trans (if_neg (Nat.not_le.2 hrows))) (.refl s)

/-- R427: a count not below the group's own leaves everything as it was. -/
theorem regshrink_within (hi : s.Issues h 0) (hc : AdmittedCount (s.teamOperand f)) (hb : s.grp.budget ≤ s.teamOperand f) :
    s.Takes (.regshrink h f) s :=
  takes_of_issue (b := false) rfl hi (teamUses_check hi (countDyn_of_admitted hc)) (if_pos hb) (.refl s)

theorem find_filter_lt {α : Type} (m : SMap α) (n k : Nat) :
    SMap.find (m.filter fun e => e.1 < n) k = if k < n then m.find k else none := by
  induction m with
  | nil => simp [SMap.find]
  | cons e l ih =>
    obtain ⟨i, x⟩ := e
    by_cases hi : i < n
    · rw [List.filter_cons_of_pos (by simpa using hi), SMap.find, SMap.find, ih]
      by_cases hk : i = k
      · subst hk; simp [hi]
      · simp [hk]
    · rw [List.filter_cons_of_neg (by simpa using hi), SMap.find, ih]
      by_cases hk : i = k
      · subst hk; simp [hi]
      · simp [hk]

/-- R427: registers at and above n are lost. -/
theorem vget_dropRegs (s : State) (n m : Nat) :
    (s.dropRegs n).grp.regs.vget m = if m < n then s.grp.regs.vget m else zeroLanes := by
  rw [dropRegs, modRegs_grp]
  unfold Regs.vget SMap.get
  rw [find_filter_lt]
  split <;> rfl

/-- R114, R427: the group keeps the registers below its new count, whoever gets the rows that it gives up. -/
theorem regshrink_gives (hi : s.Issues h 0) (hc : AdmittedCount (s.teamOperand f)) (hb : s.teamOperand f < s.grp.budget)
    (hdue : s.grp.due = []) :
    ∃ t, exec (.regshrink h f) s = .next t ∧ s.Passed t ∧ t.grp.budget = s.teamOperand f ∧
      ∀ m, t.grp.regs.vget m = if m < s.teamOperand f then s.grp.regs.vget m else zeroLanes := by
  let u := (s.modGrp fun x => { x with budget := s.teamOperand f }).dropRegs (s.teamOperand f)
  have hu : u.grp = { s.grp with budget := s.teamOperand f, regs := u.grp.regs } := by
    simp only [u, dropRegs, modRegs_grp, modGrp_grp]
  have hgrant := handed_grantRows u s.curQuad 24
  have hgrp : (u.grantRows s.curQuad 24).grp = u.grp := hgrant.grp (by rw [hu]; exact hi.awake)
  obtain ⟨t, hx, hpass, -, ht⟩ := takes_of_issue (i := .regshrink h f) (b := false) (e := u.grantRows s.curQuad 24) rfl hi
    (teamUses_check hi (countDyn_of_admitted hc))
    ((if_neg (Nat.not_le.2 hb)).trans (if_neg (by rw [hdue]; simp)))
    ⟨hgrant.cur, by rw [hgrp, hu], by rw [hgrp, hu], by rw [hgrp, hu]⟩
  rw [hgrp] at ht
  refine ⟨t, hx, hpass, by rw [ht, hu]; rfl, fun m => ?_⟩
  have hregs : t.grp.regs = u.grp.regs := by rw [ht]; rfl
  rw [hregs, vget_dropRegs, modGrp_grp]

/-! ### The baton (R116, R428) -/

theorem batget_free (hi : s.Issues h 0) (hb : (s.core s.curCore).baton = none) :
    s.Takes (.batget h f) (s.modCore s.curCore fun c => { c with baton := some s.curGrp }) := by
  refine takes_of_issue (b := false) rfl hi (scalar_check s h _ hi.noStrictLook rfl rfl rfl rfl rfl) ?_ (.of_grp rfl rfl)
  dsimp only
  rw [hb]

theorem batget_held (hi : s.Issues h 0) (hb : (s.core s.curCore).baton = some s.curGrp) : s.Takes (.batget h f) s := by
  refine takes_of_issue (b := false) rfl hi (scalar_check s h _ hi.noStrictLook rfl rfl rfl rfl rfl) ?_ (.refl s)
  dsimp only
  rw [hb]
  exact if_pos (beq_self_eq_true _)

theorem batget_waits {gk : Nat} (hi : s.Issues h 0) (hne : gk ≠ s.curGrp) (hb : (s.core s.curCore).baton = some gk) :
    s.Parks (.batget h f) (s.modCore s.curCore fun c => { c with batonWait := c.batonWait ++ [s.curGrp] }) (.baton true) := by
  refine parks_of_issue rfl hi (scalar_check s h _ hi.noStrictLook rfl rfl rfl rfl rfl) ?_ (.of_grp rfl rfl)
  dsimp only
  rw [hb]
  exact if_neg (by simpa using hne)

/-- A wake leaves the batons as they were. -/
theorem baton_wake (s : State) (gk k : Nat) : ((s.wake gk).core k).baton = (s.core k).baton := by
  have hrouse : ((s.rouse (s.coreOfGrp gk)).core k).baton = (s.core k).baton := by
    rw [rouse, modCore_core]; split
    · next hk => rw [hk]
    · rfl
  unfold wake; dsimp only; split
  · exact hrouse
  · rw [trapGroup_rest]; exact hrouse

/-- R116: the baton given to a group. -/
def batonGiven (s : State) (gk : Nat) : State :=
  (s.modCore s.curCore fun c => { c with baton := some gk, batonWait := c.batonWait.filter fun x => x != gk }).modGroup gk
    fun x => { x with batonDue := false }

theorem baton_batonGiven (s : State) (gk : Nat) : ((s.batonGiven gk).core s.curCore).baton = some gk := by simp [batonGiven]

theorem keepsIssuer_batonGiven (s : State) (gk : Nat) : s.KeepsIssuer (s.batonGiven gk) :=
  (KeepsIssuer.of_grp (modCore_cur ..) (modCore_grp ..)).trans
    (keepsIssuer_modGroup _ gk (fun _ => rfl) (fun _ => rfl) fun _ => rfl)

/-- R116: a group that has not exited gets the baton, and wakes when it is parked for it. -/
theorem passTo_of_here {gk : Nat} (hg : (s.group gk).gone = false) :
    s.passTo gk = s.batonGiven gk ∨ s.passTo gk = (s.batonGiven gk).wake gk := by
  have hgiven : ((s.batonGiven gk).group gk).gone = false := by simpa [batonGiven, Group.gone] using hg
  have hwoken : (((s.batonGiven gk).wake gk).group gk).gone = false := by
    unfold Group.gone at hgiven ⊢
    rw [((served_wake (s.batonGiven gk) gk).group gk).rest]
    exact hgiven
  unfold passTo
  dsimp only
  split
  · right
    exact if_neg (by rw [Bool.not_eq_true]; exact hwoken)
  · left
    exact if_neg (by rw [Bool.not_eq_true]; exact hgiven)

theorem batpass_passes (hi : s.Issues h 0) (hb : (s.core s.curCore).baton = some s.curGrp)
    (hn : s.teamOperand f < s.curGrid.ngroups) (hg : (s.group (s.curTeam * 32 + s.teamOperand f)).gone = false) :
    ∃ t, exec (.batpass h f) s = .next t ∧ s.Passed t ∧
      (t.core s.curCore).baton = some (s.curTeam * 32 + s.teamOperand f) := by
  have hdyn : s.passDyn f = none := if_neg (by simp [hb, hn])
  have hpass : ((s.passTo (s.curTeam * 32 + s.teamOperand f)).core s.curCore).baton =
      some (s.curTeam * 32 + s.teamOperand f) ∧ s.KeepsIssuer (s.passTo (s.curTeam * 32 + s.teamOperand f)) := by
    rcases passTo_of_here hg with e | e <;> rw [e]
    · exact ⟨baton_batonGiven .., keepsIssuer_batonGiven ..⟩
    · exact ⟨(baton_wake ..).trans (baton_batonGiven ..), (keepsIssuer_batonGiven ..).trans (.of_served (served_wake ..))⟩
  obtain ⟨t, hx, hgo, hot, -⟩ := takes_of_issue (i := .batpass h f) (b := false) rfl hi (teamUses_check hi hdyn) rfl hpass.2
  refine ⟨t, hx, hgo, ?_⟩
  rw [core, show t.cores = _ from (congrArg State.cores hot.device).trans rfl]
  exact hpass.1

/-! ### Range tasks (R78, R79, R429) -/

theorem fetchTask_of_own {gk sd : Nat} {t : Task} (ht : s.ownTask gk = some t) :
    s.fetchTask gk sd = some (s.nextChunk gk sd t) := by
  unfold fetchTask; rw [ht]

/-- R429: a group of a deterministic grid, or of one whose tasks are over, gets the empty interval. -/
theorem fetchTask_of_over {sd : Nat} (hn : s.Named) (ht : s.ownTask s.curGrp = none)
    (hover : (s.curGrid.det || s.curGrid.tasksOver) = true) :
    s.fetchTask s.curGrp sd = some (s.putTask s.curGrp sd 0 0 0) := by
  unfold fetchTask
  rw [ht]
  dsimp only
  rw [grpKeyGrid_curGrp hn]
  exact if_pos hover

theorem fetchTask_of_running {sd : Nat} (hn : s.Named) (ht : s.ownTask s.curGrp = none)
    (hover : (s.curGrid.det || s.curGrid.tasksOver) = false) : s.fetchTask s.curGrp sd = none := by
  unfold fetchTask
  rw [ht]
  dsimp only
  rw [grpKeyGrid_curGrp hn]
  exact if_neg (by rw [Bool.not_eq_true]; exact hover)

/-- R429: registers with an interval and an entry written. -/
def taskRegs (r : Regs) (sd lo hi entry : Nat) : Regs :=
  (r.sset sd (w64 (lo + hi * pow2 32)) 0).sset (sd + 1) (w64 entry) 0

/-- R429: registers with the next chunk of a task written. -/
abbrev chunkRegs (r : Regs) (sd : Nat) (t : Task) : Regs := taskRegs r sd t.cur (Nat.min (t.cur + t.chunk) t.hi) t.entry

theorem putTask_grp (s : State) (sd lo hi entry : Nat) : (s.putTask s.curGrp sd lo hi entry).grp =
    { s.grp with regs := taskRegs s.grp.regs sd lo hi entry } := modGrp_grp s _

/-- R79: the end of the grid's tasks does not reach the group that issues. -/
theorem nextChunk_grp {sd : Nat} {t : Task} (hp : s.grp.park = none) : (s.nextChunk s.curGrp sd t).grp =
    { s.grp with regs := chunkRegs s.grp.regs sd t } := by
  refine ((handed_tasksEnd ..).grp ?_).trans (putTask_grp ..)
  exact (congrArg Group.park (putTask_grp ..)).trans hp

theorem keepsIssuer_nextChunk (sd : Nat) (t : Task) (hp : s.grp.park = none) : s.KeepsIssuer (s.nextChunk s.curGrp sd t) :=
  ⟨(handed_tasksEnd ..).cur, by rw [nextChunk_grp hp], by rw [nextChunk_grp hp], by rw [nextChunk_grp hp]⟩

/-- R78: how the splitter of the word's cluster takes a task: beside 64 running ones, as the group's own and in one chunk. -/
def takenTask (s : State) (t : Task) : Task :=
  let full := 64 ≤ ((s.cluster s.cur.cl).tasks.filter fun x => !x.alone).length
  { t with alone := full, chunk := if full then t.hi - t.cur else t.chunk }

/-- R78: a task that the issuing group opens is its own. -/
theorem ownTask_openTask {t : Task} (hown : s.ownTask s.curGrp = none) (hcl : s.coreOfGrp s.curGrp / 6 = s.cur.cl)
    (howner : t.owner = s.curGrp) (hlt : t.cur < t.hi) : (s.openTask t).ownTask s.curGrp = some (s.takenTask t) := by
  have hcore : (s.openTask t).coreOfGrp s.curGrp / 6 = s.cur.cl := by
    rw [← hcl]
    unfold coreOfGrp openTask
    simp only [modCluster_team_frame, modGrid_team_frame, modTeam_team]
    split
    · next h => rw [h]
    · rfl
  unfold ownTask at hown ⊢
  rw [hcl] at hown
  rw [hcore]
  simp [openTask, takenTask, List.find?_append, hown, howner, hlt]
  exact ⟨rfl, rfl⟩

/-- R78, R429: the first chunk of the task: one chunk, or the whole interval. -/
theorem firstChunk (s : State) {t : Task} (hlt : t.cur < t.hi) :
    Nat.min ((s.takenTask t).cur + (s.takenTask t).chunk) (s.takenTask t).hi =
      if 64 ≤ ((s.cluster s.cur.cl).tasks.filter fun x => !x.alone).length then t.hi else Nat.min (t.cur + t.chunk) t.hi := by
  unfold takenTask
  dsimp only
  split
  · exact Nat.min_eq_right (by omega)
  · rfl

theorem keepsIssuer_putTask (s : State) (sd lo hi entry : Nat) : s.KeepsIssuer (s.putTask s.curGrp sd lo hi entry) :=
  keepsIssuer_modGroup s s.curGrp (fun _ => rfl) (fun _ => rfl) fun _ => rfl

/-- The two scalars that `tskget` reads make it pass the checks of issue. -/
theorem tskget_check (hi : s.Issues h 0) :
    s.issueCheck h { sr := [f.sa.toNat, f.sb.toNat] } (s.activeLanes h) = none :=
  scalar_check s h _ hi.noStrictLook rfl rfl rfl rfl rfl

theorem openForm (himm : f.imm ≠ 0) (hown : s.ownTask s.curGrp = none) :
    ¬ (f.imm == 0 || (s.ownTask s.curGrp).isSome) = true := by
  rw [hown, Bool.or_eq_true, beq_iff_eq]
  simpa using himm

/-- R429: an empty interval opens no task. -/
theorem tskget_empty (hi : s.Issues h 0) (himm : f.imm ≠ 0) (hown : s.ownTask s.curGrp = none)
    (hle : (s.sreg f.sa).toNat / pow2 32 ≤ (s.sreg f.sa).toNat % pow2 32) :
    s.Takes (.tskget h f) (s.putTask s.curGrp f.sd.toNat 0 0 0) :=
  takes_of_issue (b := false) rfl hi (tskget_check hi) ((if_neg (openForm himm hown)).trans (if_pos hle))
    (keepsIssuer_putTask ..)

/-- R429: a fetch that gives a chunk or the empty interval. -/
theorem tskget_fetches {e : State} (hi : s.Issues h 0) (hform : f.imm = 0 ∨ (s.ownTask s.curGrp).isSome = true)
    (hf : s.fetchTask s.curGrp f.sd.toNat = some e) (hk : s.KeepsIssuer e) : s.Takes (.tskget h f) e := by
  refine takes_of_issue (b := false) rfl hi (tskget_check hi) ((if_pos (by simpa using hform)).trans ?_) hk
  dsimp only
  rw [hf]

/-- R429: a fetch that gives nothing parks. -/
theorem tskget_parks (hi : s.Issues h 0) (himm : f.imm = 0) (hf : s.fetchTask s.curGrp f.sd.toNat = none) :
    s.Parks (.tskget h f) s (.task f.sd.toNat) := by
  refine parks_of_issue rfl hi (tskget_check hi) ((if_pos (by simp [himm])).trans ?_) (.refl s)
  dsimp only
  rw [hf]

/-- R429: a fetch of the group's own task gives its next chunk. -/
theorem tskget_own {task : Task} (hi : s.Issues h 0) (hown : s.ownTask s.curGrp = some task) :
    ∃ t, exec (.tskget h f) s = .next t ∧ s.Passed t ∧ t.grp.regs = chunkRegs s.grp.regs f.sd.toNat task := by
  obtain ⟨t, hx, hpass, -, ht⟩ := tskget_fetches (f := f) hi (.inr (by rw [hown]; rfl)) (fetchTask_of_own hown)
    (keepsIssuer_nextChunk _ task hi.awake)
  exact ⟨t, hx, hpass, by rw [ht, nextChunk_grp hi.awake]; rfl⟩

/-- R429: the task that the open form describes. -/
def askedTask (s : State) (f : SF) : Task :=
  { entry := (s.sreg f.sb).toNat % pow2 57, lo := (s.sreg f.sa).toNat % pow2 32, cur := (s.sreg f.sa).toNat % pow2 32
    hi := (s.sreg f.sa).toNat / pow2 32, chunk := f.imm.toNat % 65536, g := s.cur.g, owner := s.curGrp }

theorem openTask_curGrp (s : State) (t : Task) : (s.openTask t).curGrp = s.curGrp := rfl

/-- R78, R429: the task that the open form describes is opened, and gives its first chunk. -/
def firstFetch (s : State) (f : SF) : State :=
  (s.openTask (s.askedTask f)).nextChunk s.curGrp f.sd.toNat (s.takenTask (s.askedTask f))

theorem firstFetch_grp (hp : s.grp.park = none) : (s.firstFetch f).grp =
    { s.grp with regs := chunkRegs s.grp.regs f.sd.toNat (s.takenTask (s.askedTask f)) } := by
  have hg := nextChunk_grp (s := s.openTask (s.askedTask f)) (sd := f.sd.toNat) (t := s.takenTask (s.askedTask f)) hp
  rwa [openTask_curGrp] at hg

theorem keepsIssuer_firstFetch (hp : s.grp.park = none) : s.KeepsIssuer (s.firstFetch f) := by
  have hcur : (s.firstFetch f).cur = (s.openTask (s.askedTask f)).cur := (handed_tasksEnd ..).cur
  exact ⟨hcur, by rw [firstFetch_grp hp], by rw [firstFetch_grp hp], by rw [firstFetch_grp hp]⟩

theorem fetchTask_openTask (hown : s.ownTask s.curGrp = none) (hcl : s.coreOfGrp s.curGrp / 6 = s.cur.cl)
    (hlt : (s.askedTask f).cur < (s.askedTask f).hi) :
    (s.openTask (s.askedTask f)).fetchTask s.curGrp f.sd.toNat = some (s.firstFetch f) :=
  fetchTask_of_own (ownTask_openTask hown hcl rfl hlt)

theorem tskget_opens (hi : s.Issues h 0) (himm : f.imm ≠ 0) (hown : s.ownTask s.curGrp = none)
    (hcl : s.coreOfGrp s.curGrp / 6 = s.cur.cl) (hlt : (s.askedTask f).cur < (s.askedTask f).hi) :
    s.Takes (.tskget h f) (s.firstFetch f) := by
  refine takes_of_issue (b := false) rfl hi (tskget_check hi)
    ((if_neg (openForm himm hown)).trans ((if_neg (Nat.not_le.2 hlt)).trans ?_)) (keepsIssuer_firstFetch hi.awake)
  have hfetch := fetchTask_openTask hown hcl hlt
  unfold askedTask at hfetch
  dsimp only at hfetch ⊢
  rw [hfetch]

/-- R78, R429: the registers after the open form hold the first chunk of the task. -/
theorem tskget_open_regs (hi : s.Issues h 0) (himm : f.imm ≠ 0) (hown : s.ownTask s.curGrp = none)
    (hcl : s.coreOfGrp s.curGrp / 6 = s.cur.cl) (hlt : (s.askedTask f).cur < (s.askedTask f).hi) :
    ∃ t, exec (.tskget h f) s = .next t ∧ s.Passed t ∧ t.grp.regs =
      taskRegs s.grp.regs f.sd.toNat (s.askedTask f).cur
        (if 64 ≤ ((s.cluster s.cur.cl).tasks.filter fun x => !x.alone).length then (s.askedTask f).hi
          else Nat.min ((s.askedTask f).cur + (s.askedTask f).chunk) (s.askedTask f).hi) (s.askedTask f).entry := by
  obtain ⟨t, hx, hpass, -, ht⟩ := tskget_opens hi himm hown hcl hlt
  exact ⟨t, hx, hpass, by rw [ht, firstFetch_grp hi.awake, ← firstChunk s hlt]; rfl⟩

/-! ### Progress and the yield (R430, R431) -/

theorem prog_counts (hi : s.Issues h 0) : s.Takes (.prog h f) (s.modTeam s.curTeam fun x =>
    { x with progress := if f.sg then x.progress + w64 (s.teamOperand f)
                         else if x.progress.toNat < (w64 (s.teamOperand f)).toNat then w64 (s.teamOperand f) else x.progress }) :=
  takes_of_issue (b := false) rfl hi (teamUses_check hi rfl) rfl (.of_grp rfl rfl)

theorem yieldt_check (hi : s.Issues h 0) : s.issueCheck h {} (s.activeLanes h) = none :=
  scalar_check s h _ hi.noStrictLook rfl rfl rfl rfl rfl

/-- R431: no head waits for room on the core. -/
theorem yieldt_alone (hi : s.Issues h 0) (hw : s.headWaits = false) : s.Yields (.yieldt h f) (s.ScalIs f.sd.toNat 0 0) := by
  have ht : s.Takes (.yieldt h f) (s.putS f.sd.toNat 0 false) :=
    takes_of_issue (b := true) rfl hi (yieldt_check hi) (if_pos (by rw [hw]; rfl)) (keepsIssuer_putS ..)
  refine ht.yields (onlyGroup_putS ..) (by rw [putS_grp]) ?_
  rw [putS_grp]
  exact scalIs_sset s _ _ _

theorem yieldt_saving (hi : s.Issues h 0) (hw : s.headWaits = true) (hst : (s.team s.curTeam).st = .saving) :
    s.Parks (.yieldt h f) s (.yield f.sd.toNat) :=
  parks_of_issue rfl hi (yieldt_check hi) ((if_neg (by simp [hw])).trans (if_pos (by rw [hst]; rfl))) (.refl s)

theorem SameButMem.cur {s t : State} (h : s.SameButMem t) : t.cur = s.cur := by rw [h]

/-- R479: a save begins when the pages of its area translate and the page-lock table has room for them. -/
theorem beginSave_ok {tk : Nat} {pages : Pinned} (c : SaveCause) (hp : s.savePages tk = .ok pages)
    (hroom : s.pltRoom (physPages pages) = true) :
    (s.beginSave tk c).2 = true ∧ (s.beginSave tk c).1.grp = s.grp ∧ (s.beginSave tk c).1.cur = s.cur ∧
      ((s.beginSave tk c).1.team tk).st = .saving ∧ ((s.beginSave tk c).1.team tk).cause = some c ∧
      ((s.beginSave tk c).1.team tk).pinned = pages := by
  have htouch := sameButMem_vaTouch s (s.grid (tk / 1048576)).part (imageBase (s.grid (tk / 1048576)) (tk % 1048576))
    (footprint (s.grid (tk / 1048576))) true
  unfold beginSave
  rw [hp]
  dsimp only
  rw [hroom]
  refine ⟨rfl, ?_, ?_, ?_, ?_, ?_⟩
  · exact grp_congr _ _ htouch.groups htouch.cur
  · exact htouch.cur
  all_goals simp

theorem yieldt_saves {pages : Pinned} (hi : s.Issues h 0) (hw : s.headWaits = true) (hst : (s.team s.curTeam).st ≠ .saving)
    (hswap : s.inSwap s.curCore = false) (hp : s.savePages s.curTeam = .ok pages) (hroom : s.pltRoom (physPages pages) = true) :
    s.Parks (.yieldt h f) (s.beginSave s.curTeam (.yieldt s.cur.grp)).1 (.yield f.sd.toNat) := by
  obtain ⟨hgo, hgrp, hcur, -⟩ := beginSave_ok (.yieldt s.cur.grp) hp hroom
  exact parks_of_issue rfl hi (yieldt_check hi) ((if_neg (by simp [hw])).trans ((if_neg (by simpa using hst)).trans
    ((if_neg (by simp [hswap])).trans (if_pos hgo)))) (.of_grp hcur hgrp)

end

end Sys2Proof.Machine.State

namespace Sys2Proof.Proofs

open Sys2Proof Sys2Proof.Machine Sys2Proof.Machine.State

/-- Settles O18, word by word: each clause is one way in which the word of a team ends. -/
theorem teamWords : Obligations.TeamWords := by
  intro s h f hi hn
  exact ⟨fun hc hb => reggrow_within hi hc hb,
    fun hc hb ht hrows => reggrow_free hi hc hb ht hrows,
    fun hc hb ht hrows => reggrow_waits hi hc hb ht hrows,
    fun hc hb ht => traps_of_check (u := s.growUses f) rfl hi hn (growUses_trap hc hb ht),
    fun hc hb => regshrink_within hi hc hb,
    fun hc hb hdue => regshrink_gives hi hc hb hdue,
    fun hb => batget_free hi hb,
    fun hb => batget_held hi hb,
    fun ⟨_, hne, hb⟩ => batget_waits hi hne hb,
    fun hb hlt hg => batpass_passes hi hb hlt hg,
    fun himm hown => ⟨fun hle => tskget_empty hi himm hown hle, fun hlt hcl => tskget_open_regs hi himm hown hcl hlt⟩,
    fun _ hown => tskget_own hi hown,
    fun himm hown hover => tskget_parks hi himm (fetchTask_of_running hn hown hover),
    fun himm hown hover => tskget_fetches hi (.inl himm) (fetchTask_of_over hn hown hover) (keepsIssuer_putTask ..),
    fun hw => yieldt_alone hi hw,
    fun hw hst => yieldt_saving hi hw hst,
    fun hw hst hswap _ hp hroom => yieldt_saves hi hw hst hswap hp hroom,
    prog_counts hi⟩

end Sys2Proof.Proofs

/-! ## Pre-emption, saves and restores (R83 to R90, R115, R129)

The teams that an operation leaves alone come first; then a request's marks on the teams that it names, the estimator's actions, and
the ends of saves, restores and discards. -/

namespace Sys2Proof.Machine.State

open Sys2Proof

/-! ### Teams that are left alone -/

theorem team_congr {s t : State} (h : t.teams = s.teams) (k : Nat) : t.team k = s.team k := by unfold team; rw [h]

theorem foldl_teams {α : Type} {f : State → α → State} (hf : ∀ (s : State) a, (f s a).teams = s.teams) (l : List α) (s : State) :
    (l.foldl f s).teams = s.teams := by
  induction l generalizing s with
  | nil => rfl
  | cons a l ih => exact (ih _).trans (hf s a)

theorem passBaton_teams (s : State) (k fuel : Nat) : (s.passBaton k fuel).teams = s.teams := by
  induction fuel generalizing s with
  | zero => rfl
  | succ fuel ih =>
    unfold passBaton
    split
    · rfl
    · split
      · rfl
      · dsimp only
        split
        · exact (served_wake ..).teams
        · exact (ih _).trans (served_wake ..).teams
        · split
          · rfl
          · exact ih _

theorem dropBaton_teams (s : State) (k gk : Nat) : (s.dropBaton k gk).teams = s.teams := by
  unfold dropBaton
  dsimp only
  split
  · exact passBaton_teams ..
  · rfl

theorem leaveSlot_teams (s : State) (k gk : Nat) : (s.leaveSlot k gk).teams = s.teams :=
  (handed_grantRows ..).teams.trans (dropBaton_teams ..)

theorem leaveSlots_teams (s : State) (k tk : Nat) : (s.leaveSlots k tk).teams = s.teams :=
  foldl_teams (fun s gk => leaveSlot_teams s k gk) _ _

theorem leaveCore_teams (s : State) (tk : Nat) : (s.leaveCore tk).teams = s.teams :=
  (served_wbCore ..).teams.trans (leaveSlots_teams ..)

theorem settleCore_teams (s : State) (k : Nat) : (s.settleCore k).teams = s.teams := by
  unfold settleCore; split <;> rfl

theorem pmReached_teams (s : State) (tk : Nat) : (s.pmReached tk).teams = s.teams := by
  unfold pmReached
  dsimp only
  split
  · split <;> rfl
  · rfl

theorem pmLate_teams (s : State) (tk : Nat) : (s.pmLate tk).teams = s.teams := by
  unfold pmLate
  dsimp only
  split
  · split <;> rfl
  · rfl

theorem putRange_teams (s : State) (pins : Pinned) (va n : Nat) (m : SMap Byte) (pois : List Nat) :
    (s.putRange pins va n m pois).teams = s.teams := by
  refine foldl_teams (fun s i => ?_) _ s
  dsimp only
  split <;> rfl

theorem withdrawClaims_teams (s : State) (tk : Nat) : (s.withdrawClaims tk).teams = s.teams := by
  refine foldl_teams (fun s f => ?_) _ s
  dsimp only
  split
  · split <;> rfl
  · split <;> rfl
  · rfl

theorem dropJobSectors_teams (s : State) (gk : Nat) (m : BitVec 8) : (s.dropJobSectors gk m).teams = s.teams := by
  unfold dropJobSectors
  dsimp only
  rw [modCore_teams]
  refine foldl_teams (fun s j => foldl_teams (fun s r => ?_) _ s) _ s
  rfl

theorem readCounter_teams (s : State) (gk : Nat) : (s.readCounter gk).teams = s.teams := by
  unfold readCounter
  split
  · split
    · rfl
    · refine (served_recheck ..).teams.trans ?_
      split <;> rfl
  · rfl

theorem recheckTeam_teams (s : State) (tk : Nat) : (s.recheckTeam tk).teams = s.teams := by
  refine foldl_teams (fun s gk => ?_) _ s
  split
  · split
    · exact readCounter_teams ..
    · rfl
  · rfl

theorem fetchTask_teams {s t : State} {gk sd : Nat} (h : s.fetchTask gk sd = some t) : t.teams = s.teams := by
  unfold fetchTask at h
  split at h
  · cases h
    exact (handed_tasksEnd ..).teams
  · dsimp only at h
    split at h
    · cases h
      rfl
    · cases h

theorem reexamine_teams (s : State) (gk : Nat) : (s.reexamine gk).teams = s.teams := by
  have hwake (t : State) : (t.wake gk).teams = t.teams := (served_wake t gk).teams
  unfold reexamine
  dsimp only
  split
  · exact readCounter_teams ..
  · rw [apply_ite State.teams, hwake, ite_self]
  · rw [apply_ite State.teams, hwake, dropJobSectors_teams, ite_self]
  · rw [apply_ite State.teams, hwake, ite_self]
  · exact (handed_grantRows ..).teams
  · split
    · rfl
    · exact passBaton_teams ..
  · split
    · next h => rw [hwake, fetchTask_teams h]
    · rfl
  · split
    · exact hwake _
    · rfl
  · exact hwake _
  · rw [apply_ite State.teams, hwake, ite_self]
  · exact hwake _
  · rfl

/-! ### A swap abandoned (R125) -/

theorem breakSwap_rest (s : State) (k : Nat) : s.breakSwap k =
    { s with clusters := (s.breakSwap k).clusters, cores := (s.breakSwap k).cores } := by
  unfold breakSwap
  split
  · split
    · unfold abandonSwap
      split <;> rfl
    · rfl
  · rfl

theorem breakSwap_of_none {s : State} {k : Nat} (h : (s.cluster (k / 6)).swap = none) : s.breakSwap k = s := by
  unfold breakSwap; rw [h]

theorem breakSwap_teams (s : State) (k : Nat) : (s.breakSwap k).teams = s.teams := by rw [breakSwap_rest]
theorem breakSwap_grids (s : State) (k : Nat) : (s.breakSwap k).grids = s.grids := by rw [breakSwap_rest]
theorem breakSwap_quads (s : State) (k : Nat) : (s.breakSwap k).quads = s.quads := by rw [breakSwap_rest]
theorem breakSwap_plt (s : State) (k : Nat) : (s.breakSwap k).plt = s.plt := by rw [breakSwap_rest]

theorem sameMaps_breakSwap (s : State) (k : Nat) : s.SameMaps (s.breakSwap k) := by
  rw [breakSwap_rest]; exact .of_parts_eq rfl rfl rfl

/-! ### A save begins (R88, R479) -/

/-- R479: what decides whether the save of a team begins. -/
structure SameSaves (s t : State) : Prop where
  pages : ∀ k, t.savePages k = s.savePages k
  room : ∀ l, t.pltRoom l = s.pltRoom l

theorem sameSaves_of {s t : State} (hm : s.SameMaps t) (hg : t.grids = s.grids) (hp : t.plt = s.plt) : s.SameSaves t where
  pages k := by
    unfold savePages
    simp only [show t.grid (k / 1048576) = s.grid (k / 1048576) by unfold grid; rw [hg], hm.walkFor]
  room l := by unfold pltRoom; rw [hp]

theorem sameSaves_breakSwap (s : State) (k : Nat) : s.SameSaves (s.breakSwap k) :=
  sameSaves_of (sameMaps_breakSwap s k) (breakSwap_grids s k) (breakSwap_plt s k)

section
variable {s t : State} {tk : Nat} {pages : Pinned}

/-- The team is being saved for a cause, its pages pinned. -/
structure Saves (t : State) (tk : Nat) (c : SaveCause) (pages : Pinned) : Prop where
  st : (t.team tk).st = .saving
  cause : (t.team tk).cause = some c
  pinned : (t.team tk).pinned = pages

/-- A save whose pages translate and find room begins. -/
theorem beginSave_saves (c : SaveCause) (hst : s.SameSaves t) (hp : s.savePages tk = .ok pages)
    (hroom : s.pltRoom (physPages pages) = true) :
    (t.beginSave tk c).2 = true ∧ (t.beginSave tk c).1.Saves tk c pages := by
  obtain ⟨hgo, -, -, h1, h2, h3⟩ := beginSave_ok c ((hst.pages tk).trans hp) ((hst.room _).trans hroom)
  exact ⟨hgo, h1, h2, h3⟩

theorem pmSave_saves (c : SaveCause) (hst : s.SameSaves t) (hp : s.savePages tk = .ok pages)
    (hroom : s.pltRoom (physPages pages) = true) : (t.pmSave tk c).Saves tk c pages := by
  obtain ⟨hgo, hsaves⟩ := beginSave_saves c hst hp hroom
  unfold pmSave
  dsimp only
  rw [if_pos hgo]
  exact hsaves

/-- R479: the first team's save begins, and so it is the one. -/
theorem saveFirst_saves (c : SaveCause) (l : List Nat) (hp : s.savePages tk = .ok pages)
    (hroom : s.pltRoom (physPages pages) = true) : (s.saveFirst c (tk :: l)).Saves tk c pages := by
  obtain ⟨hgo, hsaves⟩ := beginSave_saves (s := s) (t := s) c ⟨fun _ => rfl, fun _ => rfl⟩ hp hroom
  unfold saveFirst
  dsimp only
  rw [if_pos hgo]
  exact hsaves

end

/-! ### A request and its end (R84 to R86) -/

section
variable {s t u : State} {p : Nat}

/-- What a request does at once: teams are marked, none of which changes its state, and of the partition's page only the list of the
teams that are waited for. -/
structure Marked (p : Nat) (s t : State) : Prop where
  rest : t = { s with teams := t.teams, parts := t.parts }
  part : t.part p = { s.part p with page := { s.page p with pmLeft := (t.page p).pmLeft } }
  st : ∀ k, (t.team k).st = (s.team k).st

namespace Marked

theorem refl (p : Nat) (s : State) : Marked p s s := ⟨rfl, rfl, fun _ => rfl⟩

theorem page (h : Marked p s t) : t.page p = { s.page p with pmLeft := (t.page p).pmLeft } := congrArg Part.page h.part

theorem trans (h : Marked p s t) (k : Marked p t u) : Marked p s u where
  rest := by rw [k.rest, h.rest]
  part := by rw [k.part, h.part, h.page]
  st j := (k.st j).trans (h.st j)

theorem foldl {α : Type} {f : State → α → State} (hf : ∀ (s : State) a, Marked p s (f s a)) (l : List α) (s : State) :
    Marked p s (l.foldl f s) := by
  induction l generalizing s with
  | nil => exact refl p s
  | cons a l ih => exact (hf s a).trans (ih _)

theorem msgs (h : Marked p s t) : t.msgs = s.msgs := by rw [h.rest]
theorem trapHartOf (h : Marked p s t) : t.trapHartOf p = s.trapHartOf p := by unfold State.trapHartOf; rw [h.part]
theorem pmBusy (h : Marked p s t) : (t.page p).pmBusy = (s.page p).pmBusy := by rw [h.page]
theorem pmDone (h : Marked p s t) : (t.page p).pmDone = (s.page p).pmDone := by rw [h.page]

end Marked

theorem marked_modTeam (p : Nat) (s : State) (k : Nat) {f : Team → Team} (hf : ∀ x, (f x).st = x.st) : Marked p s (s.modTeam k f) where
  rest := rfl
  part := rfl
  st j := by
    rw [modTeam_team]
    split
    · next h => rw [hf, h]
    · rfl

theorem marked_await (p : Nat) (s : State) (tk : Nat) :
    Marked p s (s.modPage p fun y => { y with pmLeft := y.pmLeft ++ [tk] }) where
  rest := rfl
  part := by
    rw [modPage_page, if_pos rfl]
    unfold modPage
    rw [modPart_part, if_pos rfl]
    rfl
  st _ := rfl

/-- R86: is a named team in this state waited for. -/
def pmAwaits : TeamSt → Bool
  | .pending | .saved | .exited => false
  | _ => true

/-- R86: is a named team in this state held at once. -/
def pmHolds : TeamSt → Bool
  | .pending | .saved => true
  | _ => false

theorem marked_pmMark (p : Nat) (s : State) (tk : Nat) : Marked p s (s.pmMark p tk) := by
  unfold pmMark
  dsimp only
  split
  · exact marked_modTeam p s tk fun _ => rfl
  · exact marked_modTeam p s tk fun _ => rfl
  · exact .refl p s
  · exact .trans (t := s.modTeam tk fun y => { y with wanted := true }) (marked_modTeam p s tk fun _ => rfl) (marked_await ..)
  · exact marked_await ..

theorem pmMark_left (p : Nat) (s : State) (tk : Nat) :
    ((s.pmMark p tk).page p).pmLeft = (s.page p).pmLeft ++ if pmAwaits (s.team tk).st then [tk] else [] := by
  unfold pmMark
  dsimp only
  cases (s.team tk).st <;> simp [pmAwaits]

theorem pmMark_held (p : Nat) (s : State) (tk j : Nat) :
    ((s.pmMark p tk).team j).held = ((s.team j).held || (j == tk && pmHolds (s.team tk).st)) := by
  unfold pmMark
  dsimp only
  cases (s.team tk).st <;> simp [pmHolds] <;> split <;> simp_all

/-- R86: the teams that a request waits for. -/
theorem foldl_pmMark_left (p : Nat) (l : List Nat) (s : State) :
    ((l.foldl (fun s tk => s.pmMark p tk) s).page p).pmLeft = (s.page p).pmLeft ++ l.filter fun k => pmAwaits (s.team k).st := by
  induction l generalizing s with
  | nil => simp
  | cons a l ih =>
    rw [List.foldl_cons, ih, pmMark_left, List.append_assoc, List.filter_cons]
    simp only [(marked_pmMark p s a).st]
    split <;> rfl

/-- R86: the teams that a request holds. -/
theorem foldl_pmMark_held (p : Nat) (l : List Nat) (s : State) (j : Nat) :
    ((l.foldl (fun s tk => s.pmMark p tk) s).team j).held = ((s.team j).held || (decide (j ∈ l) && pmHolds (s.team j).st)) := by
  induction l generalizing s with
  | nil => simp
  | cons a l ih =>
    rw [List.foldl_cons, ih, pmMark_held, (marked_pmMark p s a).st]
    by_cases h : j = a
    · subst h; cases (s.team j).held <;> cases pmHolds (s.team j).st <;> simp
    · simp [h, beq_eq_false_iff_ne.2 h]

end

section
variable {s t : State} {p : Nat} {v : W64}

/-- The state in which a request ends: it is done, and the partition's trap hart is told. -/
structure Ended (p : Nat) (s t : State) : Prop where
  done : (t.page p).pmDone = true
  busy : (t.page p).pmBusy = false
  told : t.msgs = s.msgs ++ [.hart (s.trapHartOf p)]

theorem pmSettle_teams (s : State) (p : Nat) : (s.pmSettle p).teams = s.teams := by
  unfold pmSettle
  split <;> rfl

theorem pmSettle_ended (hb : (s.page p).pmBusy = true) (hl : (s.page p).pmLeft = []) : Ended p s (s.pmSettle p) := by
  have he : s.pmSettle p = (s.modPage p fun y => { y with pmDone := true, pmBusy := false }).send (.hart (s.trapHartOf p)) :=
    if_pos (by rw [hb, hl]; rfl)
  rw [he]
  exact ⟨by simp, by simp, rfl⟩

theorem pmSettle_waits (hl : (s.page p).pmLeft ≠ []) : s.pmSettle p = s :=
  if_neg (by rw [Bool.and_eq_true, List.isEmpty_iff]; exact fun h => hl h.2)

theorem pmStart_page (s : State) (p : Nat) (v : W64) : (s.pmStart p v).page p =
    { s.page p with
        deadline := v.extractLsb' 32 32, force := v.extractLsb' 4 2, op := v.extractLsb' 2 2
        ndrain := 0, ndisc := 0, nsave := 0, nlate := 0, pmDone := false, pmBusy := true, pmLeft := [], pmAt := [] } := by
  unfold pmStart; simp

theorem pmStart_teams (s : State) (p : Nat) (v : W64) : (s.pmStart p v).teams = s.teams := rfl

theorem pmStart_trapHartOf (s : State) (p : Nat) (v : W64) : (s.pmStart p v).trapHartOf p = s.trapHartOf p := by
  unfold pmStart modPage trapHartOf; simp

theorem pmNamed_pmStart (s : State) (p : Nat) (v : W64) : (s.pmStart p v).pmNamed p = s.pmNamed p := by
  unfold pmNamed; rw [pmStart_page]

/-- A request that has marked its teams and waits for none of them ends at once. -/
theorem ended_of_marked (h : Marked p (s.pmStart p v) t) (hl : (t.page p).pmLeft = []) : Ended p s (t.pmSettle p) := by
  have hb : (t.page p).pmBusy = true := by rw [h.pmBusy, pmStart_page]
  obtain ⟨hdone, hbusy, htold⟩ := pmSettle_ended hb hl
  refine ⟨hdone, hbusy, ?_⟩
  rw [htold, h.msgs, h.trapHartOf, pmStart_trapHartOf]
  rfl

/-- The state with the marks of a pre-emption request. -/
def pmMarked (s : State) (p : Nat) (v : W64) : State := (s.pmNamed p).foldl (fun s tk => s.pmMark p tk) (s.pmStart p v)

theorem preemptGo_eq (s : State) (p : Nat) (v : W64) : s.preemptGo p v = (s.pmMarked p v).pmSettle p := by
  rw [pmMarked, ← pmNamed_pmStart s p v]
  rfl

theorem marked_pmMarked (s : State) (p : Nat) (v : W64) : Marked p (s.pmStart p v) (s.pmMarked p v) :=
  .foldl (fun s tk => marked_pmMark p s tk) _ _

theorem pmMarked_left (s : State) (p : Nat) (v : W64) :
    ((s.pmMarked p v).page p).pmLeft = (s.pmNamed p).filter fun k => pmAwaits (s.team k).st := by
  unfold pmMarked
  rw [foldl_pmMark_left, pmStart_page]
  rfl

/-- R86: a pending or saved team is held. -/
theorem preemptGo_holds {k : Nat} (hk : k ∈ s.pmNamed p) (hst : (s.team k).st = .pending ∨ (s.team k).st = .saved) :
    ((s.preemptGo p v).team k).held = true := by
  have hholds : pmHolds (s.team k).st = true := by rcases hst with h | h <;> rw [h] <;> rfl
  rw [preemptGo_eq, team_congr (pmSettle_teams ..), pmMarked, foldl_pmMark_held, team_congr (pmStart_teams ..), hholds]
  simp [hk]

/-- R85, R86: with no team to wait for, the request is done. -/
theorem preemptGo_ends (h : ∀ k ∈ s.pmNamed p, (s.team k).st ≠ .resident ∧ (s.team k).st ≠ .moving ∧ (s.team k).st ≠ .saving ∧
    (s.team k).st ≠ .restoring) : Ended p s (s.preemptGo p v) := by
  rw [preemptGo_eq]
  refine ended_of_marked (marked_pmMarked ..) ?_
  rw [pmMarked_left, List.filter_eq_nil_iff]
  intro k hk
  obtain ⟨hres, hmov, hsav, hrest⟩ := h k hk
  cases hs : (s.team k).st <;> simp_all [pmAwaits]

/-- R85, R86: the request waits for a resident team. -/
theorem preemptGo_waits (h : ∃ k ∈ s.pmNamed p, (s.team k).st = .resident) :
    ((s.preemptGo p v).page p).pmDone = false ∧ ((s.preemptGo p v).page p).pmBusy = true := by
  obtain ⟨k, hk, hres⟩ := h
  have hleft : ((s.pmMarked p v).page p).pmLeft ≠ [] :=
    List.ne_nil_of_mem (a := k) (by rw [pmMarked_left]; simp [hk, hres, pmAwaits])
  have hm := marked_pmMarked s p v
  rw [preemptGo_eq, pmSettle_waits hleft, hm.pmDone, hm.pmBusy, pmStart_page]
  exact ⟨rfl, rfl⟩

/-- R86: what a release does to a named team. -/
def pmRelease (s : State) (tk : Nat) : State := if (s.team tk).held then s.modTeam tk fun y => { y with held := false } else s

theorem marked_pmRelease (p : Nat) (s : State) (tk : Nat) : Marked p s (s.pmRelease tk) := by
  unfold pmRelease
  split
  · exact marked_modTeam p s tk fun _ => rfl
  · exact .refl p s

theorem pmRelease_parts (s : State) (tk : Nat) : (s.pmRelease tk).parts = s.parts := by
  unfold pmRelease; split <;> rfl

theorem pmRelease_held (s : State) (tk j : Nat) : ((s.pmRelease tk).team j).held = ((s.team j).held && j != tk) := by
  unfold pmRelease
  by_cases h : j = tk
  · subst h; split <;> simp_all
  · split <;> simp [h]

theorem foldl_pmRelease_parts (l : List Nat) (s : State) : (l.foldl pmRelease s).parts = s.parts := by
  induction l generalizing s with
  | nil => rfl
  | cons a l ih => rw [List.foldl_cons, ih, pmRelease_parts]

theorem foldl_pmRelease_held (l : List Nat) (s : State) (j : Nat) :
    ((l.foldl pmRelease s).team j).held = ((s.team j).held && !decide (j ∈ l)) := by
  induction l generalizing s with
  | nil => simp
  | cons a l ih =>
    rw [List.foldl_cons, ih, pmRelease_held]
    by_cases h : j = a
    · simp [h]
    · simp [h, bne, beq_eq_false_iff_ne.2 h]

theorem releaseGo_eq (s : State) (p : Nat) (v : W64) :
    s.releaseGo p v = ((s.pmNamed p).foldl pmRelease (s.pmStart p v)).pmSettle p := by
  rw [← pmNamed_pmStart s p v]
  rfl

/-- R86: a release holds none of the named teams, and is done. -/
theorem releaseGo_frees {k : Nat} (hk : k ∈ s.pmNamed p) : ((s.releaseGo p v).team k).held = false := by
  rw [releaseGo_eq, team_congr (pmSettle_teams ..), foldl_pmRelease_held]
  simp [hk]

theorem releaseGo_ends (s : State) (p : Nat) (v : W64) : Ended p s (s.releaseGo p v) := by
  rw [releaseGo_eq]
  refine ended_of_marked (.foldl (marked_pmRelease p) _ _) ?_
  unfold page part
  rw [foldl_pmRelease_parts]
  exact congrArg Page.pmLeft (pmStart_page s p v)

theorem pmreq1Write_refused (hgo : v.getLsbD 0 = true) (hr : s.pmRefused p (v.bits 3 2) = true) :
    s.pmreq1Write p v = s.modPage p fun y => { y with pmErr := true } :=
  (if_neg (by simp [hgo])).trans (if_pos hr)

/-- R84: a refused request changes no team. -/
theorem pmreq1Write_refused_keeps (hgo : v.getLsbD 0 = true) (hr : s.pmRefused p (v.bits 3 2) = true) :
    ((s.pmreq1Write p v).page p).pmErr = true ∧ ((s.pmreq1Write p v).page p).pmBusy = (s.page p).pmBusy ∧
      (s.pmreq1Write p v).teams = s.teams := by
  rw [pmreq1Write_refused hgo hr]
  simp

theorem pmreq1Write_preempt (hgo : v.getLsbD 0 = true) (hop : v.bits 3 2 = 0) (hr : s.pmRefused p 0 = false) :
    s.pmreq1Write p v = s.preemptGo p v :=
  (if_neg (by simp [hgo])).trans ((if_neg (by simp [hop, hr])).trans (if_pos (by simp [hop])))

theorem pmreq1Write_release (hgo : v.getLsbD 0 = true) (hop : v.bits 3 2 = 1) (hr : s.pmRefused p 1 = false) :
    s.pmreq1Write p v = s.releaseGo p v :=
  (if_neg (by simp [hgo])).trans ((if_neg (by simp [hop, hr])).trans (if_neg (by simp [hop])))

end

theorem exec_preempt {s : State} (hgo : s.ev.v.getLsbD 0 = true) (hop : s.ev.v.bits 3 2 ≠ 1) :
    exec .preempt s = .next (s.pmreq1Write s.ev.p s.ev.v) := congrArg Host.Outcome.next (if_pos (by simp [hgo, hop]))

theorem exec_releaseHeld {s : State} (hgo : s.ev.v.getLsbD 0 = true) (hop : s.ev.v.bits 3 2 = 1) :
    exec .releaseHeld s = .next (s.pmreq1Write s.ev.p s.ev.v) := congrArg Host.Outcome.next (if_pos (by simp [hgo, hop]))

/-! ### The estimator's actions (R87, R88) -/

section
variable {s : State} {p k : Nat} {pages : Pinned}

/-- R88: the deadline of a team, counted from the request's arrival at its cluster. -/
def pmDeadline (s : State) (p k : Nat) : Nat := (s.page p).pmAt.get (s.team k).cl 0 + (s.page p).deadline.toNat

/-- The state after the estimator's choice for a team. -/
def pmChosen (s : State) (p k : Nat) : State := s.pmChoose p k (s.pmDeadline p k)

/-- A request that waits for one team acts on it when it reaches the team's cluster. -/
theorem preemptEstimate_one {cl : Nat} (hbusy : (s.page p).pmBusy = true) (hat : ((s.page p).pmAt.find cl).isSome = true)
    (hleft : (s.page p).pmLeft = [k]) (hcl : (s.team k).cl = cl) : s.preemptEstimate p cl = s.pmAct p k := by
  unfold preemptEstimate
  simp [hbusy, hat, hleft, hcl]

theorem pmChosen_team (hc : (s.team k).choice = none) : (s.pmChosen p k).team k =
    { s.team k with
        choice := some (s.estimate p k), drainAt := some (s.pmDeadline p k)
        cause := if s.estimate p k == .drain then some .drain else (s.team k).cause } := by
  have hteam (b : Bool) (j : Nat) : (if b then s else s.breakSwap j).team k = s.team k := by
    cases b
    · exact team_congr (breakSwap_teams ..) k
    · rfl
  unfold pmChosen pmChoose
  dsimp only
  rw [hc, if_neg (by simp), modTeam_team, if_pos rfl, hteam]

theorem pmChosen_quads (s : State) (p k : Nat) : (s.pmChosen p k).quads = s.quads := by
  unfold pmChosen pmChoose
  dsimp only
  split
  · rfl
  · rw [modTeam_quads, apply_ite State.quads, breakSwap_quads, ite_self]

theorem sameSaves_pmChosen (s : State) (p k : Nat) : s.SameSaves (s.pmChosen p k) := by
  unfold pmChosen pmChoose
  dsimp only
  split
  · exact ⟨fun _ => rfl, fun _ => rfl⟩
  · refine sameSaves_of (.trans ?_ (sameMaps_modTeam _ _ _)) ?_ ?_
    · split
      · exact .refl s
      · exact sameMaps_breakSwap ..
    · rw [modTeam_grids, apply_ite State.grids, breakSwap_grids, ite_self]
    · rw [modTeam_plt, apply_ite State.plt, breakSwap_plt, ite_self]

theorem teamRuns_pmChosen (hc : (s.team k).choice = none) : (s.pmChosen p k).teamRuns k = s.teamRuns k := by
  unfold teamRuns quad
  dsimp only
  rw [pmChosen_quads, pmChosen_team hc]

/-- R81: the estimator discards no team that has opened or received a task. -/
theorem taskUser_of_discard (h : s.estimate p k = .discard) : (s.team k).taskUser = false := by
  cases hu : (s.team k).taskUser with
  | false => rfl
  | true =>
    revert h
    unfold estimate
    simp only [hu, Bool.not_true, Bool.and_false, Bool.false_eq_true, if_false]
    split_ifs <;> exact nofun

/-- R88: a team discarded for a request, held, and counted. -/
def pmDiscarded (s : State) (k : Nat) : State :=
  ((((s.pmLate k).discardAll k).modTeam k fun y => { y with held := true }).pmCount k
    fun y => { y with ndisc := Nat.min 65535 (y.ndisc + 1) }).pmReached k

/-- R81, R87, R88: how the choice that stands for a resident team is carried out; `x` is the team before the choice. -/
def pmCarryOut (s : State) (k : Nat) (x : Team) : Option Choice → State
  | some .discard =>
    if s.teamRuns k then s
    else if x.taskUser then
      ((s.breakSwap (coreKey x.cl x.co)).modTeam k fun y => { y with choice := some .save }).pmSave k .preempt
    else s.pmDiscarded k
  | some .save => s.pmSave k .preempt
  | _ => s

theorem pmAct_resident (hst : (s.team k).st = .resident) :
    s.pmAct p k = (s.pmChosen p k).pmCarryOut k (s.team k) ((s.pmChosen p k).team k).choice := by
  unfold pmAct
  dsimp only
  rw [hst]
  rfl

/-- R87: a team for which nothing was chosen yet gets the estimator's action. -/
theorem pmAct_estimates (hst : (s.team k).st = .resident) (hc : (s.team k).choice = none) :
    s.pmAct p k = (s.pmChosen p k).pmCarryOut k (s.team k) (some (s.estimate p k)) := by
  rw [pmAct_resident hst, pmChosen_team hc]

theorem pmCarryOut_drain (s : State) (k : Nat) (x : Team) : s.pmCarryOut k x (some .drain) = s := rfl

theorem pmCarryOut_save (s : State) (k : Nat) (x : Team) : s.pmCarryOut k x (some .save) = s.pmSave k .preempt := rfl

theorem pmCarryOut_waits (x : Team) (hr : s.teamRuns k = true) : s.pmCarryOut k x (some .discard) = s := if_pos hr

theorem pmCarryOut_discards {x : Team} (hr : s.teamRuns k = false) (hu : x.taskUser = false) :
    s.pmCarryOut k x (some .discard) = s.pmDiscarded k := (if_neg (by simp [hr])).trans (if_neg (by simp [hu]))

/-! R88, R133: what is left of a discarded team. -/

/-- R88: a team that is about to be discarded without its core, its pins, its work and its groups. -/
def shed (s : State) (tk : Nat) : State :=
  let x := s.team tk
  let on := x.st == .resident || x.st == .saving || x.st == .restoring || x.st == .moving
  let off := ((if on then s.leaveCore tk else s).unpin (physPages x.pinned)).dropWork tk
  (off.groupsOf tk).foldl (fun s gk => { s with groups := s.groups.erase gk }) off

theorem dropWork_teams (s : State) (tk : Nat) : (s.dropWork tk).teams = s.teams := rfl

theorem shed_teams (s : State) (tk : Nat) : (s.shed tk).teams = s.teams := by
  unfold shed
  dsimp only
  rw [foldl_teams fun s gk => by rfl, dropWork_teams, unpin, apply_ite State.teams, leaveCore_teams, ite_self]

theorem discardTeam_eq (s : State) (tk : Nat) : s.discardTeam tk =
    ((s.shed tk).modTeam tk fun y =>
      { st := .pending, placed := y.placed, held := y.held, cl := y.cl, co := y.co, gen := y.gen + 1
        deliveries := y.deliveries }).settleCore (coreKey (s.team tk).cl (s.team tk).co) := rfl

theorem discardTeam_team (s : State) (tk : Nat) : (s.discardTeam tk).team tk =
    { st := .pending, placed := (s.team tk).placed, held := (s.team tk).held, cl := (s.team tk).cl, co := (s.team tk).co
      gen := (s.team tk).gen + 1, deliveries := (s.team tk).deliveries } := by
  rw [discardTeam_eq, team_congr (settleCore_teams ..), modTeam_team, if_pos rfl, team_congr (shed_teams ..)]

theorem discardAll_team (s : State) (tk : Nat) : (s.discardAll tk).team tk =
    { st := .pending, placed := (s.team tk).placed, held := (s.team tk).held, cl := (s.team tk).cl, co := (s.team tk).co
      gen := (s.team tk).gen + 1, deliveries := (s.team tk).deliveries } := by
  unfold discardAll
  dsimp only
  rw [discardTeam_team]
  simp only [team, withdrawClaims_teams]

theorem pmDiscarded_team (s : State) (k : Nat) : ((s.pmDiscarded k).team k).st = .pending ∧
    ((s.pmDiscarded k).team k).held = true ∧ ((s.pmDiscarded k).team k).gen = (s.team k).gen + 1 := by
  have hteam : (s.pmDiscarded k).team k = { ((s.pmLate k).discardAll k).team k with held := true } := by
    unfold pmDiscarded pmCount
    rw [team_congr (pmReached_teams ..), modPage_team_frame, modTeam_team, if_pos rfl]
  rw [hteam, discardAll_team, team_congr (pmLate_teams ..)]
  exact ⟨rfl, rfl, rfl⟩

/-- R88: a draining team whose deadline has come is saved. -/
theorem drainDeadline_saves {d : Nat} (hd : (s.team k).drainAt = some d) (hst : (s.team k).st = .resident)
    (hc : (s.team k).cause = some .drain) (hle : d ≤ (s.cluster (s.team k).cl).elapsed) (hp : s.savePages k = .ok pages)
    (hroom : s.pltRoom (physPages pages) = true) : (s.drainDeadline k).Saves k .drain pages := by
  have he : s.drainDeadline k = (s.breakSwap (coreKey (s.team k).cl (s.team k).co)).pmSave k .drain := by
    unfold drainDeadline
    dsimp only
    rw [hd]
    exact if_pos (by simp [hst, hc, hle])
  rw [he]
  exact pmSave_saves .drain (sameSaves_breakSwap ..) hp hroom

end

/-! ### The ends of saves and restores (R88, R129) -/

/-- R88: a saved team is held after a pre-emption, or when one was to come. -/
def heldWhenSaved (x : Team) : Bool := x.held || x.wanted || x.cause == some .preempt || x.cause == some .drain

theorem completeSave_team (s : State) (tk : Nat) : ∃ y : Team, (s.completeSave tk).team tk =
    { y with st := .saved, spad := [], held := heldWhenSaved (s.team tk) } := by
  unfold completeSave
  extract_lets g t r x k bat held ofTeam logs floats s1 s2 jobs ended s3 s4 s5 s6 s7 s8
  have h1 : (s1.team tk).held = held := by simp [s1]
  have h5 : s5.teams = s1.teams := calc
    s5.teams = s4.teams := foldl_teams (fun s gk => modGroup_teams s gk shelved) _ _
    _ = s3.teams := leaveSlots_teams ..
    _ = s2.teams := rfl
    _ = s1.teams := putRange_teams ..
  have h6 : s6.teams = s1.teams := (served_wbCore s5 k).teams.trans h5
  have h8 : s8.teams = s7.teams := (served_recheckAll _).teams.trans (settleCore_teams ..)
  have h7 : s7.team tk = { s7.team tk with st := .saved, spad := [], held := (s6.team tk).held } := by simp [s7]
  have hheld : held = heldWhenSaved (s.team tk) := rfl
  clear_value s8 s7 s6 s1 held
  refine ⟨s7.team tk, ?_⟩
  rw [← hheld, ← h1, ← team_congr h6, ← h7]
  refine team_congr (Eq.trans ?_ h8) tk
  split
  · exact (pmReached_teams ..).trans (pmLate_teams ..)
  · exact pmReached_teams ..
  · split
    · exact (pmReached_teams ..).trans (pmLate_teams ..)
    · rfl

theorem completeRestore_team (s : State) (tk : Nat) : ∃ y : Team, (s.completeRestore tk).team tk =
    { y with st := .resident, cause := none, held := false } := by
  unfold completeRestore
  extract_lets g t r x k img m sp s1 lines lb fresh spad s2 ctl s3 s4 s5 s6 s7
  have h3 : s3.team tk = { s3.team tk with st := .resident, cause := none, held := false } := by simp [s3]
  have h5 : s5.team tk = s3.team tk := rfl
  have h6 : s6.team tk = { s3.team tk with batonSaved := none } := by simp [s6, h5]
  have h7 : ∃ b, s7.team tk = { s3.team tk with batonSaved := b } := by
    clear_value s5 s6
    simp only [s7]
    split
    · exact ⟨none, (team_congr (passBaton_teams ..) tk).trans h6⟩
    · exact ⟨_, h5⟩
  clear_value s7
  obtain ⟨b, h7⟩ := h7
  have hend : (((s7.groupsOf tk).foldl reexamine s7).recheckTeam tk).recheckAll.teams = s7.teams :=
    (served_recheckAll _).teams.trans ((recheckTeam_teams ..).trans (foldl_teams reexamine_teams _ _))
  rw [team_congr hend, h7, h3]
  exact ⟨{ s3.team tk with batonSaved := b }, rfl⟩

/-! ### Seniority (R115) -/

/-- Does a group wait for rows. -/
def waitsForRows (x : Group) : Bool :=
  match x.park with
  | some (.reggrow ..) => true
  | _ => false

section
variable {s : State} {k w a : Nat} {l : List Nat} {pages : Pinned}

theorem seniorMost_rowWaiters (hw : s.seniorMost ((s.groupsOfCore k).filter fun gk =>
      (s.team (gk / 32)).st == .resident && waitsForRows (s.group gk)) = some w) :
    s.seniorMost (((s.groupsOfCore k).filter fun gk => (s.team (gk / 32)).st == .resident).filter fun gk =>
      waitsForRows (s.group gk)) = some w := by
  rw [List.filter_filter]
  simpa only [Bool.and_comm] using hw

/-- R115: every group of the core is parked and its senior-most waits for rows, so another team's save begins, the least senior's
first. -/
theorem senioritySave_saves (hw : s.seniorMost ((s.groupsOfCore k).filter fun gk =>
      (s.team (gk / 32)).st == .resident && waitsForRows (s.group gk)) = some w)
    (hpark : ∀ gk ∈ s.groupsOfCore k, s.parked gk = true) (hswap : (s.cluster (k / 6)).swap = none)
    (hres : ∀ u ∈ s.coreTeams k, (s.team u).st = .resident)
    (hleast : s.leastSenior ((s.coreTeams k).filter fun u => u != w / 32) = a :: l) (hp : s.savePages a = .ok pages)
    (hroom : s.pltRoom (physPages pages) = true) : (s.senioritySave k).Saves a .seniority pages := by
  have hall : ((s.groupsOfCore k).filter fun gk => (s.team (gk / 32)).st == .resident).all (fun gk => s.parked gk) = true :=
    List.all_eq_true.2 fun gk hgk => hpark gk (List.mem_of_mem_filter hgk)
  have hsome : ((s.coreTeams k).filter fun u => u != w / 32).isEmpty = false := by
    rw [← Bool.not_eq_true, List.isEmpty_iff]
    intro he
    rw [he] at hleast
    exact absurd hleast nofun
  have hothers : ((s.coreTeams k).filter fun u => u != w / 32).any (fun u => (s.team u).st != .resident) = false :=
    List.any_eq_false.2 fun u hu => by simp [hres u (List.mem_of_mem_filter hu)]
  unfold senioritySave
  dsimp only
  split
  · next hnone => exact absurd ((seniorMost_rowWaiters hw).symm.trans hnone) nofun
  · next w' hsome' =>
    obtain rfl : w' = w := Option.some.inj (hsome'.symm.trans (seniorMost_rowWaiters hw))
    rw [breakSwap_of_none hswap, hall, hsome, hothers, hleast]
    exact saveFirst_saves .seniority l hp hroom

end

end Sys2Proof.Machine.State

namespace Sys2Proof.Proofs

open Sys2Proof Sys2Proof.Machine Sys2Proof.Machine.State

/-- Settles O43, event by event: the request and the release, the estimator by its choices, the deadline, the ends of saves and
restores, and the seniority rule. -/
theorem preemption : Obligations.Preemption := by
  intro s
  refine ⟨fun hgo hop hr => ⟨_, exec_preempt hgo hop, pmreq1Write_refused_keeps hgo hr⟩, fun hgo hop hr => ?_, fun hgo hop hr => ?_,
    fun k hbusy hat hleft hcl hst hcause hchoice => ?_, fun d hd hst hc hle pages hp hroom => ?_, fun hst hstop => ?_,
    fun hst => ?_, fun w a l hw hpark hswap hco hres hleast pages hp hroom => ?_⟩
  · refine ⟨_, exec_preempt hgo (by rw [hop]; decide), ?_⟩
    rw [pmreq1Write_preempt hgo hop hr]
    exact ⟨fun k hk hst => preemptGo_holds hk hst,
      fun h => have he := preemptGo_ends h; ⟨he.done, he.busy, he.told⟩,
      fun h => preemptGo_waits h⟩
  · refine ⟨_, exec_releaseHeld hgo hop, ?_⟩
    rw [pmreq1Write_release hgo hop hr]
    have he := releaseGo_ends s s.ev.p s.ev.v
    exact ⟨fun k hk => releaseGo_frees hk, he.done, he.busy, he.told⟩
  · have hx : exec .preemptEstimate s = .next (s.pmAct s.ev.p k) := congrArg Host.Outcome.next
      (preemptEstimate_one hbusy hat hleft hcl)
    have hteam := pmChosen_team (p := s.ev.p) hchoice
    refine ⟨fun he => ⟨_, hx, ?_⟩, fun he pages hp hroom => ⟨_, hx, ?_⟩, fun he hr => ⟨_, hx, ?_⟩, fun he hr => ⟨_, hx, ?_⟩⟩
    all_goals rw [pmAct_estimates hst hchoice, he]; rw [he] at hteam
    · rw [pmCarryOut_drain, hteam, pmDeadline, hcl]
      exact ⟨rfl, rfl, hst⟩
    · rw [pmCarryOut_save]
      obtain ⟨h1, h2, h3⟩ := pmSave_saves .preempt (sameSaves_pmChosen s s.ev.p k) hp hroom
      exact ⟨h1, h2, h3⟩
    · rw [pmCarryOut_waits _ ((teamRuns_pmChosen hchoice).trans hr), hteam]
      exact ⟨rfl, hst⟩
    · rw [pmCarryOut_discards ((teamRuns_pmChosen hchoice).trans hr) (taskUser_of_discard he)]
      obtain ⟨h1, h2, h3⟩ := pmDiscarded_team (s.pmChosen s.ev.p k) k
      exact ⟨h1, h2, h3.trans (by rw [hteam])⟩
  · obtain ⟨h1, h2, h3⟩ := drainDeadline_saves hd hst hc hle hp hroom
    exact ⟨_, rfl, h1, h2, h3⟩
  · obtain ⟨y, hy⟩ := completeSave_team s (teamKey s.ev.g s.ev.t)
    refine ⟨_, congrArg Host.Outcome.next (if_pos (by simp [hst, hstop])), ?_⟩
    dsimp only
    rw [hy]
    exact ⟨rfl, rfl, fun hc => by simp [heldWhenSaved, hc]⟩
  · obtain ⟨y, hy⟩ := completeRestore_team s (teamKey s.ev.g s.ev.t)
    refine ⟨_, congrArg Host.Outcome.next (if_pos (by simp [hst])), ?_⟩
    dsimp only
    rw [hy]
    exact ⟨rfl, rfl, rfl⟩
  · have hk : coreKey s.ev.cl s.ev.co / 6 = s.ev.cl := by unfold coreKey; omega
    obtain ⟨h1, h2, h3⟩ := senioritySave_saves hw hpark (by rw [hk]; exact hswap) hres hleast hp hroom
    exact ⟨_, rfl, h1, h2, h3⟩

end Sys2Proof.Proofs

/-! ## Words that wait, and words that pass under a false guard (O53) -/

namespace Sys2Proof.Machine.State
open Sys2Proof

/-- A word of a group goes through `issueWord` with its token-wait mask, and what it does after that does nothing while its group
has lanes left and is not parked. -/
def IssuesThrough (s : State) (i : Instr) (h : Hdr) : Prop :=
  ∃ (u : Uses) (eff : Mask → State → Eff) (k : State → State), u.tw = i.twMask ∧ exec i s = .next (k (s.issueWord h u eff)) ∧
    ∀ t : State, (t.group s.curGrp).park = none → (t.group s.curGrp).gone = false → k t = t

theorem IssuesThrough.direct {s : State} {i : Instr} {h : Hdr} (u : Uses) (eff : Mask → State → Eff)
    (hx : exec i s = .next (s.issueWord h u eff)) (hu : u.tw = i.twMask) : s.IssuesThrough i h :=
  ⟨u, eff, id, hu, hx, fun _ _ _ => rfl⟩

theorem groupExit_of_stays {s : State} {gk : Nat} (h : (s.group gk).gone = false) : s.groupExit gk = s := by
  simp [groupExit, h]

theorem readCounter_of_awake {s : State} {gk : Nat} (h : (s.group gk).park = none) : s.readCounter gk = s := by
  simp [readCounter, h]

theorem IssuesThrough.access {s : State} {i : Instr} {h : Hdr} (u : Uses) (rel : Option Nat) (eff : Mask → State → Eff)
    (hx : exec i s = .next (s.accessWord h u rel eff)) (hu : u.tw = i.twMask) : s.IssuesThrough i h :=
  .direct u _ hx hu

theorem IssuesThrough.memory {s : State} {i : Instr} {h : Hdr} (f : MF) (u : Uses) (eff : Mask → State → Eff)
    (hx : exec i s = .next (s.memWord h f u eff)) (hu : u.tw = i.twMask) : s.IssuesThrough i h :=
  .access u _ eff hx hu

theorem IssuesThrough.copy {s : State} {i : Instr} {h : Hdr} (u : Uses) (eff : Mask → State → Eff)
    (hx : exec i s = .next (copyWord s h u eff)) (hu : u.tw = i.twMask) : s.IssuesThrough i h :=
  .access u none eff hx hu

theorem issuesThrough_move {s : State} {i : Instr} {h : Hdr} (f : XF) (kind size : Nat) (u : Uses)
    (hx : exec i s = .next (s.moveWord h i f kind size u)) (hu : u.tw = i.twMask) : s.IssuesThrough i h := by
  unfold moveWord at hx
  exact .access _ _ _ hx hu

/-- `vfclass` has two effects, chosen by its predicate field. -/
theorem issuesThrough_vfclass (s : State) (h : Hdr) (f : V3) : s.IssuesThrough (.vfclass h f) h := by
  by_cases hpd : (f.pd == 0) = true
  · exact .direct _ _ (by simp only [exec, execVfclass, hpd, if_true]; rfl) rfl
  · exact .direct _ _ (by simp only [exec, execVfclass, hpd]; rfl) rfl

theorem issuesThrough_ctlrd {s : State} (h : Hdr) (f : YF) (hc : s.cur.handler = none) : s.IssuesThrough (.ctlrd h f) h :=
  .direct _ _ (by simp only [exec, execCtlrd, hc]; rfl) rfl

theorem issuesThrough_exitWord (s : State) (h : Hdr) (f : CF) : s.IssuesThrough (.exitWord h f) h :=
  ⟨{}, _, fun t => t.groupExit s.curGrp, rfl, rfl, fun _ _ hg => groupExit_of_stays hg⟩

theorem issuesThrough_ctrwait (s : State) (h : Hdr) (f : MF) : s.IssuesThrough (.ctrwait h f) h :=
  ⟨ctrUses f, _, fun t => t.readCounter s.curGrp, rfl, rfl, fun _ hp _ => readCounter_of_awake hp⟩

/-- Every word that a group issues goes through `issueWord`. -/
theorem issuesThrough_of_hdr {s : State} {i : Instr} {h : Hdr} (hh : i.hdr = some h) (ho : i.handlerOnly = false)
    (hc : s.cur.handler = none) : s.IssuesThrough i h := by
  cases i
  case vfclass => cases hh; exact issuesThrough_vfclass s h _
  case ctlrd => cases hh; exact issuesThrough_ctlrd h _ hc
  case exitWord => cases hh; exact issuesThrough_exitWord s h _
  case ctrwait => cases hh; exact issuesThrough_ctrwait s h _
  case ld | st | sld | sst | atomAdd | atomMin | atomMinu | atomMax | atomMaxu | atomAnd | atomOr | atomXor | atomExch | atomCas
      | atomFadd | atomFmin | atomFmax | ctradd | ctrrd => cases hh; exact .memory _ _ _ rfl rfl
  case cpaG2S | cpaS2G | cpaG2G | cpaS2S | cpavGlobal | cpavScratchpad | cptG2S | cptS2G | cpmGlobal | cpmScratchpad =>
    cases hh; exact .copy _ _ rfl rfl
  case maccld | maccst | mcvt => cases hh; exact issuesThrough_move _ _ _ _ rfl rfl
  all_goals cases hh
  all_goals cases ho
  all_goals exact .direct _ _ rfl rfl

/-- A word that a due result or a token keeps from issuing leaves the state as it is. -/
theorem issueWord_of_mustWait {s : State} {h : Hdr} {u : Uses} {eff : Mask → State → Eff} (hw : s.mustWait u = true)
    (hg : laBlocks s.grp s.cur.lanes = true ∨ s.scalarGuard h = true) (hs : s.cur.sec = false) : s.issueWord h u eff = s := by
  by_cases hla : (!s.cur.sec && laBlocks s.grp s.cur.lanes) = true
  · simp only [issueWord, hla, if_true]
  · have hgo : s.scalarGuard h = true := hg.elim (fun hb => by simp [hs, hb] at hla) id
    simp [issueWord, hla, hgo, hw]

/-- R172: a word whose scalar guard is false ends as a word without effect, whatever it names. -/
theorem issueWord_of_falseGuard {s : State} {h : Hdr} {u : Uses} {eff : Mask → State → Eff}
    (hb : laBlocks s.grp s.cur.lanes = false) (hg : s.scalarGuard h = false) : s.issueWord h u eff = s.finish h { s := s } := by
  simp [issueWord, hb, hg]

/-- A word without effect passes. -/
theorem takes_of_finish {s : State} {i : Instr} {h : Hdr} (hx : exec i s = .next (s.finish h { s := s }))
    (hp : s.grp.park = none) (hstep : s.grp.step = false) (hsrun : s.grp.srun = false) : s.Takes i s := by
  have hgrp := finish_done_grp s h { s := s } rfl hp hstep hsrun
  refine ⟨_, hx, passed_of_setPc (x := s.grp) ?_ rfl, finish_done_frame s h { s := s } rfl rfl hp hstep hsrun, ?_⟩
  · rw [hgrp]; rfl
  · rw [hgrp, Group.setPc_rest]; rfl

/-- A word without effect leaves its group on the core and awake. -/
theorem finish_stays {s : State} {h : Hdr} (hp : s.grp.park = none) (hstep : s.grp.step = false) (hsrun : s.grp.srun = false)
    (hgone : s.grp.gone = false) : ((s.finish h { s := s }).group s.curGrp).park = none ∧
      ((s.finish h { s := s }).group s.curGrp).gone = false := by
  have hgrp := finish_done_grp s h { s := s } rfl hp hstep hsrun
  have hcur : (s.finish h { s := s }).curGrp = s.curGrp := by
    unfold curGrp; rw [(finish_done_frame s h { s := s } rfl rfl hp hstep hsrun).cur]
  rw [show (s.finish h { s := s }).group s.curGrp = (s.finish h { s := s }).grp by rw [grp, hcur], hgrp, Group.setPc_rest]
  exact ⟨hp, hgone⟩

end Sys2Proof.Machine.State

namespace Sys2Proof.Proofs
open Sys2Proof Sys2Proof.Machine Sys2Proof.Machine.State

/-- Settles O53: every word of a group goes through `issueWord`, which judges the wait and the scalar guard before all else. -/
theorem guardsAndWaits : Obligations.GuardsAndWaits := by
  intro s i h hh ho hc hsec hp hgone
  obtain ⟨u, eff, k, htw, hx, hk⟩ := issuesThrough_of_hdr hh ho hc
  refine ⟨fun hb => ?_, fun hb hg hstep hsrun => ?_, fun hb hg ht => ?_⟩
  · have hw : s.mustWait u = true := by simp [mustWait, hsec, hb]
    rw [hx, issueWord_of_mustWait hw (.inl hb) hsec, hk s hp hgone]
  · obtain ⟨hp', hgone'⟩ := finish_stays (h := h) hp hstep hsrun hgone
    rw [issueWord_of_falseGuard hb hg, hk _ hp' hgone'] at hx
    exact takes_of_finish hx hp hstep hsrun
  · have hw : s.mustWait u = true := by simp [mustWait, hsec, htw, ht]
    rw [hx, issueWord_of_mustWait hw (.inr hg) hsec, hk s hp hgone]

end Sys2Proof.Proofs

/-! ## Results that are due (O7) -/

namespace Sys2Proof.Machine.State
open Sys2Proof

/-- R107: the result that a word adds to those its group has due. -/
def freshDue (s : State) (la : Nat) (dst : List (Nat × Nat)) (ws : List RegWr) (left : Nat) : Due :=
  { id := s.nextId, pc := s.cur.pc, la := la, mask := s.cur.lanes, dst := dst, writes := ws, left := left }

theorem addDue_grp (s : State) (la : Nat) (dst : List (Nat × Nat)) (ws : List RegWr) (left : Nat) :
    (s.addDue la dst ws left).grp = { s.grp with due := s.grp.due ++ [s.freshDue la dst ws left] } := by
  unfold addDue
  simp only [modGrp_grp]
  rw [← overPrimary_grp s ((dst.filter fun w => w.1 == 1).map Prod.snd)]
  rfl

@[simp] theorem addDue_cur (s : State) (la : Nat) (dst : List (Nat × Nat)) (ws : List RegWr) (left : Nat) :
    (s.addDue la dst ws left).cur = s.cur := by
  unfold addDue; simp [modGrp]

theorem keepsIssuer_addDue (s : State) (la : Nat) (dst : List (Nat × Nat)) (ws : List RegWr) (left : Nat) :
    s.KeepsIssuer (s.addDue la dst ws left) where
  cur := addDue_cur ..
  step := by rw [addDue_grp]
  srun := by rw [addDue_grp]
  exited := by rw [addDue_grp]

theorem onlyGroup_countIf (s : State) (b : Bool) (cl off n : Nat) : s.OnlyGroup (if b then s.count cl off n else s) := by
  split
  · exact onlyGroup_count s cl off n
  · exact OnlyGroup.refl s

theorem countIf_grp (s : State) (b : Bool) (cl off n : Nat) : (if b then s.count cl off n else s).grp = s.grp := by
  split <;> rfl

/-- The words in flight count the word that has issued, but not its own result. -/
theorem mem_due_countLa {x : Group} {d : Due} {before : Nat} (m : Mask) (hd : d ∈ x.due) (hid : d.id = before) :
    d ∈ (countLa x before m).due := by
  unfold countLa
  exact List.mem_map.2 ⟨d, hd, by simp [hid]⟩

section
variable {s e : State} {h : Hdr} {i : Instr} {W : List RegWr → Prop} {dst : List (Nat × Nat)} {ws : List RegWr} {left : Nat}

/-- A word that goes on and whose effect, leaving the registers, added a result. -/
theorem Takes.defers (ht : s.Takes i e) (hregs : e.grp.regs = s.grp.regs)
    (hdue : s.freshDue h.la.toNat dst ws left ∈ e.grp.due) (hW : W ws) : s.Defers h i W left := by
  obtain ⟨t, hx, hpass, -, hgrp⟩ := ht
  refine ⟨t, hx, hpass, ?_, s.freshDue h.la.toNat dst ws left, ?_, rfl, rfl, rfl, rfl, rfl, hW, rfl⟩
  · rw [hgrp]; exact hregs
  · rw [hgrp]; exact mem_due_countLa s.cur.lanes hdue rfl

/-- A word whose effect adds a result and then changes nothing of its group defers. -/
theorem defers_of_issue {u : Uses} {eff : Mask → State → Eff} (hx : exec i s = .next (s.issueWord h u eff))
    (hi : s.Issues h u.tw) (hu : s.issueCheck h u (s.activeLanes h) = none) (he : eff (s.activeLanes h) s = { s := e })
    (hk : (s.addDue h.la.toNat dst ws left).OnlyGroup e) (hg : e.grp = (s.addDue h.la.toNat dst ws left).grp) (hW : W ws) :
    s.Defers h i W left := by
  have hi' := (keepsIssuer_addDue s h.la.toNat dst ws left).trans (.of_grp hk.cur hg)
  refine (takes_of_issue hx hi hu he hi').defers (dst := dst) ?_ ?_ hW <;> rw [hg, addDue_grp]
  exact List.mem_append_right _ (List.mem_singleton.2 rfl)

/-- A long-latency vector result over the active lanes. -/
theorem defers_dueV {u : Uses} {eff : Mask → State → Eff} {vd : BitVec 8} {x : VArg} {val : Nat → W32} {pois : Nat → Bool}
    (hx : exec i s = .next (s.issueWord h u eff)) (hi : s.Issues h u.tw)
    (hu : s.issueCheck h u (s.activeLanes h) = none)
    (he : eff (s.activeLanes h) s = { s := s.dueV h vd (s.activeLanes h) x })
    (hv : ∀ l, l < 128 → (s.activeLanes h).getLsbD l = true → x.vals.getD l 0 = val l)
    (hp : ∀ l, l < 128 → x.pois.getLsbD l = pois l) :
    s.Defers h i (fun ws => ∃ w, ws = [w] ∧ VecWr (s.activeLanes h) vd.toNat val pois w) 0 :=
  defers_of_issue hx hi hu he (onlyGroup_countPois _ _) (countPois_grp _ _)
    ⟨_, rfl, _, _, rfl, fun l hl ha => ⟨hv l hl ha, hp l hl⟩⟩

/-- The registers of a reduction or scan, or of a one-source word, pass the checks of issue. -/
theorem oneSource_check {f : V3} {u : Uses} (hl : s.grp.sla = false) (hb : s.Below [f.vd, f.va])
    (hu : u = { vr := [f.va.toNat], vw := [f.vd.toNat] }) : s.issueCheck h u (s.activeLanes h) = none := by
  subst hu
  refine issueCheck_none s h _ _ hl rfl rfl (fun n hn => ?_) (fun n hn => by cases hn)
  simp only [List.cons_append, List.nil_append, List.mem_cons, List.not_mem_nil, or_false] at hn
  obtain rfl | rfl := hn
  · exact hb f.vd (by simp)
  · exact hb f.va (by simp)

/-- What a long-latency one-source word leaves due. -/
theorem v3OneLong_defers {f : V3} (op : W32 → W32) (hi : s.Issues h 0) (hb : s.Below [f.vd, f.va])
    (hx : exec i s = .next (v3OneLong h f op s)) :
    s.Defers h i (fun ws => ∃ w, ws = [w] ∧ VecWr (s.activeLanes h) f.vd.toNat (fun l => op (s.src.lane f.va.toNat l))
      (fun l => (s.src.vgetPois f.va.toNat).getLsbD l) w) 0 :=
  defers_dueV hx hi (oneSource_check hi.noStrictLook hb rfl) rfl (fun l hl _ => lanes1_at op _ l hl) fun _ _ => rfl

/-- What a long-latency two-source word leaves due. -/
theorem v3TwoLong_defers {f : V3} (op : W32 → W32 → W32) (hi : s.Issues h 0) (hf : s.FitsV3 f)
    (hx : exec i s = .next (v3TwoLong h f op s)) :
    s.Defers h i (fun ws => ∃ w, ws = [w] ∧ VecWr (s.activeLanes h) f.vd.toNat
      (fun l => op (s.src.lane f.va.toNat l) (s.srcB f l))
      (fun l => (s.src.vgetPois f.va.toNat).getLsbD l || s.srcBPois f l) w) 0 := by
  refine defers_dueV hx hi (v3_check s h f _ _ _ hi.noStrictLook hf (by simp)) rfl (fun l hl _ => ?_) (fun l hl => ?_)
  · rw [lanes2_at op _ _ l hl, argB_at f _ l hl]; rfl
  · rw [lanes2, BitVec.getLsbD_or, argB_pois f _ l hl]; rfl

/-- What a reduction leaves due: one value in the active lanes, and with IMM8[5] in an s register. -/
theorem reduceWord_defers {f : V3} (value : Mask → VArg → Nat → W32) (hi : s.Issues h 0) (hb : s.Below [f.vd, f.va])
    (hx : exec i s = .next (reduceWord h f value s)) :
    let act := s.activeLanes h
    let a := s.src.varg f.va
    s.Defers h i (fun ws => ∃ w l, ws = w :: l ∧
      VecWr act f.vd.toNat (fun _ => value act a 128) (fun _ => prefixPois act a 128) w ∧
      l = if f.imm8.getLsbD 5 then
        [.scal (f.vb.toNat % 64) ((value act a 128).setWidth 64) (if prefixPois act a 128 then 1 else 0)] else []) 0 := by
  intro act a
  refine defers_of_issue (dst := (0, f.vd.toNat) :: if f.imm8.getLsbD 5 then [(1, f.vb.toNat % 64)] else [])
    (ws := .vec f.vd.toNat act (splat (value act a 128)) (if prefixPois act a 128 then Mask.full else 0) ::
      if f.imm8.getLsbD 5 then
        [.scal (f.vb.toNat % 64) ((value act a 128).setWidth 64) (if prefixPois act a 128 then 1 else 0)] else [])
    hx hi (oneSource_check hi.noStrictLook hb rfl) rfl ((onlyGroup_countIf _ _ _ _ _).trans (onlyGroup_countPois _ _))
    ((countPois_grp _ _).trans (countIf_grp _ _ _ _ _)) ⟨_, _, rfl, ⟨_, _, rfl, fun l hl _ => ⟨splat_at _ l hl, ?_⟩⟩, rfl⟩
  split
  · next hp => rw [getLsbD_full l hl]; exact hp.symm
  · next hp => simpa using hp

/-- What a scan leaves due. -/
theorem scanWord_defers {f : V3} (value : Mask → VArg → Nat → W32) (hi : s.Issues h 0) (hb : s.Below [f.vd, f.va])
    (hx : exec i s = .next (scanWord h f value s)) :
    let act := s.activeLanes h
    let a := s.src.varg f.va
    let n := fun l => if f.imm8.getLsbD 4 then l else l + 1
    s.Defers h i (fun ws => ∃ w, ws = [w] ∧ VecWr act f.vd.toNat (fun l => value act a (n l))
      (fun l => prefixPois act a (n l)) w) 0 := by
  intro act a n
  refine defers_dueV hx hi (oneSource_check hi.noStrictLook hb rfl) rfl (fun l hl hact => ?_) (fun l hl => getLsbD_maskOf _ l hl)
  rw [getD_range_map _ _ _ hl]
  exact if_pos hact

end

end Sys2Proof.Machine.State

namespace Sys2Proof.Proofs
open Sys2Proof Sys2Proof.Machine Sys2Proof.Machine.State

/-- Settles O7: each word is one of the shapes `v3OneLong`, `v3TwoLong`, `reduceWord` and `scanWord`, which add one result. -/
theorem vectorLongLatency : Obligations.VectorLongLatency := by
  intro s h f hi hb
  exact ⟨fun hf => v3TwoLong_defers _ hi hf rfl, v3OneLong_defers _ hi hb rfl, v3OneLong_defers _ hi hb rfl,
    v3OneLong_defers _ hi hb rfl, v3OneLong_defers _ hi hb rfl, v3OneLong_defers _ hi hb rfl, v3OneLong_defers _ hi hb rfl,
    v3OneLong_defers _ hi hb rfl, v3OneLong_defers _ hi hb rfl, v3OneLong_defers _ hi hb rfl,
    reduceWord_defers _ hi hb rfl, reduceWord_defers _ hi hb rfl, scanWord_defers _ hi hb rfl, scanWord_defers _ hi hb rfl⟩

end Sys2Proof.Proofs

/-! ## What a lane load leaves due (O21) -/

namespace Sys2Proof.Machine.State
open Sys2Proof

/-- An operation leaves the word's context, and of the word's group its registers, its results due, and what the end
of the word looks at. -/
structure LeavesIssuer (s t : State) : Prop extends s.KeepsIssuer t where
  regs : t.grp.regs = s.grp.regs
  due : t.grp.due = s.grp.due

theorem LeavesIssuer.trans {s t u : State} (h : s.LeavesIssuer t) (k : t.LeavesIssuer u) : s.LeavesIssuer u :=
  ⟨h.toKeepsIssuer.trans k.toKeepsIssuer, k.regs.trans h.regs, k.due.trans h.due⟩

theorem LeavesIssuer.of_served {s t : State} (h : s.Served t) : s.LeavesIssuer t := by
  have hg : t.grp = t.group s.curGrp := by unfold grp curGrp; rw [h.cur]
  exact ⟨.of_served h, hg ▸ h.regs _, hg ▸ h.due _⟩

theorem leavesIssuer_modCore (s : State) (k : Nat) (f : Core → Core) : s.LeavesIssuer (s.modCore k f) :=
  ⟨.of_grp rfl rfl, rfl, rfl⟩

theorem leavesIssuer_sampled (s : State) : s.LeavesIssuer (s.modGrp fun x => { x with replays := 0, forced := false }) :=
  ⟨keepsIssuer_modGroup s _ (fun _ => rfl) (fun _ => rfl) fun _ => rfl, by simp, by simp⟩

theorem leavesIssuer_sampleIssue (s0 s : State) (act : Mask) (n : Nat) (store : Bool) :
    s.LeavesIssuer (s0.sampleIssue s act n store) := by
  have hfirst := leavesIssuer_sampled s
  unfold sampleIssue
  dsimp only
  split
  · exact hfirst
  · split
    · exact (hfirst.trans (leavesIssuer_modCore ..)).trans (leavesIssuer_modCore ..)
    · exact hfirst.trans (leavesIssuer_modCore ..)

theorem sampleIssue_flights (s0 s : State) (act : Mask) (n : Nat) (store : Bool) :
    (s0.sampleIssue s act n store).flights = s.flights := by
  unfold sampleIssue
  dsimp only
  split
  · rfl
  · split <;> rfl

theorem leavesIssuer_launch (s : State) (b : Body) (acq : Option (Nat × Bool)) : s.LeavesIssuer (s.launch b acq).2 :=
  ⟨.of_grp rfl rfl, rfl, rfl⟩

/-! ### The operations before the bytes are read -/

theorem served_countIf (s : State) (b : Bool) (cl off n : Nat) : s.Served (if b then s.count cl off n else s) :=
  .ite (fun _ => served_count ..) fun _ => .refl s

theorem served_countMisal (s : State) (b : Bool) : s.Served (s.countMisal b) := served_countIf ..

theorem served_countOver (s : State) (ps : List Piece) : s.Served (s.countOver ps) := by
  unfold countOver
  exact .ite (fun _ => .refl s) fun _ => served_count ..

theorem served_acquireNow (s : State) (f : MF) : s.Served (s.acquireNow f) :=
  .ite (fun _ => (served_promoteFor ..).trans (served_acquireEnds ..)) fun _ => .refl s

theorem served_touchPages (s : State) (a : Acc) (ps : List GPiece) : s.Served (s.touchPages a ps) :=
  .foldl (fun _ _ => served_xlatTouch ..) _ s

theorem served_fillSector (s : State) (k sec : Nat) : s.Served (s.fillSector k sec) :=
  .ite (fun _ => served_l1Room ..) fun _ => (served_l1Room ..).trans (served_modCore fun _ => rfl)

theorem served_glLoad (s : State) (k pa mt n : Nat) : s.Served (s.glLoad k pa mt n).1 := by
  unfold glLoad
  split
  · exact .refl s
  · split
    · exact served_dropRange ..
    · exact .foldl (fun _ _ => served_fillSector ..) _ s

theorem served_readGlobs (s : State) (qs : List GPiece) : s.Served (s.readGlobs qs).1 :=
  .foldl (fun _ _ => served_glLoad ..) _ s

theorem readSpads_of_served {s t : State} (h : s.Served t) (ps : List Piece) : t.readSpads ps = s.readSpads ps := by
  have hc : t.curTeam = s.curTeam := by unfold curTeam; rw [h.cur]
  have hg : t.curGrid = s.curGrid := by unfold curGrid; rw [h.cur, h.grid]
  unfold readSpads
  rw [hc, hg, h.team]

theorem freshDue_of_served {s t : State} (h : s.Served t) (la : Nat) (dst : List (Nat × Nat)) (ws : List RegWr) (left : Nat) :
    t.freshDue la dst ws left = s.freshDue la dst ws left := by
  have hn : t.nextId = s.nextId := by rw [h.rest]
  unfold freshDue
  rw [h.cur, hn]

theorem addDue_nextId (s : State) (la : Nat) (dst : List (Nat × Nat)) (ws : List RegWr) (left : Nat) :
    (s.addDue la dst ws left).nextId = s.nextId + 1 := by
  unfold addDue overPrimary
  dsimp only
  split <;> rfl

/-! ### Words of the access layout -/

section
variable {s e : State} {h : Hdr} {i : Instr} {f : MF} {regs : List Nat} {dst : List (Nat × Nat)} {ws : List RegWr} {left : Nat}

/-- A word of the access layout that is ready reaches its effect, past acquires and releases (R169). -/
theorem takes_of_memWord {u : Uses} {eff : Mask → State → Eff} (hx : exec i s = .next (s.memWord h f u eff))
    (hm : s.MemReady h f regs) (htw : u.tw = f.tw) (hu : s.issueCheck h u (s.activeLanes h) = none)
    (he : eff (s.activeLanes h) s = { s := e }) (hk : s.KeepsIssuer e) : s.Takes i e := by
  have hrel : ((if f.isRel then some f.scp.toNat else none).bind fun x => s.releaseWait x) = none := by
    by_cases hr : f.isRel = true
    · simpa [hr] using hm.released hr
    · simp [hr]
  unfold memWord accessWord at hx
  refine takes_of_issue (b := false) hx (htw ▸ hm.issues) hu ?_ hk
  simp only [hm.noAcquire, hrel]
  exact he

/-- The registers of a lane word pass the checks of issue. -/
theorem laneUses_check {load : Bool} (hm : s.MemReady h f (f.addrRegs ++ f.dataRegs)) :
    s.issueCheck h (laneUses f load) (s.activeLanes h) = none := by
  refine issueCheck_none s h _ _ hm.issues.noStrictLook rfl rfl (fun n hn => hm.below n ?_) (fun n hn => by cases hn)
  cases load <;> simp [laneUses] at hn ⊢ <;> tauto

/-- A word whose effect adds a result after operations that leave its group alone, and samples itself. -/
theorem adds_due {s1 e : State} (h1 : s.Served s1) (he : (s1.addDue h.la.toNat dst ws left).LeavesIssuer e) :
    s.KeepsIssuer e ∧ e.grp.regs = s.grp.regs ∧ s.freshDue h.la.toNat dst ws left ∈ e.grp.due := by
  refine ⟨((KeepsIssuer.of_served h1).trans (keepsIssuer_addDue ..)).trans he.toKeepsIssuer, ?_, ?_⟩
  · rw [he.regs, addDue_grp]; exact (LeavesIssuer.of_served h1).regs
  · rw [he.due, addDue_grp, freshDue_of_served h1]
    exact List.mem_append_right _ (List.mem_singleton.2 rfl)

/-- A lane load whose bytes are read at issue. -/
theorem ld_defers {s1 : State} {res : SMap (List PByte)} {n : Nat} (hm : s.MemReady h f (f.addrRegs ++ f.dataRegs))
    (hact : s.activeLanes h ≠ 0) (h1 : s.Served s1)
    (he : effLd h f (s.activeLanes h) s = s.loadDue s1 h f (s.activeLanes h) res n) :
    s.Defers h (.ld h f) (fun ws =>
      ws = vecWrites f.vd.toNat f.dataRegs.length (s.activeLanes h) (res.map fun e => (e.1, loadWords f.sx e.2))) 0 := by
  unfold loadDue at he
  rw [if_neg (by simpa using hact)] at he
  obtain ⟨hk, hregs, hdue⟩ := adds_due (h := h) h1 (leavesIssuer_sampleIssue s _ (s.activeLanes h) n false)
  exact (takes_of_memWord (u := laneUses f true) rfl hm rfl (laneUses_check hm) he hk).defers hregs hdue rfl

theorem ld_global (hm : s.MemReady h f (f.addrRegs ++ f.dataRegs)) (hact : s.activeLanes h ≠ 0) (ht : s.mTarget f = .glob)
    (hfail : (s.lookup .load (s.mPieces f (s.activeLanes h))).2 = [])
    (hord : s.orderHeld .load (s.lookup .load (s.mPieces f (s.activeLanes h))).1 = false) :
    let ps := s.mPieces f (s.activeLanes h)
    let x := (((s.countMisal (ps.any fun p => p.n != f.size)).acquireNow f).touchPages .load (s.lookup .load ps).1).readGlobs
      (s.lookup .load ps).1
    s.Defers h (.ld h f) (fun ws =>
      ws = vecWrites f.vd.toNat f.dataRegs.length (s.activeLanes h) (x.2.map fun e => (e.1, loadWords f.sx e.2))) 0 := by
  intro ps x
  refine ld_defers (s1 := x.1) (n := sectorCount ps) hm hact ?_ ?_
  · exact (((served_countMisal ..).trans (served_acquireNow ..)).trans (served_touchPages ..)).trans (served_readGlobs ..)
  · simp [effLd, ht, hfail, hm.clean, hord, x, ps]

theorem ld_own (hm : s.MemReady h f (f.addrRegs ++ f.dataRegs)) (hact : s.activeLanes h ≠ 0) (ht : s.mTarget f = .own)
    (habs : s.absentLines (s.mPieces f (s.activeLanes h)) = []) :
    s.Defers h (.ld h f) (fun ws => ws = vecWrites f.vd.toNat f.dataRegs.length (s.activeLanes h)
      ((s.readSpads (s.mPieces f (s.activeLanes h))).map fun e => (e.1, loadWords f.sx e.2))) 0 := by
  have h1 : s.Served (((s.countMisal ((s.mPieces f (s.activeLanes h)).any fun p => p.n != f.size)).acquireNow f).countOver
      (s.mPieces f (s.activeLanes h))) :=
    ((served_countMisal ..).trans (served_acquireNow ..)).trans (served_countOver ..)
  refine ld_defers (n := wordCount (s.mPieces f (s.activeLanes h))) hm hact h1 ?_
  rw [← readSpads_of_served h1]
  simp [effLd, ht, habs, hm.clean]

theorem ld_gone (hm : s.MemReady h f (f.addrRegs ++ f.dataRegs)) (hact : s.activeLanes h ≠ 0) (ht : s.mTarget f = .gone) :
    s.Defers h (.ld h f) (fun ws => ws = vecWrites f.vd.toNat f.dataRegs.length (s.activeLanes h)
      (((s.activeLanes h).lanes.map fun l => (l, List.replicate f.size ((0, false) : PByte))).map fun e =>
        (e.1, loadWords f.sx e.2))) 0 := by
  have h1 : s.Served (((s.countMisal ((s.mPieces f (s.activeLanes h)).any fun p => p.n != f.size)).acquireNow f).count
      s.cur.cl 0x110 (s.mPieces f (s.activeLanes h)).length) :=
    ((served_countMisal ..).trans (served_acquireNow ..)).trans (served_count ..)
  refine ld_defers (n := wordCount (s.mPieces f (s.activeLanes h))) hm hact h1 ?_
  simp [effLd, ht, hm.clean]

/-- What a remote lane load leaves: a result with one part outstanding, and the operation on its way. -/
theorem ld_remote {u : Nat} (hm : s.MemReady h f (f.addrRegs ++ f.dataRegs)) (hact : s.activeLanes h ≠ 0)
    (ht : s.mTarget f = .rem u) : ∃ t, exec (.ld h f) s = .next t ∧ s.Passed t ∧ t.grp.regs = s.grp.regs ∧
      s.freshDue h.la.toNat (f.dataRegs.map fun r => (0, r)) [] 1 ∈ t.grp.due ∧
      s.Sends t (.remLoad u f.size ((s.activeLanes h).lanes.map fun l => (l, s.mSum f l)) s.nextId f.vd.toNat false f.sx) := by
  let ps := s.mPieces f (s.activeLanes h)
  let b := Body.remLoad u f.size ((s.activeLanes h).lanes.map fun l => (l, s.mSum f l)) s.nextId f.vd.toNat false f.sx
  let acq := if f.isAcq then some (f.scp.toNat, f.rmt) else none
  let s1 := s.countMisal (ps.any fun p => p.n != f.size)
  let s2 := s1.addDue h.la.toNat (f.dataRegs.map fun r => (0, r)) [] 1
  have h1 : s.Served s1 := served_countMisal ..
  obtain ⟨hk, hregs, hdue⟩ := adds_due (h := h) h1 ((leavesIssuer_launch s2 b acq).trans
    (leavesIssuer_sampleIssue s _ (s.activeLanes h) (wordCount ps) false))
  have hact' : (s.activeLanes h == 0) = false := by simpa using hact
  have he : effLd h f (s.activeLanes h) s = { s := s.sampleIssue (s2.launch b acq).2 (s.activeLanes h) (wordCount ps) false } := by
    simp only [effLd, ht, hm.clean, hact']
    rfl
  obtain ⟨t, hx, hpass, hot, hgrp⟩ :=
    takes_of_memWord (i := .ld h f) (u := laneUses f true) rfl hm rfl (laneUses_check hm) he hk
  have hfl : t.flights = s2.flights ++ [
      { id := s2.nextId, g := s2.cur.g, t := s2.cur.t, grp := s2.cur.grp, core := s2.curCore, cmd := s2.nextId, acq := acq
        body := b }] :=
    (congrArg State.flights hot.device).trans (sampleIssue_flights ..)
  refine ⟨t, hx, hpass, by rw [hgrp]; exact hregs, ?_, _, hfl ▸ List.mem_append_right _ (List.mem_singleton.2 rfl), rfl, ?_⟩
  · rw [hgrp]; exact mem_due_countLa s.cur.lanes hdue rfl
  · have hc : s2.cur = s.cur := (addDue_cur ..).trans h1.cur
    have hn : s2.nextId = s.nextId + 1 := (addDue_nextId ..).trans (by rw [h1.rest])
    simp [hn, hc, curCore]

end

end Sys2Proof.Machine.State

namespace Sys2Proof.Proofs
open Sys2Proof Sys2Proof.Machine Sys2Proof.Machine.State

/-- Settles O21, target by target: what happens before the bytes are read leaves the group alone. -/
theorem laneLoad : Obligations.LaneLoad := by
  intro s h f hm hact
  refine ⟨fun ht hfail hord => ld_global hm hact ht hfail hord, fun ht habs => ld_own hm hact ht habs, fun u ht => ?_,
    fun ht => ld_gone hm hact ht⟩
  obtain ⟨t, hx, hpass, hregs, hdue, hsends⟩ := ld_remote hm hact ht
  exact ⟨t, hx, hpass, hregs, ⟨_, hdue, rfl, rfl, rfl, rfl⟩, hsends⟩

end Sys2Proof.Proofs

/-! ## The end of a group (O16) -/

namespace Sys2Proof.Machine.State
open Sys2Proof

theorem grp_of_cur {s t : State} (h : t.cur = s.cur) : t.grp = t.group s.curGrp := by unfold grp curGrp; rw [h]

theorem OnlyGroup.coreOfGrp {s t : State} (h : s.OnlyGroup t) (gk : Nat) : t.coreOfGrp gk = s.coreOfGrp gk := by
  have hcl : (t.team (gk / 32)).cl = (s.team (gk / 32)).cl := (congrArg Team.cl (h.teams (gk / 32)) :)
  have hco : (t.team (gk / 32)).co = (s.team (gk / 32)).co := (congrArg Team.co (h.teams (gk / 32)) :)
  exact congrArg₂ coreKey hcl hco

/-- What the departure of a group leaves of the others: a group that is not parked keeps all but a baton that it is owed, and no
quadrant gets a group. -/
structure Departs (s t : State) : Prop where
  cur : t.cur = s.cur
  awake : ∀ j, (s.group j).park = none → { t.group j with batonDue := false } = { s.group j with batonDue := false }
  slots : ∀ q e, e ∈ (t.quad q).slots → e ∈ (s.quad q).slots

namespace Departs

variable {s t u : State}

theorem of_same (hc : t.cur = s.cur) (hg : t.groups = s.groups) (hq : t.quads = s.quads) : s.Departs t where
  cur := hc
  awake j _ := by unfold group; rw [hg]
  slots q e he := by unfold State.quad at he ⊢; rwa [hq] at he

theorem refl (s : State) : s.Departs s := of_same rfl rfl rfl

theorem park (h : s.Departs t) {j : Nat} (hj : (s.group j).park = none) : (t.group j).park = none :=
  (congrArg Group.park (h.awake j hj)).trans hj

theorem due (h : s.Departs t) {j : Nat} (hj : (s.group j).park = none) : (t.group j).due = (s.group j).due :=
  (congrArg Group.due (h.awake j hj)).trans rfl

theorem exited (h : s.Departs t) {j : Nat} (hj : (s.group j).park = none) : (t.group j).exited = (s.group j).exited :=
  (congrArg Group.exited (h.awake j hj)).trans rfl

theorem quad (h : s.Departs t) {j : Nat} (hj : (s.group j).park = none) : (t.group j).quad = (s.group j).quad :=
  (congrArg Group.quad (h.awake j hj)).trans rfl

theorem trans (h : s.Departs t) (k : t.Departs u) : s.Departs u where
  cur := k.cur.trans h.cur
  awake j hj := (k.awake j (h.park hj)).trans (h.awake j hj)
  slots q e he := h.slots q e (k.slots q e he)

theorem foldl {α : Type} {f : State → α → State} (hf : ∀ (s : State) a, s.Departs (f s a)) (l : List α) (s : State) :
    s.Departs (l.foldl f s) := by
  induction l generalizing s with
  | nil => exact refl s
  | cons a l ih => exact (hf s a).trans (ih _)

theorem ite {c : Prop} [Decidable c] (h : s.Departs t) (k : s.Departs u) : s.Departs (if c then t else u) := by
  split
  · exact h
  · exact k

theorem of_handed (h : s.Handed t) : s.Departs t where
  cur := h.cur
  awake j hj := by rw [h.awake j hj]
  slots q e he := by
    have hq : t.quad q = s.quad q := by rw [h.rest]; rfl
    rwa [hq] at he

end Departs

theorem departs_modCore (s : State) (k : Nat) (f : Core → Core) : s.Departs (s.modCore k f) := .of_same rfl rfl rfl

theorem departs_modPage (s : State) (p : Nat) (f : Page → Page) : s.Departs (s.modPage p f) := .of_same rfl rfl rfl
theorem departs_modTeam (s : State) (k : Nat) (f : Team → Team) : s.Departs (s.modTeam k f) := .of_same rfl rfl rfl
theorem departs_unpin (s : State) (l : List Nat) : s.Departs (s.unpin l) := .of_same rfl rfl rfl
theorem departs_send (s : State) (m : Msg) : s.Departs (s.send m) := .of_same rfl rfl rfl

theorem departs_giveBaton (s : State) (k gk : Nat) :
    s.Departs ((s.modCore k fun c => { c with baton := some gk }).modGroup gk fun x => { x with batonDue := false }) where
  cur := rfl
  awake j _ := by
    rw [modGroup_group]
    split
    · next h => subst h; rfl
    · rfl
  slots _ _ he := he

theorem departs_passBaton (s : State) (k fuel : Nat) : s.Departs (s.passBaton k fuel) := by
  induction fuel generalizing s with
  | zero => exact .refl s
  | succ fuel ih =>
    unfold passBaton
    split
    · exact .refl s
    · split
      · exact .refl s
      · next gk rest _ =>
        refine (departs_modCore s k fun c => { c with batonWait := rest }).trans ?_
        dsimp only
        split
        · next hp =>
          rw [modCore_group_frame] at hp
          refine (departs_giveBaton _ k gk).trans (.of_handed (handed_wake ?_))
          simp [hp]
        · next hp =>
          exact (Departs.of_handed (handed_wake (by rw [hp]; exact nofun))).trans (ih _)
        · split
          · exact departs_giveBaton _ k gk
          · exact ih _

theorem departs_dropBaton (s : State) (k gk : Nat) : s.Departs (s.dropBaton k gk) := by
  unfold dropBaton
  dsimp only
  split
  · exact ((departs_modCore s k _).trans (departs_modCore _ k _)).trans (departs_passBaton ..)
  · exact departs_modCore s k _

/-- A quadrant whose list of groups is cut. -/
theorem departs_cutSlots (s : State) (qk : Nat) (keep : Nat × Nat → Bool) (run : Quad → Option Run) :
    s.Departs (s.modQuad qk fun q => { q with slots := q.slots.filter keep, run := run q }) where
  cur := rfl
  awake _ _ := rfl
  slots q e he := by
    rw [modQuad_quad] at he
    split at he
    · next h => subst h; exact (List.mem_filter.1 he).1
    · exact he

theorem departs_leaveSlot (s : State) (k gk : Nat) : s.Departs (s.leaveSlot k gk) :=
  ((departs_cutSlots s _ _ _).trans (departs_dropBaton ..)).trans (.of_handed (handed_grantRows ..))

/-- A group that has left its slot has none in its quadrant. -/
theorem leaveSlot_slots (s : State) (k gk : Nat) {e : Nat × Nat}
    (he : e ∈ ((s.leaveSlot k gk).quad (4 * k + (s.group gk).quad)).slots) : e.2 ≠ gk := by
  have hmem := ((departs_dropBaton _ k gk).trans (.of_handed (handed_grantRows _ _ 24))).slots _ _ he
  rw [modQuad_quad, if_pos rfl] at hmem
  simpa using (List.mem_filter.1 hmem).2

/-! ### A team leaves its core -/

theorem departs_wbCore (s : State) (k : Nat) : s.Departs (s.wbCore k) :=
  .foldl (fun s sec => by
    unfold wbSector
    split
    · exact .refl s
    · exact .ite (.refl s) (.of_same rfl rfl rfl)) _ s

theorem departs_leaveCore (s : State) (tk : Nat) : s.Departs (s.leaveCore tk) :=
  ((((departs_modCore s _ _).trans (.foldl (fun s gk => departs_leaveSlot s _ gk) _ _)).trans (departs_wbCore ..)).trans
    (departs_modCore ..))

theorem departs_settleCore (s : State) (k : Nat) : s.Departs (s.settleCore k) := .ite (departs_modCore ..) (.refl s)

theorem departs_pmLate (s : State) (tk : Nat) : s.Departs (s.pmLate tk) := by
  unfold pmLate
  dsimp only
  split
  · exact .ite (departs_modPage ..) (.refl s)
  · exact .refl s

theorem departs_pmReached (s : State) (tk : Nat) : s.Departs (s.pmReached tk) := by
  unfold pmReached
  dsimp only
  refine .ite (.ite ?_ (departs_modPage ..)) (.refl s)
  exact ((departs_modPage ..).trans (departs_modPage ..)).trans (departs_send ..)

/-- The pages, tiles and scratchpad that a team gives up, and its core settled. -/
theorem departs_leftTeam (s : State) (tk k : Nat) (pages : List Nat) (f : Team → Team) :
    s.Departs ((((s.leaveCore tk).unpin pages).modTeam tk f).settleCore k) :=
  (((departs_leaveCore s tk).trans (departs_unpin ..)).trans (departs_modTeam ..)).trans (departs_settleCore ..)

theorem departs_teamExit (s : State) (tk : Nat) : s.Departs (s.teamExit tk) := by
  unfold teamExit
  refine .ite ?_ (.refl s)
  dsimp only
  split
  · exact (((departs_leftTeam ..).trans (departs_modPage ..)).trans (departs_pmLate ..)).trans (departs_pmReached ..)
  · exact ((departs_leftTeam ..).trans (departs_pmLate ..)).trans (departs_pmReached ..)

/-! ### The group's end -/

theorem departs_vaWrite (s : State) (p va : Nat) (bs : List Byte) : s.Departs (s.vaWrite p va bs) := by
  have htouch : s.Departs (s.vaTouch p va bs.length true) := by
    rw [show s.vaTouch p va bs.length true = _ from sameButMem_vaTouch ..]
    exact .of_same rfl rfl rfl
  refine htouch.trans (.foldl (fun s c => ?_) _ _)
  split
  · exact .ite (.of_same rfl rfl rfl) (.of_same rfl rfl rfl)
  · exact .refl s

theorem departs_writeSig (s : State) (gk : Nat) : s.Departs (s.writeSig gk) := by
  unfold writeSig
  exact .ite (.refl s) (departs_vaWrite ..)

/-- R99: what the last lane's exit does to its group: nothing is due to it and it is not parked, and its slot is free. -/
theorem groupExit_of_gone {s : State} {gk : Nat} (hg : (s.group gk).gone = true) :
    (s.groupExit gk).cur = s.cur ∧ ((s.groupExit gk).group gk).due = [] ∧ ((s.groupExit gk).group gk).park = none ∧
      ((s.groupExit gk).group gk).exited = (s.group gk).exited ∧
      ∀ e ∈ ((s.groupExit gk).quad (4 * s.coreOfGrp gk + (s.group gk).quad)).slots, e.2 ≠ gk := by
  let s1 := s.modGroup gk fun x => { x with due := [], park := none, stepPend := none }
  have hs1 : s1.group gk = { s.group gk with due := [], park := none, stepPend := none } := by simp [s1]
  have hpark1 : (s1.group gk).park = none := by rw [hs1]
  have hsig := departs_writeSig s1 gk
  have hend := departs_teamExit ((s1.writeSig gk).leaveSlot (s.coreOfGrp gk) gk) (gk / 32)
  have hx : s.groupExit gk = ((s1.writeSig gk).leaveSlot (s.coreOfGrp gk) gk).teamExit (gk / 32) := by
    simp only [groupExit, hg, if_true]
    rfl
  have hall := (hsig.trans (departs_leaveSlot ..)).trans hend
  rw [hx]
  refine ⟨hall.cur, (hall.due hpark1).trans (by rw [hs1]), hall.park hpark1, (hall.exited hpark1).trans (by rw [hs1]),
    fun e he => ?_⟩
  have hquad : ((s1.writeSig gk).group gk).quad = (s.group gk).quad := (hsig.quad hpark1).trans (by rw [hs1])
  have hleft := hend.slots _ _ he
  rw [← hquad] at hleft
  exact leaveSlot_slots _ _ gk hleft

end Sys2Proof.Machine.State

namespace Sys2Proof.Proofs
open Sys2Proof Sys2Proof.Machine Sys2Proof.Machine.State

/-- Settles O16: `exit` marks its lanes and ends as a word; `groupExit` then does nothing, or ends the group. -/
theorem exitWord : Obligations.ExitWord := by
  intro s h f hi gone
  let e := s.modGrp fun x => { x with exited := gone }
  let t0 := s.finish h { s := e }
  have heg : e.grp = { s.grp with exited := gone } := by simp [e]
  have hstep : e.grp.step = false := by rw [heg]; exact hi.noStep
  have hsrun : e.grp.srun = false := by rw [heg]; exact hi.noStrictRun
  have hot : e.OnlyGroup t0 := finish_done_frame s h { s := e } rfl rfl hi.awake hstep hsrun
  have hgrp := finish_done_grp s h { s := e } rfl hi.awake hstep hsrun
  have ht0 : t0.group s.curGrp = t0.grp := (grp_of_cur hot.cur).symm
  have hexited : t0.grp.exited = gone := by rw [hgrp, Group.setPc_rest]; simp [countLa, heg]
  have hx : exec (.exitWord h f) s = .next (t0.groupExit s.curGrp) := by
    have hcheck := scalar_check s h {} hi.noStrictLook rfl rfl rfl rfl rfl
    exact congrArg (fun t : State => Host.Outcome.next (t.groupExit s.curGrp)) (issueWord_go s h {} _ hi hcheck)
  by_cases hfull : gone = Mask.full
  · have hgone : (t0.group s.curGrp).gone = true := by rw [ht0]; simp [Group.gone, hexited, hfull]
    obtain ⟨hcur, hdue, hpark, hex, hslots⟩ := groupExit_of_gone hgone
    have htgrp : (t0.groupExit s.curGrp).grp = (t0.groupExit s.curGrp).group s.curGrp := grp_of_cur (hcur.trans hot.cur)
    have hcore : t0.coreOfGrp s.curGrp = s.coreOfGrp s.curGrp := hot.coreOfGrp s.curGrp
    have hquad : (t0.group s.curGrp).quad = s.grp.quad := by rw [ht0, hgrp, Group.setPc_rest]; simp [countLa, heg]
    rw [hcore, hquad] at hslots
    refine ⟨_, hx, ?_, fun hne => absurd hfull hne, fun _ => ⟨htgrp ▸ hdue, htgrp ▸ hpark, fun n gk he => hslots (n, gk) he⟩⟩
    rw [htgrp, hex, ht0, hexited]
  · have hstays : (t0.group s.curGrp).gone = false := by rw [ht0]; simpa [Group.gone, hexited] using hfull
    rw [groupExit_of_stays hstays] at hx
    refine ⟨t0, hx, hexited, fun _ => ⟨hot, ?_, fun l hl hlane hout => ?_⟩, fun hf => absurd hf hfull⟩
    · rw [hgrp, countLa_regs, Group.setPc_regs, heg]
    · rw [hgrp, countLa_pcOf, Group.pcOf_setPc _ _ _ _ hl]
      rw [heg]
      simp only [BitVec.getLsbD_and, BitVec.getLsbD_not, hlane, hout, hl]
      simp

end Sys2Proof.Proofs

/-! ## A guard that is still due (R109, R271, R375)

Under strict lookahead a word whose lane guard is a predicate that a result still due will write traps with cause 0x08 before it
takes effect (R271, item 8), so that the step trap, which follows an effect, does not come. -/

namespace Sys2Proof.Proofs
open Sys2Proof Sys2Proof.Machine Sys2Proof.Machine.State

/-- A result that will write p1 after 5 more words. -/
def dueP1 : Due := { id := 0, pc := 0x1000, la := 5, mask := Mask.full, dst := [(2, 1)], writes := [], left := 1 }

def steppedRun : Run := { grp := 0, prim := { pc := 0x2000, lanes := Mask.full }, sec := none }

/-- A group under the step control and strict lookahead to which p1 is still due. -/
def steppedWithDue : State :=
  { State.reset with
    groups := [(0, { step := true, sla := true, due := [dueP1] })]
    quads := [(0, { slots := [(0, 0)], run := some steppedRun })]
    nextId := 1
    cur := { lanes := Mask.full, pc := 0x2000, len := 6 } }

/-- A word guarded by p1. -/
def guardedByP1 : Hdr := { bnd := false, la := 0, gn := false, grd := 1 }

def plainCF : CF := { disp := 0, va := 0, sx := 0, sa := 0, qn := false, qc := 0 }

theorem exec_nop_steppedWithDue :
    ∃ t, exec (.nop guardedByP1 plainCF) steppedWithDue = .next t ∧ t.grp.trapCause = some 0x08 :=
  ⟨_, rfl, by decide +kernel⟩

/-- Refutes O54: a word under the step control whose guard is still due traps with cause 0x08 where the group is under strict
lookahead too, which the statement's clause on the step control does not exclude. (No word of the model has a predicate due, so that
this state is not reached; the statement is made of every state.) -/
theorem not_traps : ¬ Obligations.Traps := by
  unfold Obligations.Traps
  intro h
  obtain ⟨-, -, -, -, hnop, -⟩ := h steppedWithDue guardedByP1 ⟨by decide, by decide⟩ (by decide +kernel) (by decide +kernel)
    (by decide +kernel)
  obtain ⟨-, hstep⟩ := hnop plainCF steppedRun (by decide +kernel) (by decide +kernel) (by decide +kernel)
  obtain ⟨t, ht, -, -, -, hcause, -⟩ := hstep (by decide +kernel) (by decide +kernel)
  obtain ⟨u, hu, hcause'⟩ := exec_nop_steppedWithDue
  obtain rfl : t = u := Host.Outcome.next.inj (ht.symm.trans hu)
  exact absurd (hcause.symm.trans hcause') (by decide)

end Sys2Proof.Proofs

/-! ## A swap under a team table that lists a team twice (R125, R126) -/

namespace Sys2Proof.Proofs
open Sys2Proof Sys2Proof.Machine Sys2Proof.Machine.State

/-- The swap of cores 0 and 1 of cluster 0, at its pause. -/
def pausedSwap : Swap := { hot := 0, cool := 1, decided := 0, pausing := true }

/-- A state whose team table is not in canonical form (its keys do not rise): it lists team 0 on core 0 and again on core 1, so that
the release would have to move the team both ways. -/
def listedTwice : State :=
  { State.reset with
    clusters := [(0, { swap := some pausedSwap })]
    teams := [(0, { st := .resident, cl := 0, co := 0 }), (0, { st := .resident, cl := 0, co := 1 })] }

/-- Refutes O45: its clause on the release takes the teams of a core from the list of teams, where a state that is not in canonical
form may list one team on both cores. (No canonical state is known to break a clause: the statement lacks that hypothesis.) -/
theorem not_draft : ¬ Obligations.Draft := by
  unfold Obligations.Draft
  intro h
  obtain ⟨-, -, -, hrelease⟩ := h listedTwice
  obtain ⟨t, -, -, -, hhot, hcool, -⟩ := hrelease pausedSwap (by decide +kernel) rfl (by decide) (by decide) (by decide)
  have hto : (t.team 0).co = 1 := (hhot 0 (by decide +kernel)).2
  have hback : (t.team 0).co = 0 := (hcool 0 (by decide +kernel)).2
  exact absurd (hto.symm.trans hback) (by decide)

end Sys2Proof.Proofs

/-! ## The waking events (O60) -/

namespace Sys2Proof.Machine.State
open Sys2Proof

/-! ### Operations that leave the groups alone -/

theorem foldl_groups {α : Type} {f : State → α → State} (hf : ∀ (s : State) a, (f s a).groups = s.groups) (l : List α) (s : State) :
    (l.foldl f s).groups = s.groups := by
  induction l generalizing s with
  | nil => rfl
  | cons a l ih => exact (ih _).trans (hf s a)

theorem wbSector_groups (s : State) (k sec : Nat) : (s.wbSector k sec).groups = s.groups := by
  unfold wbSector
  split
  · rfl
  · split <;> rfl

theorem dropRange_groups (s : State) (k pa n : Nat) : (s.dropRange k pa n).groups = s.groups :=
  foldl_groups (f := fun s sec => s.dropSector k sec) (fun s sec => wbSector_groups s k sec) _ s

theorem devWriteP_groups (s : State) (pa : Nat) (bs : List PByte) : (s.devWriteP pa bs).groups = s.groups :=
  foldl_groups (f := fun (s : State) (c : Nat × List PByte) => s.devWrite c.1 (c.2.map Prod.fst) (anyPois c.2)) (fun _ _ => rfl) _ s

theorem countWritten_groups (s : State) (cl : Nat) (ds : List (List PByte)) : (s.countWritten cl ds).groups = s.groups := by
  unfold countWritten
  dsimp only
  split <;> rfl

theorem counterStep_groups (s : State) (gk : Nat) (l : Loc) : (s.counterStep gk l).groups = s.groups := by
  unfold counterStep
  split
  · split
    · split
      · rfl
      · exact dropRange_groups ..
    · rfl
  · rfl

theorem acquireEnds_groups (s : State) (gk scp : Nat) : (s.acquireEnds gk scp).groups = s.groups := by
  unfold acquireEnds
  split <;> rfl

theorem group_congr {s t : State} (h : t.groups = s.groups) (j : Nat) : t.group j = s.group j := by unfold group; rw [h]

/-! ### A group wakes (R117) -/

/-- A waking group without a step trap that was put off goes on, or waits for the baton (R116). -/
theorem wake_group_goes {s : State} {gk : Nat} (h : (s.group gk).stepPend = none) :
    ((s.wake gk).group gk).park = afterPark (s.group gk) := by
  unfold wake
  simp [h, rouse]

/-- A waking group with a step trap that was put off takes it (R109). -/
theorem wake_group_traps {s : State} {gk : Nat} (h : (s.group gk).stepPend.isSome = true) :
    ((s.wake gk).group gk).park = some .trap ∧ ((s.wake gk).group gk).trapCause = some 0x0D := by
  obtain ⟨p, hp⟩ := Option.isSome_iff_exists.1 h
  unfold wake
  simp [hp, trapGroup_group]

/-! ### A token falls (R145) -/

/-- R145: a token's count of a group on a core falls, its status rising. -/
def tokenFell (k st : Nat) (x : Group) : Group :=
  { x with kCount := SMap.set x.kCount 0 k (x.kc k - 1), kStat := SMap.set x.kStat 0 k (Nat.max (x.ks k) st) }

theorem tokenFell_kc (k st j : Nat) (x : Group) : (tokenFell k st x).kc j = if j = k then x.kc k - 1 else x.kc j :=
  SMap.get_set ..

/-- The last transfer of a group's last token wakes it. -/
theorem tokenDown_last {s : State} {gk k st : Nat} {m : BitVec 8} (hl : (s.groups.find gk).isSome = true)
    (ht : (s.team (gk / 32)).st = .resident) (hp : (s.group gk).park = some (.token m)) (hk : (s.group gk).kc k = 1)
    (hothers : ∀ j, j < 8 → m.getLsbD j = true → j ≠ k → (s.group gk).kc j = 0) :
    s.tokenDown gk k st = (s.modGroup gk (tokenFell k st)).wake gk := by
  have hx : (s.modGroup gk (tokenFell k st)).group gk = tokenFell k st (s.group gk) := by simp
  have hdone : (tokenFell k st (s.group gk)).tokensDone m = true := by
    unfold Group.tokensDone
    rw [List.all_eq_true]
    intro j hj
    rw [List.mem_range] at hj
    rw [tokenFell_kc, Bool.or_eq_true, Bool.not_eq_true', beq_iff_eq]
    cases hm : m.getLsbD j
    · exact .inl rfl
    · right
      split
      · omega
      · next hne => exact hothers j hj hm hne
  have hsome : (s.groups.find gk).isNone = false := by simpa using hl
  have hon : atImage (s.team (gk / 32)) = false := by simp [atImage, ht]
  have hpx : (tokenFell k st (s.group gk)).park = some (.token m) := hp
  unfold tokenDown
  simp only [hsome, hon, Bool.false_eq_true, if_false]
  rw [show (fun x : Group => { x with
    kCount := SMap.set x.kCount 0 k (x.kc k - 1), kStat := SMap.set x.kStat 0 k (Nat.max (x.ks k) st) }) = tokenFell k st from rfl,
    hx, hpx]
  exact if_pos hdone

/-! ### A copy within device memory lands (R145) -/

section
variable {s : State} {f : Flight} {pb pa len c : Nat} {gen : BitVec 16}

/-- A run from device memory to device memory touches no group. -/
theorem copyRuns_dev : s.Served (s.copyRuns f [(.dev pb, .dev pa, len)]).1 ∧
    (s.copyRuns f [(.dev pb, .dev pa, len)]).1.groups = s.groups := by
  let data := s.copyRead (.dev pb) len
  let u := ({ s with free := s.free + 128 }.dropRange
    (State.coreOfGrp { s with free := s.free + 128 } (grpKey f.g f.t f.grp)) pa data.length).devWriteP pa data
  have hx : (s.copyRuns f [(.dev pb, .dev pa, len)]).1 = (u.settleHome [(pa, data)]).countWritten (f.core / 6) [data] := by
    simp [copyRuns, copyPut, u, data]
  have hfree : s.Served { s with free := s.free + 128 } := .of_memory rfl fun _ => rfl
  rw [hx]
  refine ⟨(((hfree.trans (served_dropRange ..)).trans (served_devWriteP ..)).trans (served_settleHome ..)).trans
    (served_countWritten ..), ?_⟩
  rw [countWritten_groups]
  exact (devWriteP_groups ..).trans (dropRange_groups ..)

theorem lastLines_dev (hb : f.body = .copy [(.dev pb, .dev pa, len)] c gen) : s.lastLines f = [] := by
  simp [lastLines, hb, copyLines, spadLine, distinct]

/-- The last transfer of a token's command lands: the token falls. -/
theorem landed_last {n : Nat} (st : Nat) (hlast : ∀ y ∈ s.flights, y.cmd = f.cmd → y.id = f.id) (htk : f.tk = some n) :
    s.landed f st = ((s.dropFlight f.id).unpin f.pages).tokenDown (grpKey f.g f.t f.grp) n st := by
  have hrest : (s.dropFlight f.id).flights.filter (fun x => x.cmd == f.cmd) = [] := by
    rw [List.filter_eq_nil_iff]
    intro y hy hcmd
    obtain ⟨hmem, hid⟩ := List.mem_filter.1 hy
    exact absurd (hlast y hmem (by simpa using hcmd)) (by simpa using hid)
  unfold landed
  dsimp only
  rw [hrest, htk]
  simp

/-- A copy of the group's own within device memory that is the last of its command: what is left to do is the token. -/
theorem copyLand_last {n : Nat} (hb : f.body = .copy [(.dev pb, .dev pa, len)] c gen)
    (hlast : ∀ y ∈ s.flights, y.cmd = f.cmd → y.id = f.id) (htk : f.tk = some n) :
    ∃ (u : State) (st : Nat), u.teams = s.teams ∧ u.groups = s.groups ∧
      s.copyLand f [(.dev pb, .dev pa, len)] gen = (u.tokenDown (grpKey f.g f.t f.grp) n st).recheckAll := by
  obtain ⟨hserved, hgroups⟩ := copyRuns_dev (s := s) (f := f) (pb := pb) (pa := pa) (len := len)
  refine ⟨(((s.copyRuns f [(.dev pb, .dev pa, len)]).1.dropFlight f.id).unpin f.pages),
    if (s.copyRuns f [(.dev pb, .dev pa, len)]).2.2 then 3 else 0, hserved.teams, hgroups, ?_⟩
  have hland := landed_last (s := (s.copyRuns f [(.dev pb, .dev pa, len)]).1)
      (if (s.copyRuns f [(.dev pb, .dev pa, len)]).2.2 then 3 else 0) (by rw [hserved.flights]; exact hlast) htk
  rw [← hland]
  simp [copyLand, lastLines_dev hb, landLines]

theorem calm_tokenFell (hc : s.Calm) (gk k st : Nat) : (s.modGroup gk (tokenFell k st)).Calm := by
  intro j
  rw [modGroup_group]
  split
  · exact hc gk
  · exact hc j

/-- R145: the group parked for a token whose last transfer lands is woken, and nothing follows. -/
theorem copyLanding_wakes {n : Nat} {m : BitVec 8} (hf : s.flight s.ev.id = some f) (hc : s.Calm) (hgrp : f.grp < 32)
    (hres : (s.team (teamKey f.g f.t)).st = .resident) (hb : f.body = .copy [(.dev pb, .dev pa, len)] c gen)
    (hchan : s.inChannel f = true) (hsrc : s.sourcesReady f [(.dev pb, len)] = true)
    (hlast : ∀ y ∈ s.flights, y.cmd = f.cmd → y.id = f.id) (htk : f.tk = some n)
    (hl : (s.groups.find (grpKey f.g f.t f.grp)).isSome = true) (hp : (s.group (grpKey f.g f.t f.grp)).park = some (.token m))
    (hk : (s.group (grpKey f.g f.t f.grp)).kc n = 1)
    (hothers : ∀ j, j < 8 → m.getLsbD j = true → j ≠ n → (s.group (grpKey f.g f.t f.grp)).kc j = 0) :
    ∃ (u : State) (st : Nat), u.group (grpKey f.g f.t f.grp) = tokenFell n st (s.group (grpKey f.g f.t f.grp)) ∧
      exec .copyLanding s = .next (u.wake (grpKey f.g f.t f.grp)) := by
  obtain ⟨u, st, hteams, hgroups, hx⟩ := copyLand_last (pb := pb) (pa := pa) (len := len) (gen := gen) hb hlast htk
  have hteam : grpKey f.g f.t f.grp / 32 = teamKey f.g f.t := by unfold grpKey; omega
  have hcu : u.Calm := hc.of_groups_eq hgroups
  have hdown : u.tokenDown (grpKey f.g f.t f.grp) n st = _ :=
    tokenDown_last (by rw [hgroups]; exact hl) (by rw [hteam, team_congr hteams]; exact hres)
      (by rw [group_congr hgroups]; exact hp) (by rw [group_congr hgroups]; exact hk) (by rw [group_congr hgroups]; exact hothers)
  rw [hdown, recheckAll_eq_self_of_calm ((served_wake ..).calm (calm_tokenFell hcu _ _ _))] at hx
  refine ⟨u.modGroup (grpKey f.g f.t f.grp) (tokenFell n st), st, ?_, ?_⟩
  · rw [modGroup_group, if_pos rfl, group_congr hgroups]
  · rw [← hx]
    simp [exec, execCopyLanding, hf, hb, hchan, hsrc]

end

/-! ### A counter reaches its value (R173, R410) -/

section
variable {s : State} {gk va scp : Nat} {want w : W64}

/-- R410: the read of a counter in global memory for a parked group of a resident team: at the awaited value the group goes on,
below it the group stays. -/
theorem recheck_glob (hp : (s.group gk).park = some (.counter (.glob va) want scp false))
    (hres : (s.team (gk / 32)).st = .resident) (hstep : (s.group gk).stepPend = none) (hbaton : (s.group gk).batonDue = false)
    (hw : (s.counterStep gk (.glob va)).counterValue ((s.counterStep gk (.glob va)).grid (grpKeyGrid gk)).part (.glob va) = some w) :
    ((s.recheck gk).group gk).park = if want.toNat ≤ w.toNat then none else (s.group gk).park := by
  have hheld : s.counterHeld gk (.glob va) = false := by simp [counterHeld, hres, rankHeld, counterAbsent]
  have hy : (s.counterStep gk (.glob va)).groups = s.groups := counterStep_groups ..
  have hprom : ∀ x : State, x.promoteFor gk false = x := fun _ => rfl
  have hacq : ∀ b : Bool, ((if b then (s.counterStep gk (.glob va)).count ((s.counterStep gk (.glob va)).coreOfGrp gk / 6) 0x3A0 1
      else s.counterStep gk (.glob va)).acquireEnds gk scp).groups = s.groups := fun b => by
    rw [acquireEnds_groups, ← hy]
    cases b <;> rfl
  unfold recheck
  simp only [hp, hheld, hprom, hw, Bool.false_eq_true, if_false]
  split
  · next hle =>
    rw [wake_group_goes, group_congr (hacq _)]
    · simp [afterPark, hbaton]
    · rw [group_congr (hacq _)]; exact hstep
  · rw [group_congr hy, hp]

end

/-! ### The turns that have passed -/

section
variable {s : State} {rest : List Turn}

theorem dropRange_agenda (k pa n : Nat) :
    { s with agenda := rest }.dropRange k pa n = { s.dropRange k pa n with agenda := rest } := by
  unfold dropRange
  refine (List.foldl_hom (fun s : State => { s with agenda := rest }) fun s sec => ?_)
  unfold dropSector wbSector
  dsimp only
  split
  · next h => rw [show s.core k = State.core { s with agenda := rest } k from rfl, h]; rfl
  · next x h =>
    rw [show s.core k = State.core { s with agenda := rest } k from rfl, h]
    dsimp only
    split <;> rfl

theorem counterStep_agenda (gk : Nat) (l : Loc) :
    { s with agenda := rest }.counterStep gk l = { s.counterStep gk l with agenda := rest } := by
  cases l with
  | spad g t off => rfl
  | glob va =>
    have hwalk : State.walkFor { s with agenda := rest } (State.grid { s with agenda := rest } (grpKeyGrid gk)).part va false =
      s.walkFor (s.grid (grpKeyGrid gk)).part va false := rfl
    unfold counterStep
    dsimp only
    rw [hwalk]
    cases s.walkFor (s.grid (grpKeyGrid gk)).part va false with
    | none => rfl
    | some e =>
      dsimp only
      split
      · rfl
      · exact dropRange_agenda ..

/-- R410: the store of a hart that brings a counter in global memory to its value. -/
theorem step_hartWrite {pa gk va scp : Nat} {data : List Byte} {want w : W64} (hag : s.agenda = .hartWrite pa data :: rest)
    (hclk : s.power.clocksOn = true) (hpa : pa + data.length ≤ devBytes) (hslots : s.allSlotGroups = [gk])
    (hp : (s.group gk).park = some (.counter (.glob va) want scp false)) (hres : (s.team (gk / 32)).st = .resident)
    (hstep : (s.group gk).stepPend = none) (hbaton : (s.group gk).batonDue = false)
    (hw : ((s.devWrite pa data false).counterStep gk (.glob va)).counterValue (s.grid (grpKeyGrid gk)).part (.glob va) = some w) :
    ∃ t, step s = .next t ∧ (t.group gk).park = if want.toNat ≤ w.toNat then none else (s.group gk).park := by
  let u := State.devWrite { s with agenda := rest } pa data false
  have hnext : step s = .next (u.recheck gk) := by
    have hall : u.recheckAll = u.recheck gk := by
      rw [recheckAll, show u.allSlotGroups = [gk] from hslots]; rfl
    rw [← hall]
    simp [step, nextTodo, hag, hartStore, Nat.not_lt.2 hpa, hclk, u]
  have hu : u.counterStep gk (.glob va) = { (s.devWrite pa data false).counterStep gk (.glob va) with agenda := rest } :=
    counterStep_agenda (s := s.devWrite pa data false) gk (.glob va)
  have hgrid : (u.counterStep gk (.glob va)).grid (grpKeyGrid gk) = s.grid (grpKeyGrid gk) := (served_counterStep ..).grid _
  refine ⟨_, hnext, recheck_glob (s := u) hp hres hstep hbaton ?_⟩
  rw [hgrid, hu]
  exact hw

end

end Sys2Proof.Machine.State

namespace Sys2Proof.Proofs
open Sys2Proof Sys2Proof.Machine Sys2Proof.Machine.State

/-- Settles O60: both events come down to `wake`, of the group whose token fell to 0 and of the one whose counter is read again. -/
theorem wakes : Obligations.Wakes := by
  constructor
  · intro s f pb pa len c n gen m hf _ hc _ hgrp hres hb hchan hsrc hlast htk _ hm gk x hl hp hk hothers
    obtain ⟨u, st, hu, hx⟩ := copyLanding_wakes hf hc hgrp hres hb hchan hsrc hlast htk hl hp hk hothers
    refine ⟨fun hstep => ⟨_, hx, ?_⟩, fun hstep => ⟨_, hx, ?_⟩⟩
    · refine (wake_group_goes (by rw [hu]; exact hstep)).trans ?_
      rw [hu]
      rfl
    · exact wake_group_traps (by rw [hu]; exact hstep)
  · intro s pa data rest gk va scp want w hag hclk hpa hslots hp hres hstep hbaton hw
    exact step_hartWrite hag hclk hpa hslots hp hres hstep hbaton hw

end Sys2Proof.Proofs

/-! ## The bytes of a ring entry (R269) -/

namespace Sys2Proof.Machine.State
open Sys2Proof

theorem leBytes_length (n v : Nat) : (leBytes n v).length = n := by
  induction n generalizing v with
  | zero => rfl
  | succ n ih => simp [leBytes, ih]

theorem leBytes_zero (n : Nat) : leBytes n 0 = List.replicate n 0 := by
  induction n with
  | zero => rfl
  | succ n ih => simp [leBytes, ih, List.replicate_succ]

theorem leNat_leBytes (n v : Nat) : leNat (leBytes n v) = v % pow2 (8 * n) := by
  induction n generalizing v with
  | zero => simp [leBytes, leNat, pow2, Nat.mod_one]
  | succ n ih =>
    have hsplit : pow2 (8 * (n + 1)) = 256 * pow2 (8 * n) := by
      simp only [pow2, Nat.mul_add, Nat.pow_add]
      omega
    rw [leBytes, leNat, ih, hsplit, Nat.mod_mul, BitVec.toNat_ofNat]

/-- Fields of given widths, one behind the other, each little-endian (R5). -/
def packed (l : List (Nat × Nat)) : List Byte := l.flatMap fun f => leBytes f.1 f.2

theorem packed_append (l l' : List (Nat × Nat)) : packed (l ++ l') = packed l ++ packed l' := List.flatMap_append

theorem packed_length (l : List (Nat × Nat)) : (packed l).length = (l.map Prod.fst).sum := by
  simp [packed, List.length_flatMap, leBytes_length]

/-- A field is read back at its offset. -/
theorem leNat_packed (a c : List Byte) (l : List (Nat × Nat)) {i : Nat} (hi : i < l.length) :
    leNat (((a ++ packed l ++ c).drop (a.length + ((l.take i).map Prod.fst).sum)).take l[i].1) = l[i].2 % pow2 (8 * l[i].1) := by
  have hl : packed l = packed (l.take i) ++ (leBytes l[i].1 l[i].2 ++ packed (l.drop (i + 1))) := by
    conv_lhs => rw [← List.take_append_drop i l, packed_append, List.drop_eq_getElem_cons hi]
    rfl
  rw [← leNat_leBytes, ← packed_length, ← List.length_append, hl]
  congr 1
  simp [leBytes_length]

/-- R269: the fields of an entry behind the identity, and the lanes' addresses. -/
def entryFields (r : TrapRec) : List (Nat × Nat) :=
  [(1, r.cause), (1, r.kind), (1, r.flags), (5, 0), (8, r.pc.toNat), (16, r.mask.toNat), (8, r.cycles.toNat),
    (8, r.elapsed.toNat), (8, r.detail.toNat), (8, r.detail2.toNat), (48, 0)]
def entryLanes (r : TrapRec) : List (Nat × Nat) :=
  (List.range 128).map fun l =>
    (8, if r.mask.getLsbD l then (((r.addrs.find? fun a => a.1 == l).map Prod.snd).getD 0).toNat else 0)

theorem trapEntry_eq (r : TrapRec) : trapEntry r =
    r.ident ++ packed (entryFields r ++ entryLanes r) ++ (r.hang ++ leBytes 896 0).take 896 := by
  simp [trapEntry, packed, entryFields, entryLanes, List.flatMap_map]

section
variable {r : TrapRec} (hid : r.ident.length = 16)
include hid

theorem trapEntry_length : (trapEntry r).length = 2048 := by
  rw [trapEntry_eq]
  simp only [List.length_append, packed_length, List.map_append, List.sum_append, hid, List.length_take, leBytes_length]
  have hlanes : ((entryLanes r).map Prod.fst).sum = 1024 := by
    simp [entryLanes, List.map_map, Function.comp_def]
  have hfields : ((entryFields r).map Prod.fst).sum = 112 := rfl
  omega

theorem trapEntry_take : (trapEntry r).take 16 = r.ident := by
  rw [trapEntry_eq, List.append_assoc, ← hid, List.take_left]

/-- A field of the entry is read back at its offset. -/
theorem trapEntry_at (i : Nat) (hi : i < (entryFields r ++ entryLanes r).length) :
    let l := entryFields r ++ entryLanes r
    leNat (((trapEntry r).drop (16 + ((l.take i).map Prod.fst).sum)).take l[i].1) = l[i].2 % pow2 (8 * l[i].1) := by
  rw [trapEntry_eq, ← hid]
  exact leNat_packed ..

/-- A field before the lanes' addresses. -/
theorem trapEntry_field (i : Nat) (hi : i < 11) :
    leNat (((trapEntry r).drop (16 + (((entryFields r).take i).map Prod.fst).sum)).take (entryFields r)[i].1) =
      (entryFields r)[i].2 % pow2 (8 * (entryFields r)[i].1) := by
  have h := trapEntry_at hid i (by simp [entryFields, entryLanes]; omega)
  dsimp only at h
  rwa [List.getElem_append_left hi, List.take_append_of_le_length (l₁ := entryFields r) hi.le] at h

/-- The address of a lane. -/
theorem trapEntry_lane {l : Nat} (hl : l < 128) :
    leNat (((trapEntry r).drop (128 + 8 * l)).take 8) =
      (if r.mask.getLsbD l then (((r.addrs.find? fun a => a.1 == l).map Prod.snd).getD 0).toNat else 0) % pow2 (8 * 8) := by
  have h := trapEntry_at hid (11 + l) (by simp [entryFields, entryLanes]; omega)
  have hget : (entryFields r ++ entryLanes r)[11 + l]'(by simp [entryFields, entryLanes]; omega) =
      (8, if r.mask.getLsbD l then (((r.addrs.find? fun a => a.1 == l).map Prod.snd).getD 0).toNat else 0) := by
    rw [List.getElem_append_right (by simp [entryFields])]
    simp [entryLanes, entryFields]
  have hsum : (((entryFields r ++ entryLanes r).take (11 + l)).map Prod.fst).sum = 112 + 8 * l := by
    rw [show 11 + l = (entryFields r).length + l from rfl, List.take_length_add_append]
    simp [entryFields, entryLanes, ← List.map_take, List.take_range, Function.comp_def, Nat.min_eq_left hl.le]
    omega
  dsimp only at h
  rw [hget, hsum, show 16 + (112 + 8 * l) = 128 + 8 * l by omega] at h
  exact h

theorem trapEntry_drop : (trapEntry r).drop 1152 = (r.hang ++ List.replicate 896 0).take 896 := by
  have hlen : (r.ident ++ packed (entryFields r ++ entryLanes r)).length = 1152 := by
    simp [packed_length, hid, entryFields, entryLanes, Function.comp_def]
  rw [trapEntry_eq, ← hlen, List.drop_left, leBytes_zero]

end

end Sys2Proof.Machine.State

/-! ## The steps of a core beside its words (O44) -/

namespace Sys2Proof.Machine.State
open Sys2Proof

/-! ### Runs (R101, R108) -/

section
variable {s : State} {k d n gk : Nat} {a : Stream} {b : Option Stream}

theorem startRun_of_run {r : Run} (h : (s.quad (4 * k + d)).run = some r) : s.startRun k d = s := by
  simp [startRun, h]

/-- A free quadrant gives its slot to the winner, with the streams that its controls leave it. -/
theorem startRun_quad (hfree : (s.quad (4 * k + d)).run = none) (hwin : s.winner k d = some (n, gk))
    (hstr : streamsOf (takeControls (s.group gk)) = some (a, b)) :
    ∃ r, ((s.startRun k d).quad (4 * k + d)).run = some r ∧ r.grp = gk ∧ r.prim = a ∧ r.sec = b ∧
      ((s.startRun k d).quad (4 * k + d)).last = n := by
  unfold startRun
  simp [hfree, hwin, hstr]

end

/-! ### Results (R107, R351, R372) -/

section
variable {x : Group} {skip : List Nat} {ws : List RegWr} {r : Regs}

/-- R351: a load's result reaches no lane that has exited. -/
theorem foldl_dueWrite_lane (hws : ∀ w ∈ ws, ∃ n m vals pois, w = .loaded n m vals pois) (n : Nat) {l : Nat} (hl : l < 128)
    (hout : x.exited.getLsbD l = true) : (ws.foldl (dueWrite x skip) r).lane n l = r.lane n l := by
  induction ws generalizing r with
  | nil => rfl
  | cons w ws ih =>
    rw [List.foldl_cons, ih fun v hv => hws v (List.mem_cons_of_mem _ hv)]
    obtain ⟨j, m, vals, pois, rfl⟩ := hws w List.mem_cons_self
    unfold dueWrite Regs.write
    by_cases hj : n = j
    · subst hj
      rw [Regs.vset_lane _ _ _ _ _ _ hl, if_neg (by simp [hout])]
    · unfold Regs.lane
      rw [Regs.vset_vget_ne _ _ _ _ _ _ hj]

/-- R372: an s register that the secondary word of the cycle wrote is not written. -/
theorem dueWrite_sget (w : RegWr) {n : Nat} (hn : n ∈ skip) : (dueWrite x skip r w).sget n = r.sget n := by
  cases w with
  | vec j m vals pois =>
    change (r.vset j m vals pois).sget n = r.sget n
    rw [Regs.vset_rest]; rfl
  | loaded j m vals pois =>
    change (r.vset j (m &&& ~~~x.exited) vals pois).sget n = r.sget n
    rw [Regs.vset_rest]; rfl
  | pred j m vals =>
    change (r.pset j m vals).sget n = r.sget n
    rw [Regs.pset_rest]; rfl
  | scal j v pois =>
    rw [dueWrite]
    split
    · rfl
    · next hj =>
      rw [Regs.write, Regs.sset_sget, if_neg]
      rintro rfl
      exact hj (by simpa using hn)

theorem foldl_dueWrite_sget {n : Nat} (hn : n ∈ skip) : (ws.foldl (dueWrite x skip) r).sget n = r.sget n := by
  induction ws generalizing r with
  | nil => rfl
  | cons w ws ih => rw [List.foldl_cons, ih, dueWrite_sget w hn]

end

section
variable {s : State} {gk id : Nat} {d : Due}

theorem writeDue_of_atImage (h : atImage (s.team (gk / 32)) = true) : s.writeDue gk id = s := by
  simp [writeDue, h]

/-- R399: the s registers that a result of a cycle's primary word does not write. -/
def skipsOf (s : State) (gk id : Nat) : List Nat :=
  ((s.quad (4 * s.coreOfGrp gk + (s.group gk).quad)).skips.filter fun e => e.1 == gk && e.2.1 ≤ id && id < e.2.2.1).map
    fun e => e.2.2.2

/-- A result on the core is written, and no longer due; other groups keep what they have. -/
theorem writeDue_group (h : atImage (s.team (gk / 32)) = false)
    (hd : ((s.group gk).due.find? fun e => e.id == id && e.left == 0) = some d) (j : Nat) :
    (s.writeDue gk id).group j = if j = gk then
      { s.group gk with regs := d.writes.foldl (dueWrite (s.group gk) (s.skipsOf gk id)) (s.group gk).regs
                        due := (s.group gk).due.filter fun e => e.id != id }
      else s.group j := by
  simp only [writeDue, h, Bool.false_eq_true, if_false, hd, modQuad_group_frame, modGroup_group]
  rfl

theorem writeDue_result (h : atImage (s.team (gk / 32)) = false)
    (hd : ((s.group gk).due.find? fun e => e.id == id && e.left == 0) = some d) :
    let x := s.group gk
    let t := s.writeDue gk id
    (t.group gk).regs = d.writes.foldl (dueWrite x (s.skipsOf gk id)) x.regs ∧
    ((∀ w ∈ d.writes, ∃ n m vals pois, w = .loaded n m vals pois) →
      ∀ n l, l < 128 → x.exited.getLsbD l = true → (t.group gk).regs.lane n l = x.regs.lane n l) ∧
    (∀ n ∈ s.skipsOf gk id, (t.group gk).regs.sget n = x.regs.sget n) ∧
    (t.group gk).due = x.due.filter (fun e => e.id != id) ∧ ∀ j, j ≠ gk → t.group j = s.group j := by
  intro x t
  have hregs : (t.group gk).regs = d.writes.foldl (dueWrite x (s.skipsOf gk id)) x.regs := by
    rw [writeDue_group h hd, if_pos rfl]
  refine ⟨hregs, fun hws n l hl hout => ?_, fun n hn => ?_, ?_, fun j hj => ?_⟩
  · rw [hregs, foldl_dueWrite_lane hws n hl hout]
  · rw [hregs, foldl_dueWrite_sget hn]
  · rw [writeDue_group h hd, if_pos rfl]
  · rw [writeDue_group h hd, if_neg hj]

end

/-! ### Records (R268, R269) -/

section
variable {s : State} {p : Nat} {r : TrapRec} {rest : List TrapRec}

theorem page_congr {s t : State} (h : t.parts = s.parts) (p : Nat) : t.page p = s.page p := by unfold page part; rw [h]

theorem vaTouch_parts (s : State) (p va n : Nat) (w : Bool) : (s.vaTouch p va n w).parts = s.parts := by
  rw [show s.vaTouch p va n w = _ from sameButMem_vaTouch ..]

theorem vaWrite_parts (s : State) (p va : Nat) (bs : List Byte) : (s.vaWrite p va bs).parts = s.parts := by
  have hfold (l : List (Nat × List Byte)) (t : State) : (l.foldl (fun s c => match s.walkFor p c.1 true with
      | some (pa, mt) => if mt == 1 then s.hostWrite pa c.2 else s.devWrite pa c.2 false
      | none => s) t).parts = t.parts := by
    induction l generalizing t with
    | nil => rfl
    | cons c l ih =>
      rw [List.foldl_cons, ih]
      split
      · split <;> rfl
      · rfl
  exact (hfold _ _).trans (vaTouch_parts ..)

/-- R268: the state after the first waiting record has gone to the ring. -/
theorem trapRecord_first (hq : (s.page p).trapq = r :: rest) (hr : s.recordReady r = true) (hfree : s.ringFree p ≠ 0) :
    s.trapRecord p =
      let u := (s.ringRead p).modPage p fun y => { y with trapq := y.trapq.eraseIdx 0 }
      let at_ := ringBase (s.page p) + 2048 * ((u.vaQ p (ringTail (s.page p))).toNat % ringSize (s.page p))
      ((u.vaWrite p at_ (trapEntry r)).deviceAdd p (ringTail (s.page p)) 1).send (.hart (u.trapHartOf p)) := by
  simp [trapRecord, hq, List.findIdx?_cons, hr, hfree]

/-- R268: with no room the counters of the ring are read, if a record may be written. -/
theorem trapRecord_full (hfree : s.ringFree p = 0) :
    s.trapRecord p = if (s.page p).trapq.any s.recordReady then s.ringRead p else s := by
  rw [← List.findIdx?_isSome]
  unfold trapRecord
  dsimp only
  cases hi : (s.page p).trapq.findIdx? s.recordReady with
  | none => rfl
  | some i =>
    have hw := List.of_findIdx?_eq_some hi
    cases hget : (s.page p).trapq[i]? with
    | none => simp [hget] at hw
    | some r => simp [hfree, hget]

/-- R268, R169: what the ring and its tail hold afterwards, when no group waits for a counter. -/
theorem trapRecord_writes (hc : s.Calm) (hq : (s.page p).trapq = r :: rest) (hr : s.recordReady r = true)
    (hfree : s.ringFree p ≠ 0) :
    let u := s.ringRead p
    let at_ := ringBase (s.page p) + 2048 * ((u.vaQ p (ringTail (s.page p))).toNat % ringSize (s.page p))
    ((s.trapRecord p).page p).trapq = rest ∧ .hart (s.trapHartOf p) ∈ (s.trapRecord p).msgs ∧
      (s.trapRecord p).SameMem ((u.vaWrite p at_ (trapEntry r)).raised p (ringTail (s.page p)) 1) := by
  intro u at_
  let v := u.modPage p fun y => { y with trapq := y.trapq.eraseIdx 0 }
  let w := v.vaWrite p at_ (trapEntry r)
  have huv : u.SameMaps v := sameMaps_modPage ..
  have hup : u.parts = s.parts := by
    change (if s.ringUsable p then (s.vaTouch p _ 8 false).vaTouch p _ 8 false else s).parts = s.parts
    split
    · rw [vaTouch_parts, vaTouch_parts]
    · rfl
  have hupage : u.page p = s.page p := page_congr hup p
  have hcw : w.Calm := (served_vaWrite ..).calm ((served_modPage ..).calm ((served_ringRead ..).calm hc))
  have hx : s.trapRecord p = (w.raised p (ringTail (s.page p)) 1).send (.hart (v.trapHartOf p)) := by
    rw [trapRecord_first hq hr hfree, ← deviceAdd_eq_raised hcw]
    have hvaq : v.vaQ p (ringTail (s.page p)) = u.vaQ p (ringTail (s.page p)) := huv.vaQ ..
    simp only [w, at_, ← hvaq]
    rfl
  have hparts : (w.raised p (ringTail (s.page p)) 1).parts = v.parts := (vaWrite_parts ..).trans (vaWrite_parts ..)
  rw [hx]
  refine ⟨?_, ?_, ?_⟩
  · have hpage : (w.raised p (ringTail (s.page p)) 1).page p = v.page p := page_congr hparts p
    rw [send_page_frame, hpage, modPage_page, if_pos rfl, hupage, hq]
    rfl
  · have hhart : v.trapHartOf p = s.trapHartOf p := by
      unfold trapHartOf
      rw [huv.part p, show u.part p = s.part p by unfold part; rw [hup]]
    rw [hhart]
    exact List.mem_append_right _ (List.mem_singleton.2 rfl)
  · exact ((huv.vaWrite p at_ (trapEntry r)).raised p (ringTail (s.page p)) 1).sameMem

end

/-- R269: the layout of an entry. -/
theorem trapEntry_layout (r : TrapRec) (hid : r.ident.length = 16) :
    (trapEntry r).length = 2048 ∧ (trapEntry r).take 16 = r.ident ∧
    let is := fun (at_ n v : Nat) => leNat (((trapEntry r).drop at_).take n) = v % pow2 (8 * n)
    is 16 1 r.cause ∧ is 17 1 r.kind ∧ is 18 1 r.flags ∧ is 19 5 0 ∧ is 24 8 r.pc.toNat ∧ is 32 16 r.mask.toNat ∧
    is 48 8 r.cycles.toNat ∧ is 56 8 r.elapsed.toNat ∧ is 64 8 r.detail.toNat ∧ is 72 8 r.detail2.toNat ∧ is 80 48 0 ∧
    (∀ l, l < 128 → is (128 + 8 * l) 8 (if r.mask.getLsbD l then
      (((r.addrs.find? fun a => a.1 == l).map Prod.snd).getD 0).toNat else 0)) ∧
    (trapEntry r).drop 1152 = (r.hang ++ List.replicate 896 0).take 896 := by
  have field := trapEntry_field (r := r) hid
  exact ⟨trapEntry_length hid, trapEntry_take hid, field 0 (by decide), field 1 (by decide), field 2 (by decide),
    field 3 (by decide), field 4 (by decide), field 5 (by decide), field 6 (by decide), field 7 (by decide),
    field 8 (by decide), field 9 (by decide), field 10 (by decide), fun l hl => trapEntry_lane hid hl, trapEntry_drop hid⟩

/-! ### Frost, the barometer, translations and fetch (R118 to R122, R153, R286) -/

section
variable {s : State} {k p va : Nat}

theorem walkStep_of_held (h : (s.core k).tlb.any (fun e => tlbHolds e p va) = true) : s.walkStep k p va = s := by
  unfold walkStep
  exact if_pos h

theorem walkStep_of_missing {e : TlbEntry} (h : (s.core k).tlb.any (fun e => tlbHolds e p va) = false)
    (hl : s.tlbLookup k p va = some e) : s.walkStep k p va = s.tlbTouch k e va := by
  simp only [walkStep, h, hl]
  rfl

/-- A filled line leads the core's lines, of which at most 256 stay. -/
theorem fillLine_icache (s : State) (k p va : Nat) : ∃ l rest, ((s.fillLine k p va).core k).icache = l :: rest ∧ l.part = p ∧
    l.block = va / 128 ∧ l.first = va % 128 ∧ ((s.fillLine k p va).core k).icache.length ≤ 256 := by
  unfold fillLine
  dsimp only
  rw [modCore_core, if_pos rfl]
  refine ⟨_, _, List.take_succ_cons .., rfl, rfl, rfl, ?_⟩
  exact (List.length_take_le ..)

theorem barometerTick_cluster (s : State) (cl : Nat) (est : BitVec 16) (h : (s.cluster cl).elapsed % 1000 = 0)
    (hat : (s.cluster cl).baroAt ≠ some (s.cluster cl).elapsed) : (s.barometerTick cl est).cluster cl =
      { s.cluster cl with baroAt := some (s.cluster cl).elapsed, iest := est
                          budget := nextBudget (s.cluster cl).thold (s.cluster cl).budget est.toNat } := by
  simp [barometerTick, h, hat]

theorem stallSample_cluster (s : State) (cl : Nat) (l : List (BitVec 16)) (h : (s.cluster cl).elapsed % 10000 = 0)
    (hat : (s.cluster cl).stallAt ≠ some (s.cluster cl).elapsed) : ((s.stallSample cl l).cluster cl).stall = l := by
  simp [stallSample, h, hat]

end

end Sys2Proof.Machine.State

namespace Sys2Proof.Proofs
open Sys2Proof Sys2Proof.Machine Sys2Proof.Machine.State

/-- Settles O44, step by step: each clause is what its step function does. -/
theorem coreSteps : Obligations.CoreSteps := by
  intro s k gk x c p
  refine ⟨fun n w a b hfree hwin hstr => ⟨_, rfl, startRun_quad hfree hwin hstr⟩, fun r hr => ⟨_, rfl, startRun_of_run hr⟩,
    fun hat => ⟨_, rfl, writeDue_of_atImage hat⟩, fun d hat hd => ⟨_, rfl, writeDue_result hat hd⟩,
    fun r rest hc hq hr hfree => ⟨_, rfl, ?_⟩, fun hfree => ⟨_, rfl, trapRecord_full hfree⟩, fun h => ⟨_, rfl, ?_⟩,
    fun h => ⟨_, rfl, ?_⟩, fun h hat => ⟨_, rfl, ?_⟩,
    fun h hat => ⟨_, rfl, stallSample_cluster _ _ _ h hat⟩, fun h => ⟨_, rfl, walkStep_of_held h⟩,
    fun e h hl => ⟨_, rfl, walkStep_of_missing h hl⟩, fun h => ⟨_, rfl, ?_⟩, fun h => ⟨_, rfl, ?_⟩, fun h => ⟨_, rfl, ?_⟩⟩
  · obtain ⟨htrapq, hmsg, hmem⟩ := trapRecord_writes hc hq hr hfree
    exact ⟨htrapq, hmsg, trapEntry r, hmem, trapEntry_layout r⟩
  · dsimp only
    rw [if_pos h, modCore_core, if_pos rfl]
  · dsimp only
    rw [if_pos h, modCore_core, if_pos rfl]
  · dsimp only
    rw [barometerTick_cluster _ _ _ h hat]
    exact ⟨rfl, rfl⟩
  · dsimp only
    rw [if_pos h]
    exact fillLine_icache ..
  · simp [x, gk, h]
  · simp [x, gk, h]

end Sys2Proof.Proofs

/-! ## A tree whose accesses all succeed (O20)

The effect of such a tree is cut into stages (`effTree_of_clean`): what is read, the results due, the stores to global memory and to
the scratchpad, and the leaves. Each part of the statement is about one stage, and the other stages leave what it speaks of. -/

namespace Sys2Proof.Machine.State
open Sys2Proof

/-- R356: the path of a lane of a tree. -/
def treePath (s : State) (f : TF) (l : Nat) : Path := f.walk s.src l 3 0 {} none

/-- R356: the accesses of a tree's lanes. -/
def treeAccs (s : State) (f : TF) (act : Mask) : List (Nat × ArcAcc) :=
  act.lanes.filterMap fun l => (s.treePath f l).acc.map fun a => (l, a)

/-- The pieces of some accesses. -/
def accPieces (accs : List (Nat × ArcAcc)) : List Piece := accs.flatMap fun e => arcPieces e.1 e.2

/-- The accesses of a tree to global memory, loads or stores. -/
def globAccs (accs : List (Nat × ArcAcc)) (load : Bool) : List (Nat × ArcAcc) :=
  accs.filter fun e => !e.2.arc.isSpad && e.2.arc.isLoad == load

/-- The accesses of a tree to the scratchpad. -/
def spadAccs (accs : List (Nat × ArcAcc)) : List (Nat × ArcAcc) := accs.filter fun e => e.2.arc.isSpad

/-- What a lane's access stores. -/
def accData (accs : List (Nat × ArcAcc)) (l : Nat) : List PByte := ((accs.find? fun e => e.1 == l).map fun e => e.2.data).getD []

/-- The counts of a tree, and the pages of its loads touched. -/
def treeBegun (s : State) (f : TF) (act : Mask) (accs : List (Nat × ArcAcc)) (ld : List GPiece) : State :=
  let marks := (act.lanes.map fun l => (s.treePath f l).view.pois).foldl (· + ·) 0
  let s1 := s.countMisal (accs.any fun e => (arcPieces e.1 e.2).length != 1)
  ((if marks = 0 then s1 else s1.count s.cur.cl 0x3A0 marks).touchPages .load ld).countOver (accPieces (spadAccs accs))

/-- What a tree's loads bring, from the state that has read the global ones. -/
def treeLoaded (r : State × SMap (List PByte)) (accs : List (Nat × ArcAcc)) : SMap (List PByte) :=
  r.2 ++ r.1.readSpads (accPieces ((spadAccs accs).filter fun e => e.2.arc.isLoad))

/-- The word that a tree's load arc of a lane brings for a register. -/
def loadedWord (accs : List (Nat × ArcAcc)) (loaded : SMap (List PByte)) (v l : Nat) : Option (W32 × Bool) :=
  match accs.find? fun e => e.1 == l with
  | some e =>
    if e.2.arc.isLoad && (arcRegs e.2.arc).contains v then
      (SMap.find loaded l).map fun x => (loadWords false x).getD (v - e.2.arc.vd.toNat) (0, false)
    else none
  | none => none

/-- The write of a register that a tree's load arcs fill. -/
def loadedWrite (accs : List (Nat × ArcAcc)) (loaded : SMap (List PByte)) (v : Nat) : RegWr :=
  .loaded v (maskOf fun l => (loadedWord accs loaded v l).isSome)
    ((List.range 128).map fun l => ((loadedWord accs loaded v l).getD (0, false)).1)
    (maskOf fun l => ((loadedWord accs loaded v l).getD (0, false)).2)

/-- The registers that a tree's load arcs fill. -/
def loadRegs (f : TF) : List Nat := distinct (f.shapeArcs.flatMap fun a => if a.isLoad then arcRegs a else [])

/-- The writes of a tree: the paths' own, then what the load arcs bring. -/
def treeWrites (s : State) (f : TF) (act : Mask) (accs : List (Nat × ArcAcc)) (loaded : SMap (List PByte)) : List RegWr :=
  viewWrites f (act.lanes.map fun l => (l, s.treePath f l)) ++ (loadRegs f).map (loadedWrite accs loaded)

/-- A tree's results, due where it has a load arc. -/
def treeDue (u : State) (la : Nat) (f : TF) (ws : List RegWr) : State :=
  if f.arcs.any Arc.isLoad then u.addDue la f.results ws 0 else u.modRegs fun r => ws.foldl Regs.write r

/-- A tree's stores to global memory, its store arcs' words counted first. -/
def treeStore (u : State) (k : Nat) (accs : List (Nat × ArcAcc)) (st : List GPiece) : State :=
  let u := (u.touchPages .store st).countStored ((accs.filter fun e => e.2.arc.isStore).map fun e => e.2.data)
  let u := st.foldl (fun s q => s.writeGlob q (pieceData (accData accs q.p.lane) q.p)) u
  u.settleMarks k ((st.filter fun q => q.mt != 1).map fun q => (q.pa, pieceData (accData accs q.p.lane) q.p))

/-- A tree's stores to the scratchpad. -/
def treePad (u : State) (accs : List (Nat × ArcAcc)) : State :=
  ((spadAccs accs).filter fun e => e.2.arc.isStore).foldl (fun s e =>
    (arcPieces e.1 e.2).foldl (fun s p => s.writeSpad p (pieceData e.2.data p)) s) u

/-- The lanes that come to a leaf. -/
def leafLanes (s : State) (f : TF) (act : Mask) (j : Nat) : Mask :=
  maskOf fun l => (act.lanes.map fun l => (l, s.treePath f l)).any fun e => e.1 == l && e.2.leaf == j

/-- R276: the lanes of a leaf go to its target, and the leaf folds. -/
def takeLeaf (f : TF) (next : Nat) (lanes : Nat → Mask) (u : State) (j : Nat) : State :=
  if lanes j = 0 then u
  else
    let v := u.modGrp fun x => if u.leafTarget f j = next then x else x.setPc (lanes j) (u.leafTarget f j)
    v.foldSig (u.cur.pc + j) (lanes j)

/-- R356: the lanes of a tree go to their leaves. -/
def takeLeaves (u s : State) (f : TF) (act : Mask) : State :=
  (List.range 4).foldl (takeLeaf f ((s.cur.pc + s.cur.len) % pow2 64) (s.leafLanes f act)) u

/-- The lanes that a tree moves elsewhere than to the next word. -/
def treeMoved (s : State) (f : TF) (act : Mask) : Mask :=
  maskOf fun l => (act.lanes.map fun l => (l, s.treePath f l)).any fun e =>
    e.1 == l && s.leafTarget f e.2.leaf != (s.cur.pc + s.cur.len) % pow2 64

theorem anyPois_pieceData {d : List PByte} (h : anyPois d = false) (p : Piece) : anyPois (pieceData d p) = false := by
  unfold anyPois at h ⊢
  rw [List.any_eq_false] at h ⊢
  exact fun x hx => h x (List.mem_of_mem_drop (List.mem_of_mem_take hx))

theorem anyPois_accData {accs : List (Nat × ArcAcc)} (h : ∀ e ∈ accs, anyPois e.2.data = false) (l : Nat) :
    anyPois (accData accs l) = false := by
  unfold accData
  cases hf : accs.find? fun e => e.1 == l with
  | none => rfl
  | some e => exact h e (List.mem_of_find?_eq_some hf)

theorem maskOf_false : maskOf (fun _ => false) = 0 := by decide

/-- A tree whose accesses are unpoisoned, translate, are present and need not wait goes through its stages. -/
theorem effTree_of_clean {s : State} {h : Hdr} {f : TF} {act : Mask} {accs : List (Nat × ArcAcc)} (ha : accs = s.treeAccs f act)
    (hacq : s.acquireOut s.curGrp = false) (hclean : ∀ e ∈ accs, e.2.bad = false ∧ anyPois e.2.data = false)
    (hld : (s.lookup .load (accPieces (globAccs accs true))).2 = [])
    (hst : (s.lookup .store (accPieces (globAccs accs false))).2 = [])
    (hol : s.orderHeld .load (s.lookup .load (accPieces (globAccs accs true))).1 = false)
    (hos : s.orderHeld .store (s.lookup .store (accPieces (globAccs accs false))).1 = false)
    (habs : s.absentLines (accPieces (spadAccs accs)) = []) :
    let ld := (s.lookup .load (accPieces (globAccs accs true))).1
    let st := (s.lookup .store (accPieces (globAccs accs false))).1
    let r := (s.treeBegun f act accs ld).readGlobs ld
    let u := r.1.treeDue h.la.toNat f (s.treeWrites f act accs (treeLoaded r accs))
    effTree h f act s = { s := ((u.treeStore s.curCore accs st).treePad accs).takeLeaves s f act, moved := s.treeMoved f act } := by
  intro ld st r u
  have hpaths : ((act.lanes.map fun l => (l, f.walk s.src l 3 0 {} none)).filterMap fun e => e.2.acc.map fun a => (e.1, a)) = accs := by
    rw [ha, List.filterMap_map]; rfl
  have hbad : (maskOf fun l => (accs.any fun e => e.1 == l && e.2.bad) ||
      st.any fun q => q.p.lane == l && q.mt == 1 && anyPois (pieceData (accData accs l) q.p)) = 0 := by
    rw [← maskOf_false]
    congr 1
    funext l
    have hb : (accs.any fun e => e.1 == l && e.2.bad) = false := by
      rw [List.any_eq_false]; intro e he; simp [(hclean e he).1]
    have hd : anyPois (accData accs l) = false := anyPois_accData (fun e he => (hclean e he).2) l
    rw [hb, Bool.false_or, List.any_eq_false]
    intro q _
    simp [anyPois_pieceData hd]
  have hlog : ∀ (u : State) (op sz : Nat) (rc : Nat → LogRec) (more : List Piece), u.logPieces op sz [] rc more = u :=
    fun _ _ _ _ _ => rfl
  have hfault : lanesOf ([] : List Piece) = 0 := maskOf_false
  have hzero : ∀ l, BitVec.getLsbD (0 : Mask) l = false := fun l => BitVec.getLsbD_zero
  have hor : ∀ m : Mask, 0 ||| m = m := fun m => BitVec.zero_or
  have hbuf : s.bufferHeld [] = false := by simp [bufferHeld]
  simp only [st, accData] at hbad
  unfold accPieces at hld hst hol hos habs hbad
  unfold globAccs at hld hst hol hos hbad
  unfold spadAccs at habs
  unfold effTree
  simp only [hpaths, hacq, hbad, hld, hst, hol, hos, habs, hfault, hbuf, Bool.and_false, Bool.or_false, Bool.false_eq_true, if_false,
    bne_self_eq_false, beq_self_eq_true, List.isEmpty_nil, Bool.not_true, Bool.true_or, if_true, hzero, Bool.not_false, Bool.and_true,
    List.filter_true, List.filter_nil, beq_iff_eq, List.map_map, hor, hlog]
  rfl

end Sys2Proof.Machine.State

namespace Sys2Proof.SMap

theorem mem_of_find {α : Type} {m : SMap α} {k : Nat} {v : α} (h : m.find k = some v) : (k, v) ∈ m := by
  induction m with
  | nil => cases h
  | cons e m ih =>
    obtain ⟨j, w⟩ := e
    by_cases hj : j = k
    · simp only [SMap.find, hj, if_true, Option.some.injEq] at h
      simp [hj, h]
    · simp only [SMap.find, hj, if_false] at h
      exact List.mem_cons_of_mem _ (ih h)

theorem mem_erase {α : Type} {m : SMap α} {k : Nat} {e : Nat × α} (h : e ∈ m.erase k) : e ∈ m := by
  induction m with
  | nil => exact h
  | cons a m ih =>
    obtain ⟨j, w⟩ := a
    by_cases hj : j = k
    · simp only [SMap.erase, hj, if_true] at h
      exact List.mem_cons_of_mem _ (ih h)
    · simp only [SMap.erase, hj, if_false, List.mem_cons] at h
      exact List.mem_cons.2 (h.imp id ih)

theorem mem_ins {α : Type} {m : SMap α} {k : Nat} {v : α} {e : Nat × α} (h : e ∈ SMap.ins k v m) : e = (k, v) ∨ e ∈ m := by
  induction m with
  | nil => simpa [SMap.ins] using h
  | cons a m ih =>
    obtain ⟨j, w⟩ := a
    by_cases hj : k < j
    · simpa only [SMap.ins, hj, if_true, List.mem_cons] using h
    · simp only [SMap.ins, hj, if_false, List.mem_cons] at h
      rcases h with h | h
      · exact .inr (h ▸ List.mem_cons_self)
      · exact (ih h).imp id (List.mem_cons_of_mem _)

theorem mem_put {α : Type} {m : SMap α} {k : Nat} {v : α} {e : Nat × α} (h : e ∈ m.put k v) : e = (k, v) ∨ e ∈ m :=
  (mem_ins h).imp id mem_erase

theorem find_append {α : Type} (m m' : SMap α) (k : Nat) : SMap.find (m ++ m') k = (m.find k).or (m'.find k) := by
  induction m with
  | nil => rfl
  | cons e m ih =>
    obtain ⟨j, w⟩ := e
    rw [List.cons_append]
    by_cases hj : j = k
    · simp [SMap.find, hj]
    · simpa [SMap.find, hj] using ih

end Sys2Proof.SMap

namespace Sys2Proof.Machine.Group
open Sys2Proof

/-! ### A lane that stands at one target -/

/-- A lane is listed at one target alone. -/
structure StandsAt (x : Group) (l target : Nat) : Prop where
  only : ∀ e ∈ x.pcs, e.2.getLsbD l = true → e.1 = target
  listed : (SMap.get x.pcs target 0).getLsbD l = true

theorem getLsbD_get_zero {m : SMap Mask} {k l : Nat} (h : (SMap.get m k 0).getLsbD l = true) :
    ∃ w, m.find k = some w ∧ w.getLsbD l = true := by
  unfold SMap.get at h
  cases hf : m.find k with
  | none => rw [hf] at h; simp at h
  | some w => rw [hf] at h; exact ⟨w, rfl, h⟩

theorem StandsAt.of_pcs {x y : Group} {l target : Nat} (h : x.StandsAt l target) (hp : y.pcs = x.pcs) : y.StandsAt l target :=
  ⟨hp ▸ h.only, hp ▸ h.listed⟩

theorem StandsAt.pcOf {x : Group} {l target : Nat} (h : x.StandsAt l target) : x.pcOf l = target := by
  obtain ⟨w, hw, hl⟩ := getLsbD_get_zero h.listed
  unfold Group.pcOf
  cases hf : x.pcs.find? fun e : Nat × Mask => e.2.getLsbD l with
  | none => exact absurd hl (by simpa using List.find?_eq_none.1 hf _ (SMap.mem_of_find hw))
  | some e => exact h.only e (List.mem_of_find?_eq_some hf) (List.find?_some (p := fun e : Nat × Mask => e.2.getLsbD l) hf)

/-- The targets of the lanes that do not move. -/
def stay (pcs : SMap Mask) (m : Mask) : SMap Mask := (pcs.map fun e => (e.1, e.2 &&& ~~~m)).filter fun e => e.2 != 0

theorem setPc_pcs (x : Group) {m : Mask} (target : Nat) (hm : m ≠ 0) :
    (x.setPc m target).pcs = SMap.put (stay x.pcs m) target (SMap.get (stay x.pcs m) target 0 ||| m) := by
  unfold setPc
  simp only [beq_eq_false_iff_ne.2 hm, Bool.false_eq_true, if_false]
  rfl

theorem mem_stay {pcs : SMap Mask} {m : Mask} {e : Nat × Mask} (h : e ∈ stay pcs m) :
    ∃ w, (e.1, w) ∈ pcs ∧ e.2 = w &&& ~~~m := by
  obtain ⟨a, ha, rfl⟩ := List.mem_map.1 (List.mem_filter.1 h).1
  exact ⟨a.2, ha, rfl⟩

theorem stay_cons (e : Nat × Mask) (pcs : SMap Mask) (m : Mask) :
    stay (e :: pcs) m = if e.2 &&& ~~~m = 0 then stay pcs m else (e.1, e.2 &&& ~~~m) :: stay pcs m := by
  unfold stay
  rw [List.map_cons, List.filter_cons]
  by_cases h : e.2 &&& ~~~m = 0
  · rw [if_pos h, if_neg (by simp [h])]
  · rw [if_neg h, if_pos (by simpa using h)]

/-- The first entry of a target that lists a lane which does not move stays the first. -/
theorem find_stay {pcs : SMap Mask} {m w : Mask} {target l : Nat} (hf : pcs.find target = some w)
    (hbit : (w &&& ~~~m).getLsbD l = true) : (stay pcs m).find target = some (w &&& ~~~m) := by
  induction pcs with
  | nil => cases hf
  | cons a pcs ih =>
    obtain ⟨j, v⟩ := a
    rw [stay_cons]
    by_cases hj : j = target
    · simp only [SMap.find, hj, if_true, Option.some.injEq] at hf
      subst hf
      have hne : v &&& ~~~m ≠ 0 := by
        intro h0
        rw [h0] at hbit
        simp at hbit
      rw [if_neg hne]
      simp [SMap.find, hj]
    · simp only [SMap.find, hj, if_false] at hf
      split
      · exact ih hf
      · simp only [SMap.find, hj, if_false]
        exact ih hf

/-- A lane that moves stands at its target. -/
theorem standsAt_setPc (x : Group) {m : Mask} {l : Nat} (target : Nat) (hm : m.getLsbD l = true) :
    (x.setPc m target).StandsAt l target := by
  have hne : m ≠ 0 := by
    intro h0
    rw [h0] at hm
    simp at hm
  refine ⟨fun e he hbit => ?_, ?_⟩
  · rw [setPc_pcs x target hne] at he
    rcases SMap.mem_put he with rfl | he
    · rfl
    · obtain ⟨w, -, hw⟩ := mem_stay he
      rw [hw] at hbit
      simp [hm] at hbit
  · rw [setPc_pcs x target hne, SMap.get_put, if_pos rfl, BitVec.getLsbD_or, hm, Bool.or_true]

/-- A lane stays where it stands while others move. -/
theorem StandsAt.setPc {x : Group} {m : Mask} {l target : Nat} (h : x.StandsAt l target) (dest : Nat) (hl : l < 128)
    (hm : m.getLsbD l = false) : (x.setPc m dest).StandsAt l target := by
  by_cases hne : m = 0
  · rw [hne]
    exact h
  obtain ⟨w, hw, hbit⟩ := getLsbD_get_zero h.listed
  have hkept : (w &&& ~~~m).getLsbD l = true := by
    simp only [BitVec.getLsbD_and, BitVec.getLsbD_not, hbit, hm, hl]
    rfl
  have hstay := find_stay hw hkept
  have honly : ∀ e ∈ stay x.pcs m, e.2.getLsbD l = true → e.1 = target := fun e he hb => by
    obtain ⟨v, hv, hev⟩ := mem_stay he
    refine h.only (e.1, v) hv ?_
    rw [hev, BitVec.getLsbD_and, Bool.and_eq_true] at hb
    exact hb.1
  refine ⟨fun e he hb => ?_, ?_⟩
  · rw [setPc_pcs x dest hne] at he
    rcases SMap.mem_put he with rfl | he
    · rw [BitVec.getLsbD_or, hm, Bool.or_false] at hb
      obtain ⟨v, hv, hvb⟩ := getLsbD_get_zero hb
      exact honly (dest, v) (SMap.mem_of_find hv) hvb
    · exact honly e he hb
  · rw [setPc_pcs x dest hne, SMap.get_put]
    split
    · next ht =>
      subst ht
      rw [BitVec.getLsbD_or, SMap.get, hstay, Option.getD_some, hkept, Bool.true_or]
    · rw [SMap.get, hstay, Option.getD_some, hkept]

end Sys2Proof.Machine.Group

namespace Sys2Proof.Machine.State
open Sys2Proof

/-! ### What a tree's stages leave of its group -/

/-- An operation leaves the word's context, and of its group all but where its lanes stand, its signature and its park. -/
structure Moves (s t : State) : Prop where
  cur : t.cur = s.cur
  rest : t.grp = { s.grp with pcs := t.grp.pcs, sig := t.grp.sig, park := t.grp.park, stepPend := t.grp.stepPend
                              trapCause := t.grp.trapCause }

/-- As `Moves`, with the lanes where they stood. -/
structure Spares (s t : State) : Prop extends s.Moves t where
  pcs : t.grp.pcs = s.grp.pcs

section
variable {s t u : State}

theorem Moves.refl (s : State) : s.Moves s := ⟨rfl, rfl⟩
theorem Moves.trans (h : s.Moves t) (k : t.Moves u) : s.Moves u := ⟨k.cur.trans h.cur, by rw [k.rest, h.rest]⟩

theorem Moves.leavesIssuer (h : s.Moves t) : s.LeavesIssuer t :=
  ⟨⟨h.cur, by rw [h.rest], by rw [h.rest], by rw [h.rest]⟩, by rw [h.rest], by rw [h.rest]⟩

theorem Spares.refl (s : State) : s.Spares s := ⟨.refl s, rfl⟩
theorem Spares.trans (h : s.Spares t) (k : t.Spares u) : s.Spares u := ⟨h.toMoves.trans k.toMoves, k.pcs.trans h.pcs⟩

theorem Spares.foldl {α : Type} {f : State → α → State} (hf : ∀ (s : State) a, s.Spares (f s a)) (l : List α) (s : State) :
    s.Spares (l.foldl f s) := by
  induction l generalizing s with
  | nil => exact .refl s
  | cons a l ih => exact (hf s a).trans (ih _)

theorem Spares.of_group (hc : t.cur = s.cur) (hg : (s.group s.curGrp).SameButPark (t.group s.curGrp)) : s.Spares t := by
  rw [← grp_of_cur hc] at hg
  refine ⟨⟨hc, ?_⟩, ?_⟩
  · rw [hg.rest]; rfl
  · rw [hg.rest]; rfl

theorem Spares.of_served (h : s.Served t) : s.Spares t := .of_group h.cur (h.group _)
theorem Spares.of_servedLogged (h : s.ServedLogged t) : s.Spares t := .of_group (h.served.cur.trans rfl) (h.group _)

end

theorem servedLogged_writeGlob (s : State) (q : GPiece) (bs : List PByte) : s.ServedLogged (s.writeGlob q bs) :=
  (ServedLogged.of_served (served_glStore ..)).trans (.ite (fun _ => servedLogged_logLeak ..) fun _ => .refl _)

theorem servedLogged_treeStore (s : State) (k : Nat) (accs : List (Nat × ArcAcc)) (st : List GPiece) :
    s.ServedLogged (s.treeStore k accs st) :=
  (((ServedLogged.of_served (served_touchPages ..)).trans (.of_served (served_countWritten ..))).trans
    (.foldl (fun _ _ => servedLogged_writeGlob ..) _ _)).trans (.of_served (served_settleMarks ..))

theorem spares_writeSpad (s : State) (p : Piece) (bs : List PByte) : s.Spares (s.writeSpad p bs) := by
  unfold writeSpad
  split
  · exact .of_group rfl (.refl _)
  · exact .refl s

theorem spares_treePad (s : State) (accs : List (Nat × ArcAcc)) : s.Spares (s.treePad accs) :=
  .foldl (fun _ _ => .foldl (fun _ _ => spares_writeSpad ..) _ _) _ s

/-! ### The leaves -/

theorem served_traceFold (s : State) (pc : Nat) (m : Mask) : s.Served (s.traceFold pc m) := by
  unfold traceFold
  dsimp only
  split
  · exact (served_vaWrite ..).trans (served_modPage ..)
  · exact .refl s

theorem spares_foldSig (s : State) (pc : Nat) (m : Mask) : s.Spares (s.foldSig pc m) := by
  refine .trans ?_ (.of_served (served_traceFold ..))
  exact ⟨⟨rfl, by simp⟩, by simp⟩

theorem leafTarget_of_cur {s t : State} (h : t.cur = s.cur) (f : TF) (j : Nat) : t.leafTarget f j = s.leafTarget f j := by
  unfold leafTarget; rw [h]

section
variable {u : State} {f : TF} {next : Nat} {lanes : Nat → Mask} {j : Nat}

/-- A leaf: nothing, or its lanes go to its target, and then nothing moves. -/
theorem takeLeaf_cases (u : State) (f : TF) (next : Nat) (lanes : Nat → Mask) (j : Nat) :
    (takeLeaf f next lanes u j = u ∧ lanes j = 0) ∨
      (u.leafTarget f j = next ∧ u.Spares (takeLeaf f next lanes u j)) ∨
      (u.modGrp fun x => x.setPc (lanes j) (u.leafTarget f j)).Spares (takeLeaf f next lanes u j) := by
  unfold takeLeaf
  by_cases h0 : lanes j = 0
  · exact .inl ⟨if_pos h0, h0⟩
  rw [if_neg h0]
  by_cases ht : u.leafTarget f j = next
  · refine .inr (.inl ⟨ht, .trans ?_ (spares_foldSig ..)⟩)
    exact ⟨⟨rfl, by simp [ht]⟩, by simp [ht]⟩
  · simp only [if_neg ht]
    exact .inr (.inr (spares_foldSig ..))

theorem moves_setPc (u : State) (m : Mask) (target : Nat) : u.Moves (u.modGrp fun x => x.setPc m target) :=
  ⟨rfl, by rw [modGrp_grp, Group.setPc_rest]⟩

theorem moves_takeLeaf (u : State) (f : TF) (next : Nat) (lanes : Nat → Mask) (j : Nat) : u.Moves (takeLeaf f next lanes u j) := by
  rcases takeLeaf_cases u f next lanes j with ⟨e, -⟩ | ⟨-, h⟩ | h
  · rw [e]; exact .refl u
  · exact h.toMoves
  · exact (moves_setPc ..).trans h.toMoves

theorem moves_foldl_takeLeaf (f : TF) (next : Nat) (lanes : Nat → Mask) (js : List Nat) (u : State) :
    u.Moves (js.foldl (takeLeaf f next lanes) u) := by
  induction js generalizing u with
  | nil => exact .refl u
  | cons j js ih => exact (moves_takeLeaf ..).trans (ih _)

/-- A leaf that the lane does not come to leaves it where it stands. -/
theorem standsAt_takeLeaf_other {l target : Nat} (hl : l < 128) (h : u.grp.StandsAt l target) (hj : (lanes j).getLsbD l = false) :
    (takeLeaf f next lanes u j).grp.StandsAt l target := by
  rcases takeLeaf_cases u f next lanes j with ⟨e, -⟩ | ⟨-, hs⟩ | hs
  · rwa [e]
  · exact h.of_pcs hs.pcs
  · refine (h.setPc (u.leafTarget f j) hl hj).of_pcs ?_
    rw [hs.pcs, modGrp_grp]

/-- The leaf that the lane comes to. -/
theorem standsAt_takeLeaf {l : Nat} (hj : (lanes j).getLsbD l = true) (hne : u.leafTarget f j ≠ next) :
    (takeLeaf f next lanes u j).grp.StandsAt l (u.leafTarget f j) := by
  rcases takeLeaf_cases u f next lanes j with ⟨-, h0⟩ | ⟨ht, -⟩ | hs
  · rw [h0] at hj
    simp at hj
  · exact absurd ht hne
  · refine (Group.standsAt_setPc u.grp (u.leafTarget f j) hj).of_pcs ?_
    rw [hs.pcs, modGrp_grp]

/-- A lane that comes to leaf `j` alone stands at its target in the end. -/
theorem standsAt_takeLeaves {l : Nat} {js : List Nat} (hl : l < 128) (hj : j ∈ js) (hlane : ∀ i, (lanes i).getLsbD l = decide (i = j))
    (hne : u.leafTarget f j ≠ next) : (js.foldl (takeLeaf f next lanes) u).grp.StandsAt l (u.leafTarget f j) := by
  have hrest : ∀ (is : List Nat) (v : State), v.cur = u.cur → v.grp.StandsAt l (u.leafTarget f j) →
      (is.foldl (takeLeaf f next lanes) v).grp.StandsAt l (u.leafTarget f j) := by
    intro is
    induction is with
    | nil => exact fun _ _ h => h
    | cons i is ih =>
      intro v hv h
      refine ih _ ((moves_takeLeaf ..).cur.trans hv) ?_
      by_cases hi : i = j
      · have ht := leafTarget_of_cur hv f i
        subst hi
        rw [← ht] at hne ⊢
        exact standsAt_takeLeaf (by simp [hlane]) hne
      · exact standsAt_takeLeaf_other hl h (by simp [hlane, hi])
  induction js generalizing u with
  | nil => cases hj
  | cons i is ih =>
    by_cases hi : i = j
    · subst hi
      have ht := leafTarget_of_cur (moves_takeLeaf u f next lanes i).cur f i
      exact hrest is _ (moves_takeLeaf ..).cur (standsAt_takeLeaf (by simp [hlane]) hne)
    · have hmem := (List.mem_cons.1 hj).resolve_left (Ne.symm hi)
      have ht := leafTarget_of_cur (moves_takeLeaf u f next lanes i).cur f j
      have h := ih (u := takeLeaf f next lanes u i) hmem (by rw [ht]; exact hne) (fun is' v hv hs => by
        rw [ht] at hs ⊢
        exact hrest is' v (hv.trans (moves_takeLeaf ..).cur) hs)
      rwa [ht] at h

end

end Sys2Proof.Machine.State

namespace Sys2Proof.Machine.State
open Sys2Proof

/-! ### The paths (R311, R356) -/

theorem mem_distinct {l : List Nat} {n : Nat} : n ∈ distinct l ↔ n ∈ l := by
  induction l with
  | nil => rfl
  | cons a l ih =>
    simp only [distinct, List.mem_cons, List.mem_filter, ih, bne_iff_ne]
    constructor
    · exact Or.imp id And.left
    · rintro (rfl | h)
      · exact .inl rfl
      · exact (eq_or_ne n a).imp id fun hne => ⟨h, hne⟩

theorem arcOf_fst_lt (shape : BitVec 2) (k : Nat) (c : Bool) : (arcOf shape.toNat k c).1 < (shapeCounts shape).2.2 := by
  unfold shapeCounts
  generalize shape.toNat = n
  match n with
  | 0 | 1 | _ + 2 => unfold arcOf; split <;> simp_all

theorem arcOf_leaf_lt {shape k j : Nat} {c : Bool} (h : (arcOf shape k c).2 = .inr j) : j < 4 := by
  unfold arcOf at h
  split at h <;> cases h <;> decide

/-- An arc that a path takes is one of the shape's, or has no effect. -/
theorem arc_mem (f : TF) (k : Nat) (c : Bool) : f.arc (arcOf f.shape.toNat k c).1 ∈ f.shapeArcs ∨
    f.arc (arcOf f.shape.toNat k c).1 = { aop := 0, vd := 0, va := 0, b := 0 } := by
  have hlt := arcOf_fst_lt f.shape k c
  generalize (arcOf f.shape.toNat k c).1 = n at hlt
  unfold TF.arc TF.shapeArcs
  by_cases hn : n < f.arcs.length
  · left
    rw [List.getD_eq_getElem _ _ hn, List.mem_take_iff_getElem]
    exact ⟨n, by omega, rfl⟩
  · right
    rw [List.getD_eq_getElem?_getD, List.getElem?_eq_none (by omega), Option.getD_none]

theorem walk_leaf_lt (f : TF) (r : Regs) (l fuel k : Nat) (x : View) (acc : Option ArcAcc) : (f.walk r l fuel k x acc).leaf < 4 := by
  induction fuel generalizing k x acc with
  | zero => exact Nat.zero_lt_succ 3
  | succ fuel ih =>
    unfold TF.walk
    dsimp only
    split
    · exact ih ..
    · next j h => exact arcOf_leaf_lt h

/-- What every arc of a path keeps, the path keeps. -/
theorem walk_keeps {f : TF} {r : Regs} {l : Nat} {P : View → Option ArcAcc → Prop}
    (hpois : ∀ x acc n, P x acc → P { x with pois := n } acc)
    (harc : ∀ a ∈ f.shapeArcs, ∀ x acc, P x acc → P (arcApply a x r l) (if a.isMem then some (arcAccess a x r l) else acc))
    (fuel k : Nat) {x : View} {acc : Option ArcAcc} (h : P x acc) :
    P (f.walk r l fuel k x acc).view (f.walk r l fuel k x acc).acc := by
  induction fuel generalizing k x acc with
  | zero => exact h
  | succ fuel ih =>
    unfold TF.walk
    dsimp only
    generalize hc : (testOn (f.test k) x r l).1 = c
    have hstep := hpois x acc (x.pois + bit (testOn (f.test k) x r l).2) h
    have hnext : P (arcApply (f.arc (arcOf f.shape.toNat k c).1) { x with pois := x.pois + bit (testOn (f.test k) x r l).2 } r l)
        (if (f.arc (arcOf f.shape.toNat k c).1).isMem then
          some (arcAccess (f.arc (arcOf f.shape.toNat k c).1) { x with pois := x.pois + bit (testOn (f.test k) x r l).2 } r l)
        else acc) := by
      rcases arc_mem f k c with hm | he
      · exact harc _ hm _ _ hstep
      · rw [he]
        exact hstep
    split
    · exact ih _ hnext
    · exact hnext

/-- The registers of a view are written by arcs of the shape. -/
structure WrittenBy (f : TF) (x : View) : Prop where
  v : ∀ n, (x.v.find n).isSome = true → (0, n) ∈ f.results
  p : ∀ n, (x.p.find n).isSome = true → n ≠ 0 ∧ (2, n) ∈ f.results

theorem mem_results_v {f : TF} {n : Nat} : (0, n) ∈ f.results ↔ n ∈ f.uses.vw := by
  unfold TF.results
  simp [mem_distinct]

theorem mem_results_p {f : TF} {n : Nat} :
    (2, n) ∈ f.results ↔ ∃ a ∈ f.shapeArcs, (a.aop = 0x17 ∨ a.aop = 0x18) ∧ n = a.vd.toNat % 16 := by
  unfold TF.results
  simp only [List.append_eq, List.mem_append, List.mem_map, Prod.mk.injEq, mem_distinct, List.mem_flatMap]
  constructor
  · rintro (⟨m, -, h, -⟩ | ⟨m, ⟨a, ha, hm⟩, -, rfl⟩)
    · cases h
    · by_cases hop : (a.aop == 0x17 || a.aop == 0x18) = true
      · rw [if_pos hop] at hm
        exact ⟨a, ha, by simpa using hop, by simpa using hm⟩
      · rw [if_neg hop] at hm
        cases hm
  · rintro ⟨a, ha, hop, rfl⟩
    refine .inr ⟨_, ⟨a, ha, ?_⟩, trivial, rfl⟩
    rw [if_pos (by simpa using hop)]
    exact List.mem_singleton.2 rfl

theorem mem_uses_vw {f : TF} {a : Arc} (ha : a ∈ f.shapeArcs) (h1 : 1 ≤ a.aop.toNat) (h2 : a.aop.toNat ≤ 0x16) :
    a.vd.toNat ∈ f.uses.vw := by
  unfold TF.uses
  refine List.mem_flatMap.2 ⟨a, ha, ?_⟩
  dsimp only
  rw [if_pos (by simp [h1, h2])]
  exact List.mem_singleton.2 rfl

theorem writtenBy_arcApply {f : TF} {a : Arc} {x : View} (ha : a ∈ f.shapeArcs) (h : WrittenBy f x) (r : Regs) (l : Nat) :
    WrittenBy f (arcApply a x r l) := by
  unfold arcApply
  dsimp only
  split
  · exact h
  · next h0 =>
    split
    · next hop =>
      split
      · exact h
      · next hd =>
        refine ⟨h.v, fun n hn => ?_⟩
        by_cases he : n = a.vd.toNat % 16
        · refine ⟨by rw [he]; simpa using hd, mem_results_p.2 ⟨a, ha, ?_, he⟩⟩
          simp only [Bool.or_eq_true, beq_iff_eq] at hop
          exact hop.imp BitVec.eq_of_toNat_eq BitVec.eq_of_toNat_eq
        · rw [SMap.find_put, if_neg he] at hn
          exact h.p n hn
    · split
      · next hle =>
        refine ⟨fun n hn => ?_, h.p⟩
        by_cases he : n = a.vd.toNat
        · exact mem_results_v.2 (he ▸ mem_uses_vw ha (Nat.one_le_iff_ne_zero.2 (by simpa using h0)) hle)
        · rw [SMap.find_put, if_neg he] at hn
          exact h.v n hn
      · exact h

theorem writtenBy_treePath (s : State) (f : TF) (l : Nat) : WrittenBy f (s.treePath f l).view :=
  walk_keeps (P := fun x _ => WrittenBy f x) (fun _ _ _ h => ⟨h.v, h.p⟩) (fun _ ha _ _ h => writtenBy_arcApply ha h _ _) 3 0
    ⟨fun _ h => (nomatch h), fun _ h => (nomatch h)⟩

/-- The access of a path: its arc is one of the shape's, and what it stores has the arc's size. -/
structure AccOf (f : TF) (a : ArcAcc) : Prop where
  arc : a.arc ∈ f.shapeArcs
  mem : a.arc.isMem = true
  size : a.arc.isStore = true → a.data.length = if a.arc.isWide then 8 else 4

theorem length_arcData (regs : List Nat) (g : Nat → W32 × Bool) :
    (regs.flatMap fun n => (leBytes 4 (g n).1.toNat).map fun b => (b, (g n).2)).length = 4 * regs.length := by
  induction regs with
  | nil => rfl
  | cons n regs ih =>
    rw [List.flatMap_cons, List.length_append, List.length_map, leBytes_length, ih, List.length_cons]
    omega

theorem accOf_treePath {s : State} {f : TF} {l : Nat} {a : ArcAcc} (h : (s.treePath f l).acc = some a) : AccOf f a := by
  refine walk_keeps (P := fun _ acc => ∀ a, acc = some a → AccOf f a) (fun _ _ _ h => h) (fun b hb x acc hP a ha => ?_) 3 0
    (fun _ h => by cases h) a h
  by_cases hm : b.isMem = true
  · rw [if_pos hm, Option.some.injEq] at ha
    subst ha
    refine ⟨hb, hm, fun hs => ?_⟩
    have hs' : b.isStore = true := hs
    simp only [arcAccess, hs', if_true, length_arcData, arcRegs]
    split <;> rfl
  · rw [if_neg hm] at ha
    exact hP a ha

/-! ### The lanes' paths and accesses, looked up -/

theorem mem_lanes {act : Mask} {l : Nat} : l ∈ act.lanes ↔ l < 128 ∧ act.getLsbD l = true := by
  unfold Mask.lanes
  rw [List.mem_filter, List.mem_range]

theorem find_lanes {α : Type} (g : Nat → Option α) (ls : List Nat) (l : Nat) :
    (ls.filterMap fun i => (g i).map fun a => (i, a)).find? (fun e => e.1 == l) =
      if l ∈ ls then (g l).map fun a => (l, a) else none := by
  induction ls with
  | nil => rfl
  | cons i ls ih =>
    cases hg : g i with
    | none =>
      rw [List.filterMap_cons_none (by rw [hg]; rfl), ih]
      by_cases hi : l = i
      · subst hi
        simp [hg]
      · simp [hi]
    | some a =>
      rw [List.filterMap_cons_some (b := (i, a)) (by rw [hg]; rfl)]
      by_cases hi : i = l
      · subst hi
        simp [hg]
      · rw [List.find?_cons_of_neg (by simpa using hi), ih]
        simp [Ne.symm hi]

theorem find_paths (s : State) (f : TF) (act : Mask) (l : Nat) :
    (act.lanes.map fun l => (l, s.treePath f l)).find? (fun e => e.1 == l) =
      if l ∈ act.lanes then some (l, s.treePath f l) else none := by
  have h := find_lanes (fun l => some (s.treePath f l)) act.lanes l
  simpa using h

theorem find_treeAccs (s : State) (f : TF) (act : Mask) (l : Nat) :
    (s.treeAccs f act).find? (fun e => e.1 == l) =
      if l ∈ act.lanes then (s.treePath f l).acc.map fun a => (l, a) else none := find_lanes _ _ _

theorem mem_treeAccs {s : State} {f : TF} {act : Mask} {l : Nat} {a : ArcAcc} :
    (l, a) ∈ s.treeAccs f act ↔ l ∈ act.lanes ∧ (s.treePath f l).acc = some a := by
  unfold treeAccs
  rw [List.mem_filterMap]
  constructor
  · rintro ⟨i, hi, he⟩
    obtain ⟨b, hb, hab⟩ := Option.map_eq_some_iff.1 he
    cases hab
    exact ⟨hi, hb⟩
  · rintro ⟨hl, ha⟩
    exact ⟨l, hl, by rw [ha]; rfl⟩

theorem any_paths (s : State) (f : TF) (act : Mask) (l : Nat) (p : Path → Bool) :
    ((act.lanes.map fun l => (l, s.treePath f l)).any fun e => e.1 == l && p e.2) = (decide (l ∈ act.lanes) && p (s.treePath f l)) := by
  rw [Bool.eq_iff_iff]
  simp only [List.any_map, List.any_eq_true, Function.comp_apply, Bool.and_eq_true, beq_iff_eq, decide_eq_true_eq]
  constructor
  · rintro ⟨i, hi, rfl, hp⟩
    exact ⟨hi, hp⟩
  · rintro ⟨hl, hp⟩
    exact ⟨l, hl, rfl, hp⟩

end Sys2Proof.Machine.State

namespace Sys2Proof.Machine.State
open Sys2Proof

/-! ### Results written one after the other (R107) -/

/-- What a result writes to a lane of a v register. -/
def laneHit (n l : Nat) : RegWr → Option W32
  | .vec m mask vals _ | .loaded m mask vals _ => if m = n ∧ mask.getLsbD l = true then some (vals.getD l 0) else none
  | _ => none

/-- What a result writes to a lane of a predicate. -/
def predHit (n l : Nat) : RegWr → Option Bool
  | .pred m mask vals => if m = n ∧ n ≠ 0 ∧ mask.getLsbD l = true then some (vals.getLsbD l) else none
  | _ => none

theorem vset_lane_getD (r : Regs) (m : Nat) (mask : Mask) (vals : List W32) (pois : Mask) (n : Nat) {l : Nat} (hl : l < 128) :
    (r.vset m mask vals pois).lane n l =
      (if m = n ∧ mask.getLsbD l = true then some (vals.getD l 0) else none).getD (r.lane n l) := by
  by_cases hm : n = m
  · subst hm
    rw [Regs.vset_lane _ _ _ _ _ _ hl]
    by_cases hb : mask.getLsbD l = true
    · rw [if_pos hb, if_pos ⟨rfl, hb⟩, Option.getD_some]
    · rw [if_neg hb, if_neg fun h => hb h.2, Option.getD_none]
  · rw [if_neg fun h => hm h.1.symm, Option.getD_none]
    unfold Regs.lane
    rw [Regs.vset_vget_ne _ _ _ _ _ _ hm]

theorem write_lane (r : Regs) (w : RegWr) (n : Nat) {l : Nat} (hl : l < 128) :
    (r.write w).lane n l = (laneHit n l w).getD (r.lane n l) := by
  cases w with
  | vec m mask vals pois => exact vset_lane_getD r m mask vals pois n hl
  | loaded m mask vals pois => exact vset_lane_getD r m mask vals pois n hl
  | scal m v pois =>
    change (r.sset m v pois).lane n l = r.lane n l
    rw [Regs.sset_rest]; rfl
  | pred m mask vals =>
    change (r.pset m mask vals).lane n l = r.lane n l
    rw [Regs.pset_rest]; rfl

theorem write_pget (r : Regs) (w : RegWr) (n : Nat) {l : Nat} (hl : l < 128) :
    ((r.write w).pget n).getLsbD l = (predHit n l w).getD ((r.pget n).getLsbD l) := by
  cases w with
  | vec m mask vals pois => rfl
  | loaded m mask vals pois => rfl
  | scal m v pois =>
    change ((r.sset m v pois).pget n).getLsbD l = (r.pget n).getLsbD l
    rw [Regs.sset_rest]; rfl
  | pred m mask vals =>
    change ((r.pset m mask vals).pget n).getLsbD l =
      (if m = n ∧ n ≠ 0 ∧ mask.getLsbD l = true then some (vals.getLsbD l) else none).getD ((r.pget n).getLsbD l)
    by_cases hm : n = m
    · subst hm
      rw [Regs.pset_pget _ _ _ _ _ hl]
      by_cases h0 : n = 0
      · subst h0
        simpa [Regs.pget] using (getLsbD_full l hl).symm
      · by_cases hb : mask.getLsbD l = true <;> simp [h0, hb]
    · rw [if_neg fun h => hm h.1.symm, Option.getD_none, Regs.pset_pget_ne _ _ _ _ _ hm]

section
variable {β : Type} {hit : RegWr → Option β} {get : Regs → β} (hget : ∀ r w, get (Regs.write r w) = (hit w).getD (get r))
include hget

/-- What no result of a list writes stays. -/
theorem foldl_write_none {ws : List RegWr} (h : ∀ w ∈ ws, hit w = none) (r : Regs) : get (ws.foldl Regs.write r) = get r := by
  induction ws generalizing r with
  | nil => rfl
  | cons w ws ih =>
    rw [List.foldl_cons, ih fun v hv => h v (List.mem_cons_of_mem _ hv), hget, h w List.mem_cons_self, Option.getD_none]

/-- What results of a list write, all the same, stands. -/
theorem foldl_write_some {ws : List RegWr} {b : β} (hex : ∃ w ∈ ws, hit w = some b) (h : ∀ w ∈ ws, ∀ c, hit w = some c → c = b)
    (r : Regs) : get (ws.foldl Regs.write r) = b := by
  induction ws generalizing r with
  | nil => obtain ⟨w, hw, -⟩ := hex; cases hw
  | cons w ws ih =>
    have hrest := fun v hv => h v (List.mem_cons_of_mem w hv)
    rw [List.foldl_cons]
    by_cases hlater : ∃ v ∈ ws, hit v = some b
    · exact ih hlater hrest _
    · have hnone : ∀ v ∈ ws, hit v = none := fun v hv => by
        cases hv' : hit v with
        | none => rfl
        | some c => exact absurd ⟨v, hv, by rw [hv', hrest v hv c hv']⟩ hlater
      obtain ⟨v, hv, hb⟩ := hex
      have hw : hit w = some b := by
        rcases List.mem_cons.1 hv with rfl | hv
        · exact hb
        · exact absurd ⟨v, hv, hb⟩ hlater
      rw [foldl_write_none hget hnone, hget, hw, Option.getD_some]

/-- Results of a list that write what `x` says, if anything. -/
theorem foldl_write_opt {ws : List RegWr} {x : Option β} (hex : ∀ b, x = some b → ∃ w ∈ ws, hit w = some b)
    (h : ∀ w ∈ ws, ∀ c, hit w = some c → x = some c) (r : Regs) : get (ws.foldl Regs.write r) = x.getD (get r) := by
  cases x with
  | none =>
    exact foldl_write_none hget (fun w hw => Option.eq_none_iff_forall_ne_some.2 fun c hc => (nomatch h w hw c hc)) r
  | some b =>
    exact foldl_write_some hget (hex b rfl) (fun w hw c hc => (Option.some.inj (h w hw c hc)).symm) r

end

/-! ### What a tree writes (R356) -/

/-- What a lane's path has written to a register, and to a predicate. -/
def pathReg (s : State) (f : TF) (act : Mask) (n l : Nat) : Option (W32 × Bool) :=
  if l ∈ act.lanes then (s.treePath f l).view.v.find n else none
def pathPred (s : State) (f : TF) (act : Mask) (n l : Nat) : Option Bool :=
  if l ∈ act.lanes then (s.treePath f l).view.p.find n else none

section
variable {s : State} {f : TF} {act : Mask} {n l : Nat}

theorem pathReg_result {x : W32 × Bool} (h : s.pathReg f act n l = some x) : (0, n) ∈ f.results := by
  unfold pathReg at h
  split at h
  · exact (writtenBy_treePath s f l).v n (by rw [h]; rfl)
  · cases h

theorem pathPred_result {b : Bool} (h : s.pathPred f act n l = some b) : n ≠ 0 ∧ (2, n) ∈ f.results := by
  unfold pathPred at h
  split at h
  · exact (writtenBy_treePath s f l).p n (by rw [h]; rfl)
  · cases h

/-- The writes of a tree's paths. -/
theorem viewWrites_paths (s : State) (f : TF) (act : Mask) : viewWrites f (act.lanes.map fun l => (l, s.treePath f l)) =
    f.results.map fun w => if w.1 == 0 then
      .vec w.2 (maskOf fun l => (s.pathReg f act w.2 l).isSome)
        ((List.range 128).map fun l => ((s.pathReg f act w.2 l).getD (0, false)).1)
        (maskOf fun l => ((s.pathReg f act w.2 l).getD (0, false)).2)
    else .pred w.2 (maskOf fun l => (s.pathPred f act w.2 l).isSome) (maskOf fun l => (s.pathPred f act w.2 l).getD false) := by
  have hreg : ∀ n l, ((if l ∈ act.lanes then some (l, s.treePath f l) else none).map Prod.snd).bind (fun p => p.view.v.find n) =
      s.pathReg f act n l := fun n l => by unfold pathReg; split <;> rfl
  have hpred : ∀ n l, ((if l ∈ act.lanes then some (l, s.treePath f l) else none).map Prod.snd).bind (fun p => p.view.p.find n) =
      s.pathPred f act n l := fun n l => by unfold pathPred; split <;> rfl
  unfold viewWrites
  simp only [find_paths, hreg, hpred]

/-- A write of a register by lanes that `g` answers. -/
theorem laneHit_answers (g : Nat → Option (W32 × Bool)) (m : Nat) (pois : Mask) (hl : l < 128) :
    laneHit n l (.vec m (maskOf fun l => (g l).isSome) ((List.range 128).map fun l => ((g l).getD (0, false)).1) pois) =
      if m = n then (g l).map Prod.fst else none := by
  simp only [laneHit, getLsbD_maskOf _ _ hl, getD_range_map _ _ _ hl]
  cases g l <;> simp

theorem laneHit_loaded (m : Nat) (mask : Mask) (vals : List W32) (pois : Mask) :
    laneHit n l (.loaded m mask vals pois) = laneHit n l (.vec m mask vals pois) := rfl

theorem predHit_answers (g : Nat → Option Bool) (m : Nat) (hl : l < 128) :
    predHit n l (.pred m (maskOf fun l => (g l).isSome) (maskOf fun l => (g l).getD false)) =
      if m = n ∧ n ≠ 0 then g l else none := by
  simp only [predHit, getLsbD_maskOf _ _ hl]
  cases g l <;> simp

/-- The paths' writes to a lane. -/
theorem laneHit_viewWrites {w : RegWr} {v : W32} (hl : l < 128) (hw : w ∈ viewWrites f (act.lanes.map fun l => (l, s.treePath f l)))
    (hv : laneHit n l w = some v) : (s.pathReg f act n l).map Prod.fst = some v := by
  rw [viewWrites_paths] at hw
  obtain ⟨⟨k, m⟩, -, rfl⟩ := List.mem_map.1 hw
  dsimp only at hv
  split at hv
  · rw [laneHit_answers _ _ _ hl] at hv
    split at hv
    · next hm => rwa [hm] at hv
    · cases hv
  · cases hv

theorem exists_laneHit_viewWrites {x : W32 × Bool} (hl : l < 128) (hx : s.pathReg f act n l = some x) :
    ∃ w ∈ viewWrites f (act.lanes.map fun l => (l, s.treePath f l)), laneHit n l w = some x.1 := by
  rw [viewWrites_paths]
  refine ⟨_, List.mem_map.2 ⟨_, pathReg_result hx, rfl⟩, ?_⟩
  simp only [beq_self_eq_true, if_true]
  rw [laneHit_answers _ _ _ hl, if_pos rfl, hx]
  rfl

theorem predHit_viewWrites {w : RegWr} {b : Bool} (hl : l < 128)
    (hw : w ∈ viewWrites f (act.lanes.map fun l => (l, s.treePath f l))) (hb : predHit n l w = some b) :
    s.pathPred f act n l = some b := by
  rw [viewWrites_paths] at hw
  obtain ⟨⟨k, m⟩, -, rfl⟩ := List.mem_map.1 hw
  dsimp only at hb
  split at hb
  · cases hb
  · rw [predHit_answers _ _ hl] at hb
    split at hb
    · next hm => rwa [hm.1] at hb
    · cases hb

theorem exists_predHit_viewWrites {b : Bool} (hl : l < 128) (hb : s.pathPred f act n l = some b) :
    ∃ w ∈ viewWrites f (act.lanes.map fun l => (l, s.treePath f l)), predHit n l w = some b := by
  obtain ⟨h0, hres⟩ := pathPred_result hb
  rw [viewWrites_paths]
  refine ⟨_, List.mem_map.2 ⟨_, hres, rfl⟩, ?_⟩
  simp only [show ((2 : Nat) == 0) = false from rfl, Bool.false_eq_true, if_false]
  rw [predHit_answers _ _ hl, if_pos ⟨rfl, h0⟩, hb]

/-! ### What the load arcs bring -/

variable {accs : List (Nat × ArcAcc)} {loaded : SMap (List PByte)}

theorem loadedWord_of_acc {v : Nat} (ha : accs = s.treeAccs f act) (h : (loadedWord accs loaded v l).isSome = true) :
    l ∈ act.lanes ∧ ∃ a, (s.treePath f l).acc = some a ∧ a.arc.isLoad = true ∧ v ∈ arcRegs a.arc := by
  unfold loadedWord at h
  rw [ha, find_treeAccs] at h
  by_cases hl : l ∈ act.lanes
  · refine ⟨hl, ?_⟩
    rw [if_pos hl] at h
    cases hacc : (s.treePath f l).acc with
    | none => rw [hacc] at h; cases h
    | some a =>
      rw [hacc] at h
      dsimp only [Option.map_some] at h
      split at h
      · next hc =>
        rw [Bool.and_eq_true, List.contains_iff_mem] at hc
        exact ⟨a, rfl, hc⟩
      · cases h
  · rw [if_neg hl] at h
    cases h

theorem loadedWord_eq {a : ArcAcc} {v : Nat} {bs : List PByte} (ha : accs = s.treeAccs f act) (hl : l ∈ act.lanes)
    (hacc : (s.treePath f l).acc = some a) (hload : a.arc.isLoad = true) (hv : v ∈ arcRegs a.arc)
    (hb : SMap.find loaded l = some bs) :
    loadedWord accs loaded v l = some ((loadWords false bs).getD (v - a.arc.vd.toNat) (0, false)) := by
  unfold loadedWord
  rw [ha, find_treeAccs, if_pos hl, hacc]
  have hc : (a.arc.isLoad && (arcRegs a.arc).contains v) = true := by
    rw [Bool.and_eq_true, List.contains_iff_mem]
    exact ⟨hload, hv⟩
  dsimp only [Option.map_some]
  rw [if_pos hc, hb, Option.map_some]

theorem laneHit_loadedWrite (v : Nat) (hl : l < 128) : laneHit n l (loadedWrite accs loaded v) =
    if v = n then (loadedWord accs loaded n l).map Prod.fst else none := by
  unfold loadedWrite
  rw [laneHit_loaded, laneHit_answers (fun l => loadedWord accs loaded v l) _ _ hl]
  split
  · next h => rw [h]
  · rfl

theorem mem_loadRegs {a : Arc} {v : Nat} (ha : a ∈ f.shapeArcs) (hload : a.isLoad = true) (hv : v ∈ arcRegs a) : v ∈ loadRegs f :=
  mem_distinct.2 (List.mem_flatMap.2 ⟨a, ha, by rw [if_pos hload]; exact hv⟩)

/-! ### All of a tree's writes -/

variable (ha : accs = s.treeAccs f act)
include ha

/-- R356: a register that the lane's load arc does not fill has what its path wrote. -/
theorem treeWrites_lane_path (hl : l < 128)
    (hno : ∀ a, act.getLsbD l = true → (s.treePath f l).acc = some a → a.arc.isLoad = true → n ∉ arcRegs a.arc) (r : Regs) :
    ((s.treeWrites f act accs loaded).foldl Regs.write r).lane n l =
      if act.getLsbD l then (((s.treePath f l).view.v.find n).map Prod.fst).getD (r.lane n l) else r.lane n l := by
  have hloads : ∀ w ∈ (loadRegs f).map (loadedWrite accs loaded), laneHit n l w = none := by
    intro w hw
    obtain ⟨v, -, rfl⟩ := List.mem_map.1 hw
    rw [laneHit_loadedWrite _ hl]
    cases hsome : loadedWord accs loaded n l with
    | none => split <;> rfl
    | some x =>
      obtain ⟨hlane, a, hacc, hload, hmem⟩ := loadedWord_of_acc (v := n) ha (by rw [hsome]; rfl)
      exact absurd hmem (hno a (mem_lanes.1 hlane).2 hacc hload)
  have hx : ((s.pathReg f act n l).map Prod.fst).getD (r.lane n l) =
      if act.getLsbD l then (((s.treePath f l).view.v.find n).map Prod.fst).getD (r.lane n l) else r.lane n l := by
    unfold pathReg
    by_cases hb : act.getLsbD l = true
    · rw [if_pos (mem_lanes.2 ⟨hl, hb⟩), if_pos hb]
    · rw [if_neg (fun h => hb (mem_lanes.1 h).2), if_neg hb]
      rfl
  rw [← hx]
  refine foldl_write_opt (get := fun r => r.lane n l) (hit := laneHit n l) (fun r w => write_lane r w n hl) (fun v hv => ?_)
    (fun w hw v hv => ?_) r
  · obtain ⟨x, hx, rfl⟩ := Option.map_eq_some_iff.1 hv
    obtain ⟨w, hw, hh⟩ := exists_laneHit_viewWrites hl hx
    exact ⟨w, List.mem_append_left _ hw, hh⟩
  · rcases List.mem_append.1 hw with hw | hw
    · exact laneHit_viewWrites hl hw hv
    · rw [hloads w hw] at hv
      cases hv

/-- R356: a register that the lane's load arc fills has the loaded word, whatever the path wrote. -/
theorem treeWrites_lane_loaded {a : ArcAcc} {i : Nat} {bs : List PByte} (hl : l < 128) (hact : act.getLsbD l = true)
    (hacc : (s.treePath f l).acc = some a) (hload : a.arc.isLoad = true) (hi : i < (arcRegs a.arc).length)
    (hb : SMap.find loaded l = some bs) (r : Regs) :
    ((s.treeWrites f act accs loaded).foldl Regs.write r).lane (a.arc.vd.toNat + i) l =
      ((loadWords false bs).getD i (0, false)).1 := by
  have hv : a.arc.vd.toNat + i ∈ arcRegs a.arc := by
    unfold arcRegs at hi ⊢
    split
    · next hw => rw [if_pos hw] at hi; simp at hi ⊢; omega
    · next hw => rw [if_neg hw] at hi; simp at hi ⊢; omega
  have hword := loadedWord_eq ha (mem_lanes.2 ⟨hl, hact⟩) hacc hload hv hb
  rw [Nat.add_sub_cancel_left] at hword
  have hget := fun r w => write_lane r w (a.arc.vd.toNat + i) hl
  rw [treeWrites, List.foldl_append]
  refine foldl_write_some (get := fun r => r.lane (a.arc.vd.toNat + i) l) (hit := laneHit (a.arc.vd.toNat + i) l) hget
    ⟨_, List.mem_map.2 ⟨_, mem_loadRegs (accOf_treePath hacc).arc hload hv, rfl⟩, ?_⟩ (fun w hw c hc => ?_) _
  · rw [laneHit_loadedWrite _ hl, if_pos rfl, hword]
    rfl
  · obtain ⟨v, -, rfl⟩ := List.mem_map.1 hw
    rw [laneHit_loadedWrite _ hl, hword] at hc
    split at hc
    · exact (Option.some.inj hc).symm
    · cases hc

omit ha in
/-- R356: a predicate has what the lane's path wrote. -/
theorem treeWrites_pget (hl : l < 128) (r : Regs) :
    (((s.treeWrites f act accs loaded).foldl Regs.write r).pget n).getLsbD l =
      if act.getLsbD l then ((s.treePath f l).view.p.find n).getD ((r.pget n).getLsbD l) else (r.pget n).getLsbD l := by
  have hx : (s.pathPred f act n l).getD ((r.pget n).getLsbD l) =
      if act.getLsbD l then ((s.treePath f l).view.p.find n).getD ((r.pget n).getLsbD l) else (r.pget n).getLsbD l := by
    unfold pathPred
    by_cases hb : act.getLsbD l = true
    · rw [if_pos (mem_lanes.2 ⟨hl, hb⟩), if_pos hb]
    · rw [if_neg (fun h => hb (mem_lanes.1 h).2), if_neg hb]
      rfl
  rw [← hx]
  refine foldl_write_opt (get := fun r => (r.pget n).getLsbD l) (hit := predHit n l) (fun r w => write_pget r w n hl) (fun b hb => ?_)
    (fun w hw b hb => ?_) r
  · obtain ⟨w, hw, hh⟩ := exists_predHit_viewWrites hl hb
    exact ⟨w, List.mem_append_left _ hw, hh⟩
  · rcases List.mem_append.1 hw with hw | hw
    · exact predHit_viewWrites hl hw hb
    · obtain ⟨v, -, rfl⟩ := List.mem_map.1 hw
      cases hb

end

/-! ### The bytes that are loaded -/

section
variable {s : State}

theorem isSome_foldl_modify {α β : Type} {key : β → Nat} {d : α} {g : β → α → α} {k : Nat} {xs : List β} {m : SMap α}
    (h : (∃ x ∈ xs, key x = k) ∨ (m.find k).isSome = true) :
    ((xs.foldl (fun m x => SMap.modify m (key x) d (g x)) m).find k).isSome = true := by
  induction xs generalizing m with
  | nil => exact h.resolve_left fun ⟨_, hx, _⟩ => (nomatch hx)
  | cons x xs ih =>
    refine ih ?_
    rcases h with ⟨y, hy, hk⟩ | h
    · rcases List.mem_cons.1 hy with rfl | hy
      · right
        change ((SMap.modify m (key y) d (g y)).find k).isSome = true
        rw [SMap.modify, SMap.find_put, if_pos hk.symm]
        rfl
      · exact .inl ⟨y, hy, hk⟩
    · exact .inr (find_isSome_modify _ _ _ _ h)

theorem readGlobs_isSome (s : State) {qs : List GPiece} {l : Nat} (h : ∃ q ∈ qs, q.p.lane = l) :
    (SMap.find (s.readGlobs qs).2 l).isSome = true := isSome_foldl_modify (key := fun q : GPiece => q.p.lane) (.inl h)

theorem readSpads_isSome (s : State) {ps : List Piece} {l : Nat} (h : ∃ p ∈ ps, p.lane = l) :
    (SMap.find (s.readSpads ps) l).isSome = true := isSome_foldl_modify (key := fun p : Piece => p.lane) (.inl h)

theorem exists_mem_lookup {a : Acc} {ps : List Piece} (h : (s.lookup a ps).2 = []) {p : Piece} (hp : p ∈ ps) :
    ∃ q ∈ (s.lookup a ps).1, q.p = p := by
  induction ps with
  | nil => cases hp
  | cons p' ps ih =>
    unfold lookup at h ih ⊢
    rw [List.foldr_cons] at h ⊢
    cases hx : s.xlat s.curCore s.curPart p'.at_ a with
    | none => rw [hx] at h; cases h
    | some e =>
      rw [hx] at h
      rcases List.mem_cons.1 hp with rfl | hp
      · exact ⟨_, List.mem_cons_self, rfl⟩
      · obtain ⟨q, hq, he⟩ := ih h hp
        exact ⟨q, List.mem_cons_of_mem _ hq, he⟩

theorem exists_piece (l a : Nat) {n : Nat} (hn : 0 < n) : ∃ p ∈ pieces l a n, p.lane = l := by
  unfold pieces
  split
  · exact ⟨_, List.mem_singleton_self _, rfl⟩
  · exact ⟨_, List.mem_map_of_mem (List.mem_range.2 hn), rfl⟩

theorem exists_arcPiece (l : Nat) (a : ArcAcc) : ∃ p ∈ arcPieces l a, p.lane = l :=
  exists_piece l a.at_ (by split <;> decide)

theorem mem_accPieces {accs : List (Nat × ArcAcc)} {l : Nat} {a : ArcAcc} (h : (l, a) ∈ accs) {p : Piece} (hp : p ∈ arcPieces l a) :
    p ∈ accPieces accs := List.mem_flatMap.2 ⟨_, h, hp⟩

/-- Every lane with a load arc has bytes. -/
theorem treeLoaded_isSome {x : State} {accs : List (Nat × ArcAcc)} {l : Nat} {a : ArcAcc} (h : (l, a) ∈ accs)
    (hload : a.arc.isLoad = true) (hld : (s.lookup .load (accPieces (globAccs accs true))).2 = []) :
    (SMap.find (treeLoaded (x.readGlobs (s.lookup .load (accPieces (globAccs accs true))).1) accs) l).isSome = true := by
  obtain ⟨p, hp, hlane⟩ := exists_arcPiece l a
  unfold treeLoaded
  rw [SMap.find_append, Option.isSome_or, Bool.or_eq_true]
  by_cases hsp : a.arc.isSpad = true
  · refine .inr (readSpads_isSome _ ⟨p, mem_accPieces (List.mem_filter.2 ⟨List.mem_filter.2 ⟨h, hsp⟩, hload⟩) hp, hlane⟩)
  · have hm : (l, a) ∈ globAccs accs true := List.mem_filter.2 ⟨h, by simp [hsp, hload]⟩
    obtain ⟨q, hq, he⟩ := exists_mem_lookup hld (mem_accPieces hm hp)
    exact .inl (readGlobs_isSome _ ⟨q, hq, by rw [he]; exact hlane⟩)

end

end Sys2Proof.Machine.State

namespace Sys2Proof.Machine.State
open Sys2Proof

/-! ### The stores to the scratchpad (R134) -/

theorem spPutP_spad {fuel : Nat} {bs : List PByte} (h : bs.length ≤ fuel) (x : Team) (off : Nat) :
    (spPutP x off fuel bs).spad = Memory.setBytes x.spad off (bs.map Prod.fst) := by
  induction fuel generalizing bs x off with
  | zero =>
    rw [List.eq_nil_of_length_eq_zero (Nat.le_zero.1 h)]
    rfl
  | succ fuel ih =>
    unfold spPutP
    by_cases he : bs.isEmpty = true
    · rw [if_pos he, List.isEmpty_iff.1 he]
      rfl
    · rw [if_neg he]
      dsimp only
      rw [ih (by rw [List.length_drop]; omega)]
      change Memory.setBytes (Memory.setBytes x.spad off ((bs.take 4).map Prod.fst)) (off + 4) ((bs.drop 4).map Prod.fst) = _
      by_cases hlen : 4 ≤ bs.length
      · have hsplit := Memory.setBytes_append ((bs.take 4).map Prod.fst) ((bs.drop 4).map Prod.fst) x.spad off
        rw [← List.map_append, List.take_append_drop, List.length_map, List.length_take, Nat.min_eq_left hlen] at hsplit
        exact hsplit.symm
      · rw [List.drop_of_length_le (by omega), List.take_of_length_le (by omega)]
        rfl

theorem writeSpad_spad (s : State) (p : Piece) (bs : List PByte) : ((s.writeSpad p bs).team s.curTeam).spad =
    match spReduce s.curGrid.alloc p.at_ with
    | some o => Memory.setBytes (s.team s.curTeam).spad o (bs.map Prod.fst)
    | none => (s.team s.curTeam).spad := by
  unfold writeSpad
  cases spReduce s.curGrid.alloc p.at_ with
  | none => rfl
  | some o =>
    dsimp only
    rw [modTeam_team, if_pos rfl, spPutP_spad (Nat.le_refl _)]

theorem writeSpad_curGrid (s : State) (p : Piece) (bs : List PByte) : (s.writeSpad p bs).curGrid = s.curGrid := by
  unfold writeSpad
  split <;> rfl

theorem curTeam_of_cur {s t : State} (h : t.cur = s.cur) : t.curTeam = s.curTeam := by unfold curTeam; rw [h]

/-- Stores that each leave the context, one after the other, and what they make of the team's scratchpad. -/
theorem foldl_spad {α : Type} {f : State → α → State} {g : Nat → Memory → α → Memory} (hc : ∀ s a, (f s a).cur = s.cur)
    (hg : ∀ s a, (f s a).curGrid = s.curGrid)
    (hf : ∀ s a, ((f s a).team s.curTeam).spad = g s.curGrid.alloc (s.team s.curTeam).spad a) (l : List α) (s : State) :
    ((l.foldl f s).team s.curTeam).spad = l.foldl (g s.curGrid.alloc) (s.team s.curTeam).spad := by
  induction l generalizing s with
  | nil => rfl
  | cons a l ih =>
    have h := ih (f s a)
    rw [curTeam_of_cur (hc s a), hg, hf] at h
    exact h

theorem foldl_curGrid {α : Type} {f : State → α → State} (hg : ∀ s a, (f s a).curGrid = s.curGrid) (l : List α) (s : State) :
    (l.foldl f s).curGrid = s.curGrid := by
  induction l generalizing s with
  | nil => rfl
  | cons a l ih => exact (ih _).trans (hg s a)

theorem treePad_spad (s : State) (accs : List (Nat × ArcAcc)) : ((s.treePad accs).team s.curTeam).spad =
    ((spadAccs accs).filter fun e => e.2.arc.isStore).foldl (fun m e => spadAfter s.curGrid.alloc (arcPieces e.1 e.2)
      (fun p => (pieceData e.2.data p).map Prod.fst) m) (s.team s.curTeam).spad := by
  refine foldl_spad (g := fun alloc m (e : Nat × ArcAcc) =>
      spadAfter alloc (arcPieces e.1 e.2) (fun p => (pieceData e.2.data p).map Prod.fst) m)
    (fun s e => ?_) (fun s e => ?_) (fun s e => ?_) _ s
  · exact (Spares.foldl (fun _ _ => spares_writeSpad ..) _ s).cur
  · exact foldl_curGrid (fun _ _ => writeSpad_curGrid ..) _ s
  · exact foldl_spad (g := fun alloc m (p : Piece) => match spReduce alloc p.at_ with
      | some o => Memory.setBytes m o ((pieceData e.2.data p).map Prod.fst)
      | none => m) (fun _ _ => (spares_writeSpad ..).cur) (fun _ _ => writeSpad_curGrid ..) (fun _ _ => writeSpad_spad ..) _ s

/-! ### The teams, through the stages -/

theorem treeDue_teams (u : State) (la : Nat) (f : TF) (ws : List RegWr) : (u.treeDue la f ws).teams = u.teams := by
  unfold treeDue addDue overPrimary
  dsimp only
  split
  · split <;> rfl
  · rfl

theorem treeDue_cur (u : State) (la : Nat) (f : TF) (ws : List RegWr) : (u.treeDue la f ws).cur = u.cur := by
  unfold treeDue
  split
  · exact addDue_cur ..
  · rfl

theorem treeDue_grids (u : State) (la : Nat) (f : TF) (ws : List RegWr) : (u.treeDue la f ws).grids = u.grids := by
  unfold treeDue addDue overPrimary
  dsimp only
  split
  · split <;> rfl
  · rfl

theorem foldSig_teams (s : State) (pc : Nat) (m : Mask) : (s.foldSig pc m).teams = s.teams := (served_traceFold ..).teams

theorem takeLeaf_teams (f : TF) (next : Nat) (lanes : Nat → Mask) (u : State) (j : Nat) :
    (takeLeaf f next lanes u j).teams = u.teams := by
  unfold takeLeaf
  split
  · rfl
  · exact foldSig_teams ..

theorem takeLeaves_teams (u s : State) (f : TF) (act : Mask) : (u.takeLeaves s f act).teams = u.teams :=
  foldl_teams (fun _ _ => takeLeaf_teams ..) _ u

theorem served_treeBegun (s : State) (f : TF) (act : Mask) (accs : List (Nat × ArcAcc)) (ld : List GPiece) :
    s.Served (s.treeBegun f act accs ld) := by
  unfold treeBegun
  dsimp only
  refine Served.trans ?_ ((served_touchPages ..).trans (served_countOver ..))
  exact .ite (fun _ => served_countMisal ..) fun _ => (served_countMisal ..).trans (served_count ..)

theorem served_readGlobs_treeBegun (s : State) (f : TF) (act : Mask) (accs : List (Nat × ArcAcc)) (ld : List GPiece) :
    s.Served ((s.treeBegun f act accs ld).readGlobs ld).1 := (served_treeBegun ..).trans (served_readGlobs ..)

end Sys2Proof.Machine.State

namespace Sys2Proof.Machine.State
open Sys2Proof

/-! ### What the caches leave of host memory and of a core's mode -/

/-- An operation leaves host memory, and every core's mode of writing (R125). -/
structure KeepsHost (s t : State) : Prop where
  host : t.hostMem = s.hostMem
  through : ∀ k, (t.core k).writeThrough = (s.core k).writeThrough

section
variable {s t u : State}

theorem KeepsHost.refl (s : State) : s.KeepsHost s := ⟨rfl, fun _ => rfl⟩
theorem KeepsHost.trans (h : s.KeepsHost t) (k : t.KeepsHost u) : s.KeepsHost u :=
  ⟨k.host.trans h.host, fun c => (k.through c).trans (h.through c)⟩

theorem KeepsHost.foldl {α : Type} {f : State → α → State} (hf : ∀ (s : State) a, s.KeepsHost (f s a)) (l : List α) (s : State) :
    s.KeepsHost (l.foldl f s) := by
  induction l generalizing s with
  | nil => exact .refl s
  | cons a l ih => exact (hf s a).trans (ih _)

theorem KeepsHost.ite {c : Prop} [Decidable c] (h : s.KeepsHost t) (k : s.KeepsHost u) : s.KeepsHost (if c then t else u) := by
  split
  · exact h
  · exact k

theorem KeepsHost.of_cores (hh : t.hostMem = s.hostMem) (hc : t.cores = s.cores) : s.KeepsHost t :=
  ⟨hh, fun k => by unfold core; rw [hc]⟩

theorem keepsHost_modCore (s : State) (k : Nat) {f : Core → Core} (hf : ∀ c, (f c).writeThrough = c.writeThrough) :
    s.KeepsHost (s.modCore k f) := ⟨rfl, fun j => by
  rw [modCore_core]
  split
  · next h => rw [hf, h]
  · rfl⟩

theorem keepsHost_putL1 (s : State) (k sec : Nat) (e : Sector) :
    s.KeepsHost (s.modCore k fun c => { c with l1 := c.l1.put sec e }) := keepsHost_modCore _ _ fun _ => rfl

theorem keepsHost_modCluster (s : State) (k : Nat) (f : Cluster → Cluster) : s.KeepsHost (s.modCluster k f) := .of_cores rfl rfl

theorem keepsHost_count (s : State) (cl off n : Nat) : s.KeepsHost (s.count cl off n) := .of_cores rfl rfl

theorem keepsHost_wbSector (s : State) (k sec : Nat) : s.KeepsHost (s.wbSector k sec) := by
  unfold wbSector
  split
  · exact .refl s
  · refine .ite (.refl s) (KeepsHost.trans ?_ (keepsHost_putL1 _ k sec _))
    exact .of_cores rfl rfl

theorem keepsHost_dropSector (s : State) (k sec : Nat) : s.KeepsHost (s.dropSector k sec) :=
  (keepsHost_wbSector ..).trans (keepsHost_modCore _ _ fun _ => rfl)

theorem keepsHost_dropRange (s : State) (k pa n : Nat) : s.KeepsHost (s.dropRange k pa n) :=
  .foldl (fun _ _ => keepsHost_dropSector ..) _ s

theorem keepsHost_l1Room (s : State) (k sec : Nat) : s.KeepsHost (s.l1Room k sec) :=
  .ite (.refl s) (KeepsHost.trans (t := { s with free := s.free + 1 }) (.of_cores rfl rfl)
    (.foldl (fun _ _ => keepsHost_dropSector ..) _ _))

theorem keepsHost_fillSector (s : State) (k sec : Nat) : s.KeepsHost (s.fillSector k sec) :=
  .ite (keepsHost_l1Room ..) ((keepsHost_l1Room ..).trans (keepsHost_modCore _ _ fun _ => rfl))

theorem keepsHost_glLoad (s : State) (k pa mt n : Nat) : s.KeepsHost (s.glLoad k pa mt n).1 := by
  unfold glLoad
  split
  · exact .refl s
  · split
    · exact keepsHost_dropRange ..
    · exact .foldl (fun _ _ => keepsHost_fillSector ..) _ s

theorem keepsHost_readGlobs (s : State) (qs : List GPiece) : s.KeepsHost (s.readGlobs qs).1 :=
  .foldl (fun _ _ => keepsHost_glLoad ..) _ s

theorem keepsHost_setAD (s : State) (p va : Nat) (w : Bool) : s.KeepsHost (s.setAD p va w) :=
  .of_cores (sameButMem_setAD s p va w).hostMem (setAD_cores ..)

theorem keepsHost_tlbTouch (s : State) (k : Nat) (e : TlbEntry) (va : Nat) : s.KeepsHost (s.tlbTouch k e va) := by
  refine KeepsHost.trans (t := s.modCore k _) ?_ (keepsHost_modCluster ..)
  exact keepsHost_modCore _ _ fun _ => rfl

theorem keepsHost_xlatTouch (s : State) (k p va : Nat) (a : Acc) : s.KeepsHost (s.xlatTouch k p va a) := by
  unfold xlatTouch
  split
  · exact .refl s
  · exact .ite ((keepsHost_tlbTouch ..).trans (keepsHost_setAD ..)) (keepsHost_tlbTouch ..)

theorem keepsHost_touchPages (s : State) (a : Acc) (ps : List GPiece) : s.KeepsHost (s.touchPages a ps) :=
  .foldl (fun _ _ => keepsHost_xlatTouch ..) _ s

theorem keepsHost_storeSector (s : State) (k pa : Nat) (bs : List Byte) (p : Bool) (sec : Nat) :
    s.KeepsHost (s.storeSector k pa bs p sec) := by
  have hput : s.KeepsHost (s.sectorPut k pa bs p sec) := (keepsHost_l1Room ..).trans (keepsHost_modCore _ _ fun _ => rfl)
  rw [storeSector_eq]
  exact .ite (hput.trans (keepsHost_wbSector ..)) hput

theorem keepsHost_settleMarks (s : State) (k : Nat) (ws : List (Nat × List PByte)) : s.KeepsHost (s.settleMarks k ws) := by
  refine .foldl (fun s e => ?_) _ s
  dsimp only
  split
  · exact .ite ((keepsHost_putL1 s k _ _).trans (.of_cores rfl rfl)) (keepsHost_putL1 ..)
  · exact .of_cores rfl rfl

theorem keepsHost_readGlobs_treeBegun (s : State) (f : TF) (act : Mask) (accs : List (Nat × ArcAcc)) (ld : List GPiece) :
    s.KeepsHost ((s.treeBegun f act accs ld).readGlobs ld).1 := by
  have hmis : s.KeepsHost (s.countMisal (accs.any fun e => (arcPieces e.1 e.2).length != 1)) := .ite (keepsHost_count ..) (.refl s)
  refine KeepsHost.trans ?_ (keepsHost_readGlobs ..)
  unfold treeBegun countOver
  dsimp only
  have hcount := hmis.trans (keepsHost_count _ s.cur.cl 0x3A0 ((act.lanes.map fun l => (s.treePath f l).view.pois).foldl (· + ·) 0))
  have htouch := (KeepsHost.ite (c := (act.lanes.map fun l => (s.treePath f l).view.pois).foldl (· + ·) 0 = 0) hmis hcount).trans
    (keepsHost_touchPages _ .load ld)
  exact .ite htouch (htouch.trans (keepsHost_count ..))

end

/-! ### Store pieces in the L1 (R139) -/

theorem curCore_of_cur {s t : State} (h : t.cur = s.cur) : t.curCore = s.curCore := by unfold curCore; rw [h]

/-- Pieces of memory type 0 go to the cache. -/
theorem foldl_writeGlob (k : Nat) (data : GPiece → List PByte) {st : List GPiece} (h : ∀ q ∈ st, q.mt = 0) {u : State}
    (hk : u.curCore = k) : st.foldl (fun s q => s.writeGlob q (data q)) u =
      st.foldl (fun s q => s.glStore k q.pa 0 ((data q).map Prod.fst) (anyPois (data q))) u := by
  induction st generalizing u with
  | nil => rfl
  | cons q st ih =>
    have hq : u.writeGlob q (data q) = u.glStore k q.pa 0 ((data q).map Prod.fst) (anyPois (data q)) := by
      simp [writeGlob, h q List.mem_cons_self, hk]
    rw [List.foldl_cons, List.foldl_cons, hq]
    exact ih (fun q' hq' => h q' (List.mem_cons_of_mem _ hq')) ((curCore_of_cur (served_glStore ..).cur).trans hk)

/-- A cached store beside the byte. -/
theorem Stored.storeSector_out {s : State} {k a : Nat} {b : Byte} (h : s.Stored k a b) {pa : Nat} {bs : List Byte}
    (hout : ¬(pa ≤ a ∧ a < pa + bs.length)) (p : Bool) (sec : Nat) : (s.storeSector k pa bs p sec).Stored k a b := by
  by_cases ha : a / 32 = sec
  · subst ha
    have hmod : a % 32 < 32 := Nat.mod_lt _ (by decide)
    have hcov : (coverMask (a / 32) pa bs.length).getLsbD (a % 32) = false := by
      rw [getLsbD_coverMask _ _ _ hmod, Nat.div_add_mod, ← Bool.decide_and, decide_eq_false hout]
    have hput : (s.sectorPut k pa bs p (a / 32)).Stored k a b := by
      have hsec : (s.sectorPut k pa bs p (a / 32)).sectorAt k a =
          storedSector ((s.l1Room k (a / 32)).sectorAt k a) pa bs p (a / 32) := by
        rw [sectorPut, sectorAt_putL1, if_pos rfl]
        rfl
      unfold Stored
      rw [hsec]
      simp only [storedSector, BitVec.getLsbD_or, hcov, Bool.or_false, getD_mergeBytes _ _ _ hmod, Bool.false_eq_true, if_false]
      exact h.l1Room (a / 32)
    rw [storeSector_eq]
    exact (hput.wbSector _).ite hput
  · exact h.storeSector_other ha pa bs p

theorem Stored.glStore_out {s : State} {k a : Nat} {b : Byte} (h : s.Stored k a b) {pa : Nat} {bs : List Byte}
    (hout : ¬(pa ≤ a ∧ a < pa + bs.length)) (p : Bool) : (s.glStore k pa 0 bs p).Stored k a b := by
  have hfold : s.glStore k pa 0 bs p = (sectorsOf pa bs.length).foldl (fun s sec => s.storeSector k pa bs p sec) s := rfl
  rw [hfold]
  exact h.foldl (fun sec h => h.storeSector_out hout p sec) _

/-- Of pieces stored in order, the one that alone covers a byte leaves it there. -/
theorem stored_glStores {k a : Nat} {b : Byte} {data : GPiece → List PByte} {q : GPiece}
    (hb : ((data q).map Prod.fst).getD (a - q.pa) 0 = b) (hlo : q.pa ≤ a) (hhi : a < q.pa + (data q).length) {st : List GPiece}
    (hout : ∀ q' ∈ st, q' ≠ q → ¬(q'.pa ≤ a ∧ a < q'.pa + (data q').length)) {u : State} (h : q ∈ st ∨ u.Stored k a b) :
    (st.foldl (fun s q => s.glStore k q.pa 0 ((data q).map Prod.fst) (anyPois (data q))) u).Stored k a b := by
  induction st generalizing u with
  | nil => exact h.resolve_left (List.not_mem_nil)
  | cons q' st ih =>
    refine ih (fun q'' hq'' => hout q'' (List.mem_cons_of_mem _ hq'')) ?_
    by_cases he : q' = q
    · subst he
      right
      rw [← hb]
      exact stored_glStore hlo (by rw [List.length_map]; exact hhi) ..
    · refine h.imp (fun hm => (List.mem_cons.1 hm).resolve_left (Ne.symm he)) fun hs => hs.glStore_out ?_ _
      rw [List.length_map]
      exact hout q' List.mem_cons_self he

/-! ### The bytes beside the pieces (R4) -/

/-- Core `k` sees the bytes of `P` as in `B`, memory is as there, and the lines that its L1 holds are among `ls`. -/
structure SeesAs (B v : State) (k : Nat) (ls : List Nat) (P : Nat → Prop) : Prop where
  mem : v.mem = B.mem
  through : (v.core k).writeThrough = false
  lines : ∀ l ∈ l1Lines (v.core k), l ∈ ls
  seen : ∀ a, P a → v.seen k a = B.seen k a

theorem nodup_distinct (l : List Nat) : (distinct l).Nodup := by
  induction l with
  | nil => exact List.nodup_nil
  | cons a l ih => exact List.nodup_cons.2 ⟨by simp, ih.filter _⟩

theorem mem_l1Lines {c : Core} {l : Nat} : l ∈ l1Lines c ↔ ∃ e ∈ c.l1, e.1 / 4 = l := by
  unfold l1Lines
  rw [mem_distinct, List.mem_map]

/-- R4: where the lines fit, none is given up. -/
theorem l1Room_of_fits {v : State} {k sec : Nat} {ls : List Nat} (hlen : ls.length ≤ 2048) (h : ∀ l ∈ l1Lines (v.core k), l ∈ ls)
    (hsec : sec / 4 ∈ ls) : v.l1Room k sec = v := by
  unfold l1Room
  refine if_pos ?_
  by_cases hin : sec / 4 ∈ l1Lines (v.core k)
  · simp [hin]
  · have hnd : (sec / 4 :: l1Lines (v.core k)).Nodup := List.nodup_cons.2 ⟨hin, nodup_distinct _⟩
    have hle := (List.subperm_of_subset hnd (List.cons_subset.2 ⟨hsec, h⟩)).length_le
    rw [List.length_cons] at hle
    simp [show (l1Lines (v.core k)).length < 2048 by omega]

theorem seen_eq_sectorAt (s : State) (k a : Nat) : s.seen k a =
    if (s.sectorAt k a).valid.getLsbD (a % 32) then (s.sectorAt k a).data.getD (a % 32) 0 else Memory.byte s.mem a := rfl

section
variable {B v : State} {k : Nat} {ls : List Nat} {P : Nat → Prop}

theorem SeesAs.storeSector (h : SeesAs B v k ls P) (hlen : ls.length ≤ 2048) {sec : Nat} (hsec : sec / 4 ∈ ls) {pa : Nat}
    {bs : List Byte} (hout : ∀ a, P a → ¬(pa ≤ a ∧ a < pa + bs.length)) (p : Bool) :
    SeesAs B (v.storeSector k pa bs p sec) k ls P := by
  have hroom := l1Room_of_fits hlen h.lines hsec
  have hput : SeesAs B (v.sectorPut k pa bs p sec) k ls P := by
    refine ⟨?_, ?_, fun l hl => ?_, fun a ha => ?_⟩
    · rw [sectorPut, hroom]
      exact h.mem
    · rw [sectorPut, hroom, modCore_core, if_pos rfl]
      exact h.through
    · rw [sectorPut, hroom, modCore_core, if_pos rfl, mem_l1Lines] at hl
      obtain ⟨e, he, rfl⟩ := hl
      rcases SMap.mem_put he with rfl | he
      · exact hsec
      · exact h.lines _ (mem_l1Lines.2 ⟨e, he, rfl⟩)
    · rw [← h.seen a ha, seen_eq_sectorAt, seen_eq_sectorAt, sectorPut, sectorAt_putL1, hroom]
      split
      · next hs =>
        subst hs
        have hmod : a % 32 < 32 := Nat.mod_lt _ (by decide)
        have hcov : (coverMask (a / 32) pa bs.length).getLsbD (a % 32) = false := by
          rw [getLsbD_coverMask _ _ _ hmod, Nat.div_add_mod, ← Bool.decide_and, decide_eq_false (hout a ha)]
        simp only [storedSector, BitVec.getLsbD_or, hcov, Bool.or_false, getD_mergeBytes _ _ _ hmod, Bool.false_eq_true, if_false]
        rfl
      · rfl
  rw [storeSector_eq, if_neg (by rw [hput.through]; decide)]
  exact hput

theorem line_of_sector {pa n sec : Nat} (h : sec ∈ sectorsOf pa n) : sec / 4 ∈ linesOf pa n := by
  unfold sectorsOf at h
  unfold linesOf
  by_cases hn : n = 0
  · simp [hn] at h
  · rw [if_neg (by simpa using hn), List.mem_map] at h
    obtain ⟨i, hi, rfl⟩ := h
    rw [List.mem_range] at hi
    rw [if_neg (by simpa using hn), List.mem_map]
    exact ⟨(pa / 32 + i) / 4 - pa / 128, List.mem_range.2 (by omega), by omega⟩

theorem SeesAs.glStore (h : SeesAs B v k ls P) (hlen : ls.length ≤ 2048) {pa : Nat} {bs : List Byte}
    (hls : ∀ l ∈ linesOf pa bs.length, l ∈ ls) (hout : ∀ a, P a → ¬(pa ≤ a ∧ a < pa + bs.length)) (p : Bool) :
    SeesAs B (v.glStore k pa 0 bs p) k ls P := by
  have hfold : ∀ (secs : List Nat) (v : State), (∀ sec ∈ secs, sec / 4 ∈ ls) → SeesAs B v k ls P →
      SeesAs B (secs.foldl (fun s sec => s.storeSector k pa bs p sec) v) k ls P := by
    intro secs
    induction secs with
    | nil => exact fun _ _ h => h
    | cons sec secs ih =>
      exact fun v hs h => ih _ (fun x hx => hs x (List.mem_cons_of_mem _ hx)) (h.storeSector hlen (hs sec List.mem_cons_self) hout p)
  exact hfold _ _ (fun sec hs => hls _ (line_of_sector hs)) h

theorem SeesAs.glStores {data : GPiece → List PByte} {st : List GPiece} (h : SeesAs B v k ls P) (hlen : ls.length ≤ 2048)
    (hls : ∀ q ∈ st, ∀ l ∈ linesOf q.pa (data q).length, l ∈ ls)
    (hout : ∀ q ∈ st, ∀ a, P a → ¬(q.pa ≤ a ∧ a < q.pa + (data q).length)) :
    SeesAs B (st.foldl (fun s q => s.glStore k q.pa 0 ((data q).map Prod.fst) (anyPois (data q))) v) k ls P := by
  induction st generalizing v with
  | nil => exact h
  | cons q st ih =>
    refine ih (h.glStore hlen ?_ ?_ _) (fun q' hq' => hls q' (List.mem_cons_of_mem _ hq'))
      (fun q' hq' => hout q' (List.mem_cons_of_mem _ hq'))
    · rw [List.length_map]
      exact hls q List.mem_cons_self
    · rw [List.length_map]
      exact hout q List.mem_cons_self

/-- The marks of sectors are no bytes. -/
theorem settleMarks_seen (s : State) (k : Nat) (ws : List (Nat × List PByte)) (a : Nat) :
    (s.settleMarks k ws).seen k a = s.seen k a := by
  unfold State.settleMarks
  generalize wholeSectors ws = l
  induction l generalizing s with
  | nil => rfl
  | cons e l ih =>
    rw [List.foldl_cons, ih]
    dsimp only
    split
    · next x hx =>
      have hput : (s.modCore k fun c => { c with l1 := c.l1.put e.1 { x with pois := e.2 } }).seen k a = s.seen k a := by
        rw [seen_eq_sectorAt, seen_eq_sectorAt, sectorAt_putL1]
        split
        · next ha =>
          rw [sectorAt, ha, get_of_find hx]
          rfl
        · rfl
      split
      · exact hput
      · exact hput
    · rfl

theorem seen_congr {s t : State} (hm : t.mem = s.mem) (hc : t.cores = s.cores) (k a : Nat) : t.seen k a = s.seen k a := by
  unfold State.seen core
  rw [hm, hc]

end

end Sys2Proof.Machine.State

namespace Sys2Proof.Machine.State
open Sys2Proof

/-! ### The bytes of a tree's stores -/

/-- Two states hold the same bytes in memory, in the caches and in host memory. -/
structure SameBytes (s t : State) : Prop where
  mem : t.mem = s.mem
  cores : t.cores = s.cores
  host : t.hostMem = s.hostMem

section
variable {s t u : State}

theorem SameBytes.refl (s : State) : s.SameBytes s := ⟨rfl, rfl, rfl⟩
theorem SameBytes.trans (h : s.SameBytes t) (k : t.SameBytes u) : s.SameBytes u :=
  ⟨k.mem.trans h.mem, k.cores.trans h.cores, k.host.trans h.host⟩

theorem SameBytes.foldl {α : Type} {f : State → α → State} (hf : ∀ (s : State) a, s.SameBytes (f s a)) (l : List α) (s : State) :
    s.SameBytes (l.foldl f s) := by
  induction l generalizing s with
  | nil => exact .refl s
  | cons a l ih => exact (hf s a).trans (ih _)

theorem SameBytes.of_onlyGroup (h : s.OnlyGroup t) : s.SameBytes t :=
  ⟨h.mem, (congrArg State.cores h.device).trans rfl, (congrArg State.hostMem h.device).trans rfl⟩

theorem SameBytes.seen (h : s.SameBytes t) (k a : Nat) : t.seen k a = s.seen k a := seen_congr h.mem h.cores k a

theorem sameBytes_countWritten (s : State) (cl : Nat) (ds : List (List PByte)) : s.SameBytes (s.countWritten cl ds) := by
  unfold countWritten
  dsimp only
  split <;> exact ⟨rfl, rfl, rfl⟩

theorem sameBytes_writeSpad (s : State) (p : Piece) (bs : List PByte) : s.SameBytes (s.writeSpad p bs) := by
  unfold writeSpad
  split <;> exact ⟨rfl, rfl, rfl⟩

theorem sameBytes_treePad (s : State) (accs : List (Nat × ArcAcc)) : s.SameBytes (s.treePad accs) :=
  .foldl (fun _ _ => .foldl (fun _ _ => sameBytes_writeSpad ..) _ _) _ s

/-- R278: an untraced grid's leaves are not recorded. -/
theorem takeLeaf_untraced (f : TF) (next : Nat) (lanes : Nat → Mask) (j : Nat) (h : u.curGrid.traced = false) :
    u.SameBytes (takeLeaf f next lanes u j) ∧ (takeLeaf f next lanes u j).curGrid = u.curGrid := by
  unfold takeLeaf
  split
  · exact ⟨.refl u, rfl⟩
  · have hplain : ∀ (v : State) (pc : Nat) (m : Mask), v.curGrid.traced = false → v.traceFold pc m = v := fun v pc m hv => by
      simp [traceFold, hv]
    unfold foldSig
    rw [hplain _ _ _ (by exact h)]
    exact ⟨⟨rfl, rfl, rfl⟩, rfl⟩

theorem sameBytes_takeLeaves (f : TF) (act : Mask) (h : u.curGrid.traced = false) : u.SameBytes (u.takeLeaves s f act) := by
  unfold takeLeaves
  generalize List.range 4 = js
  induction js generalizing u with
  | nil => exact .refl u
  | cons j js ih =>
    obtain ⟨hbytes, hgrid⟩ := takeLeaf_untraced f ((s.cur.pc + s.cur.len) % pow2 64) (s.leafLanes f act) j h
    exact hbytes.trans (ih (by rw [hgrid]; exact h))

/-- A state with other groups, runs and numbers. -/
def regroup (G : SMap Group) (N : Nat) (Q : SMap Quad) (s : State) : State := { s with groups := G, nextId := N, quads := Q }

/-- An address is looked up without a look at groups. -/
theorem xlatTouch_regroup (G : SMap Group) (N : Nat) (Q : SMap Quad) (s : State) (k p va : Nat) (a : Acc) :
    (s.regroup G N Q).xlatTouch k p va a = (s.xlatTouch k p va a).regroup G N Q := by
  have hfind : (s.regroup G N Q).tlbLookup k p va = s.tlbLookup k p va := rfl
  have htouch (e : TlbEntry) : (s.regroup G N Q).tlbTouch k e va = (s.tlbTouch k e va).regroup G N Q := rfl
  have hset (v : State) (w : Bool) : (v.regroup G N Q).setAD p va w = (v.setAD p va w).regroup G N Q := by
    have hwalk : (v.regroup G N Q).walk p va = v.walk p va := rfl
    unfold setAD
    rw [hwalk]
    split <;> rfl
  unfold xlatTouch
  rw [hfind]
  split
  · rfl
  · dsimp only
    rw [htouch, hset]
    split <;> rfl

theorem touchPages_regroup (G : SMap Group) (N : Nat) (Q : SMap Quad) (s : State) (a : Acc) (ps : List GPiece) :
    (s.regroup G N Q).touchPages a ps = (s.touchPages a ps).regroup G N Q := by
  unfold touchPages
  exact List.foldl_hom (regroup G N Q) fun s g => xlatTouch_regroup G N Q s s.curCore s.curPart (g * 65536) a

theorem treeDue_regroup (u : State) (la : Nat) (f : TF) (ws : List RegWr) : ∃ G N Q, u.treeDue la f ws = u.regroup G N Q := by
  unfold treeDue addDue overPrimary
  dsimp only
  split
  · split <;> exact ⟨_, _, _, rfl⟩
  · exact ⟨_, _, _, rfl⟩

/-- The pages of the stores are touched alike before the results are due. -/
theorem sameBytes_touchPages_treeDue (u : State) (la : Nat) (f : TF) (ws : List RegWr) (a : Acc) (ps : List GPiece) :
    (u.touchPages a ps).SameBytes ((u.treeDue la f ws).touchPages a ps) := by
  obtain ⟨G, N, Q, h⟩ := treeDue_regroup u la f ws
  rw [h, touchPages_regroup]
  exact ⟨rfl, rfl, rfl⟩

/-! ### The data of a store piece -/

theorem mem_of_mem_lookup {a : Acc} {ps : List Piece} {q : GPiece} (h : q ∈ (s.lookup a ps).1) : q.p ∈ ps := by
  induction ps with
  | nil => cases h
  | cons p ps ih =>
    unfold lookup at h ih
    rw [List.foldr_cons] at h
    cases hx : s.xlat s.curCore s.curPart p.at_ a with
    | none =>
      rw [hx] at h
      exact List.mem_cons_of_mem _ (ih h)
    | some e =>
      rw [hx] at h
      rcases List.mem_cons.1 h with rfl | h
      · exact List.mem_cons_self
      · exact List.mem_cons_of_mem _ (ih h)

theorem piece_within {l a n : Nat} {p : Piece} (h : p ∈ pieces l a n) : p.lane = l ∧ p.idx + p.n ≤ n := by
  unfold pieces at h
  split at h
  · obtain rfl := List.mem_singleton.1 h
    exact ⟨rfl, by simp⟩
  · obtain ⟨i, hi, rfl⟩ := List.mem_map.1 h
    exact ⟨rfl, by simpa using List.mem_range.1 hi⟩

theorem length_pieceData {d : List PByte} {p : Piece} (h : p.idx + p.n ≤ d.length) : (pieceData d p).length = p.n := by
  unfold pieceData
  rw [List.length_take, List.length_drop]
  omega

theorem getD_pieceData (d : List PByte) {p : Piece} {i : Nat} (hi : i < p.n) :
    ((pieceData d p).map Prod.fst).getD i 0 = (d.getD (p.idx + i) (0, false)).1 := by
  unfold pieceData
  rw [List.getD_eq_getElem?_getD, List.getElem?_map, List.getElem?_take_of_lt hi, List.getElem?_drop, List.getD_eq_getElem?_getD]
  cases d[p.idx + i]? <;> rfl

/-- What a lane of a tree stores. -/
theorem accData_of_lane {f : TF} {act : Mask} {l : Nat} (hl : l ∈ act.lanes) :
    accData (s.treeAccs f act) l = ((s.treePath f l).acc.map ArcAcc.data).getD [] := by
  unfold accData
  rw [find_treeAccs, if_pos hl, Option.map_map]
  rfl

/-- A store piece of a tree is of an active lane, whose data it takes a whole part of. -/
theorem storePiece_data {f : TF} {act : Mask} {q : GPiece}
    (h : q ∈ (s.lookup .store (accPieces (globAccs (s.treeAccs f act) false))).1) : q.p.lane ∈ act.lanes ∧
      (pieceData (accData (s.treeAccs f act) q.p.lane) q.p).length = q.p.n := by
  obtain ⟨⟨l, a⟩, hmem, hp⟩ := List.mem_flatMap.1 (mem_of_mem_lookup h)
  obtain ⟨hacc, hkind⟩ := List.mem_filter.1 hmem
  obtain ⟨hl, ha⟩ := mem_treeAccs.1 hacc
  obtain ⟨hlane, hsize⟩ := piece_within hp
  dsimp only at hlane hl
  have hof := accOf_treePath ha
  have hstore : a.arc.isStore = true := by
    have hm := hof.mem
    simp only [Bool.and_eq_true, beq_iff_eq] at hkind
    rw [Arc.isMem, hkind.2, Bool.false_or] at hm
    exact hm
  rw [hlane]
  refine ⟨hl, length_pieceData ?_⟩
  rw [accData_of_lane hl, ha]
  exact hsize.trans (hof.size hstore).ge

/-! ### What a tree's stores leave -/

variable {f : TF} {act : Mask} {k la : Nat} {ws : List RegWr} {st : List GPiece}

/-- A tree's stores to pages of memory type 0: the pages touched, the pieces cached, the marks settled. -/
theorem treeStore_cached (accs : List (Nat × ArcAcc)) (hmt : ∀ q ∈ st, q.mt = 0) (hk : s.curCore = k) :
    ∃ v ws', (s.touchPages .store st).SameBytes v ∧ s.treeStore k accs st =
      (st.foldl (fun s q => s.glStore k q.pa 0 ((pieceData (accData accs q.p.lane) q.p).map Prod.fst)
        (anyPois (pieceData (accData accs q.p.lane) q.p))) v).settleMarks k ws' := by
  refine ⟨_, (st.filter fun q => q.mt != 1).map fun q => (q.pa, pieceData (accData accs q.p.lane) q.p),
    sameBytes_countWritten (s.touchPages .store st) (s.touchPages .store st).cur.cl
      ((accs.filter fun e => e.2.arc.isStore).map fun e => e.2.data), ?_⟩
  unfold treeStore
  dsimp only
  rw [foldl_writeGlob k (fun q => pieceData (accData accs q.p.lane) q.p) hmt]
  · rfl
  · refine (curCore_of_cur (s := s) ?_).trans hk
    exact ((served_touchPages s .store st).trans (served_countWritten ..)).cur

/-- R139, R166: a byte that one piece alone covers is what that piece stores. -/
theorem treeStore_covered (hst : st = (s.lookup .store (accPieces (globAccs (s.treeAccs f act) false))).1)
    (hmt : ∀ q ∈ st, q.mt = 0) (hk : u.curCore = k) {q : GPiece} {i : Nat} (hq : q ∈ st) (hi : i < q.p.n)
    (halone : ∀ q' ∈ st, q' ≠ q → ¬ q'.Covers (q.pa + i)) :
    (u.treeStore k (s.treeAccs f act) st).seen k (q.pa + i) =
      ((((s.treePath f q.p.lane).acc.map ArcAcc.data).getD []).getD (q.p.idx + i) (0, false)).1 := by
  obtain ⟨v, ws', -, hx⟩ := treeStore_cached (s.treeAccs f act) hmt hk
  have hlen : ∀ q ∈ st, (pieceData (accData (s.treeAccs f act) q.p.lane) q.p).length = q.p.n := fun q hq =>
    (storePiece_data (hst ▸ hq)).2
  rw [hx, ← accData_of_lane (storePiece_data (hst ▸ hq)).1, ← getD_pieceData _ hi]
  refine (Stored.settleMarks (stored_glStores (data := fun q => pieceData (accData (s.treeAccs f act) q.p.lane) q.p) (q := q) ?_ ?_ ?_
    (fun q' hq' hne => ?_) (.inl hq)) ws').seen
  · rw [Nat.add_sub_cancel_left]
  · exact Nat.le_add_right ..
  · rw [hlen q hq]
    omega
  · rw [hlen q' hq']
    exact halone q' hq' hne

/-- R4, R139: a byte that no piece covers stays what the core saw, where its L1 has room. -/
theorem treeStore_beside (hst : st = (s.lookup .store (accPieces (globAccs (s.treeAccs f act) false))).1)
    (hmt : ∀ q ∈ st, q.mt = 0) (hk : u.curCore = k) (hwt : ((u.touchPages .store st).core k).writeThrough = false)
    (hfits : (u.touchPages .store st).L1Fits k st) {a : Nat} (ha : ∀ q ∈ st, ¬ q.Covers a) :
    (u.treeStore k (s.treeAccs f act) st).seen k a = (u.touchPages .store st).seen k a := by
  obtain ⟨v, ws', hv, hx⟩ := treeStore_cached (s.treeAccs f act) hmt hk
  have hlen : ∀ q ∈ st, (pieceData (accData (s.treeAccs f act) q.p.lane) q.p).length = q.p.n := fun q hq =>
    (storePiece_data (hst ▸ hq)).2
  have hcore : v.core k = (u.touchPages .store st).core k := by unfold core; rw [hv.cores]
  have hbegin : SeesAs (u.touchPages .store st) v k
      (distinct (l1Lines ((u.touchPages .store st).core k) ++ st.flatMap fun q => linesOf q.pa q.p.n))
      (fun a => ∀ q ∈ st, ¬ q.Covers a) :=
    { mem := hv.mem
      through := by rw [hcore]; exact hwt
      lines := fun l hl => mem_distinct.2 (List.mem_append_left _ (hcore ▸ hl))
      seen := fun a _ => hv.seen k a }
  rw [hx, settleMarks_seen]
  refine (hbegin.glStores (data := fun q => pieceData (accData (s.treeAccs f act) q.p.lane) q.p) hfits (fun q hq l hl => ?_)
    (fun q hq a ha => ?_)).seen a ha
  · rw [hlen q hq] at hl
    exact mem_distinct.2 (List.mem_append_right _ (List.mem_flatMap.2 ⟨q, hq, hl⟩))
  · rw [hlen q hq]
    exact ha q hq

theorem keepsHost_glStore (s : State) (k pa : Nat) (bs : List Byte) (p : Bool) : s.KeepsHost (s.glStore k pa 0 bs p) :=
  KeepsHost.foldl (f := fun s sec => s.storeSector k pa bs p sec) (fun _ _ => keepsHost_storeSector ..) _ s

theorem treeStore_host (accs : List (Nat × ArcAcc)) (hmt : ∀ q ∈ st, q.mt = 0) (hk : s.curCore = k) :
    (s.treeStore k accs st).hostMem = s.hostMem := by
  obtain ⟨v, ws', hv, hx⟩ := treeStore_cached accs hmt hk
  rw [hx, (keepsHost_settleMarks ..).host, (KeepsHost.foldl (fun _ _ => keepsHost_glStore ..) st v).host, hv.host,
    (keepsHost_touchPages s .store st).host]

end

end Sys2Proof.Machine.State

namespace Sys2Proof.Machine.State
open Sys2Proof

/-! ### The whole of a tree whose accesses succeed -/

/-- The pieces of a tree's global loads and stores that translate. -/
def treeLd (s : State) (f : TF) (act : Mask) : List GPiece := (s.lookup .load (accPieces (globAccs (s.treeAccs f act) true))).1
def treeSt (s : State) (f : TF) (act : Mask) : List GPiece := (s.lookup .store (accPieces (globAccs (s.treeAccs f act) false))).1

/-- The state in which a tree has read, and the bytes of its global loads. -/
def treeRead (s : State) (f : TF) (act : Mask) : State × SMap (List PByte) :=
  (s.treeBegun f act (s.treeAccs f act) (s.treeLd f act)).readGlobs (s.treeLd f act)

/-- What a tree writes to registers. -/
def treeResults (s : State) (f : TF) (act : Mask) : List RegWr :=
  s.treeWrites f act (s.treeAccs f act) (treeLoaded (s.treeRead f act) (s.treeAccs f act))

/-- The state with a tree's results due, and its effect. -/
def treeAhead (s : State) (h : Hdr) (f : TF) (act : Mask) : State :=
  (s.treeRead f act).1.treeDue h.la.toNat f (s.treeResults f act)
def treeStored (s : State) (h : Hdr) (f : TF) (act : Mask) : State :=
  (s.treeAhead h f act).treeStore s.curCore (s.treeAccs f act) (s.treeSt f act)
def treeDone (s : State) (h : Hdr) (f : TF) (act : Mask) : State :=
  ((s.treeStored h f act).treePad (s.treeAccs f act)).takeLeaves s f act

/-- A tree issues, and its accesses are unpoisoned, translate, are present and need not wait. -/
structure CleanTree (s : State) (h : Hdr) (f : TF) : Prop where
  issues : s.Issues h 0
  below : ∀ n ∈ f.uses.vw ++ f.uses.vr, n < s.grp.budget
  noAcquire : s.acquireOut s.curGrp = false
  clean : ∀ e ∈ s.treeAccs f (s.activeLanes h), e.2.bad = false ∧ anyPois e.2.data = false
  loads : (s.lookup .load (accPieces (globAccs (s.treeAccs f (s.activeLanes h)) true))).2 = []
  stores : (s.lookup .store (accPieces (globAccs (s.treeAccs f (s.activeLanes h)) false))).2 = []
  loadOrder : s.orderHeld .load (s.treeLd f (s.activeLanes h)) = false
  storeOrder : s.orderHeld .store (s.treeSt f (s.activeLanes h)) = false
  present : s.absentLines (accPieces (spadAccs (s.treeAccs f (s.activeLanes h)))) = []

section
variable {s : State} {h : Hdr} {f : TF}

theorem ServedLogged.alloc {s t : State} (h : s.ServedLogged t) (g : Nat) : (t.grid g).alloc = (s.grid g).alloc := by
  rw [h.grid]
  rfl

theorem ServedLogged.traced {s t : State} (h : s.ServedLogged t) (g : Nat) : (t.grid g).traced = (s.grid g).traced := by
  rw [h.grid]

/-- What comes after the results of a tree leaves its group but for the lanes' places. -/
theorem moves_treeDone (s : State) (h : Hdr) (f : TF) (act : Mask) : (s.treeAhead h f act).Moves (s.treeDone h f act) :=
  ((Spares.of_servedLogged (servedLogged_treeStore ..)).trans (spares_treePad ..)).toMoves.trans (moves_foldl_takeLeaf ..)

theorem served_treeRead (s : State) (f : TF) (act : Mask) : s.Served (s.treeRead f act).1 := served_readGlobs_treeBegun ..

theorem treeAhead_grid (s : State) (h : Hdr) (f : TF) (act : Mask) (g : Nat) : (s.treeAhead h f act).grid g = s.grid g := by
  unfold grid treeAhead
  rw [treeDue_grids, (served_treeRead s f act).grids]

theorem treeAhead_team (s : State) (h : Hdr) (f : TF) (act : Mask) (k : Nat) : (s.treeAhead h f act).team k = s.team k := by
  unfold team treeAhead
  rw [treeDue_teams, (served_treeRead s f act).teams]

theorem treeAhead_cur (s : State) (h : Hdr) (f : TF) (act : Mask) : (s.treeAhead h f act).cur = s.cur :=
  (treeDue_cur ..).trans (served_treeRead s f act).cur

theorem curCore_treeAhead (s : State) (h : Hdr) (f : TF) (act : Mask) : (s.treeAhead h f act).curCore = s.curCore :=
  curCore_of_cur (treeAhead_cur s h f act)

theorem servedLogged_treeStored (s : State) (h : Hdr) (f : TF) (act : Mask) :
    (s.treeAhead h f act).ServedLogged (s.treeStored h f act) := servedLogged_treeStore ..

theorem treeStored_cur (s : State) (h : Hdr) (f : TF) (act : Mask) : (s.treeStored h f act).cur = s.cur :=
  (Spares.of_servedLogged (servedLogged_treeStored s h f act)).cur.trans (treeAhead_cur s h f act)

/-- The grid that issues, but for its log of leaked writes. -/
theorem treeStored_curGrid (s : State) (h : Hdr) (f : TF) (act : Mask) :
    (s.treeStored h f act).curGrid.alloc = s.curGrid.alloc ∧ (s.treeStored h f act).curGrid.traced = s.curGrid.traced := by
  unfold curGrid
  rw [treeStored_cur, ← treeAhead_grid s h f act s.cur.g]
  exact ⟨(servedLogged_treeStored s h f act).alloc _, (servedLogged_treeStored s h f act).traced _⟩

theorem keepsIssuer_treeDue (u : State) (la : Nat) (f : TF) (ws : List RegWr) : u.KeepsIssuer (u.treeDue la f ws) := by
  unfold treeDue
  split
  · exact keepsIssuer_addDue ..
  · exact keepsIssuer_modGroup _ _ (fun _ => rfl) (fun _ => rfl) fun _ => rfl

theorem keepsIssuer_treeDone (s : State) (h : Hdr) (f : TF) (act : Mask) : s.KeepsIssuer (s.treeDone h f act) :=
  ((KeepsIssuer.of_served (served_treeRead s f act)).trans (keepsIssuer_treeDue ..)).trans
    (moves_treeDone ..).leavesIssuer.toKeepsIssuer

theorem effTree_eq (hc : CleanTree s h f) : effTree h f (s.activeLanes h) s =
    { s := s.treeDone h f (s.activeLanes h), moved := s.treeMoved f (s.activeLanes h) } :=
  effTree_of_clean rfl hc.noAcquire hc.clean hc.loads hc.stores hc.loadOrder hc.storeOrder hc.present

theorem exec_tree (hc : CleanTree s h f) : exec (.tree h f) s =
    .next (s.finish h { s := s.treeDone h f (s.activeLanes h), moved := s.treeMoved f (s.activeLanes h) }) := by
  have hcheck : s.issueCheck h f.uses (s.activeLanes h) = none :=
    issueCheck_none s h f.uses _ hc.issues.noStrictLook rfl rfl hc.below fun n hn => by cases hn
  have hgo := issueWord_go s h f.uses (fun act s => effTree h f act s) hc.issues hcheck
  rw [effTree_eq hc] at hgo
  exact congrArg Host.Outcome.next hgo

/-- The state that a tree leads to: only the group differs from the tree's effect, its lanes at the next word but for those that
have moved. -/
structure TreeEnds (s : State) (h : Hdr) (f : TF) (t : State) : Prop where
  only : (s.treeDone h f (s.activeLanes h)).OnlyGroup t
  grp : t.grp = countLa ((s.treeDone h f (s.activeLanes h)).grp.setPc
    (s.cur.lanes &&& ~~~(s.treeMoved f (s.activeLanes h)) &&& ~~~(s.treeDone h f (s.activeLanes h)).grp.exited)
    ((s.cur.pc + s.cur.len) % pow2 64)) s.nextId s.cur.lanes

/-- A tree whose accesses succeed takes its effect and goes on. -/
theorem tree_goes (hc : CleanTree s h f) : ∃ t, exec (.tree h f) s = .next t ∧ TreeEnds s h f t := by
  have hk := keepsIssuer_treeDone s h f (s.activeLanes h)
  have hx := exec_tree hc
  have hstep := hk.step.trans hc.issues.noStep
  have hsrun := hk.srun.trans hc.issues.noStrictRun
  let e : Eff := { s := s.treeDone h f (s.activeLanes h), moved := s.treeMoved f (s.activeLanes h) }
  exact ⟨_, hx, finish_done_frame s h e rfl hk.cur hc.issues.awake hstep hsrun,
    finish_done_grp s h e rfl hc.issues.awake hstep hsrun⟩

theorem getLsbD_treeMoved (s : State) (f : TF) (act : Mask) {l : Nat} (hl : l < 128) : (s.treeMoved f act).getLsbD l =
    (act.getLsbD l && s.leafTarget f (s.treePath f l).leaf != (s.cur.pc + s.cur.len) % pow2 64) := by
  unfold treeMoved
  rw [getLsbD_maskOf _ _ hl, any_paths s f act l fun p => s.leafTarget f p.leaf != (s.cur.pc + s.cur.len) % pow2 64]
  simp [mem_lanes, hl]

theorem getLsbD_leafLanes (s : State) (f : TF) (act : Mask) (j : Nat) {l : Nat} (hl : l < 128) : (s.leafLanes f act j).getLsbD l =
    (act.getLsbD l && (s.treePath f l).leaf == j) := by
  unfold leafLanes
  rw [getLsbD_maskOf _ _ hl, any_paths s f act l fun p => p.leaf == j]
  simp [mem_lanes, hl]

/-- A lane that a tree moves stands at its leaf's target. -/
theorem standsAt_treeDone {act : Mask} {l : Nat} (hl : l < 128) (hm : (s.treeMoved f act).getLsbD l = true) :
    (s.treeDone h f act).grp.StandsAt l (s.leafTarget f (s.treePath f l).leaf) := by
  rw [getLsbD_treeMoved s f act hl, Bool.and_eq_true, bne_iff_ne] at hm
  obtain ⟨hact, hne⟩ := hm
  have hcur : ((s.treeStored h f act).treePad (s.treeAccs f act)).cur = s.cur :=
    (spares_treePad ..).cur.trans (treeStored_cur s h f act)
  have ht := leafTarget_of_cur hcur f (s.treePath f l).leaf
  have hlane : ∀ i, (s.leafLanes f act i).getLsbD l = decide (i = (s.treePath f l).leaf) := fun i => by
    rw [getLsbD_leafLanes s f act i hl, hact, Bool.true_and, Bool.eq_iff_iff, beq_iff_eq, decide_eq_true_eq]
    exact eq_comm
  have hstands := standsAt_takeLeaves (u := (s.treeStored h f act).treePad (s.treeAccs f act)) (f := f)
    (next := (s.cur.pc + s.cur.len) % pow2 64) (j := (s.treePath f l).leaf) hl (List.mem_range.2 (walk_leaf_lt ..)) hlane
    (by rw [ht]; exact hne)
  rw [ht] at hstands
  exact hstands

variable {t : State} (he : TreeEnds s h f t)
include he

/-- R356: the lanes stand at their leaves. -/
theorem tree_pcOf {l : Nat} (hl : l < 128) (hlane : s.cur.lanes.getLsbD l = true) (hout : s.grp.exited.getLsbD l = false) :
    t.grp.pcOf l = if (s.activeLanes h).getLsbD l then s.leafTarget f (s.treePath f l).leaf
      else (s.cur.pc + s.cur.len) % pow2 64 := by
  have hmoved := getLsbD_treeMoved s f (s.activeLanes h) hl
  rw [he.grp, countLa_pcOf]
  by_cases hm : (s.treeMoved f (s.activeLanes h)).getLsbD l = true
  · rw [((standsAt_treeDone hl hm).setPc _ hl (by simp [hm])).pcOf]
    rw [hm, eq_comm, Bool.and_eq_true] at hmoved
    rw [if_pos hmoved.1]
  · rw [Group.pcOf_setPc _ _ _ _ hl]
    · rw [Bool.not_eq_true] at hm
      rw [hm, eq_comm] at hmoved
      split
      · next hact =>
        rw [hact, Bool.true_and, bne_eq_false_iff_eq] at hmoved
        exact hmoved.symm
      · rfl
    · rw [(keepsIssuer_treeDone s h f (s.activeLanes h)).exited]
      rw [Bool.not_eq_true] at hm
      simp only [BitVec.getLsbD_and, BitVec.getLsbD_not, hlane, hout, hm, hl]
      simp

/-- R356: with a load arc the results are due, and no register changes yet. -/
theorem tree_due (hload : f.arcs.any Arc.isLoad = true) : t.grp.regs = s.grp.regs ∧
    s.freshDue h.la.toNat f.results (s.treeResults f (s.activeLanes h)) 0 ∈ t.grp.due := by
  have hmoves := (moves_treeDone s h f (s.activeLanes h)).leavesIssuer
  unfold treeAhead treeDue at hmoves
  rw [if_pos hload] at hmoves
  obtain ⟨-, hregs, hdue⟩ := adds_due (served_treeRead s f (s.activeLanes h)) hmoves
  rw [he.grp, Group.setPc_rest]
  exact ⟨hregs, mem_due_countLa s.cur.lanes hdue rfl⟩

/-- R134: the scratchpad after the tree's stores to it. -/
theorem tree_spad : (t.team s.curTeam).spad =
    ((spadAccs (s.treeAccs f (s.activeLanes h))).filter fun e => e.2.arc.isStore).foldl (fun m e =>
      spadAfter s.curGrid.alloc (arcPieces e.1 e.2) (fun p => (pieceData e.2.data p).map Prod.fst) m) (s.team s.curTeam).spad := by
  have hpad := treePad_spad (s.treeStored h f (s.activeLanes h)) (s.treeAccs f (s.activeLanes h))
  rw [(treeStored_curGrid ..).1, curTeam_of_cur (treeStored_cur ..), (servedLogged_treeStored ..).team, treeAhead_team] at hpad
  rw [← hpad]
  have hend : (t.team s.curTeam).spad = ((s.treeDone h f (s.activeLanes h)).team s.curTeam).spad :=
    (congrArg Team.spad (he.only.teams s.curTeam) :)
  rw [hend]
  unfold team treeDone
  rw [takeLeaves_teams]

/-- What the end of a tree adds to its global stores moves no byte. -/
theorem sameBytes_tree (hu : s.curGrid.traced = false) : (s.treeStored h f (s.activeLanes h)).SameBytes t := by
  have hpad : ((s.treeStored h f (s.activeLanes h)).treePad (s.treeAccs f (s.activeLanes h))).curGrid =
      (s.treeStored h f (s.activeLanes h)).curGrid :=
    foldl_curGrid (fun _ _ => foldl_curGrid (fun _ _ => writeSpad_curGrid ..) _ _) _ _
  refine ((sameBytes_treePad ..).trans (sameBytes_takeLeaves f (s.activeLanes h) ?_)).trans (.of_onlyGroup he.only)
  rw [hpad, (treeStored_curGrid ..).2, hu]

variable (hu : s.curGrid.traced = false) (hmt : ∀ q ∈ s.treeSt f (s.activeLanes h), q.mt = 0)
include hu hmt

/-- R4, R139: bytes beside the tree's stores. -/
theorem tree_beside (hwt : (s.core s.curCore).writeThrough = false)
    (hfits : ((s.treeRead f (s.activeLanes h)).1.touchPages .store (s.treeSt f (s.activeLanes h))).L1Fits s.curCore
      (s.treeSt f (s.activeLanes h))) {a : Nat} (ha : ∀ q ∈ s.treeSt f (s.activeLanes h), ¬ q.Covers a) :
    t.seen s.curCore a =
      ((s.treeRead f (s.activeLanes h)).1.touchPages .store (s.treeSt f (s.activeLanes h))).seen s.curCore a := by
  have hbytes := sameBytes_touchPages_treeDue (s.treeRead f (s.activeLanes h)).1 h.la.toNat f (s.treeResults f (s.activeLanes h))
    .store (s.treeSt f (s.activeLanes h))
  have hcore := fun k => show State.core _ k = State.core _ k from congrArg (fun m => SMap.get m k ({} : Core)) hbytes.cores
  have hthrough : ((s.treeRead f (s.activeLanes h)).1.core s.curCore).writeThrough = false :=
    ((keepsHost_readGlobs_treeBegun s f (s.activeLanes h) _ _).through _).trans hwt
  rw [(sameBytes_tree he hu).seen, ← hbytes.seen]
  refine treeStore_beside (u := s.treeAhead h f (s.activeLanes h)) rfl hmt (curCore_treeAhead s h f (s.activeLanes h)) ?_ ?_ ha
  · exact (congrArg Core.writeThrough (hcore s.curCore)).trans (((keepsHost_touchPages ..).through _).trans hthrough)
  · unfold L1Fits at hfits ⊢
    rw [← hcore] at hfits
    exact hfits

/-- R139, R166: a byte that one of the tree's store pieces alone covers. -/
theorem tree_covered {q : GPiece} {i : Nat} (hq : q ∈ s.treeSt f (s.activeLanes h)) (hi : i < q.p.n)
    (halone : ∀ q' ∈ s.treeSt f (s.activeLanes h), q' ≠ q → ¬ q'.Covers (q.pa + i)) : t.seen s.curCore (q.pa + i) =
      ((((s.treePath f q.p.lane).acc.map ArcAcc.data).getD []).getD (q.p.idx + i) (0, false)).1 := by
  rw [(sameBytes_tree he hu).seen]
  exact treeStore_covered rfl hmt (curCore_treeAhead s h f (s.activeLanes h)) hq hi halone

theorem tree_host : t.hostMem = s.hostMem := by
  have hahead : (s.treeAhead h f (s.activeLanes h)).hostMem = (s.treeRead f (s.activeLanes h)).1.hostMem := by
    obtain ⟨G, N, Q, hr⟩ := treeDue_regroup (s.treeRead f (s.activeLanes h)).1 h.la.toNat f (s.treeResults f (s.activeLanes h))
    rw [treeAhead, hr]
    rfl
  rw [(sameBytes_tree he hu).host, treeStored, treeStore_host _ hmt (curCore_treeAhead s h f (s.activeLanes h)), hahead]
  exact (keepsHost_readGlobs_treeBegun ..).host

end

end Sys2Proof.Machine.State

namespace Sys2Proof.Proofs
open Sys2Proof Sys2Proof.Machine Sys2Proof.Machine.State

/-- Settles O20: the effect of such a tree is its stages in order (`effTree_of_clean`), each of which leaves what the others
speak of. -/
theorem treeMemory : Obligations.TreeMemory := by
  intro s h f hi hbelow hacq act path accs glob sp ld st marks s1 s2 loaded before stored hclean hld hst hol hos habs
  have hc : CleanTree s h f := ⟨hi, hbelow, hacq, hclean, hld, hst, hol, hos, habs⟩
  obtain ⟨t, hx, he⟩ := tree_goes hc
  refine ⟨t, hx, fun l hl hlane hout => tree_pcOf he hl hlane hout, fun hload => ?_, fun hu hwt hmt => ⟨fun hfits a ha => ?_,
    fun q i hq hi halone => ?_, ?_⟩, tree_spad he⟩
  · obtain ⟨hregs, hdue⟩ := tree_due he hload
    refine ⟨hregs, _, hdue, rfl, rfl, rfl, rfl, rfl, fun n l hl hno => ?_, fun l a i hl hact hacc hl' hlen => ?_, fun n l hl => ?_⟩
    · exact treeWrites_lane_path rfl hl hno _
    · obtain ⟨bs, hbs⟩ := Option.isSome_iff_exists.1
        (treeLoaded_isSome (x := s2) (mem_treeAccs.2 ⟨mem_lanes.2 ⟨hl, hact⟩, hacc⟩) hl' hld)
      have hget : SMap.get loaded l [] = bs := get_of_find hbs []
      rw [hget]
      exact treeWrites_lane_loaded rfl hl hact hacc hl' hlen hbs _
    · exact treeWrites_pget hl _
  · exact tree_beside he hu hmt hwt hfits ha
  · exact tree_covered he hu hmt hq hi halone
  · exact tree_host he hu hmt

end Sys2Proof.Proofs

/-! ## Every step keeps the memories' form (O58)

Each operation of the model that answers a state keeps the canonical form of device and host memory: one lemma for each, in the
order of the model's files and named after the operation, so that a proof names the operations of the definition in their order.
The primitive writers are `memWf_devWrite` and the like; an operation that writes neither memory keeps the form because the
memories are the same. -/

namespace Sys2Proof.Machine.State
open Sys2Proof

set_option Elab.async false

variable {s : State}

/-- `MemWf`, as a definition of its own, so that states are compared before their memories are. -/
def MemForm (s : State) : Prop := s.MemWf

theorem memForm_iff : s.MemForm ↔ s.MemWf := Iff.rfl

theorem MemForm.ite {c : Prop} [Decidable c] {t u : State} (ht : t.MemForm) (hu : u.MemForm) : (if c then t else u).MemForm := by
  split
  · exact ht
  · exact hu

theorem MemForm.foldl {α : Type} {f : State → α → State} {l : List α} (hf : ∀ s a, s.MemForm → (f s a).MemForm)
    (hw : s.MemForm) :
    (l.foldl f s).MemForm := memWf_foldl f hf l s hw

theorem MemForm.same {t : State} (hw : s.MemForm) (hm : t.mem = s.mem := by rfl) (hh : t.hostMem = s.hostMem := by rfl) :
    t.MemForm := by
  rw [MemForm, MemWf, hm, hh]
  exact hw

/-- A fold that carries a second value along. -/
theorem MemForm.foldl_fst {α β : Type} {f : State × β → α → State × β} {l : List α} {x : State × β}
    (hf : ∀ x a, x.1.MemForm → (f x a).1.MemForm) (hx : x.1.MemForm) : (l.foldl f x).1.MemForm := by
  induction l generalizing x with
  | nil => exact hx
  | cons a l ih => exact ih (hf x a hx)

theorem MemForm.devWrite {pa : Nat} {bs : List Byte} {p : Bool} (hw : s.MemForm) : (s.devWrite pa bs p).MemForm :=
  memWf_devWrite s pa bs p hw
theorem MemForm.hostWrite {pa : Nat} {bs : List Byte} (hw : s.MemForm) : (s.hostWrite pa bs).MemForm :=
  memWf_hostWrite s pa bs hw
theorem MemForm.wbSector {k sec : Nat} (hw : s.MemForm) : (s.wbSector k sec).MemForm := memWf_wbSector s k sec hw
theorem MemForm.setAD {p va : Nat} {w : Bool} (hw : s.MemForm) : (s.setAD p va w).MemForm := memWf_setAD s p va w hw
theorem MemForm.vaTouch {p va n : Nat} {w : Bool} (hw : s.MemForm) : (s.vaTouch p va n w).MemForm := memWf_vaTouch s p va n w hw
theorem MemForm.vaWrite {p va : Nat} {bs : List Byte} (hw : s.MemForm) : (s.vaWrite p va bs).MemForm := memWf_vaWrite s p va bs hw
theorem MemForm.imgWriteP {tk off : Nat} {bs : List PByte} (hw : s.MemForm) : (s.imgWriteP tk off bs).MemForm :=
  memWf_imgWriteP s tk off bs hw
theorem MemForm.putRange {p : Pinned} {va n : Nat} {m : SMap Byte} {q : List Nat} (hw : s.MemForm) :
    (s.putRange p va n m q).MemForm := memWf_putRange s p va n m q hw

/-- The state of a pair that was taken apart. -/
theorem MemForm.of_snd {α : Type} {p : α × State} {a : α} {t : State} (hp : p = (a, t)) (hw : p.2.MemForm) : t.MemForm := by
  rw [hp] at hw
  exact hw

theorem MemForm.of_fst {α : Type} {p : State × α} {a : α} {t : State} (hp : p = (t, a)) (hw : p.1.MemForm) : t.MemForm := by
  rw [hp] at hw
  exact hw

/-- An outcome that is a next state is one in canonical form. -/
def NextWf (o : Host.Outcome State Fault Refusal) : Prop := ∀ t, o = .next t → t.MemForm

theorem NextWf.next {t : State} (ht : t.MemForm) : NextWf (.next t) := by
  intro u hu
  cases hu
  exact ht

theorem NextWf.ite {c : Prop} [Decidable c] {a b : Host.Outcome State Fault Refusal} (ha : NextWf a) (hb : NextWf b) :
    NextWf (if c then a else b) := by
  split
  · exact ha
  · exact hb


/-! ### The accessors of the state -/

theorem MemForm.modCluster {cl : Nat} {f : Cluster → Cluster} (hw : s.MemForm) : (s.modCluster cl f).MemForm := hw.same

theorem MemForm.modCore {k : Nat} {f : Core → Core} (hw : s.MemForm) : (s.modCore k f).MemForm := hw.same

theorem MemForm.modQuad {k : Nat} {f : Quad → Quad} (hw : s.MemForm) : (s.modQuad k f).MemForm := hw.same

theorem MemForm.modTeam {k : Nat} {f : Team → Team} (hw : s.MemForm) : (s.modTeam k f).MemForm := hw.same

theorem MemForm.modGroup {k : Nat} {f : Group → Group} (hw : s.MemForm) : (s.modGroup k f).MemForm := hw.same

theorem MemForm.modGrid {g : Nat} {f : Grid → Grid} (hw : s.MemForm) : (s.modGrid g f).MemForm := hw.same

theorem MemForm.modPart {p : Nat} {f : Part → Part} (hw : s.MemForm) : (s.modPart p f).MemForm := hw.same

theorem MemForm.modPage {p : Nat} {f : Page → Page} (hw : s.MemForm) : (s.modPage p f).MemForm := hw.modPart

theorem MemForm.modHart {h : Nat} {f : Hart → Hart} (hw : s.MemForm) : (s.modHart h f).MemForm := hw.same

theorem MemForm.modPort {n : Nat} {f : Port → Port} (hw : s.MemForm) : (s.modPort n f).MemForm := hw.same

theorem MemForm.modQueue {q : Nat} {f : Queue → Queue} (hw : s.MemForm) : (s.modQueue q f).MemForm := hw.same

theorem MemForm.count {cl off n : Nat} (hw : s.MemForm) : (s.count cl off n).MemForm := hw.modCluster

theorem MemForm.countPair {cl off hi lo : Nat} (hw : s.MemForm) : (s.countPair cl off hi lo).MemForm := hw.modCluster

theorem MemForm.devCount {off n : Nat} (hw : s.MemForm) : (s.devCount off n).MemForm := hw.same

theorem MemForm.devCountPair {off hi lo : Nat} (hw : s.MemForm) : (s.devCountPair off hi lo).MemForm := hw.same

theorem MemForm.fresh (hw : s.MemForm) : s.fresh.2.MemForm := hw.same

theorem MemForm.freeIdx (hw : s.MemForm) : s.freeIdx.2.MemForm := hw.same

theorem MemForm.send {m : Msg} (hw : s.MemForm) : (s.send m).MemForm := hw.same

theorem MemForm.answer {r : Reply} (hw : s.MemForm) : (s.answer r).MemForm := hw.same

theorem MemForm.modGrp {f : Group → Group} (hw : s.MemForm) : (s.modGrp f).MemForm := hw.modGroup

theorem MemForm.modRegs {f : Regs → Regs} (hw : s.MemForm) : (s.modRegs f).MemForm := hw.modGrp

theorem MemForm.setS {n : BitVec 6} {v : W64} {pois : BitVec 2} (hw : s.MemForm) : (s.setS n v pois).MemForm := hw.modRegs

theorem MemForm.setV {n : BitVec 8} {m : Mask} {vals : List W32} {pois : Mask} (hw : s.MemForm) :
    (s.setV n m vals pois).MemForm := hw.modRegs

theorem MemForm.setP {n : Nat} {m vals : Mask} (hw : s.MemForm) : (s.setP n m vals).MemForm := hw.modRegs

theorem MemForm.setQ {n : Nat} {b : Bool} (hw : s.MemForm) : (s.setQ n b).MemForm := hw.modRegs

/-! ### Caches, device memory and translation -/

theorem MemForm.devWriteP {pa : Nat} {bs : List PByte} (hw : s.MemForm) : (s.devWriteP pa bs).MemForm :=
  .foldl (fun _ _ hw => hw.devWrite) hw

theorem MemForm.wbCore {k : Nat} (hw : s.MemForm) : (s.wbCore k).MemForm := .foldl (fun _ _ hw => hw.wbSector) hw

theorem MemForm.invalClean {k : Nat} (hw : s.MemForm) : (s.invalClean k).MemForm := hw.modCore

theorem MemForm.flushCore {k : Nat} (hw : s.MemForm) : (s.flushCore k).MemForm := hw.wbCore.modCore

theorem MemForm.dropSector {k sec : Nat} (hw : s.MemForm) : (s.dropSector k sec).MemForm := hw.wbSector.modCore

theorem MemForm.dropRange {k pa n : Nat} (hw : s.MemForm) : (s.dropRange k pa n).MemForm :=
  .foldl (fun _ _ hw => hw.dropSector) hw

theorem MemForm.wbRange {k pa n : Nat} (hw : s.MemForm) : (s.wbRange k pa n).MemForm := .foldl (fun _ _ hw => hw.wbSector) hw

theorem MemForm.l1Room {k sec : Nat} (hw : s.MemForm) : (s.l1Room k sec).MemForm :=
  .ite hw (.foldl (fun _ _ hw => hw.dropSector) hw.same)

theorem MemForm.fillSector {k sec : Nat} (hw : s.MemForm) : (s.fillSector k sec).MemForm := .ite hw.l1Room hw.l1Room.modCore

theorem MemForm.storeSector {k pa : Nat} {bs : List Byte} {pois : Bool} {sec : Nat} (hw : s.MemForm) :
    (s.storeSector k pa bs pois sec).MemForm := .ite hw.l1Room.modCore.wbSector hw.l1Room.modCore

theorem MemForm.settleMarks {k : Nat} {ws : List (Nat × List PByte)} (hw : s.MemForm) : (s.settleMarks k ws).MemForm := by
  unfold State.settleMarks
  dsimp only
  refine .foldl (fun _ _ hw => ?_) hw
  split
  · exact .ite hw.same hw.modCore
  · exact hw.same

theorem MemForm.settleHome {ws : List (Nat × List PByte)} (hw : s.MemForm) : (s.settleHome ws).MemForm := hw.same

theorem MemForm.countWritten {cl : Nat} {ds : List (List PByte)} (hw : s.MemForm) : (s.countWritten cl ds).MemForm :=
  .ite hw hw.count

theorem MemForm.glLoad {k pa mt n : Nat} (hw : s.MemForm) : (s.glLoad k pa mt n).1.MemForm := by
  unfold State.glLoad
  dsimp only
  split
  · exact hw
  · split
    · exact hw.dropRange
    · exact .foldl (fun _ _ hw => hw.fillSector) hw

theorem MemForm.glStore {k pa mt : Nat} {bs : List Byte} {pois : Bool} (hw : s.MemForm) :
    (s.glStore k pa mt bs pois).MemForm := .ite hw.hostWrite (.ite hw.dropRange.devWrite (.foldl (fun _ _ hw => hw.storeSector)
    hw))

theorem MemForm.tlbTouch {k : Nat} {e : TlbEntry} {va : Nat} (hw : s.MemForm) : (s.tlbTouch k e va).MemForm :=
  hw.modCore.modCluster

theorem MemForm.xlatTouch {k p va : Nat} {a : Acc} (hw : s.MemForm) : (s.xlatTouch k p va a).MemForm := by
  unfold State.xlatTouch
  dsimp only
  split
  · exact hw
  · exact .ite hw.tlbTouch.setAD hw.tlbTouch

theorem MemForm.vaAdd {p va : Nat} {n : W64} (hw : s.MemForm) : (s.vaAdd p va n).MemForm := hw.vaWrite

theorem MemForm.pin {pages : List Nat} (hw : s.MemForm) : (s.pin pages).MemForm := hw.same

theorem MemForm.unpin {pages : List Nat} (hw : s.MemForm) : (s.unpin pages).MemForm := hw.same

theorem MemForm.imgWrite {tk off : Nat} {bs : List Byte} (hw : s.MemForm) : (s.imgWrite tk off bs).MemForm := hw.imgWriteP

theorem MemForm.imgSpadWrite {g t off : Nat} {bs : List PByte} (hw : s.MemForm) : (s.imgSpadWrite g t off bs).MemForm :=
  .foldl (fun _ _ hw => hw.imgWrite) hw.imgWriteP

theorem MemForm.spadWrite {g t off : Nat} {bs : List Byte} {pois : Bool} (hw : s.MemForm) :
    (s.spadWrite g t off bs pois).MemForm := .ite hw.imgSpadWrite hw.modTeam

theorem MemForm.spadWriteP {g t off : Nat} {bs : List PByte} (hw : s.MemForm) : (s.spadWriteP g t off bs).MemForm :=
  .ite hw.imgSpadWrite (.foldl (fun _ _ hw => hw.spadWrite) hw)

theorem MemForm.landing {g t line : Nat} {d : Int} (hw : s.MemForm) : (s.landing g t line d).MemForm :=
  .ite hw.imgWrite hw.modTeam

/-! ### Counters, tokens and wakes -/

theorem MemForm.trapGroup {gk pc : Nat} {sec : Bool} {t : Trap} (hw : s.MemForm) : (s.trapGroup gk pc sec t).MemForm :=
  .ite hw.modPage.modGroup.count (.ite hw.modPage.modGroup.count hw.modPage.modGroup)

theorem MemForm.ringRead {p : Nat} (hw : s.MemForm) : (s.ringRead p).MemForm := .ite hw.vaTouch.vaTouch hw

theorem MemForm.notice {p : Nat} {r : TrapRec} (hw : s.MemForm) : (s.notice p r).MemForm :=
  .ite hw.ringRead.modPage hw.ringRead.modPage

theorem MemForm.errorEvent {g code : Nat} {page : W64} {t grp : Nat} (hw : s.MemForm) :
    (s.errorEvent g code page t grp).MemForm := hw.notice

theorem MemForm.rouse {k : Nat} (hw : s.MemForm) : (s.rouse k).MemForm := hw.modCore

theorem MemForm.wake {gk : Nat} (hw : s.MemForm) : (s.wake gk).MemForm := by
  unfold State.wake
  dsimp only
  split
  · exact hw.rouse.modGroup
  · exact hw.rouse.modGroup.trapGroup

theorem MemForm.wakeWhere {gs : List Nat} {f : Park → Bool} (hw : s.MemForm) : (s.wakeWhere gs f).MemForm := by
  unfold State.wakeWhere
  refine .foldl (fun _ _ hw => ?_) hw
  split
  · exact .ite hw.wake hw
  · exact hw

theorem MemForm.tokenUp {gk k : Nat} (hw : s.MemForm) : (s.tokenUp gk k).MemForm := hw.modGroup

theorem MemForm.killRange {k pa n : Nat} {ws : List (Nat × Nat)} (hw : s.MemForm) : (s.killRange k pa n ws).MemForm :=
  hw.modCore

theorem MemForm.dropJobSectors {gk : Nat} {m : BitVec 8} (hw : s.MemForm) : (s.dropJobSectors gk m).MemForm :=
  .modCore (.foldl (fun _ _ hw => .foldl (fun _ _ hw => hw.killRange) hw) hw)

theorem MemForm.unitScalar {gk n : Nat} {v : W64} (hw : s.MemForm) : (s.unitScalar gk n v).MemForm :=
  .ite hw (.ite hw.imgWrite hw.modGroup)

theorem MemForm.tokenDown {gk k st : Nat} (hw : s.MemForm) : (s.tokenDown gk k st).MemForm := by
  unfold State.tokenDown
  dsimp only
  split
  · exact hw
  · split
    · exact hw.imgWrite.imgWrite
    · split
      · exact .ite hw.modGroup.wake hw.modGroup
      · exact .ite hw.modGroup.dropJobSectors.wake hw.modGroup
      · exact hw.modGroup

theorem MemForm.dropFlight {id : Nat} (hw : s.MemForm) : (s.dropFlight id).MemForm := hw.same

theorem MemForm.setFlight {f : Flight} (hw : s.MemForm) : (s.setFlight f).MemForm := hw.same

theorem MemForm.tokenStatus {gk k st : Nat} (hw : s.MemForm) : (s.tokenStatus gk k st).MemForm :=
  .ite hw (.ite hw.imgWrite hw.modGroup)

theorem MemForm.landed {f : Flight} {st : Nat} (hw : s.MemForm) : (s.landed f st).MemForm := by
  unfold State.landed
  dsimp only
  split
  · exact .ite hw.dropFlight.unpin.tokenStatus hw.dropFlight.unpin.tokenDown
  · exact hw.dropFlight.unpin

theorem MemForm.duePart {gk id : Nat} {w : List RegWr} (hw : s.MemForm) : (s.duePart gk id w).MemForm := .ite hw hw.modGroup

theorem MemForm.markIssued (hw : s.MemForm) : s.markIssued.MemForm := .ite hw.modGrid.modTeam hw.modGrid

/-- However the effect ends, the issue itself writes no memory. -/
theorem MemForm.finish {h : Hdr} {e : Eff} (hw : s.MemForm) (he : e.s.MemForm) : (s.finish h e).MemForm := by
  unfold State.finish
  dsimp only
  cases e.fate with
  | stall => exact he
  | retry w => exact .ite hw.modQuad he.modQuad.modGrp
  | trap t => exact .ite hw.modQuad.modGrp he.markIssued.modQuad.trapGroup
  | done =>
    exact .ite hw.modQuad
      (.ite he.markIssued.modGrp.modQuad.trapGroup (.ite he.markIssued.modGrp.modQuad.trapGroup he.markIssued.modGrp.modQuad))
  | park w => exact .ite hw.modQuad he.markIssued.modGrp.modQuad.modGrp
  | after t => exact .ite hw.modQuad (.ite he.markIssued.modGrp.modQuad he.markIssued.modGrp.modQuad.trapGroup)

theorem MemForm.issueWord {h : Hdr} {u : Uses} {eff : Mask → State → Eff} (hw : s.MemForm) (hf : ∀ m s, s.MemForm →
    (eff m s).s.MemForm) : (s.issueWord h u eff).MemForm := by
  unfold State.issueWord
  split
  · exact hw
  · split
    · exact hw.finish hw
    · split
      · exact hw
      · split
        · exact hw.finish hw
        · exact hw.finish (hf _ _ hw)

/-! ### Issue -/

theorem MemForm.fillLine {k p va : Nat} (hw : s.MemForm) : (s.fillLine k p va).MemForm :=
  .modCore (.count (.ite hw.xlatTouch.xlatTouch hw.xlatTouch))

theorem MemForm.fetchLine {k p va : Nat} (hw : s.MemForm) : (s.fetchLine k p va).MemForm := by
  unfold State.fetchLine
  split
  · exact hw.modCore
  · exact hw.fillLine

theorem MemForm.discardLine {k p va : Nat} (hw : s.MemForm) : (s.discardLine k p va).MemForm := hw.modCore

theorem MemForm.startRun {k d : Nat} (hw : s.MemForm) : (s.startRun k d).MemForm := by
  unfold State.startRun
  dsimp only
  split
  · exact hw
  · split
    · exact hw
    · split
      · exact hw.modGroup
      · exact hw.modGroup.modGroup.modQuad

theorem MemForm.setCur {k d : Nat} {r : Run} {x : Stream} {sec : Bool} {len words : Nat} (hw : s.MemForm) :
    (s.setCur k d r x sec len words).MemForm := hw.same

theorem MemForm.fetchWord {k d p : Nat} {r : Run} {x : Stream} {sec : Bool} (hw : s.MemForm) :
    (s.fetchWord k d p r x sec).1.MemForm := by
  unfold State.fetchWord
  dsimp only
  split
  · exact hw.setCur.finish hw.setCur
  · split
    · exact hw.fetchLine.setCur.discardLine.finish hw.fetchLine.setCur.discardLine
    · split
      · exact hw.fetchLine.setCur.finish hw.fetchLine.setCur
      · split
        · exact hw.fetchLine.setCur.discardLine.finish hw.fetchLine.setCur.discardLine
        · exact hw.fetchLine.setCur.discardLine.finish hw.fetchLine.setCur.discardLine
        · exact hw.fetchLine.setCur.discardLine.finish hw.fetchLine.setCur.discardLine
        · exact hw.fetchLine.setCur.finish hw.fetchLine.setCur
        · split
          · exact hw.fetchLine.setCur.finish hw.fetchLine.setCur
          · exact hw.fetchLine.setCur

theorem MemForm.nextWord {cl co d : Nat} (hw : s.MemForm) : (s.nextWord cl co d).1.MemForm := by
  unfold State.nextWord
  dsimp only
  split
  · exact hw.startRun
  · split
    · split
      · exact hw.startRun.modQuad
      · exact hw.startRun.fetchWord
    · split
      · exact hw.startRun.modQuad
      · split
        · exact hw.startRun.modQuad
        · exact hw.startRun.modQuad.fetchWord

/-! ### Operands and results -/

theorem MemForm.countPois {m : Mask} (hw : s.MemForm) : (s.countPois m).MemForm := .ite hw hw.count

theorem MemForm.putV {vd : BitVec 8} {act : Mask} {x : VArg} (hw : s.MemForm) : (s.putV vd act x).MemForm := hw.setV.countPois

theorem MemForm.putP {pd : BitVec 4} {act vals pois : Mask} (hw : s.MemForm) : (s.putP pd act vals pois).MemForm :=
  hw.setP.countPois

theorem MemForm.overPrimary {rs : List Nat} (hw : s.MemForm) : (s.overPrimary rs).MemForm := .ite hw.modQuad hw

theorem MemForm.addDue {la : Nat} {dst : List (Nat × Nat)} {ws : List RegWr} {left : Nat} (hw : s.MemForm) :
    (s.addDue la dst ws left).MemForm := hw.overPrimary.same.modGrp

theorem MemForm.dueV {h : Hdr} {vd : BitVec 8} {act : Mask} {x : VArg} (hw : s.MemForm) : (s.dueV h vd act x).MemForm :=
  hw.addDue.countPois

theorem MemForm.putS {sd : Nat} {v : W64} {pois : Bool} (hw : s.MemForm) : (s.putS sd v pois).MemForm :=
  .ite hw.overPrimary.modRegs.count hw.overPrimary.modRegs

theorem MemForm.v3One {h : Hdr} {f : V3} {op : W32 → W32} (hw : s.MemForm) : (v3One h f op s).MemForm :=
  hw.issueWord (fun _ _ hw => hw.putV)

theorem MemForm.v3Two {h : Hdr} {f : V3} {op : W32 → W32 → W32} (hw : s.MemForm) : (v3Two h f op s).MemForm :=
  hw.issueWord (fun _ _ hw => hw.putV)

theorem MemForm.v3Three {h : Hdr} {f : V3} {op : W32 → W32 → W32 → W32} (hw : s.MemForm) : (v3Three h f op s).MemForm :=
  hw.issueWord (fun _ _ hw => hw.putV)

theorem MemForm.v3Rel {h : Hdr} {f : V3} {op : W32 → W32 → Bool} (hw : s.MemForm) : (v3Rel h f op s).MemForm :=
  hw.issueWord (fun _ _ hw => hw.putP)

theorem MemForm.v3OneLong {h : Hdr} {f : V3} {op : W32 → W32} (hw : s.MemForm) : (v3OneLong h f op s).MemForm :=
  hw.issueWord (fun _ _ hw => hw.dueV)

theorem MemForm.v3TwoLong {h : Hdr} {f : V3} {op : W32 → W32 → W32} (hw : s.MemForm) : (v3TwoLong h f op s).MemForm :=
  hw.issueWord (fun _ _ hw => hw.dueV)

theorem MemForm.viTwo {h : Hdr} {f : VI} {op : W32 → W32 → W32} (hw : s.MemForm) : (viTwo h f op s).MemForm :=
  hw.issueWord (fun _ _ hw => hw.putV)

theorem MemForm.viMov {h : Hdr} {f : VI} (hw : s.MemForm) : (viMov h f s).MemForm := hw.issueWord (fun _ _ hw => hw.putV)

theorem MemForm.viRel {h : Hdr} {f : VI} {op : W32 → W32 → Bool} (hw : s.MemForm) : (viRel h f op s).MemForm :=
  hw.issueWord (fun _ _ hw => hw.putP)

/-! ### Waits -/

theorem MemForm.promote {g t : Nat} (hw : s.MemForm) : (s.promote g t).MemForm := .foldl (fun _ _ hw => hw.wbCore) hw

theorem MemForm.promoteFor {gk : Nat} {rmt : Bool} (hw : s.MemForm) : (s.promoteFor gk rmt).MemForm := .ite hw.promote hw

theorem MemForm.acquireEnds {gk scp : Nat} (hw : s.MemForm) : (s.acquireEnds gk scp).MemForm := .ite hw.invalClean hw

theorem MemForm.acquireBy {gk scp : Nat} {rmt : Bool} (hw : s.MemForm) : (s.acquireBy gk scp rmt).MemForm :=
  hw.promoteFor.acquireEnds

theorem MemForm.releaseBy {gk scp : Nat} (hw : s.MemForm) : (s.releaseBy gk scp).MemForm := .ite hw.wbCore hw

theorem MemForm.counterStep {gk : Nat} {l : Loc} (hw : s.MemForm) : (s.counterStep gk l).MemForm := by
  unfold State.counterStep
  split
  · split
    · exact .ite hw hw.dropRange
    · exact hw
  · exact hw

theorem MemForm.recheck {gk : Nat} (hw : s.MemForm) : (s.recheck gk).MemForm := by
  unfold State.recheck
  dsimp only
  split
  · split
    · exact hw
    · split
      · exact .ite (.wake (.acquireEnds (.ite hw.counterStep.promoteFor.count hw.counterStep.promoteFor))) hw.counterStep
      · exact hw.counterStep
  · exact hw

theorem MemForm.readCounter {gk : Nat} (hw : s.MemForm) : (s.readCounter gk).MemForm := by
  unfold State.readCounter
  split
  · split
    · exact hw
    · refine .recheck ?_
      split
      · exact hw.count
      · exact hw
  · exact hw

theorem MemForm.recheckTeam {tk : Nat} (hw : s.MemForm) : (s.recheckTeam tk).MemForm := by
  unfold State.recheckTeam
  refine .foldl (fun _ _ hw => ?_) hw
  split
  · exact .ite hw.readCounter hw
  · exact hw

theorem MemForm.recheckAll (hw : s.MemForm) : s.recheckAll.MemForm := .foldl (fun _ _ hw => hw.recheck) hw

theorem MemForm.deviceAdd {p va : Nat} {n : W64} (hw : s.MemForm) : (s.deviceAdd p va n).MemForm := hw.vaAdd.recheckAll

theorem MemForm.noteAdder {g t : Nat} {l : Loc} (hw : s.MemForm) : (s.noteAdder g t l).MemForm := hw.modGrid

theorem MemForm.logLeak {g kind addr len dev : Nat} (hw : s.MemForm) : (s.logLeak g kind addr len dev).MemForm :=
  .ite hw (.ite hw.vaWrite (.ite hw.vaWrite.modGrid hw.modGrid))

theorem MemForm.gridAdd {g p va : Nat} {n : W64} (hw : s.MemForm) : (s.gridAdd g p va n).MemForm := by
  unfold State.gridAdd
  dsimp only
  split
  · exact hw.deviceAdd.logLeak
  · exact hw.deviceAdd

/-! ### Teams and grids -/

theorem MemForm.grantRows {qk fuel : Nat} (hw : s.MemForm) : (s.grantRows qk fuel).MemForm := by
  induction fuel generalizing s with
  | zero => exact hw
  | succ fuel ih =>
    unfold State.grantRows
    split
    · exact hw
    · split
      · exact .ite (ih hw.modGroup.wake) hw
      · exact hw

theorem MemForm.settleCore {k : Nat} (hw : s.MemForm) : (s.settleCore k).MemForm := .ite hw.modCore hw

theorem MemForm.passBaton {k fuel : Nat} (hw : s.MemForm) : (s.passBaton k fuel).MemForm := by
  induction fuel generalizing s with
  | zero => exact hw
  | succ fuel ih =>
    unfold State.passBaton
    refine .ite hw ?_
    split
    · exact hw
    · dsimp only
      split
      · exact hw.modCore.modCore.modGroup.wake
      · exact ih hw.modCore.wake
      · exact .ite hw.modCore.modCore.modGroup (ih hw.modCore)

theorem MemForm.dropBaton {k gk : Nat} (hw : s.MemForm) : (s.dropBaton k gk).MemForm :=
  .ite hw.modCore.modCore.passBaton hw.modCore

theorem MemForm.leaveSlot {k gk : Nat} (hw : s.MemForm) : (s.leaveSlot k gk).MemForm := hw.modQuad.dropBaton.grantRows

theorem MemForm.leaveSlots {k tk : Nat} (hw : s.MemForm) : (s.leaveSlots k tk).MemForm :=
  .foldl (fun _ _ hw => hw.leaveSlot) hw.modCore

theorem MemForm.leaveCore {tk : Nat} (hw : s.MemForm) : (s.leaveCore tk).MemForm := hw.leaveSlots.wbCore.modCore

theorem MemForm.pmReached {tk : Nat} (hw : s.MemForm) : (s.pmReached tk).MemForm :=
  .ite (.ite hw.modPage.modPage.send hw.modPage) hw

theorem MemForm.pmLate {tk : Nat} (hw : s.MemForm) : (s.pmLate tk).MemForm := by
  unfold State.pmLate
  dsimp only
  split
  · exact .ite hw.modPage hw
  · exact hw

theorem MemForm.pmCount {tk : Nat} {f : Page → Page} (hw : s.MemForm) : (s.pmCount tk f).MemForm := hw.modPage

theorem MemForm.writeSig {gk : Nat} (hw : s.MemForm) : (s.writeSig gk).MemForm := .ite hw hw.vaWrite

theorem MemForm.teamExit {tk : Nat} (hw : s.MemForm) : (s.teamExit tk).MemForm := by
  unfold State.teamExit
  dsimp only
  split
  · split
    · exact hw.leaveCore.unpin.modTeam.settleCore.pmCount.pmLate.pmReached
    · exact hw.leaveCore.unpin.modTeam.settleCore.pmLate.pmReached
  · exact hw

theorem MemForm.groupExit {gk : Nat} (hw : s.MemForm) : (s.groupExit gk).MemForm :=
  .ite hw.modGroup.writeSig.leaveSlot.teamExit hw

theorem MemForm.takeSlot {k d gk : Nat} (hw : s.MemForm) : (s.takeSlot k d gk).MemForm := hw.modQuad.modGroup

theorem MemForm.placeTeam {g t cl co : Nat} (hw : s.MemForm) : (s.placeTeam g t cl co).MemForm :=
  .foldl (fun _ _ hw => hw.same.takeSlot) hw.same.modCore.rouse

theorem MemForm.beginSave {tk : Nat} {c : SaveCause} (hw : s.MemForm) : (s.beginSave tk c).1.MemForm := by
  unfold State.beginSave
  dsimp only
  split
  · exact hw.errorEvent
  · split
    · exact hw.vaTouch.pin.modTeam
    · exact hw.count

theorem MemForm.completeSave {tk : Nat} (hw : s.MemForm) : (s.completeSave tk).MemForm := by
  unfold State.completeSave
  extract_lets g t r x k bat held ofTeam logs floats s1 s2 jobs ended s3 s4 s5 s6 s7 s8
  have h2 : s2.MemForm := hw.modTeam.putRange
  have h5 : s5.MemForm := .foldl (fun _ _ hw => hw.modGroup) h2.modCore.leaveSlots
  have h8 : s8.MemForm := h5.wbCore.modCore.modTeam.settleCore.recheckAll
  clear_value s8
  split
  · exact h8.pmCount.pmLate.pmReached
  · exact h8.pmCount.pmReached
  · exact .ite h8.pmLate.pmReached h8

theorem MemForm.putTask {gk sd lo hi entry : Nat} (hw : s.MemForm) : (s.putTask gk sd lo hi entry).MemForm := hw.modGroup

theorem MemForm.tasksEnd {g : Nat} (hw : s.MemForm) : (s.tasksEnd g).MemForm := by
  unfold State.tasksEnd
  dsimp only
  split
  · exact hw
  · refine .foldl (fun _ _ hw => ?_) hw.modGrid
    split
    · split
      · exact hw.putTask.wake
      · exact hw
    · exact hw

theorem MemForm.nextChunk {gk sd : Nat} {t : Task} (hw : s.MemForm) : (s.nextChunk gk sd t).MemForm :=
  hw.putTask.modCluster.tasksEnd

theorem MemForm.fetchTask {t : State} {gk sd : Nat} (hw : s.MemForm) (ht : s.fetchTask gk sd = some t) : t.MemForm := by
  unfold State.fetchTask at ht
  split at ht
  · cases ht
    exact hw.nextChunk
  · dsimp only at ht
    split at ht
    · cases ht
      exact hw.putTask
    · cases ht

theorem MemForm.beginRestore {tk cl co : Nat} (hw : s.MemForm) : (s.beginRestore tk cl co).MemForm :=
  .foldl (fun _ _ hw => .ite hw hw.modGroup.takeSlot) hw.modTeam.modCore

/-- Each reason of a park is looked at again with what can end it. -/
theorem MemForm.reexamine {gk : Nat} (hw : s.MemForm) : (s.reexamine gk).MemForm := by
  unfold State.reexamine
  dsimp only
  split
  · exact hw.readCounter
  · exact .ite hw.wake hw
  · exact .ite hw.dropJobSectors.wake hw
  · exact .ite hw.wake hw
  · exact hw.grantRows
  · exact .ite hw hw.modCore.passBaton
  · split
    · next ht => exact (hw.fetchTask ht).wake
    · exact hw
  · split
    · exact hw.modGroup.wake
    · exact hw
  · exact hw.wake
  · split
    · exact .ite hw.wake hw
    · exact .ite hw.wake hw
  · exact hw.modGroup.wake
  · exact hw

theorem MemForm.completeRestore {tk : Nat} (hw : s.MemForm) : (s.completeRestore tk).MemForm := by
  unfold State.completeRestore
  dsimp only
  refine .recheckAll ?_
  refine .recheckTeam ?_
  refine .foldl (fun _ _ hw => hw.reexamine) ?_
  split
  · exact .passBaton
      (.modCore
      (.modGroup (.modTeam (.rouse (.unpin (.modCore (.modTeam (.foldl (fun _ _ hw => hw.modGroup) hw.flushCore))))))))
  · exact .rouse (.unpin (.modCore (.modTeam (.foldl (fun _ _ hw => hw.modGroup) hw.flushCore))))

theorem MemForm.dropWork {tk : Nat} (hw : s.MemForm) : (s.dropWork tk).MemForm := hw.unpin.modCore.modCluster

theorem MemForm.discardTeam {tk : Nat} (hw : s.MemForm) : (s.discardTeam tk).MemForm :=
  .settleCore (.modTeam (.foldl (fun _ _ hw => hw.same) (.dropWork (.unpin (.ite hw.leaveCore hw)))))

/-! ### The vector lanes -/

theorem MemForm.touchPages {a : Acc} {ps : List GPiece} (hw : s.MemForm) : (s.touchPages a ps).MemForm :=
  .foldl (fun _ _ hw => hw.xlatTouch) hw

theorem MemForm.releaseNow {f : MF} {locs : List Nat} (hw : s.MemForm) : (s.releaseNow f locs).MemForm :=
  .ite (.ite (.foldl (fun _ _ hw => hw.logLeak) hw.releaseBy) hw.releaseBy) hw

theorem MemForm.acquireNow {f : MF} (hw : s.MemForm) : (s.acquireNow f).MemForm := .ite hw.acquireBy hw

theorem MemForm.accessWord {h : Hdr} {u : Uses} {rel : Option Nat} {eff : Mask → State → Eff} (hw : s.MemForm)
    (hf : ∀ m s, s.MemForm → (eff m s).s.MemForm) : (s.accessWord h u rel eff).MemForm := by
  unfold State.accessWord
  refine .issueWord hw (fun _ _ hw => ?_)
  split
  · exact hw
  · split
    · exact hw.count
    · exact hw
    · exact hf _ _ hw

theorem MemForm.memWord {h : Hdr} {f : MF} {u : Uses} {eff : Mask → State → Eff} (hw : s.MemForm) (hf : ∀ m s, s.MemForm →
    (eff m s).s.MemForm) : (s.memWord h f u eff).MemForm := hw.accessWord (fun _ _ hw => hf _ _ hw)

theorem MemForm.sampleIssue {s0 : State} {act : Mask} {sectors : Nat} {store : Bool} (hw : s.MemForm) :
    (s0.sampleIssue s act sectors store).MemForm := .ite hw.modGrp (.ite hw.modGrp.modCore.modCore hw.modGrp.modCore)

theorem MemForm.replayed (hw : s.MemForm) : s.replayed.MemForm := hw.modGrp

theorem MemForm.countMisal {mis : Bool} (hw : s.MemForm) : (s.countMisal mis).MemForm := .ite hw.count hw

theorem MemForm.logNotice {g t n k page pc : Nat} {addrs : List (Nat × Nat)} (hw : s.MemForm) :
    (s.logNotice g t n k page pc addrs).MemForm := hw.notice

theorem MemForm.logEntry {k g t n page op sz pc id : Nat} {lanes : List Nat} {recs : List LogRec} {all : List (Nat × Nat)}
    {wide : Bool} (hw : s.MemForm) : (s.logEntry k g t n page op sz pc id lanes recs all wide).MemForm := .ite
    hw.modCore.count.logNotice hw.modCore.count

theorem MemForm.logPieces {op sz : Nat} {ps : List Piece} {rec_ : Nat → LogRec} {more : List Piece} {wide : Bool}
    (hw : s.MemForm) : (s.logPieces op sz ps rec_ more wide).MemForm := .foldl (fun _ _ hw => hw.logEntry) hw

theorem MemForm.readGlobs {qs : List GPiece} (hw : s.MemForm) : (s.readGlobs qs).1.MemForm :=
  .foldl (fun _ _ hw => hw.glLoad) hw

theorem MemForm.writeGlob {q : GPiece} {bs : List PByte} (hw : s.MemForm) : (s.writeGlob q bs).MemForm :=
  .ite hw.glStore.logLeak hw.glStore

theorem MemForm.countOver {ps : List Piece} (hw : s.MemForm) : (s.countOver ps).MemForm := .ite hw hw.count

theorem MemForm.writeSpad {p : Piece} {bs : List PByte} (hw : s.MemForm) : (s.writeSpad p bs).MemForm := by
  unfold State.writeSpad
  split
  · exact hw.modTeam
  · exact hw

theorem MemForm.countStored {ds : List (List PByte)} (hw : s.MemForm) : (s.countStored ds).MemForm := hw.countWritten

theorem MemForm.launch {b : Body} {acq : Option (Nat × Bool)} (hw : s.MemForm) : (s.launch b acq).2.MemForm := hw.same

theorem MemForm.landLines {g t : Nat} {lines : List Nat} (hw : s.MemForm) : (s.landLines g t lines).MemForm :=
  .ite hw (.ite (.recheckAll (.wakeWhere (.foldl (fun _ _ hw => hw.landing) hw))) (.foldl (fun _ _ hw => hw.landing) hw))

theorem MemForm.raiseLines {g t : Nat} {lines : List Nat} (hw : s.MemForm) : (s.raiseLines g t lines).MemForm :=
  .foldl (fun _ _ hw => hw.landing) hw

/-! ### The memory words -/

theorem MemForm.loadDue {s0 : State} {h : Hdr} {f : MF} {act : Mask} {res : SMap (List PByte)} {sectors : Nat}
    (hw : s.MemForm) : (s0.loadDue s h f act res sectors).s.MemForm := by
  unfold State.loadDue
  dsimp only
  split
  · exact hw.sampleIssue
  · exact hw.addDue.sampleIssue

theorem MemForm.effLd {h : Hdr} {f : MF} {act : Mask} (hw : s.MemForm) : (effLd h f act s).s.MemForm := by
  unfold State.effLd
  dsimp only
  split
  · split
    · exact hw.countMisal.replayed
    · split
      · exact hw.countMisal
      · split
        · exact hw
        · exact hw.countMisal.acquireNow.touchPages.readGlobs.loadDue
  · split
    · exact hw.countMisal
    · split
      · exact hw.replayed
      · exact hw.countMisal.acquireNow.countOver.loadDue
  · split
    · exact hw.countMisal
    · split
      · exact hw.acquireNow.sampleIssue
      · exact hw.countMisal.addDue.launch.sampleIssue
  · split
    · exact hw.countMisal
    · exact hw.countMisal.acquireNow.count.loadDue

theorem MemForm.effSt {f : MF} {act : Mask} (hw : s.MemForm) : (effSt f act s).s.MemForm := by
  unfold State.effSt
  dsimp only
  split
  · split
    · exact hw.countMisal
    · split
      · exact hw
      · split
        · exact hw.count.replayed
        · exact .sampleIssue
            (.logPieces (.settleMarks (.ite (.foldl (fun _ _ hw => .ite hw hw.wbRange) (.foldl (fun _ _ hw => hw.writeGlob)
            hw.countMisal.releaseNow.countStored.touchPages)) (.foldl (fun _ _ hw => hw.writeGlob)
            hw.countMisal.releaseNow.countStored.touchPages))))
  · split
    · exact hw.countMisal
    · split
      · exact hw.replayed
      · exact .sampleIssue (.foldl (fun _ _ hw => hw.writeSpad) hw.countMisal.releaseNow.countStored.countOver)
  · split
    · exact hw.countMisal
    · exact .sampleIssue (.ite hw.countMisal.releaseNow.countStored hw.countMisal.releaseNow.countStored.launch)
  · split
    · exact hw.countMisal
    · exact hw.countMisal.releaseNow.count.sampleIssue

theorem MemForm.effSld {h : Hdr} {f : MF} {sd n : Nat} {ctr : Bool} {act : Mask} (hw : s.MemForm) :
    (effSld h f sd n ctr act s).s.MemForm := by
  unfold State.effSld
  dsimp only
  split
  · exact hw
  · split
    · split
      · exact hw.countMisal.replayed
      · split
        · exact hw.countMisal
        · split
          · split
            · exact hw.touchPages.addDue.launch.sampleIssue
            · exact hw
          · split
            · exact hw
            · exact hw.countMisal.acquireNow.touchPages.readGlobs.addDue.sampleIssue
    · split
      · exact hw.countMisal
      · split
        · exact hw.replayed
        · exact hw.countMisal.acquireNow.countOver.addDue.sampleIssue
    · split
      · exact hw.countMisal
      · exact hw.countMisal.addDue.launch.sampleIssue
    · split
      · exact hw.countMisal
      · exact hw.countMisal.acquireNow.count.addDue.sampleIssue

theorem MemForm.effSst {f : MF} {act : Mask} (hw : s.MemForm) : (effSst f act s).s.MemForm := by
  unfold State.effSst
  dsimp only
  split
  · split
    · exact hw.countMisal
    · split
      · exact hw
      · split
        · exact hw.count.replayed
        · exact .sampleIssue (.logPieces (.ite (.foldl (fun _ _ hw => .ite hw hw.wbRange) (.foldl (fun _ _ hw => hw.writeGlob)
            hw.countMisal.releaseNow.countStored.touchPages)) (.foldl (fun _ _ hw => hw.writeGlob)
            hw.countMisal.releaseNow.countStored.touchPages)))
  · split
    · exact hw.countMisal
    · split
      · exact hw.replayed
      · exact .sampleIssue (.foldl (fun _ _ hw => hw.writeSpad) hw.countMisal.releaseNow.countStored.countOver)
  · split
    · exact hw.countMisal
    · exact hw.countMisal.releaseNow.countStored.launch.sampleIssue
  · split
    · exact hw.countMisal
    · exact hw.countMisal.releaseNow.countStored.count.sampleIssue

theorem MemForm.effCtradd {f : MF} {act : Mask} (hw : s.MemForm) : (effCtradd f act s).s.MemForm := by
  unfold State.effCtradd
  dsimp only
  split
  · exact hw
  · split
    · split
      · exact hw
      · split
        · exact hw
        · split
          · exact hw.count.replayed
          · exact .sampleIssue (.logPieces (.foldl (fun _ _ hw => hw.launch) hw.releaseNow.noteAdder.touchPages))
    · split
      · exact hw
      · split
        · exact hw.replayed
        · refine .sampleIssue ?_
          split
          · exact hw.releaseNow.noteAdder.countOver.modTeam.countStored.recheckAll
          · exact hw.releaseNow.noteAdder.countOver
    · split
      · exact hw
      · exact hw.releaseNow.noteAdder.launch.sampleIssue
    · split
      · exact hw
      · exact hw.releaseNow.noteAdder.count.sampleIssue

theorem MemForm.effCtrwait {f : MF} {act : Mask} (hw : s.MemForm) : (effCtrwait f act s).s.MemForm := by
  unfold State.effCtrwait
  dsimp only
  split
  · exact hw
  · split
    · split
      · exact hw.replayed
      · split
        · exact hw
        · split
          · exact hw
          · exact .sampleIssue (.ite hw.touchPages.count hw.touchPages)
    · split
      · exact hw
      · exact .sampleIssue (.ite hw.count hw)

theorem MemForm.remWrite {g t a : Nat} {bs : List PByte} (hw : s.MemForm) : (s.remWrite g t a bs).MemForm := by
  unfold State.remWrite
  split
  · exact hw.spadWriteP
  · exact hw

theorem MemForm.acquireStart {f : Flight} (hw : s.MemForm) : (s.acquireStart f).MemForm := hw.promoteFor

theorem MemForm.acquireEnd {f : Flight} (hw : s.MemForm) : (s.acquireEnd f).MemForm := by
  unfold State.acquireEnd
  split
  · exact hw.acquireEnds
  · exact hw

theorem MemForm.recheckOf {gk t : Nat} (hw : s.MemForm) : (s.recheckOf gk t).MemForm := by
  unfold State.recheckOf
  split
  · exact .ite hw.readCounter hw
  · exact hw

theorem MemForm.remDo {f : Flight} (hw : s.MemForm) : (s.remDo f).MemForm := by
  unfold State.remDo
  dsimp only
  split
  · exact .recheckOf
      (.landed (.duePart (.acquireEnd (.ite hw.acquireStart.count (.ite hw.acquireStart hw.acquireStart.count)))))
  · exact .ite hw.acquireStart.count.landed.recheckOf
      (.recheckAll
      (.recheckOf (.landed (.settleHome (.foldl (fun _ _ hw => hw.remWrite) (.ite hw.acquireStart hw.acquireStart.count))))))
  · refine .recheckAll ?_
    refine .recheckOf ?_
    refine .landed ?_
    split
    · exact .duePart (.acquireEnd (.ite (.ite hw.acquireStart.remWrite.count hw.acquireStart.remWrite)
        (.ite hw.acquireStart.count hw.acquireStart.count)))
    · exact .acquireEnd (.ite (.ite hw.acquireStart.remWrite.count hw.acquireStart.remWrite) (.ite hw.acquireStart.count
        hw.acquireStart.count))
  · exact hw.acquireStart

theorem MemForm.execSld {h : Hdr} {f : MF} (hw : s.MemForm) : NextWf (execSld h f s) := by
  unfold Machine.execSld
  refine .next ?_
  refine .memWord hw (fun _ _ hw => ?_)
  split
  · exact hw.acquireNow.sampleIssue
  · exact hw.effSld

theorem MemForm.execSst {h : Hdr} {f : MF} (hw : s.MemForm) : NextWf (execSst h f s) := by
  unfold Machine.execSst
  refine .next ?_
  refine .memWord hw (fun _ _ hw => ?_)
  split
  · exact hw.releaseNow.sampleIssue
  · exact hw.effSst

theorem MemForm.execCtradd {h : Hdr} {f : MF} (hw : s.MemForm) : NextWf (execCtradd h f s) := by
  unfold Machine.execCtradd
  refine .next ?_
  refine .memWord hw (fun _ _ hw => ?_)
  split
  · exact hw.releaseNow.sampleIssue
  · exact hw.effCtradd

theorem MemForm.execCtrwait {h : Hdr} {f : MF} (hw : s.MemForm) : NextWf (execCtrwait h f s) := by
  unfold Machine.execCtrwait
  refine .next ?_
  refine .readCounter ?_
  refine .memWord hw (fun _ _ hw => ?_)
  split
  · exact hw.acquireNow.sampleIssue
  · exact hw.effCtrwait

theorem MemForm.execCtrrd {h : Hdr} {f : MF} (hw : s.MemForm) : NextWf (execCtrrd h f s) := by
  unfold Machine.execCtrrd
  refine .next ?_
  refine .memWord hw (fun _ _ hw => ?_)
  split
  · exact hw.acquireNow.sampleIssue
  · exact hw.effSld

theorem MemForm.execWaitk {h : Hdr} {f : MF} (hw : s.MemForm) : NextWf (execWaitk h f s) := by
  unfold Machine.execWaitk
  refine .next ?_
  refine .issueWord hw (fun _ _ hw => ?_)
  split
  · exact hw
  · exact hw

theorem MemForm.execPf {h : Hdr} {f : MF} (hw : s.MemForm) : NextWf (execPf h f s) := by
  unfold Machine.execPf
  dsimp only
  refine .next ?_
  refine .issueWord hw (fun _ _ hw => ?_)
  split
  · exact hw
  · refine .sampleIssue ?_
    split
    · refine .foldl (fun _ _ hw => ?_) (.ite hw hw.count)
      split
      · exact hw.tlbTouch
      · exact hw
    · refine .foldl (fun _ _ hw => .ite (.foldl (fun _ _ hw => hw.fillSector) hw) hw) ?_
      refine .foldl (fun _ _ hw => ?_) (.ite hw hw.count)
      split
      · exact hw.tlbTouch
      · exact hw

theorem MemForm.execRemoteAccess (hw : s.MemForm) : NextWf (execRemoteAccess s) := by
  unfold Machine.execRemoteAccess
  refine .next ?_
  split
  · split
    · exact .ite hw hw.remDo
    · exact hw
  · exact hw

/-! ### Queues -/

theorem MemForm.headRead {q : Nat} (hw : s.MemForm) : (s.headRead q).MemForm := hw.vaTouch

theorem MemForm.tailRead {q : Nat} (hw : s.MemForm) : (s.tailRead q).MemForm := hw.vaTouch

theorem MemForm.queueRead {q : Nat} (hw : s.MemForm) : (s.queueRead q).MemForm := hw.headRead.tailRead

theorem MemForm.wakeClaim {gk q index : Nat} {pop : Bool} (hw : s.MemForm) : (s.wakeClaim gk q index pop).MemForm := by
  unfold State.wakeClaim
  split
  · exact .ite hw.wake hw
  · exact hw

theorem MemForm.pushDo {f : Flight} (hw : s.MemForm) : (s.pushDo f).MemForm := by
  unfold State.pushDo
  split
  · extract_lets x a gk s0 s1 s2 s3 s4
    have h1 : s1.MemForm := by
      unfold s1
      split
      · exact .ite hw.vaTouch.hostWrite.logLeak hw.vaTouch.dropRange.devWriteP.countWritten
      · exact hw
    have h2 : s2.MemForm := .ite h1.modQueue h1
    exact h2.gridAdd.logLeak.noteAdder.unitScalar.dropFlight.wakeClaim
  · exact hw

theorem MemForm.placeWrite {pl : Place} {bs : List Byte} {pois : Bool} (hw : s.MemForm) : (s.placeWrite pl bs pois).MemForm :=
  by
  unfold State.placeWrite
  split
  · exact hw.devWrite
  · exact hw.hostWrite
  · exact hw.spadWrite

theorem MemForm.popDo {f : Flight} (hw : s.MemForm) : (s.popDo f).MemForm := by
  unfold State.popDo
  split
  · extract_lets x gk src bs s1 s2 s3 s4 s5
    have h1 : s1.MemForm := by
      unfold s1
      split
      · exact .countWritten (.settleHome (.foldl (fun _ _ hw => hw.spadWrite) hw))
      · exact hw.dropRange.devWriteP.countWritten
      · exact .ite hw.errorEvent hw.hostWrite.logLeak
    have h4 : s4.MemForm := h1.landLines.vaTouch.gridAdd.logLeak.noteAdder.duePart
    have h5 : s5.MemForm := .ite h4.acquireEnds h4
    exact h5.dropFlight.wakeClaim
  · exact hw

theorem MemForm.claimFail {f : Flight} (hw : s.MemForm) : (s.claimFail f).MemForm := by
  unfold State.claimFail
  dsimp only
  split
  · exact hw.unitScalar.dropFlight.wakeClaim
  · exact hw.landLines.duePart.dropFlight.wakeClaim
  · exact hw

theorem MemForm.queueStop {q : Nat} (hw : s.MemForm) : (s.queueStop q).MemForm :=
  .modQueue (.queueRead (.foldl (fun _ _ hw => .ite hw.popDo hw.pushDo) (.foldl (fun _ _ hw => hw.claimFail) hw)))

theorem MemForm.queueOverflow {q : Nat} (hw : s.MemForm) : (s.queueOverflow q).MemForm := hw.modQueue.queueStop

theorem MemForm.withdrawClaims {tk : Nat} (hw : s.MemForm) : (s.withdrawClaims tk).MemForm := by
  unfold State.withdrawClaims
  dsimp only
  refine .same ?_
  refine .foldl (fun _ _ hw => ?_) hw
  split
  · exact .ite hw.dropFlight.modQueue hw.dropFlight
  · exact .ite hw.dropFlight.modQueue hw.dropFlight
  · exact hw.dropFlight

theorem MemForm.execQpush {h : Hdr} {f : MF} (hw : s.MemForm) : NextWf (execQpush h f s) := by
  unfold Machine.execQpush
  refine .next (.accessWord hw (fun _ s hw => ?_))
  extract_lets s0 v q st x at_ ps absent sx r i ringHost s1 s2 first fl s3 t
  have hr : r.1.MemForm := by
    unfold r
    split
    · split
      · exact hw.xlatTouch.glLoad
      · exact hw.countOver
    · exact hw.countOver
  have h3 : s3.MemForm := hr.releaseBy.modQueue.overPrimary.launch.sampleIssue
  have ht : t.MemForm := .ite h3.headRead h3
  split
  · exact hw.releaseBy.sampleIssue
  · split
    · exact hw
    · split
      · exact hw.releaseBy.putS.sampleIssue
      · split
        · exact hw
        · split
          · exact hw
          · split
            · split
              · exact ht.pushDo
              · exact ht
            · exact ht

theorem MemForm.execQpop {h : Hdr} {f : MF} (hw : s.MemForm) : NextWf (execQpop h f s) := by
  unfold Machine.execQpop
  refine .next (.accessWord hw (fun _ s hw => ?_))
  extract_lets s0 v q st fail x at_ ps lines held s1 i s2 dst s3 s4 due s5 s6 s7
  have hfail {t : State} (ht : t.MemForm) : (fail t).MemForm := ht.addDue.sampleIssue
  have h1 : s1.MemForm := hw.queueRead
  have h3 : s3.MemForm := .ite h1.modQueue.xlatTouch h1.modQueue.countOver
  have h7 : s7.MemForm := h3.raiseLines.addDue.launch.sampleIssue
  split
  · exact hw.acquireBy.sampleIssue
  · split
    · exact hw
    · split
      · exact hfail hw
      · split
        · exact hfail h1.queueOverflow
        · split
          · exact h1
          · split
            · exact h7
            · exact h7

theorem MemForm.execQpushSlotWrite (hw : s.MemForm) : NextWf (execQpushSlotWrite s) := by
  unfold Machine.execQpushSlotWrite
  dsimp only
  refine .next ?_
  split
  · split
    · exact .ite hw (.ite hw.headRead.pushDo hw.headRead)
    · exact hw
  · exact hw

theorem MemForm.execQpopEntryCopy (hw : s.MemForm) : NextWf (execQpopEntryCopy s) := by
  unfold Machine.execQpopEntryCopy
  dsimp only
  refine .next ?_
  split
  · split
    · exact .ite hw (.ite hw.queueRead.queueOverflow (.ite hw.queueRead.popDo hw.queueRead))
    · exact hw
  · exact hw

/-! ### Atomics -/

theorem MemForm.bufferFloat {f : MF} {op : Nat} {act : Mask} (hw : s.MemForm) : (s.bufferFloat f op act).MemForm := hw.modCore

theorem MemForm.effAtom {h : Hdr} {f : MF} {op : Nat} {act : Mask} (hw : s.MemForm) : (effAtom h f op act s).s.MemForm := by
  unfold State.effAtom
  extract_lets n ret regs sums mis ps bad poison acq due addDue dst now fl r way leak locsG g1 g2 g3 absent o1 o2 locsR r1 z1
  have hdue {t : State} {left : Nat} (ht : t.MemForm) : (addDue t left).MemForm := .ite ht.addDue ht
  have hnow {t : State} {res : SMap (List PByte)} (ht : t.MemForm) : (now t res).MemForm := .ite ht.addDue ht
  have hg : g3.MemForm := .logPieces (.foldl (fun _ _ hw => hw.launch) (hdue hw.releaseNow.touchPages))
  have ho : o2.1.MemForm := by
    refine .foldl_fst (fun _ _ hw => ?_) hw.releaseNow.acquireNow.countOver
    split
    · exact hw.modTeam.countStored
    · exact hw
  have hr : r1.MemForm := hdue hw.releaseNow
  split
  · exact hw
  · split
    · split
      · exact hw
      · split
        · exact hw.replayed
        · split
          · exact hw
          · split
            · exact hw.releaseNow.acquireNow.sampleIssue
            · split
              · exact hw.releaseNow.bufferFloat.sampleIssue
              · split
                · exact hw
                · split
                  · exact hw.count.replayed
                  · exact hg.sampleIssue
    · split
      · exact hw
      · split
        · exact hw.replayed
        · exact (hnow ho.recheckAll).sampleIssue
    · split
      · exact hw
      · split
        · exact hw.releaseNow.acquireNow.sampleIssue
        · exact .sampleIssue (.foldl (fun _ _ hw => hw.launch) hr)
    · split
      · exact hw
      · exact (hnow hw.releaseNow.acquireNow.count).sampleIssue

theorem MemForm.rmwAt {core g : Nat} {pl : Place} {va op sz : Nat} {lanes : List RmwLane} (hw : s.MemForm) :
    (s.rmwAt core g pl va op sz lanes).1.MemForm := by
  unfold State.rmwAt
  dsimp only
  split
  · refine .logLeak ?_
    refine .placeWrite ?_
    split
    · exact hw.dropRange
    · exact hw
  · refine .countWritten ?_
    refine .placeWrite ?_
    split
    · exact hw.dropRange
    · exact hw

theorem MemForm.atomDo {f : Flight} (hw : s.MemForm) : (s.atomDo f).MemForm := by
  unfold State.atomDo
  dsimp only
  split
  · refine .landed ?_
    split
    · exact hw.acquireStart.rmwAt.acquireEnd.recheckAll.duePart
    · exact hw.acquireStart.rmwAt.acquireEnd.recheckAll
  · refine .landed ?_
    refine .duePart ?_
    refine .acquireEnd ?_
    split
    · exact hw.acquireStart.dropRange
    · exact hw.acquireStart
  · exact hw

theorem MemForm.drainOne {k : Nat} {e : FloatEntry} (hw : s.MemForm) : (s.drainOne k e).MemForm := by
  unfold State.drainOne
  dsimp only
  split
  · exact .ite hw.xlatTouch.errorEvent hw.xlatTouch.rmwAt.recheckAll
  · exact hw.logEntry

theorem MemForm.drainTeam {k g t fuel : Nat} (hw : s.MemForm) : (s.drainTeam k g t fuel).MemForm := by
  induction fuel generalizing s with
  | zero => exact hw
  | succ fuel ih =>
    unfold State.drainTeam
    split
    · exact .ite (ih hw.drainOne.modCore) hw
    · exact hw

theorem MemForm.atomWord {h : Hdr} {f : MF} {op : Nat} (hw : s.MemForm) : (atomWord h f op s).MemForm :=
  hw.memWord (fun _ _ hw => hw.effAtom)

theorem MemForm.execAtomicExecute (hw : s.MemForm) : NextWf (execAtomicExecute s) := by
  unfold Machine.execAtomicExecute
  refine .next ?_
  split
  · split
    · exact .ite hw.atomDo hw
    · exact hw
  · exact hw

/-! ### Ports -/

theorem MemForm.blockWrite {fn : Fn} (hw : s.MemForm) : (s.blockWrite fn).MemForm := by
  unfold State.blockWrite
  split
  · exact hw.modPart
  · exact hw

theorem MemForm.pump {n fuel : Nat} (hw : s.MemForm) : (s.pump n fuel).MemForm := by
  induction fuel generalizing s with
  | zero => exact hw
  | succ fuel ih =>
    unfold State.pump
    dsimp only
    split
    · exact hw
    · exact .ite hw (ih hw.modPort)

theorem MemForm.sendFlit {n vc dst src tag : Nat} {payload : List Byte} (hw : s.MemForm) :
    (s.sendFlit n vc dst src tag payload).MemForm := .ite hw hw.modPort.pump

theorem MemForm.sendControl {n ftype : Nat} {seq : BitVec 8} (hw : s.MemForm) : (s.sendControl n ftype seq).MemForm :=
  hw.modPort

theorem MemForm.ackTo {n : Nat} {seq : BitVec 8} (hw : s.MemForm) : (s.ackTo n seq).MemForm := by
  unfold State.ackTo
  dsimp only
  split
  · exact hw
  · exact hw.modPort.pump

theorem MemForm.resend {n : Nat} {fs : List OutFlit} (hw : s.MemForm) : (s.resend n fs).MemForm := hw.modPort

theorem MemForm.fecCount {n : Nat} {f : Flit} (hw : s.MemForm) : (s.fecCount n f).MemForm := hw.modPort

theorem MemForm.dropBad {n : Nat} (hw : s.MemForm) : (s.dropBad n).MemForm := hw.modPort

theorem MemForm.portOn {n : Nat} (hw : s.MemForm) : (s.portOn n).MemForm := by
  unfold State.portOn
  dsimp only
  split
  · exact hw
  · split
    · split
      · exact .ite hw.pin.modPort hw.modPort
      · exact hw.modPort
    · exact hw.modPort

theorem MemForm.portsWaiting (hw : s.MemForm) : s.portsWaiting.MemForm := .foldl (fun _ _ hw => hw.portOn) hw

theorem MemForm.portOff {n : Nat} (hw : s.MemForm) : (s.portOff n).MemForm := .ite hw hw.unpin.modPort

theorem MemForm.portMode {n : Nat} {stream : Bool} (hw : s.MemForm) : (s.portMode n stream).MemForm :=
  .ite hw (.ite hw.modPort (.ite hw.unpin.modPort.portOn hw.modPort))

theorem MemForm.portQueue {n : Nat} {q : BitVec 16} (hw : s.MemForm) : (s.portQueue n q).MemForm := .ite hw hw.portOff.modPort

theorem MemForm.portWrite {n : Nat} {v : W64} (hw : s.MemForm) : (s.portWrite n v).MemForm :=
  .ite (.portOn (.portMode (.portQueue (.ite hw.modPort hw)))) (.portOff (.portMode (.portQueue (.ite hw.modPort hw))))

theorem MemForm.portAccess {fn : Fn} {n : Nat} {f : State → State} (hw : s.MemForm) (hf : ∀ s, s.MemForm → (f s).MemForm) :
    (s.portAccess fn n f).MemForm := .ite hw (.ite (hf _ hw) hw.blockWrite)

theorem MemForm.askReplay {n : Nat} (hw : s.MemForm) : (s.askReplay n).MemForm := hw.sendControl

theorem MemForm.depositFlit {n : Nat} {f : Flit} (hw : s.MemForm) : (s.depositFlit n f).MemForm := by
  unfold State.depositFlit
  dsimp only [State.fresh, State.freeIdx]
  split
  · exact hw
  · split
    · split
      · exact hw.count
      · exact hw
    · split
      · exact hw.count
      · split
        · split
          · exact hw.setFlight
          · exact hw
        · exact hw.same.same

theorem MemForm.deliver {n : Nat} {f : Flit} (hw : s.MemForm) : (s.deliver n f).MemForm :=
  .ite hw.modPort (.ite hw.depositFlit hw)

theorem MemForm.ackSixteenth {n : Nat} (hw : s.MemForm) : (s.ackSixteenth n).MemForm := .ite hw hw.sendControl.modPort

theorem MemForm.dataFlit {n : Nat} {f : Flit} (hw : s.MemForm) : (s.dataFlit n f).MemForm :=
  .ite (.askReplay (.dropBad (.ite hw.fecCount.ackTo hw.fecCount))) (.ite (.askReplay (.ite hw.fecCount.ackTo hw.fecCount))
  (.deliver (.ackSixteenth (.modPort (.ite hw.fecCount.ackTo hw.fecCount)))))

theorem MemForm.replayFrom {n : Nat} {seq : BitVec 8} (hw : s.MemForm) : (s.replayFrom n seq).MemForm :=
  .ite hw (.ite hw.modPort.resend hw.modPort.resend.modPort)

theorem MemForm.streamFlit {n : Nat} {f : Flit} (hw : s.MemForm) : (s.streamFlit n f).MemForm :=
  .ite hw.fecCount.dropBad (.ite (.modPort (.ite hw.fecCount.queueRead hw.fecCount))
  (.modPort (.ite hw.fecCount.queueRead hw.fecCount)))

theorem MemForm.streamPut {e : StreamEntry} (hw : s.MemForm) : (s.streamPut e).MemForm := hw.vaWrite.deviceAdd

theorem MemForm.streamWrite {n ns : Nat} (hw : s.MemForm) : (s.streamWrite n ns).MemForm := by
  unfold State.streamWrite
  split
  · exact hw
  · exact .ite hw hw.modPort.streamPut

theorem MemForm.streamsDue {ns : Nat} (hw : s.MemForm) : (s.streamsDue ns).MemForm :=
  .ite hw (.foldl (fun _ _ hw => .foldl (fun _ _ hw => hw.streamWrite) hw) hw)

/-! ### Boot -/

theorem MemForm.islandOff {cl : Nat} (hw : s.MemForm) : (s.islandOff cl).MemForm := hw.same

theorem MemForm.islandsOff (hw : s.MemForm) : s.islandsOff.MemForm := .ite (.foldl (fun _ _ hw => hw.islandOff) hw) hw

theorem MemForm.measure {n : Nat} {v : List Byte} (hw : s.MemForm) : (s.measure n v).MemForm := hw.same

theorem MemForm.measureMonitor (hw : s.MemForm) : s.measureMonitor.MemForm := hw.measure

theorem MemForm.startMonitor (hw : s.MemForm) : s.startMonitor.MemForm := by
  unfold State.startMonitor
  exact hw.same

theorem MemForm.enterRecovery (hw : s.MemForm) : s.enterRecovery.MemForm := hw.same

theorem MemForm.bootVerify (hw : s.MemForm) : s.bootVerify.MemForm := by
  unfold State.bootVerify
  extract_lets s0 s1 s2 s3
  have h3 : s3.MemForm := hw.islandsOff.measure.measure.measureMonitor.measure.startMonitor
  exact .ite hw (.ite hw.islandsOff (.ite hw.islandsOff.enterRecovery h3.same))

theorem MemForm.rcvgo {v : W64} (hw : s.MemForm) : (s.rcvgo v).MemForm := .ite hw (.ite hw.same hw.same)

theorem MemForm.configRequest (hw : s.MemForm) : s.configRequest.MemForm := by
  unfold State.configRequest
  dsimp only [State.fresh, State.freeIdx]
  exact .ite hw.answer hw.same.answer

theorem MemForm.spdm {fn : Fn} {r : Reply} (hw : s.MemForm) : (s.spdm fn r).MemForm := by
  unfold State.spdm
  split
  · exact hw.answer
  · exact hw.answer

/-! ### Copies -/

theorem MemForm.pltStall (hw : s.MemForm) : (s.pltStall).s.MemForm := .ite hw hw.modGrp.count

theorem MemForm.copyTouch {gs gd : Bool} {es : List Elem} (hw : s.MemForm) : (s.copyTouch gs gd es).MemForm :=
  .ite (.foldl (fun _ _ hw => hw.xlatTouch) (.ite (.foldl (fun _ _ hw => hw.xlatTouch) hw) hw))
  (.ite (.foldl (fun _ _ hw => hw.xlatTouch) hw) hw)

theorem MemForm.copySources {ops : List (List (Place × Place × Nat))} (hw : s.MemForm) : (s.copySources ops).MemForm :=
  .foldl (fun _ _ hw => hw.wbRange) hw

theorem MemForm.emptyCopy {act : Mask} (hw : s.MemForm) : (s.emptyCopy act).s.MemForm := hw.sampleIssue

theorem MemForm.sendAll {tk : Nat} {pages : List Nat} {bodies : List Body} (hw : s.MemForm) :
    (s.sendAll tk pages bodies).MemForm := .foldl (fun _ _ hw => hw.same) hw.tokenUp.pin.modGrp

theorem MemForm.addDeliveries {tk : Nat} {d : Int} (hw : s.MemForm) : (s.addDeliveries tk d).MemForm := hw.modTeam

theorem MemForm.tokenPulse {f : CP} (hw : s.MemForm) : (s.tokenPulse f).MemForm := hw.tokenUp.tokenDown

theorem MemForm.effCpa {gs gd : Bool} {f : CP} {act : Mask} (hw : s.MemForm) : (effCpa gs gd f act s).s.MemForm := by
  unfold State.effCpa
  dsimp only
  split
  · exact .ite hw.replayed hw
  · split
    · exact hw
    · split
      · exact hw.emptyCopy
      · split
        · exact hw
        · split
          · exact hw.pltStall
          · exact .sampleIssue
              (.modCore (.ite (.tokenPulse (.ite (.raiseLines (.ite hw.copyTouch.copySources hw.copyTouch.copySources.count))
              (.addDeliveries (.raiseLines (.ite hw.copyTouch.copySources hw.copyTouch.copySources.count)))))
              (.sendAll (.ite (.raiseLines (.ite hw.copyTouch.copySources hw.copyTouch.copySources.count))
              (.addDeliveries (.raiseLines (.ite hw.copyTouch.copySources hw.copyTouch.copySources.count)))))))

theorem MemForm.effCpav {gs : Bool} {f : CP} {act : Mask} (hw : s.MemForm) : (effCpav gs f act s).s.MemForm := by
  unfold State.effCpav
  dsimp only
  split
  · exact .ite hw.replayed hw
  · split
    · exact hw
    · split
      · exact hw.emptyCopy
      · split
        · exact hw
        · split
          · exact hw
          · split
            · exact hw.pltStall
            · exact .sampleIssue (.modCore (.sendAll (.ite hw.copyTouch.xlatTouch.copySources
                hw.copyTouch.xlatTouch.copySources.count)))

theorem MemForm.effCpt {gs : Bool} {f : CP} {act : Mask} (hw : s.MemForm) : (effCpt gs f act s).s.MemForm := by
  unfold State.effCpt
  extract_lets k entered src dst st z poisSrc poisDst es p s1 s2 s3 s4 gen n cs cmd s5 s6
  have h1 : s1.MemForm := hw.copyTouch.copySources
  have h2 : s2.MemForm := .ite h1 h1.count
  have h4 : s4.MemForm := .ite h2.raiseLines.addDeliveries h2.raiseLines
  have h5 : s5.MemForm := .ite h4.tokenPulse h4.sendAll
  have h6 : s6.MemForm := h5.modCore.sampleIssue
  clear_value s6
  split
  · split
    · exact hw.modGrp
    · exact hw
  · split
    · split
      · exact hw.emptyCopy
      · exact hw
    · split
      · exact hw
      · split
        · exact hw.replayed
        · split
          · exact hw
          · split
            · exact hw
            · split
              · exact hw
              · split
                · exact hw.pltStall
                · split
                  · exact h6
                  · exact h6.modGrp

theorem MemForm.effCpm {gs : Bool} {f : CP} {act : Mask} (hw : s.MemForm) : (effCpm gs f act s).s.MemForm := by
  unfold State.effCpm
  dsimp only
  split
  · exact .ite hw.replayed hw
  · split
    · exact hw
    · split
      · exact hw.emptyCopy
      · split
        · exact hw.tokenPulse.sampleIssue
        · split
          · exact hw
          · split
            · exact hw.pltStall
            · exact .sampleIssue (.ite (.tokenPulse (.foldl (fun _ _ hw => hw.addDeliveries)
                (.ite (.ite hw.copyTouch.copySources hw.copyTouch.copySources.count)
                (.count (.ite hw.copyTouch.copySources hw.copyTouch.copySources.count)))))
                (.modCore (.sendAll (.foldl (fun _ _ hw => hw.addDeliveries)
                (.ite (.ite hw.copyTouch.copySources hw.copyTouch.copySources.count)
                (.count (.ite hw.copyTouch.copySources hw.copyTouch.copySources.count)))))))

theorem MemForm.copyPut {f : Flight} {dst : Place} {bs : List PByte} (hw : s.MemForm) : (s.copyPut f dst bs).MemForm := by
  unfold State.copyPut
  split
  · exact hw.dropRange.devWriteP
  · exact hw.hostWrite.logLeak
  · split
    · exact hw.spadWriteP
    · exact hw

theorem MemForm.copyRuns {f : Flight} {runs : List (Place × Place × Nat)} (hw : s.MemForm) : (s.copyRuns f runs).1.MemForm := by
  unfold State.copyRuns
  dsimp only
  split
  · exact hw.same.errorEvent
  · exact .countWritten (.settleHome (.foldl (fun _ _ hw => hw.copyPut) hw.same))

theorem MemForm.copyLand {f : Flight} {runs : List (Place × Place × Nat)} {gen : BitVec 16} (hw : s.MemForm) :
    (s.copyLand f runs gen).MemForm := .ite (.landed (.count (.ite hw.addDeliveries hw)))
    (.recheckAll (.landed (.landLines (.copyRuns (.ite hw.addDeliveries hw)))))

theorem MemForm.cpavDo {f : Flight} {runs : List (Place × Place × Nat)} {ver : Place} {want : W64} {pois inPage : Bool}
    (hw : s.MemForm) : (s.cpavDo f runs ver want pois inPage).MemForm := by
  unfold State.cpavDo
  extract_lets s1 s2 r st new
  have h1 : s1.MemForm := by
    unfold s1
    split
    · exact hw.dropRange
    · exact hw
  have h2 : s2.MemForm := .ite h1.count h1
  exact .ite h2.landed (.ite h2.landed (.ite h2.copyRuns.landed.recheckAll
    h2.copyRuns.copyPut.countWritten.landed.recheckAll))

theorem MemForm.mcastWrite {f : Flight} {t : Nat} {data : List (Nat × List PByte)} {lines : List Nat} {past : Nat}
    (hw : s.MemForm) : (s.mcastWrite f t data lines past).MemForm := .recheckAll
    (.landed (.addDeliveries (.landLines (.ite (.countWritten (.settleHome (.foldl (fun _ _ hw => hw.spadWriteP) hw)))
    (.count (.countWritten (.settleHome (.foldl (fun _ _ hw => hw.spadWriteP) hw))))))))

theorem MemForm.mcastStep {f : Flight} {t : Nat} {gen : BitVec 16} {runs : List (Place × Nat × Nat)}
    {data : Option (List (Nat × List PByte))} {raised : Bool} {cs : List Nat} {past : Nat} (hw : s.MemForm) :
    (s.mcastStep f t gen runs data raised cs past).MemForm := by
  unfold State.mcastStep
  dsimp only
  split
  · exact .ite hw hw.same
  · split
    · exact hw.addDeliveries.count.landed
    · exact hw
    · exact .ite hw.addDeliveries.count.landed (.ite hw.mcastWrite (.ite hw (.ite hw.raiseLines.mcastWrite
        hw.raiseLines.setFlight)))

theorem MemForm.copyWord {h : Hdr} {u : Uses} {eff : Mask → State → Eff} (hw : s.MemForm) (hf : ∀ m s, s.MemForm →
    (eff m s).s.MemForm) : (copyWord s h u eff).MemForm := hw.accessWord (fun _ _ hw => hf _ _ hw)

theorem MemForm.execCopyLanding (hw : s.MemForm) : NextWf (execCopyLanding s) := by
  unfold Machine.execCopyLanding
  dsimp only
  refine .next ?_
  split
  · split
    · exact .ite hw hw.copyLand
    · exact hw
  · exact hw

theorem MemForm.execCpavCommit (hw : s.MemForm) : NextWf (execCpavCommit s) := by
  unfold Machine.execCpavCommit
  refine .next ?_
  split
  · split
    · exact .ite hw hw.cpavDo
    · exact hw
  · exact hw

theorem MemForm.execMulticastDelivery (hw : s.MemForm) : NextWf (execMulticastDelivery s) := by
  unfold Machine.execMulticastDelivery
  refine .next ?_
  split
  · split
    · exact hw.mcastStep
    · exact hw
  · exact hw

/-! ### Units -/

theorem MemForm.touchSpans {xs : List Span} (hw : s.MemForm) : (s.touchSpans xs).MemForm :=
  .foldl (fun _ _ hw => hw.xlatTouch) hw

theorem MemForm.pinnedPut {g k : Nat} {m : Pinned} {va : Nat} {bs : List Byte} (hw : s.MemForm) :
    (s.pinnedPut g k m va bs).MemForm := by
  unfold State.pinnedPut
  dsimp only
  refine .foldl (fun _ _ hw => ?_) hw
  split
  · exact hw.dropRange.devWrite
  · exact hw.hostWrite.logLeak
  · exact hw

theorem MemForm.pinStall (hw : s.MemForm) : (s.pinStall).s.MemForm := .ite hw hw.modGrp.count

theorem MemForm.pinAll {m : Pinned} (hw : s.MemForm) : (s.pinAll m).MemForm := hw.pin.modGrp

/-! ### The Carafe units -/

theorem MemForm.modCarafe {cl : Nat} {f : Carafe → Carafe} (hw : s.MemForm) : (s.modCarafe cl f).MemForm := hw.modCluster

theorem MemForm.wakeCarafe {cl : Nat} (hw : s.MemForm) : (s.wakeCarafe cl).MemForm := hw.wakeWhere

theorem MemForm.carafeEnd {cl : Nat} (hw : s.MemForm) : (s.carafeEnd cl).MemForm := by
  unfold State.carafeEnd
  split
  · exact hw
  · exact hw.unpin.modCarafe.wakeCarafe

theorem MemForm.loseSector {sec : Nat} (hw : s.MemForm) : (s.loseSector sec).MemForm := hw.same

theorem MemForm.pinnedWrite {g : Nat} {m : Pinned} {va : Nat} {bs : List Byte} {pois : Bool} {code : Nat} (hw : s.MemForm) :
    (s.pinnedWrite g m va bs pois code).MemForm := by
  unfold State.pinnedWrite
  split
  · exact hw.devWrite
  · exact .ite hw.errorEvent hw.hostWrite.logLeak
  · exact hw

theorem MemForm.writePieces {g : Nat} {m : Pinned} {ps : List (Nat × List Byte × Bool)} (hw : s.MemForm) :
    (s.writePieces g m ps).MemForm := .foldl (fun _ _ hw => hw.pinnedWrite) hw

theorem MemForm.writeRow {cl : Nat} {c : CrfCfg} {r : Nat} {row : List (W32 × Bool)} (hw : s.MemForm) :
    (s.writeRow cl c r row).MemForm := .ite hw.errorEvent hw.writePieces.count

theorem MemForm.releaseSlot {cl n : Nat} (hw : s.MemForm) : (s.releaseSlot cl n).MemForm := by
  unfold State.releaseSlot
  dsimp only
  split
  · exact .wakeCarafe (.modCarafe (.count (.gridAdd (.pinnedWrite (.ite hw hw.writeRow)))))
  · exact hw

theorem MemForm.releaseTurns {cl fuel : Nat} (hw : s.MemForm) : (s.releaseTurns cl fuel).MemForm := by
  induction fuel generalizing s with
  | zero => exact hw
  | succ fuel ih =>
    unfold State.releaseTurns
    split
    · exact ih hw.releaseSlot
    · exact hw

theorem MemForm.closeSlot {cl n kind : Nat} (hw : s.MemForm) : (s.closeSlot cl n kind).MemForm := by
  unfold State.closeSlot
  dsimp only
  split
  · exact .ite (.releaseTurns (.ite hw.modCarafe.count hw.modCarafe)) (.releaseSlot (.ite hw.modCarafe.count hw.modCarafe))
  · exact hw

theorem MemForm.quickToken {tk : Nat} (hw : s.MemForm) : (s.quickToken tk).MemForm := hw.tokenUp.tokenDown

theorem MemForm.recordAt {r : BitVec 6} {n align : Nat} {wb : Bool} {x : State × List W64 × Bool} (hw : s.MemForm)
    (hx : s.recordAt r n align wb = .ok x) : x.1.MemForm := by
  unfold State.recordAt at hx
  dsimp only at hx
  split at hx
  · cases hx
  · split at hx
    · cases hx
    · split at hx
      · cases hx
      · split at hx
        · cases hx
        · cases hx
          refine .foldl_fst (fun y g hw => ?_) hw.touchSpans
          split
          · exact .ite hw.wbRange hw
          · exact hw

theorem MemForm.effCrfcfg {f : XF} (hw : s.MemForm) : (effCrfcfg f s).s.MemForm := by
  unfold State.effCrfcfg
  extract_lets cl g tk own free setCode s0 old
  split
  · split
    · exact hw
    · split
      · exact hw
      · exact .quickToken (.ite hw.carafeEnd.modCarafe (.ite hw.modCarafe hw))
  · split
    · exact hw
    · next s1 q pois hx =>
      have h1 : s1.MemForm := hw.recordAt hx
      extract_lets q0 q1 c done m s2 s3
      have hdone {code : Nat} : (done code).s.MemForm := h1.modCarafe.quickToken
      have h2 : s2.MemForm := h1.touchSpans.pinAll.unpin
      have h3 : s3.MemForm := h2.modCarafe
      clear_value s3
      split
      · exact hw
      · split
        · exact h1.quickToken
        · split
          · exact hdone
          · split
            · exact hdone
            · split
              · exact hdone
              · split
                · exact hdone
                · split
                  · exact hw
                  · split
                    · exact hw.pinStall
                    · exact h3.wakeCarafe.quickToken

theorem MemForm.claimSlot {cl n : Nat} {c : CrfCfg} {r : Route} (hw : s.MemForm) : (s.claimSlot cl n c r).MemForm := by
  unfold State.claimSlot
  dsimp only [State.fresh, State.freeIdx]
  exact hw.same.modCarafe.count

theorem MemForm.effCrfroute {h : Hdr} {f : XF} {act : Mask} (hw : s.MemForm) : (effCrfroute h f act s).s.MemForm := by
  unfold State.effCrfroute
  extract_lets cl vx off bad pois x answer
  have hanswer {t : State} {codes : List (Nat × Nat)} (ht : t.MemForm) : (answer t codes).s.MemForm := ht.addDue
  split
  · exact hw
  · split
    · exact hw
    · split
      · exact hanswer hw
      · extract_lets
        split
        · exact hanswer hw
        · split
          · exact hw
          · split
            · exact hw.count
            · exact hanswer (.foldl (fun _ _ hw => hw.claimSlot) hw.countOver)

theorem MemForm.sendDeposit {f : XF} {hid size : Nat} {exports : List (BitVec 6)} {body : List (Place × Nat) → Body}
    (hw : s.MemForm) : (sendDeposit f s hid size exports body).s.MemForm := by
  unfold State.sendDeposit
  split
  · exact hw
  · extract_lets tk sp m src s1 s2 past s3 s4
    have h2 : s2.MemForm := .foldl (fun _ _ hw => hw.wbRange) hw.touchSpans.pinAll
    have h3 : s3.MemForm := .ite h2 h2.count
    have h4 : s4.MemForm := h3.tokenUp
    split
    · exact hw
    · split
      · exact hw.pinStall
      · exact h4.fresh.same

theorem MemForm.depDrop {f : XF} {cl hid size : Nat} (hw : s.MemForm) : (s.depDrop f cl hid size).s.MemForm := by
  unfold State.depDrop
  split
  · exact hw
  · split
    · exact hw.count.quickToken
    · exact hw

theorem MemForm.effCrfdep {f : XF} (hw : s.MemForm) : (effCrfdep f s).s.MemForm := by
  unfold State.effCrfdep
  dsimp only
  split
  · exact hw.sendDeposit
  · split
    · split
      · exact hw.sendDeposit
      · exact hw.depDrop
    · exact hw.depDrop

theorem MemForm.sendChunks {port dst src cl tok pos tag : Nat} {bs : List Byte} (hw : s.MemForm) :
    (s.sendChunks port dst src cl tok pos tag bs).MemForm := .foldl (fun _ _ hw => hw.sendFlit) hw

theorem MemForm.landDeposit {cl pos stamp : Nat} {data : List (W32 × Bool)} (hw : s.MemForm) :
    (s.landDeposit cl pos stamp data).1.MemForm := by
  unfold State.landDeposit
  dsimp only
  split
  · split
    · exact hw.closeSlot.count
    · split
      · exact hw.errorEvent
      · exact .ite hw.writePieces.modCarafe.closeSlot hw.writePieces.modCarafe
  · exact hw.count

theorem MemForm.depositArrival {f : Flight} (hw : s.MemForm) : (s.depositArrival f).MemForm := by
  unfold State.depositArrival
  dsimp only [State.fresh, State.freeIdx]
  split
  · split
    · exact hw
    · split
      · exact hw.same.count.landed
      · exact hw.same.setFlight
  · exact .ite hw (.ite hw.same.errorEvent.landed (.ite hw.same.count.landed hw.same.same.logLeak.sendChunks.setFlight))
  · split
    · exact hw.count.setFlight
    · exact hw.setFlight
  · exact hw

theorem MemForm.depositLanded {f : Flight} (hw : s.MemForm) : (s.depositLanded f).MemForm := by
  unfold State.depositLanded
  dsimp only
  split
  · exact hw.landDeposit.landed
  · exact .ite hw hw.landed
  · split
    · exact hw.dropFlight
    · exact hw
    · exact .ite hw.count.dropFlight hw.landDeposit.dropFlight
    · exact .ite hw hw.count.setFlight
  · exact hw

theorem MemForm.dropToken {cl t : Nat} (hw : s.MemForm) : (s.dropToken cl t).1.MemForm := by
  unfold State.dropToken
  split
  · split
    · exact hw.count.closeSlot
    · exact hw
  · exact hw

theorem MemForm.execCrfdrop {h : Hdr} {f : XF} (hw : s.MemForm) : NextWf (execCrfdrop h f s) := by
  unfold Machine.execCrfdrop
  dsimp only
  refine .next ?_
  refine .issueWord hw (fun _ _ hw => ?_)
  refine .addDue ?_
  split
  · exact hw.dropToken
  · exact hw

theorem MemForm.execDepositArrival (hw : s.MemForm) : NextWf (execDepositArrival s) := by
  unfold Machine.execDepositArrival
  refine .next ?_
  split
  · exact hw.depositArrival
  · exact hw

theorem MemForm.execDepositLanded (hw : s.MemForm) : NextWf (execDepositLanded s) := by
  unfold Machine.execDepositLanded
  refine .next ?_
  split
  · exact hw.depositLanded
  · exact hw

theorem MemForm.execSlotDeadline (hw : s.MemForm) : NextWf (execSlotDeadline s) := by
  unfold Machine.execSlotDeadline
  dsimp only
  refine .next ?_
  split
  · split
    · exact .ite hw.closeSlot hw
    · exact hw
  · exact hw

/-! ### Vector moves -/

theorem MemForm.execVshuf {h : Hdr} {f : V3} (hw : s.MemForm) : NextWf (execVshuf h f s) := by
  unfold Machine.execVshuf
  dsimp only
  refine .next ?_
  refine .issueWord hw (fun _ _ hw => ?_)
  split
  · exact hw.putV
  · split
    · exact hw.putV
    · exact hw.putV

theorem MemForm.reduceWord {h : Hdr} {f : V3} {value : Mask → VArg → Nat → W32} (hw : s.MemForm) :
    (reduceWord h f value s).MemForm := hw.issueWord (fun _ _ hw => .countPois (.ite hw.addDue.count hw.addDue))

theorem MemForm.scanWord {h : Hdr} {f : V3} {value : Mask → VArg → Nat → W32} (hw : s.MemForm) :
    (scanWord h f value s).MemForm := hw.issueWord (fun _ _ hw => hw.dueV)

/-! ### The matrix engine -/

theorem MemForm.engineWrite {g t off : Nat} {bs : List Byte} {pois : Bool} (hw : s.MemForm) :
    (s.engineWrite g t off bs pois).MemForm := by
  unfold State.engineWrite
  dsimp only
  split
  · refine .foldl (fun _ _ hw => ?_) hw
    split
    · exact hw.spadWrite
    · exact hw
  · split
    · exact hw.spadWrite
    · refine .foldl (fun _ _ hw => ?_) hw
      split
      · exact hw.spadWrite
      · exact hw

theorem MemForm.tileWrite {tk : Nat} {es : List (Nat × W32 × Bool)} (hw : s.MemForm) : (s.tileWrite tk es).MemForm := hw.modTeam

theorem MemForm.mixTiles {k tk : Nat} {tiles : List Nat} (hw : s.MemForm) : (s.mixTiles k tk tiles).MemForm := by
  unfold State.mixTiles
  dsimp only [State.fresh, State.freeIdx]
  exact .foldl (fun _ _ hw => .ite hw.same.tileWrite.modCore hw) hw

theorem MemForm.enter {i : Instr} {f : XF} {ranges : List (Nat × Nat)} {k gk : Nat} (hw : s.MemForm) :
    (engineEnter.enter s i f ranges k gk).s.MemForm := by
  unfold State.engineEnter.enter
  extract_lets tk lines
  split
  · exact hw
  · split
    next s1 he =>
      have h1 : s1.MemForm := .of_snd he hw.fresh
      extract_lets w s2 s3
      have h2 : s2.MemForm := by
        unfold s2
        cases tk with
        | some => exact h1.tokenUp
        | none => exact h1
      exact h2.raiseLines.modCore

theorem MemForm.engineEnter {i : Instr} {f : XF} {ranges : List (Nat × Nat)} (hw : s.MemForm) :
    (s.engineEnter i f ranges).s.MemForm := by
  unfold State.engineEnter
  dsimp only
  split
  · split
    · exact hw.modCore
    · exact hw.enter
  · exact hw.enter

theorem MemForm.moveWord {h : Hdr} {i : Instr} {f : XF} {kind size : Nat} {u : Uses} (hw : s.MemForm) :
    (s.moveWord h i f kind size u).MemForm := by
  unfold State.moveWord
  dsimp only
  refine .accessWord hw (fun _ _ hw => ?_)
  split
  · exact hw
  · split
    · exact hw
    · exact hw.engineEnter

theorem MemForm.engineDo {z : Mx} {w : EngWord} (hw : s.MemForm) : (s.engineDo z w).MemForm := by
  unfold State.engineDo
  dsimp only
  split
  · exact hw.tileWrite.count
  · exact hw.tileWrite.count
  · exact .count (.count (.foldl (fun _ _ hw => hw.engineWrite) hw))
  · exact .count (.count (.foldl (fun _ _ hw => hw.engineWrite) hw))
  · exact hw

theorem MemForm.engineStep {k : Nat} (hw : s.MemForm) : (s.engineStep k).MemForm := by
  unfold State.engineStep
  dsimp only
  split
  · exact hw
  · split
    · exact hw.modCore
    · split
      · exact hw.modCore
      · split
        · exact hw
        · split
          · exact hw.modCore.mixTiles.engineDo.count.mixTiles.landLines.tokenDown
          · exact hw.modCore.mixTiles.engineDo.count.mixTiles.landLines

theorem MemForm.execMma {h : Hdr} {f : XF} (hw : s.MemForm) : NextWf (execMma h f s) := by
  unfold Machine.execMma
  dsimp only
  refine .next ?_
  refine .accessWord hw (fun _ _ hw => ?_)
  split
  · exact hw
  · exact hw.engineEnter

theorem MemForm.execSmooth {h : Hdr} {f : XF} (hw : s.MemForm) : NextWf (execSmooth h f s) := by
  unfold Machine.execSmooth
  dsimp only
  refine .next ?_
  refine .issueWord hw (fun _ _ hw => ?_)
  split
  · exact hw.modGrp
  · split
    · exact hw
    · split
      · exact hw
      · exact hw.modGrp

/-! ### Tile words -/

theorem MemForm.wbRanges {k : Nat} {rs : List (Nat × Nat)} (hw : s.MemForm) : (s.wbRanges k rs).MemForm :=
  .foldl (fun _ _ hw => hw.wbSector) hw

theorem MemForm.tileCode {f : XF} {c : Nat} (hw : s.MemForm) : (s.tileCode f c).MemForm := hw.modRegs

theorem MemForm.cleanRecord {r : BitVec 6} {n align : Nat} {x : State × List W64} (hw : s.MemForm)
    (hx : s.cleanRecord r n align = .ok x) : x.1.MemForm := by
  unfold State.cleanRecord at hx
  split at hx
  · cases hx
  · next he =>
    split at hx
    · cases hx
    · cases hx
      exact hw.recordAt he

theorem MemForm.effTtq {f : XF} (hw : s.MemForm) : (effTtq f s).s.MemForm := by
  unfold State.effTtq
  extract_lets k r
  split
  · exact hw
  · split
    · exact hw
    · next s1 q hx =>
      have h1 : s1.MemForm := hw.cleanRecord hx
      extract_lets c sp m
      split
      · exact h1.tileCode
      · split
        · exact h1.tileCode
        · split
          · exact h1.tileCode
          · split
            · exact hw
            · split
              · exact hw
              · split
                · exact hw.pinStall
                · split
                  next s2 he =>
                    have h2 : s2.MemForm := .of_snd he h1.touchSpans.pinAll.fresh
                    exact h2.wbRanges.tokenUp.modCore.tileCode

theorem MemForm.cPut {g : Nat} {o : Place × List Byte × Bool} (hw : s.MemForm) : (s.cPut g o).MemForm := by
  unfold State.cPut
  split
  · exact hw.devWrite
  · exact hw.hostWrite.logLeak
  · exact hw

theorem MemForm.cBlock {g : Nat} {out : List (Place × List Byte × Bool)} (hw : s.MemForm) : (s.cBlock g out).MemForm :=
  .settleHome (.foldl (fun _ _ hw => hw.cPut) hw)

theorem MemForm.jobEnd {k : Nat} {j : TileJob} {st : Nat} (hw : s.MemForm) : (s.jobEnd k j st).MemForm :=
  .tokenDown (.unpin (.ite hw.modCore.modTeam hw.modCore))

theorem MemForm.jobStep {k : Nat} {j : TileJob} (hw : s.MemForm) : (s.jobStep k j).MemForm := by
  have hstart : (if j.mixed then s.freeIdx else (0, s)).2.MemForm := by
    split
    · exact hw.freeIdx
    · exact hw
  unfold State.jobStep
  dsimp only
  refine .ite hstart.errorEvent.jobEnd ?_
  split
  · exact .modCore (.ite hstart.cBlock.count.recheckAll hstart.tileWrite.count)
  · exact .jobEnd (.ite hstart.cBlock.count.recheckAll hstart.tileWrite.count)

theorem MemForm.effScan {f : XF} (hw : s.MemForm) : (effScan f s).s.MemForm := by
  unfold State.effScan
  dsimp only [State.fresh, State.freeIdx]
  split
  · exact hw
  · split
    · exact hw
    · split
      · exact hw
      · split
        · exact hw
        · exact hw.same.tokenUp.raiseLines.modCore

theorem MemForm.scanStep {k : Nat} (hw : s.MemForm) : (s.scanStep k).MemForm := by
  unfold State.scanStep
  dsimp only
  split
  · exact hw
  · exact .ite hw.modCore.count
      (.ite hw (.tokenDown (.landLines (.count (.count (.foldl (fun _ _ hw => hw.engineWrite) hw.modCore))))))

theorem MemForm.execTtwait {h : Hdr} {f : XF} (hw : s.MemForm) : NextWf (execTtwait h f s) := by
  unfold Machine.execTtwait
  refine .next ?_
  refine .issueWord hw (fun _ _ hw => ?_)
  split
  · exact hw.dropJobSectors
  · exact hw

theorem MemForm.execMacroOp (hw : s.MemForm) : NextWf (execMacroOp s) := by
  unfold Machine.execMacroOp
  dsimp only
  refine .next ?_
  split
  · split
    · exact hw.modCore.jobStep
    · exact hw
  · exact hw

/-! ### Collectives -/

theorem MemForm.setColl {k : Nat} {c : Coll} (hw : s.MemForm) : (s.setColl k c).MemForm := hw.same

theorem MemForm.wakeColl {k : Nat} {v : W64} (hw : s.MemForm) : (s.wakeColl k v).MemForm := by
  unfold State.wakeColl
  refine .foldl (fun _ _ hw => ?_) hw
  split
  · exact .ite hw.modGroup.wake hw
  · exact hw

theorem MemForm.collFinish {k : Nat} {c : Coll} {v : W64} {st : Nat} (hw : s.MemForm) : (s.collFinish k c v st).MemForm :=
  .wakeColl (.setColl (.ite hw.pinnedWrite.gridAdd.unpin hw.pinnedWrite.gridAdd.unpin.tokenDown))

theorem MemForm.collCheck {k : Nat} (hw : s.MemForm) : (s.collCheck k).MemForm := by
  unfold State.collCheck
  dsimp only
  split
  · exact hw
  · exact .ite hw.collFinish hw

theorem MemForm.stepEnd {k i mark : Nat} {bs : Option (List Byte)} (hw : s.MemForm) : (s.stepEnd k i mark bs).MemForm := by
  unfold State.stepEnd
  dsimp only
  split
  · exact hw
  · refine .recheckAll ?_
    refine .setColl ?_
    split
    · exact .ite hw.pinnedPut hw
    · exact hw

theorem MemForm.sendStep {c : Coll} {i r mark : Nat} {bs : List Byte} (hw : s.MemForm) : (s.sendStep c i r mark bs).MemForm :=
  .foldl (fun _ _ hw => hw.sendFlit) hw.logLeak

theorem MemForm.closeStep {k i : Nat} (hw : s.MemForm) : (s.closeStep k i).MemForm := by
  unfold State.closeStep
  dsimp only
  split
  · exact hw
  · exact .stepEnd (.setColl (.foldl (fun _ _ hw => hw.sendStep) (.ite hw hw.devCount)))

theorem MemForm.collAdvance {k : Nat} (hw : s.MemForm) : (s.collAdvance k).MemForm := by
  unfold State.collAdvance
  dsimp only
  split
  · exact hw
  · refine .collCheck ?_
    refine .foldl (fun _ _ hw => ?_) hw
    split
    · exact .ite hw.closeStep hw
    · exact hw

theorem MemForm.collStart {k : Nat} {c : Coll} {src : List Byte} (hw : s.MemForm) : (s.collStart k c src).MemForm := by
  unfold State.collStart
  dsimp only
  refine .collAdvance ?_
  refine .foldl (fun _ _ hw => ?_) hw
  split
  · exact hw
  · split
    · split
      · exact hw.setColl
      · exact hw
    · exact hw.sendStep

theorem MemForm.effColl {f : XF} (hw : s.MemForm) : (effColl f s).s.MemForm := by
  unfold State.effColl
  extract_lets p tk gk
  split
  · exact hw
  · next s1 q hx =>
    have h1 : s1.MemForm := hw.cleanRecord hx
    extract_lets c ok pt s2 bs c2 ok2 sp m s3 s4 c3
    have h2 : s2.MemForm := .ite h1.wbRanges h1
    have h4 : s4.MemForm := h2.touchSpans.pinAll.wbRanges.tokenUp
    split
    · exact hw
    · split
      · exact hw
      · split
        · exact hw
        · split
          · exact hw
          · split
            · exact hw.pinStall
            · extract_lets k s5 src u
              have h5 : s5.MemForm := h4.modRegs
              have hu : u.MemForm := h5.errorEvent.unpin
              split
              · exact h5.collFinish
              · split
                · clear_value u
                  exact .tokenDown hu.same
                · exact h5.setColl.collStart

theorem MemForm.effCollw {f : XF} (hw : s.MemForm) : (effCollw f s).s.MemForm := by
  unfold State.effCollw
  dsimp only
  split
  · exact hw.putS
  · split
    · exact hw.putS
    · split
      · exact hw.putS
      · exact hw

theorem MemForm.collTake {k : Nat} {f : Flit} (hw : s.MemForm) : (s.collTake k f).MemForm := by
  unfold State.collTake
  dsimp only
  split
  · exact hw
  · split
    · exact hw.devCount
    · split
      · exact .ite hw hw.setColl.collAdvance
      · split
        · exact hw
        · split
          · exact hw.setColl.stepEnd.collCheck
          · exact hw.setColl

theorem MemForm.collStepTimeout {k i : Nat} (hw : s.MemForm) : (s.collStepTimeout k i).MemForm := by
  unfold State.collStepTimeout
  split
  · exact hw
  · split
    · exact .ite hw.closeStep.collCheck hw
    · exact hw

theorem MemForm.collResultTimeout {k i : Nat} (hw : s.MemForm) : (s.collResultTimeout k i).MemForm := by
  unfold State.collResultTimeout
  dsimp only
  split
  · exact hw
  · exact .ite hw.setColl.stepEnd.collCheck hw

theorem MemForm.execCollFlitArrival (hw : s.MemForm) : NextWf (execCollFlitArrival s) := by
  unfold Machine.execCollFlitArrival
  refine .next ?_
  split
  · exact hw.modPort.collTake
  · exact hw

/-! ### Control words -/

theorem MemForm.traceFold {pc : Nat} {m : Mask} (hw : s.MemForm) : (s.traceFold pc m).MemForm := .ite hw.vaWrite.modPage hw

theorem MemForm.foldSig {pc : Nat} {m : Mask} (hw : s.MemForm) : (s.foldSig pc m).MemForm := hw.modGrp.traceFold

theorem MemForm.branchTo {act : Mask} {target : Nat → Nat} (hw : s.MemForm) : (s.branchTo act target).s.MemForm :=
  hw.modGrp.foldSig

theorem MemForm.branchAll {act : Mask} {target : Nat} (hw : s.MemForm) : (s.branchAll act target).s.MemForm := hw.modGrp.foldSig

theorem MemForm.putLink {f : CF} (hw : s.MemForm) : (s.putLink f).MemForm := hw.setS

theorem MemForm.poisonTarget {act : Mask} {target : Nat → Nat} (hw : s.MemForm) : (s.poisonTarget act target).s.MemForm := hw

theorem MemForm.jumpReg {f : CF} {act : Mask} (hw : s.MemForm) : (s.jumpReg f act).s.MemForm := by
  unfold State.jumpReg
  split
  · exact hw.poisonTarget
  · exact hw.branchAll

theorem MemForm.execJmpv {h : Hdr} {f : CF} (hw : s.MemForm) : NextWf (execJmpv h f s) := by
  unfold Machine.execJmpv
  dsimp only
  refine .next ?_
  refine .issueWord hw (fun _ _ hw => ?_)
  split
  · exact hw.poisonTarget
  · exact hw.branchTo

theorem MemForm.execCalli {h : Hdr} {f : CF} (hw : s.MemForm) : NextWf (execCalli h f s) := by
  unfold Machine.execCalli
  refine .next ?_
  refine .issueWord hw (fun _ _ hw => ?_)
  split
  · exact hw.poisonTarget
  · exact hw.putLink.branchAll

/-! ### Debugging -/

theorem MemForm.ringSet {p : Nat} (hw : s.MemForm) : (s.ringSet p).MemForm := by
  unfold State.ringSet
  dsimp only
  split
  · exact hw.unpin.modPage
  · exact .ite hw.unpin.modPage.pin.modPage hw.unpin.modPage

theorem MemForm.trapRegWrite {p off : Nat} {v : W64} (hw : s.MemForm) : (s.trapRegWrite p off v).MemForm := by
  unfold State.trapRegWrite
  split
  · exact hw.modPage.ringSet
  · exact hw.modPage.ringSet
  · exact hw.modPage.ringSet
  · exact hw

theorem MemForm.trapRecord {p : Nat} (hw : s.MemForm) : (s.trapRecord p).MemForm := by
  unfold State.trapRecord
  dsimp only
  split
  · exact hw
  · split
    · exact hw
    · exact .ite hw.ringRead hw.ringRead.modPage.vaWrite.deviceAdd.send

theorem MemForm.ckpt0Write {p : Nat} {v : W64} (hw : s.MemForm) : (s.ckpt0Write p v).MemForm := by
  unfold State.ckpt0Write
  dsimp only
  split
  · exact hw.modPage
  · split
    · exact hw.modPage
    · exact .ite hw.modPage hw.unpin.pin.modGrid.modPage

theorem MemForm.dbgGroup {p : Nat} {b : BitVec 3} {gk : Nat} (hw : s.MemForm) : (s.dbgGroup p b gk).MemForm := by
  unfold State.dbgGroup
  split
  · exact hw.modPage
  · exact hw
  · exact hw.imgWrite
  · exact hw.imgWrite
  · exact hw.modGroup

theorem MemForm.dbgselWrite {p : Nat} {v : W64} (hw : s.MemForm) : (s.dbgselWrite p v).MemForm := by
  unfold State.dbgselWrite
  dsimp only
  split
  · exact hw.modPage
  · exact .ite hw.modPage (.foldl (fun _ _ hw => hw.dbgGroup) hw.modPage)

theorem MemForm.trcaWrite {p : Nat} {v : W64} (hw : s.MemForm) : (s.trcaWrite p v).MemForm := by
  unfold State.trcaWrite
  dsimp only
  split
  · exact hw.unpin.modPage
  · split
    · exact hw.unpin.modPage
    · exact .ite hw.unpin.modPage.pin.modPage hw.unpin.modPage

theorem MemForm.sampcWrite {p : Nat} {v : W64} (hw : s.MemForm) : (s.sampcWrite p v).MemForm := by
  unfold State.sampcWrite
  dsimp only
  split
  · exact hw.unpin.modPage
  · split
    · exact hw.unpin.modPage
    · exact .ite hw.unpin.modPage.pin.modPage hw.unpin.modPage

theorem MemForm.sampleRecord {cl co : Nat} {m : SampleTimes} (hw : s.MemForm) : (s.sampleRecord cl co m).MemForm := by
  unfold State.sampleRecord
  dsimp only
  split
  · split
    · exact hw
    · exact .ite hw.modCore hw.modCore.vaWrite.modPage
  · exact hw

theorem MemForm.hangPost {g : Nat} (hw : s.MemForm) : (s.hangPost g).MemForm := .modPage (.foldl (fun _ _ hw => hw.count) hw)

theorem MemForm.hangCheck {g : Nat} (hw : s.MemForm) : (s.hangCheck g).MemForm := by
  unfold State.hangCheck
  dsimp only
  split
  · exact hw
  · exact .ite hw (.ite hw.modGrid.hangPost.modGrid hw.modGrid)

theorem MemForm.writeDue {gk id : Nat} (hw : s.MemForm) : (s.writeDue gk id).MemForm := by
  unfold State.writeDue
  dsimp only
  split
  · exact hw
  · exact hw.modGroup.modQuad

theorem MemForm.walkStep {k p va : Nat} (hw : s.MemForm) : (s.walkStep k p va).MemForm := by
  unfold State.walkStep
  split
  · exact hw
  · split
    · exact hw.tlbTouch
    · exact hw

/-! ### Preemption -/

theorem MemForm.discardAll {tk : Nat} (hw : s.MemForm) : (s.discardAll tk).MemForm := hw.withdrawClaims.same.discardTeam

theorem MemForm.abandonSwap {cl : Nat} (hw : s.MemForm) : (s.abandonSwap cl).MemForm := by
  unfold State.abandonSwap
  dsimp only
  split
  · exact hw
  · exact hw.modCore.modCore.modCluster

theorem MemForm.breakSwap {k : Nat} (hw : s.MemForm) : (s.breakSwap k).MemForm := by
  unfold State.breakSwap
  split
  · exact .ite hw.abandonSwap hw
  · exact hw

theorem MemForm.pmStart {p : Nat} {v : W64} (hw : s.MemForm) : (s.pmStart p v).MemForm := hw.modPage

theorem MemForm.pmSettle {p : Nat} (hw : s.MemForm) : (s.pmSettle p).MemForm := .ite hw.modPage.send hw

theorem MemForm.pmMark {p tk : Nat} (hw : s.MemForm) : (s.pmMark p tk).MemForm := by
  unfold State.pmMark
  dsimp only
  split
  · exact hw.modTeam
  · exact hw.modTeam
  · exact hw
  · exact hw.modTeam.modPage
  · exact hw.modPage

theorem MemForm.preemptGo {p : Nat} {v : W64} (hw : s.MemForm) : (s.preemptGo p v).MemForm :=
  .pmSettle (.foldl (fun _ _ hw => hw.pmMark) hw.pmStart)

theorem MemForm.releaseGo {p : Nat} {v : W64} (hw : s.MemForm) : (s.releaseGo p v).MemForm :=
  .pmSettle (.foldl (fun _ _ hw => .ite hw.modTeam hw) hw.pmStart)

theorem MemForm.pmreq1Write {p : Nat} {v : W64} (hw : s.MemForm) : (s.pmreq1Write p v).MemForm :=
  .ite hw.modPage (.ite hw.modPage (.ite hw.preemptGo hw.releaseGo))

theorem MemForm.pmFailed {tk : Nat} (hw : s.MemForm) : (s.pmFailed tk).MemForm := hw.pmCount.modTeam.pmReached

theorem MemForm.pmSave {tk : Nat} {c : SaveCause} (hw : s.MemForm) : (s.pmSave tk c).MemForm := by
  unfold State.pmSave
  dsimp only
  split
  · exact hw.beginSave
  · split
    · exact hw.beginSave.pmFailed
    · exact hw.beginSave

theorem MemForm.pmChoose {p tk late : Nat} (hw : s.MemForm) : (s.pmChoose p tk late).MemForm :=
  .ite hw (.modTeam (.ite hw hw.breakSwap))

theorem MemForm.pmAct {p tk : Nat} (hw : s.MemForm) : (s.pmAct p tk).MemForm := by
  unfold State.pmAct
  dsimp only
  split
  · exact hw.modTeam.pmReached
  · exact hw.modTeam.pmReached
  · exact hw.pmReached
  · split
    · exact .ite hw.pmChoose (.ite hw.pmChoose.breakSwap.modTeam.pmSave hw.pmChoose.pmLate.discardAll.modTeam.pmCount.pmReached)
    · exact hw.pmChoose.pmSave
    · exact hw.pmChoose
  · exact .ite hw.modTeam hw
  · exact hw

theorem MemForm.preemptEstimate {p cl : Nat} (hw : s.MemForm) : (s.preemptEstimate p cl).MemForm :=
  .ite hw (.foldl (fun _ _ hw => hw.pmAct) (.ite hw hw.modPage))

theorem MemForm.drainDeadline {tk : Nat} (hw : s.MemForm) : (s.drainDeadline tk).MemForm := by
  unfold State.drainDeadline
  dsimp only
  split
  · exact .ite hw.breakSwap.pmSave hw
  · exact hw

theorem MemForm.saveComplete {tk : Nat} (hw : s.MemForm) : (s.saveComplete tk).MemForm := .ite hw.completeSave hw

theorem MemForm.restoreComplete {tk : Nat} (hw : s.MemForm) : (s.restoreComplete tk).MemForm := .ite hw.completeRestore hw

theorem MemForm.saveFirst {c : SaveCause} {tks : List Nat} (hw : s.MemForm) : (s.saveFirst c tks).MemForm := by
  induction tks generalizing s with
  | nil => exact hw
  | cons tk rest ih =>
    unfold State.saveFirst
    refine .ite hw.beginSave ?_
    split
    · exact ih hw.beginSave
    · exact hw.beginSave

theorem MemForm.growFails {gk : Nat} (hw : s.MemForm) : (s.growFails gk).MemForm := by
  unfold State.growFails
  split
  · exact hw.modGroup.wake
  · exact hw

theorem MemForm.senioritySave {k : Nat} (hw : s.MemForm) : (s.senioritySave k).MemForm := by
  unfold State.senioritySave
  dsimp only
  split
  · exact hw
  · exact .ite hw (.ite hw.breakSwap.growFails (.ite hw.breakSwap hw.breakSwap.saveFirst))

/-! ### The draft -/

theorem MemForm.barometerTick {cl : Nat} {est : BitVec 16} (hw : s.MemForm) : (s.barometerTick cl est).MemForm :=
  .ite hw hw.modCluster

theorem MemForm.stallSample {cl : Nat} {r : List (BitVec 16)} (hw : s.MemForm) : (s.stallSample cl r).MemForm :=
  .ite hw hw.modCluster

theorem MemForm.beginSwap {cl h c : Nat} (hw : s.MemForm) : (s.beginSwap cl h c).MemForm :=
  hw.wbCore.modCore.wbCore.modCore.modCluster

theorem MemForm.draftTick {cl : Nat} (hw : s.MemForm) : (s.draftTick cl).MemForm := by
  unfold State.draftTick
  dsimp only
  split
  · exact hw
  · refine .modCluster ?_
    split
    · exact hw.beginSwap
    · exact hw

theorem MemForm.draftStop {cl : Nat} (hw : s.MemForm) : (s.draftStop cl).MemForm := by
  unfold State.draftStop
  dsimp only
  split
  · exact hw
  · exact .ite hw (.modCluster (.foldl (fun _ _ hw => hw.modTeam) hw))

theorem MemForm.draftAbandon {cl : Nat} (hw : s.MemForm) : (s.draftAbandon cl).MemForm := by
  unfold State.draftAbandon
  dsimp only
  split
  · exact .ite hw.abandonSwap hw
  · exact hw

theorem MemForm.exchange {cl h c : Nat} (hw : s.MemForm) : (s.exchange cl h c).MemForm :=
  .settleCore (.settleCore (.foldl (fun _ _ hw => hw.modTeam) (.foldl (fun _ _ hw => hw.modTeam)
  (.foldl (fun _ _ hw => hw.modTeam) (.foldl (fun _ _ hw => hw.modTeam) (.foldl (fun _ _ hw => hw.modQuad.modQuad)
  hw.flushCore.flushCore.modCore.modCore))))))

theorem MemForm.draftRelease {cl : Nat} (hw : s.MemForm) : (s.draftRelease cl).MemForm := by
  unfold State.draftRelease
  dsimp only
  split
  · exact hw
  · exact .ite hw (.recheckAll (.foldl (fun _ _ hw => hw.reexamine) hw.exchange.modCluster))

/-! ### The SFA -/

theorem MemForm.modSfa {cl : Nat} {f : Sfa → Sfa} (hw : s.MemForm) : (s.modSfa cl f).MemForm := hw.modCluster

theorem MemForm.sfaDrop {c : SfaCmd} {st : Nat} (hw : s.MemForm) : (s.sfaDrop c st).MemForm := by
  unfold State.sfaDrop
  dsimp only
  split
  · exact hw.unpin.landLines.tokenDown
  · exact hw.unpin.landLines

theorem MemForm.sfaDone {cl code st : Nat} (hw : s.MemForm) : (s.sfaDone cl code st).MemForm := by
  unfold State.sfaDone
  split
  · exact hw
  · exact hw.modSfa.sfaDrop

theorem MemForm.sfaEnd {cl : Nat} (hw : s.MemForm) : (s.sfaEnd cl).MemForm := by
  unfold State.sfaEnd
  dsimp only [State.fresh, State.freeIdx]
  exact .ite hw (.foldl (fun _ _ hw => hw.sfaDrop) hw.same.modSfa)

theorem MemForm.sfaForeign {f : XF} {tk : Bool} (hw : s.MemForm) : (s.sfaForeign f tk).s.MemForm := by
  unfold State.sfaForeign
  split
  · exact hw
  · split
    · exact hw.quickToken
    · exact hw

theorem MemForm.sfaForeignAddr {f : XF} {regs : List (BitVec 6)} (hw : s.MemForm) : (s.sfaForeignAddr f regs).s.MemForm := by
  unfold State.sfaForeignAddr
  split
  · exact hw
  · exact hw.sfaForeign

theorem MemForm.sfaEnter {c : SfaCmd} {regs : List (BitVec 6)} {reads writes : List (Nat × Nat)} (hw : s.MemForm) :
    (s.sfaEnter c regs reads writes).s.MemForm := by
  unfold State.sfaEnter
  extract_lets cl sp m
  split
  · exact hw
  · split
    · exact hw
    · split
      · exact hw
      · split
        · exact hw.pinStall
        · split
          next s1 he =>
            have h1 : s1.MemForm := .of_snd he hw.touchSpans.pinAll.fresh
            extract_lets s2 s3 s4
            have h3 : s3.MemForm := by
              unfold s3
              cases c.tk with
              | some => exact h1.wbRanges.tokenUp
              | none => exact h1.wbRanges
            exact h3.raiseLines.modSfa

theorem MemForm.effSfaload {f : XF} (hw : s.MemForm) : (effSfaload f s).s.MemForm := by
  unfold State.effSfaload
  dsimp only
  split
  · exact hw
  · split
    · split
      · exact hw
      · split
        · exact hw.sfaEnter
        · exact hw.sfaForeign
    · split
      · exact hw.sfaForeignAddr
      · split
        · exact hw
        · split
          · exact hw
          · exact hw.sfaEnter

theorem MemForm.effSfaclamp {f : XF} (hw : s.MemForm) : (effSfaclamp f s).s.MemForm := by
  unfold State.effSfaclamp
  dsimp only
  split
  · exact hw.sfaForeignAddr
  · exact hw.sfaEnter

theorem MemForm.effSfaseed {f : XF} (hw : s.MemForm) : (effSfaseed f s).s.MemForm := by
  unfold State.effSfaseed
  split
  · exact hw.sfaForeign
  · exact hw.sfaEnter

theorem MemForm.effSfasweep {f : XF} (hw : s.MemForm) : (effSfasweep f s).s.MemForm := by
  unfold State.effSfasweep
  split
  · exact hw.sfaForeign
  · exact hw.sfaEnter

theorem MemForm.effSfaread {f : XF} (hw : s.MemForm) : (effSfaread f s).s.MemForm := by
  unfold State.effSfaread
  dsimp only
  split
  · exact hw
  · split
    · exact hw.sfaForeignAddr
    · split
      · exact hw.sfaEnter
      · exact hw.sfaEnter

theorem MemForm.sfaLoadRun {cl : Nat} (hw : s.MemForm) : (s.sfaLoadRun cl).MemForm := by
  unfold State.sfaLoadRun
  dsimp only
  split
  · exact hw
  · exact .ite hw.modSfa.sfaEnd hw.modSfa.sfaDone

theorem MemForm.sfaClampRun {cl : Nat} (hw : s.MemForm) : (s.sfaClampRun cl).MemForm := by
  unfold State.sfaClampRun
  dsimp only
  split
  · exact hw
  · exact .ite hw.sfaDone (.ite hw (.sfaDone (.modSfa (.ite hw.same.count hw))))

theorem MemForm.sfaSeedRun {cl : Nat} (hw : s.MemForm) : (s.sfaSeedRun cl).MemForm := by
  unfold State.sfaSeedRun
  split
  · exact hw
  · exact .ite hw.sfaDone (.ite (.ite hw.sfaDone hw.modSfa.sfaDone) hw.modSfa.sfaDone)

theorem MemForm.sfaHealth {cl lo n : Nat} (hw : s.MemForm) : (s.sfaHealth cl lo n).MemForm := hw.modCluster

theorem MemForm.cellDraw {cl : Nat} (hw : s.MemForm) : (s.cellDraw cl).2.MemForm :=
  .foldl (fun _ _ hw => hw.modSfa.sfaHealth.sfaHealth) hw.modSfa

theorem MemForm.sfaColour {cl c : Nat} {beta : FVal} (hw : s.MemForm) : (s.sfaColour cl beta c).MemForm := by
  unfold State.sfaColour
  extract_lets x vars s1
  refine .count (.foldl (fun s i hw => ?_) hw)
  split
  next ht =>
    refine .modSfa ?_
    split at ht
    · exact .of_snd ht hw.cellDraw
    · exact .of_snd ht hw

theorem MemForm.sfaColourStep {cl : Nat} (hw : s.MemForm) : (s.sfaColourStep cl).MemForm := by
  unfold State.sfaColourStep
  dsimp only
  split
  · exact hw
  · exact .ite hw.sfaDone (.ite hw.sfaDone (.ite hw.sfaColour.modSfa (.ite hw.sfaColour.modSfa.modSfa
      hw.sfaColour.modSfa.sfaDone)))

theorem MemForm.sfaReadRun {cl : Nat} (hw : s.MemForm) : (s.sfaReadRun cl).MemForm := by
  unfold State.sfaReadRun
  dsimp only
  split
  · exact hw
  · exact .ite hw.sfaDone
      (.ite hw
      (.recheckAll (.sfaDone (.ite hw.modSfa.pinnedPut (.ite hw.modSfa.count (.count (.foldl (fun _ _ hw => hw.engineWrite)
      hw.modSfa)))))))

/-! ### The side log -/

theorem MemForm.replayRec {k : Nat} {e : LogEntry} {r : LogRec} (hw : s.MemForm) : (s.replayRec k e r).MemForm := by
  unfold State.replayRec
  dsimp only
  split
  · exact hw
  · exact .ite hw.errorEvent (.ite (.foldl (fun _ _ hw => .ite hw.glStore.logLeak (.ite hw.glStore.wbRange hw.glStore)) hw)
      hw.rmwAt)

theorem MemForm.replayPage {k p page : Nat} (hw : s.MemForm) : (s.replayPage k p page).MemForm := by
  unfold State.replayPage
  dsimp only
  split
  · exact hw
  · refine .foldl (fun _ _ hw => ?_) hw.modCore.xlatTouch
    split
    · exact .ite (.settleMarks (.foldl (fun _ _ hw => hw.replayRec) hw)) (.foldl (fun _ _ hw => hw.replayRec) hw)
    · exact .foldl (fun _ _ hw => hw.replayRec) hw

theorem MemForm.wakeLog {k : Nat} (hw : s.MemForm) : (s.wakeLog k).MemForm := by
  unfold State.wakeLog
  dsimp only
  refine .foldl (fun _ _ hw => ?_) hw
  split
  · exact .ite hw.wake hw
  · exact hw

theorem MemForm.retryLog {k : Nat} (hw : s.MemForm) : (s.retryLog k).MemForm :=
  .recheckAll (.wakeLog (.foldl (fun _ _ hw => hw.replayPage) hw))

/-! ### Launches -/

theorem MemForm.dropIcaches {p : Nat} (hw : s.MemForm) : (s.dropIcaches p).MemForm := .foldl (fun _ _ hw => hw.modCore) hw

theorem MemForm.acceptGrid {r : Grid} (hw : s.MemForm) : (s.acceptGrid r).MemForm :=
  .dropIcaches (.pin (.ite hw.same.modPage hw.same))

theorem MemForm.headDone {p q a code : Nat} (hw : s.MemForm) : (s.headDone p q a code).MemForm :=
  hw.vaTouch.vaWrite.modPart.deviceAdd

theorem MemForm.rejectRecord {r : Grid} {q a code : Nat} (hw : s.MemForm) : (s.rejectRecord r q a code).MemForm :=
  hw.modQueue.deviceAdd.headDone

theorem MemForm.consumeRecord {p q : Nat} (hw : s.MemForm) : (s.consumeRecord p q).MemForm := by
  unfold State.consumeRecord
  extract_lets x h a r code held s1 by_ r2 s2
  have h1 : s1.MemForm := hw.queueRead
  have h2 : s2.MemForm := h1.acceptGrid.modQueue
  exact .ite h1.queueOverflow (.ite h1 (.ite h1.rejectRecord.modQueue (.ite h1 h2.headDone)))

theorem MemForm.launchConsume {p : Nat} (hw : s.MemForm) : (s.launchConsume p).MemForm := by
  unfold State.launchConsume
  split
  · exact hw
  · split
    · exact hw
    · exact hw.consumeRecord

theorem MemForm.dropGrid {g : Nat} (hw : s.MemForm) : (s.dropGrid g).MemForm :=
  .same (.foldl (fun _ _ hw => .modCluster (.ite (.carafeEnd (.ite hw.sfaEnd hw)) (.ite hw.sfaEnd hw))) hw.unpin)

theorem MemForm.addDone {g : Nat} (hw : s.MemForm) : (s.addDone g).MemForm :=
  .gridAdd (.logLeak (.foldl (fun _ _ hw => hw.wbCore) hw))

theorem MemForm.repoint {a b : Nat} (hw : s.MemForm) : (s.repoint a b).MemForm := hw.same

theorem MemForm.abortRecord {g : Nat} (hw : s.MemForm) : (s.abortRecord g).MemForm := hw.modPage

theorem MemForm.recoverGrid {g : Nat} (hw : s.MemForm) : (s.recoverGrid g).MemForm := by
  unfold State.recoverGrid
  dsimp only
  split
  · exact .ite hw.vaTouch hw.vaTouch.dropGrid.acceptGrid.repoint.devCountPair
  · exact hw.addDone.abortRecord.dropGrid.devCountPair

theorem MemForm.endingStep {g : Nat} (hw : s.MemForm) : (s.endingStep g).MemForm := by
  unfold State.endingStep
  dsimp only
  split
  · exact hw
  · split
    · refine .foldl (fun _ _ hw => ?_) hw
      split
      · exact hw
      · exact hw
      · exact hw.discardAll
    · refine .recoverGrid ?_
      refine .foldl (fun _ _ hw => ?_) hw
      split
      · exact hw
      · exact hw
      · exact hw.discardAll

theorem MemForm.gridEnd {g : Nat} (hw : s.MemForm) : (s.gridEnd g).MemForm := by
  unfold State.gridEnd
  split
  · exact hw
  · exact .ite hw.endingStep (.ite hw.addDone.dropGrid hw)

theorem MemForm.controlError {g : Nat} (hw : s.MemForm) : (s.controlError g).MemForm := .ite hw hw.errorEvent.modGrid

/-! ### Errors -/

theorem MemForm.l1Error {k sec : Nat} (hw : s.MemForm) : (s.l1Error k sec).MemForm := by
  unfold State.l1Error
  split
  · exact hw
  · exact .ite hw.modCore.countPair hw.modCore.countPair

theorem MemForm.poisonTeam {g t : Nat} {f : Team → Team} (hw : s.MemForm) : (s.poisonTeam g t f).MemForm := .ite hw.modTeam hw

theorem MemForm.corrected {cl : Nat} {e : ErrSite} (hw : s.MemForm) : (s.corrected cl e).MemForm := by
  cases e with
  | reg | tile | spad | l1 | slotTable | control | tlt | plt => exact hw.countPair
  | l2 | hbm => exact hw.devCountPair
  | coupling => exact hw.modCluster
  | icache | tlbCore => exact hw.modCore.countPair
  | tlbCluster => exact hw.modCluster.countPair
  | queueEntry => exact hw.devCount

theorem MemForm.uncorrected {cl : Nat} {e : ErrSite} (hw : s.MemForm) : (s.uncorrected cl e).MemForm := by
  cases e with
  | reg => exact .ite hw.countPair hw.countPair.modGroup
  | tile | spad => exact hw.countPair.poisonTeam
  | l1 => exact hw.l1Error
  | l2 => exact hw.loseSector.devCountPair
  | hbm => exact hw.loseSector.loseSector.devCountPair
  | slotTable => exact hw.closeSlot.countPair
  | coupling => exact hw.modSfa.sfaHealth
  | control | tlt => exact hw.countPair.controlError
  | plt => exact .foldl (fun _ _ hw => hw.controlError) hw.countPair
  | icache | tlbCore => exact hw.modCore.countPair
  | tlbCluster => exact hw.modCluster.countPair
  | queueEntry => exact hw.devCount

/-! ### System words -/

theorem MemForm.ctlPut {gk creg : Nat} {v : W64} (hw : s.MemForm) : (s.ctlPut gk creg v).MemForm :=
  .ite hw.modTeam (.ite hw.modGroup (.ite hw.modGroup (.ite hw.modGroup (.ite hw.modGroup (.ite hw.modGroup hw.modGroup)))))

theorem MemForm.resumeSaved {gk : Nat} (hw : s.MemForm) : (s.resumeSaved gk).MemForm :=
  .modGroup (.ite (.foldl (fun _ _ hw => hw.imgWrite) (.imgWrite (.imgWrite (.ite hw.imgWrite hw))))
  (.imgWrite (.imgWrite (.ite hw.imgWrite hw))))

theorem MemForm.cmdRefuse {p : Nat} (hw : s.MemForm) : (s.cmdRefuse p).MemForm := hw.modPage

theorem MemForm.cmdDone {p : Nat} (hw : s.MemForm) : (s.cmdDone p).MemForm := hw.modPage

theorem MemForm.hcmdWrite {p : Nat} {v : W64} (hw : s.MemForm) : (s.hcmdWrite p v).MemForm :=
  .ite (.ite hw.modPage hw.modPage.modPage) (.ite (.modPage (.ite hw.modPage hw.modPage.modPage))
  (.modPage (.ite hw.modPage hw.modPage.modPage)))

theorem MemForm.himmWrite {p : Nat} {v : W64} (hw : s.MemForm) : (s.himmWrite p v).MemForm := hw.modPage

theorem MemForm.notForGroups {h : Hdr} (hw : s.MemForm) : (s.notForGroups h).MemForm := hw.finish hw

theorem MemForm.groupCommand {p op creg : Nat} {f : List Nat → State → State} (hw : s.MemForm) (hf : ∀ m s, s.MemForm →
    (f m s).MemForm) : (s.groupCommand p op creg f).MemForm := .ite hw (.ite hw.cmdRefuse (hf _ _ hw))

theorem MemForm.trapretDo {gs : List Nat} (hw : s.MemForm) : (trapretDo gs s).MemForm :=
  .foldl (fun _ _ hw => .ite hw (.ite hw.resumeSaved hw.modGroup)) hw

theorem MemForm.haltDo {gs : List Nat} (hw : s.MemForm) : (haltDo gs s).MemForm :=
  .foldl (fun _ _ hw => .ite hw (.ite hw.modGroup (.imgWrite (.ite hw.modGroup.imgWrite hw.modGroup)))) hw

theorem MemForm.smpctlDo {imm : BitVec 32} {gs : List Nat} (hw : s.MemForm) : (smpctlDo imm gs s).MemForm :=
  .foldl (fun _ _ hw => .ite hw.modGroup hw.modGroup.imgWrite) hw

theorem MemForm.tlbDrop {p : Nat} {f : TlbEntry → Bool} (hw : s.MemForm) : (s.tlbDrop p f).MemForm :=
  .foldl (fun _ _ hw => hw.retryLog) hw.same

theorem MemForm.cwbDo {p : Nat} {imm : BitVec 32} {base : W64} (hw : s.MemForm) : (s.cwbDo p imm base).MemForm :=
  .ite (.foldl (fun _ _ hw => hw.wbCore) hw) (.foldl (fun _ _ hw => .foldl (fun _ _ hw => hw.wbSector) hw) hw)

theorem MemForm.cinvDo {p : Nat} {imm : BitVec 32} (hw : s.MemForm) : (s.cinvDo p imm).MemForm :=
  .foldl (fun _ _ hw => .ite (.flushCore (.ite hw.modCore hw)) (.ite hw.modCore hw)) hw

theorem MemForm.execTrapret {h : Hdr} {f : YF} (hw : s.MemForm) : NextWf (execTrapret h f s) := by
  unfold Machine.execTrapret
  refine .next ?_
  split
  · exact hw.notForGroups
  · exact hw.groupCommand (fun _ _ hw => hw.trapretDo.cmdDone)

theorem MemForm.execCtlrd {h : Hdr} {f : YF} (hw : s.MemForm) : NextWf (execCtlrd h f s) := by
  unfold Machine.execCtlrd
  dsimp only
  refine .next ?_
  split
  · exact hw.issueWord (fun _ _ hw => hw.putS)
  · exact hw.groupCommand (fun _ _ hw => hw.modPage.cmdDone)

theorem MemForm.execCtlwr {h : Hdr} {f : YF} (hw : s.MemForm) : NextWf (execCtlwr h f s) := by
  unfold Machine.execCtlwr
  refine .next ?_
  split
  · exact hw.notForGroups
  · exact hw.groupCommand (fun _ _ hw => .cmdDone (.foldl (fun _ _ hw => hw.ctlPut) hw))

theorem MemForm.execSmpctl {h : Hdr} {f : YF} (hw : s.MemForm) : NextWf (execSmpctl h f s) := by
  unfold Machine.execSmpctl
  refine .next ?_
  split
  · exact hw.notForGroups
  · exact hw.groupCommand (fun _ _ hw => hw.smpctlDo.cmdDone)

theorem MemForm.execTlbinv {h : Hdr} {f : YF} (hw : s.MemForm) : NextWf (execTlbinv h f s) := by
  unfold Machine.execTlbinv
  refine .next ?_
  split
  · exact hw.notForGroups
  · exact hw.tlbDrop.cmdDone

theorem MemForm.execTlbinvall {h : Hdr} {f : YF} (hw : s.MemForm) : NextWf (execTlbinvall h f s) := by
  unfold Machine.execTlbinvall
  refine .next ?_
  split
  · exact hw.notForGroups
  · exact hw.tlbDrop.cmdDone

theorem MemForm.execCwb {h : Hdr} {f : YF} (hw : s.MemForm) : NextWf (execCwb h f s) := by
  unfold Machine.execCwb
  refine .next ?_
  split
  · exact hw.notForGroups
  · exact hw.cwbDo.cmdDone

theorem MemForm.execCinv {h : Hdr} {f : YF} (hw : s.MemForm) : NextWf (execCinv h f s) := by
  unfold Machine.execCinv
  refine .next ?_
  split
  · exact hw.notForGroups
  · exact hw.cinvDo.cmdDone

theorem MemForm.execHalt {h : Hdr} {f : YF} (hw : s.MemForm) : NextWf (execHalt h f s) := by
  unfold Machine.execHalt
  dsimp only
  refine .next ?_
  split
  · exact hw.notForGroups
  · exact hw.groupCommand (fun _ _ hw => .ite hw.haltDo hw.haltDo.cmdDone)

/-! ### The mailbox -/

theorem MemForm.queueOn {q : Nat} (hw : s.MemForm) : (s.queueOn q).MemForm := by
  unfold State.queueOn
  dsimp only
  split
  · exact hw.modQueue
  · split
    · exact hw.modQueue
    · exact .ite hw.modQueue hw.queueRead.pin.modQueue

theorem MemForm.queueOff {q : Nat} (hw : s.MemForm) : (s.queueOff q).MemForm := .ite hw hw.queueStop.unpin.modQueue

theorem MemForm.qd0Write {q : Nat} {v : W64} (hw : s.MemForm) : (s.qd0Write q v).MemForm :=
  .ite (.ite (.ite hw.modQueue hw) (.queueOff (.ite hw.modQueue hw))) (.ite hw.modQueue.queueOn hw.modQueue)

theorem MemForm.qdCounter {q : Nat} {head : Bool} {v : W64} (hw : s.MemForm) : (s.qdCounter q head v).MemForm :=
  .ite (.ite hw.modQueue hw) hw.modQueue

theorem MemForm.qd3Clear {q : Nat} {v : W64} (hw : s.MemForm) : (s.qd3Clear q v).MemForm := hw.modQueue

theorem MemForm.qdWrite {fn : Fn} {q off : Nat} {v : W64} (hw : s.MemForm) : (s.qdWrite fn q off v).MemForm := by
  unfold State.qdWrite
  dsimp only
  split
  · exact hw.qd0Write
  · exact hw.qdCounter
  · exact hw.qdCounter
  · exact .ite hw.qd3Clear.modQueue hw.qd3Clear
  · exact hw

theorem MemForm.queueAccess {fn : Fn} {q : Nat} {f : State → State} (hw : s.MemForm) (hf : ∀ s, s.MemForm → (f s).MemForm) :
    (s.queueAccess fn q f).MemForm := .ite hw (.ite (hf _ hw) hw.blockWrite)

theorem MemForm.doorbell {fn : Fn} {q off : Nat} {v : W64} (hw : s.MemForm) : (s.doorbell fn q off v).MemForm :=
  .ite hw (.ite (.ite hw hw.blockWrite) (.ite (.modQueue (.ite hw hw.blockWrite)) (.deviceAdd (.ite hw hw.blockWrite))))

theorem MemForm.mbEnd {code : Nat} (hw : s.MemForm) : (s.mbEnd code).MemForm := hw.same.send

theorem MemForm.mbRes {n : Nat} {v : W64} (hw : s.MemForm) : (s.mbRes n v).MemForm := hw.same

theorem MemForm.mbRun {code : Nat} {f : Nat → State → State} (hw : s.MemForm) (hf : ∀ m s, s.MemForm → (f m s).MemForm) :
    (s.mbRun code f).MemForm := .ite hw (.ite hw.mbEnd (hf _ _ hw))

theorem MemForm.joinPart {reset : Bool} {cl : Nat} (hw : s.MemForm) : (joinPart reset s cl).MemForm := hw.modCluster

theorem MemForm.mbCreate {p : Nat} (hw : s.MemForm) : (mbCreate p s).MemForm :=
  .ite hw.mbEnd
  (.ite hw.mbEnd
  (.ite hw.mbEnd (.ite hw.mbEnd (.mbEnd (.mbRes (.measureMonitor (.foldl (fun _ _ hw => hw.joinPart) hw.same)))))))

theorem MemForm.mbModify {p : Nat} (hw : s.MemForm) : (mbModify p s).MemForm :=
  .ite hw.mbEnd
  (.ite hw.mbEnd (.ite hw.mbEnd (.ite hw.mbEnd (.ite hw.mbEnd (.mbEnd (.mbRes (.foldl (fun _ _ hw => hw.joinPart) hw.same)))))))

theorem MemForm.mbStart {p : Nat} (hw : s.MemForm) : (mbStart p s).MemForm :=
  .ite hw.mbEnd (.ite hw.mbEnd (.ite hw.mbEnd hw.modHart.modPart.mbEnd))

theorem MemForm.hsmStart {caller target : Nat} {pc a1 : W64} (hw : s.MemForm) : (s.hsmStart caller target pc a1).MemForm := by
  unfold State.hsmStart
  dsimp only
  split
  · exact hw
  · exact .ite hw.modHart hw

theorem MemForm.hsmStop {h : Nat} (hw : s.MemForm) : (s.hsmStop h).MemForm := .ite hw.modHart hw

theorem MemForm.hartMode {h : Nat} {user : Bool} (hw : s.MemForm) : (s.hartMode h user).MemForm := .ite hw.modHart hw

theorem MemForm.hartReg {h : Nat} {r : HartReg} {v : W64} (hw : s.MemForm) : (s.hartReg h r v).MemForm := .ite hw hw.modHart

theorem MemForm.hartTrap {h : Nat} {vs : Bool} {cause tval : W64} (hw : s.MemForm) : (s.hartTrap h vs cause tval).MemForm :=
  .ite hw hw.modHart

theorem MemForm.hartSret {h : Nat} (hw : s.MemForm) : (s.hartSret h).MemForm := .ite hw hw.modHart

theorem MemForm.hartLoad {h rd pa n : Nat} {signed : Bool} (hw : s.MemForm) : (s.hartLoad h rd pa n signed).MemForm :=
  hw.hartReg

theorem MemForm.hartMask {h rd : Nat} (hw : s.MemForm) : (s.hartMask h rd).MemForm := hw.hartReg

theorem MemForm.mbStop {p : Nat} (hw : s.MemForm) : (mbStop p s).MemForm := .ite hw.mbEnd (.ite hw.mbEnd hw.modPart)

theorem MemForm.mbDelete {p : Nat} (hw : s.MemForm) : (mbDelete p s).MemForm := by
  unfold State.mbDelete
  extract_lets x s1 s2 s3
  have h1 : s1.MemForm := hw.unpin
  have h2 : s2.MemForm := h1.same
  have h3 : s3.MemForm := .foldl (fun _ _ hw => hw.modCluster) h2
  exact .ite hw.mbEnd (.ite hw.mbEnd h3.measureMonitor.mbEnd)

theorem MemForm.mbSetwin {p : Nat} (hw : s.MemForm) : (mbSetwin p s).MemForm :=
  .ite hw.mbEnd (.ite hw.mbEnd (.ite hw.mbEnd hw.same.mbEnd))

theorem MemForm.mbQuery {p : Nat} (hw : s.MemForm) : (mbQuery p s).MemForm := hw.mbRes.mbRes.mbRes.mbRes.mbEnd

theorem MemForm.mbcmdWrite {v : W64} (hw : s.MemForm) : (s.mbcmdWrite v).MemForm := .ite hw (.ite hw.same hw.same)

theorem MemForm.mbWrite {off : Nat} {v : W64} (hw : s.MemForm) : (s.mbWrite off v).MemForm :=
  .ite hw.mbcmdWrite (.ite hw.same (.ite hw.same hw))

theorem MemForm.stopWork {p : Nat} (hw : s.MemForm) : (s.stopWork p).1.MemForm := by
  unfold State.stopWork
  dsimp only
  split
  · refine .foldl (fun _ _ hw => ?_) hw
    split
    · exact hw
    · split
      · exact hw
      · exact hw
      · exact hw.dropWork
      · exact hw.breakSwap.discardAll
  · refine .foldl (fun _ _ hw => .ite (.carafeEnd (.ite hw.sfaEnd hw)) (.ite hw.sfaEnd hw)) ?_
    refine .foldl (fun _ _ hw => ?_) hw
    split
    · exact hw
    · split
      · exact hw
      · exact hw
      · exact hw.dropWork
      · exact hw.breakSwap.discardAll

theorem MemForm.stopFinish {p : Nat} (hw : s.MemForm) : (s.stopFinish p).MemForm :=
  .pmSettle (.modPage (.modPart (.foldl (fun _ _ hw => hw.modHart) (.foldl (fun _ _ hw => hw.portOff)
  (.foldl (fun _ _ hw => hw.queueOff) (.foldl (fun _ _ hw => hw.dropGrid) hw))))))

theorem MemForm.partitionStopped {p : Nat} (hw : s.MemForm) : (s.partitionStopped p).MemForm :=
  .ite hw (.ite hw.stopWork (.ite hw.stopWork.stopFinish.mbEnd hw.stopWork.stopFinish))

theorem MemForm.sbi {h : Nat} {fid : W64 → Bool} {f : Nat → State → State} (hw : s.MemForm) (hf : ∀ m s, s.MemForm →
    (f m s).MemForm) : (s.sbi h fid f).MemForm := by
  unfold State.sbi
  dsimp only
  split
  · exact .ite (hf _ _ hw) hw
  · exact hw

theorem MemForm.sbiCall {n : Nat} {f : W64 → Nat → State → State} (hw : s.MemForm) (hf : ∀ a0 a1 s, s.MemForm →
    (f a0 a1 s).MemForm) : (s.sbiCall n f).MemForm := hw.sbi (fun _ _ hw => hf _ _ _ hw)

theorem MemForm.sbiAnswer {e : Int} {v : W64} (hw : s.MemForm) : (s.sbiAnswer e v).MemForm := hw.modHart.answer

theorem MemForm.sbiFail {e : Int} (hw : s.MemForm) : (s.sbiFail e).MemForm := by
  unfold State.sbiFail
  dsimp only [State.fresh, State.freeIdx]
  exact hw.same.sbiAnswer

theorem MemForm.sbiInfo {sel : W64} {p : Nat} (hw : s.MemForm) : (sbiInfo sel p s).MemForm := by
  unfold State.sbiInfo
  dsimp only
  split
  · exact hw.sbiAnswer
  · exact hw.sbiAnswer
  · exact hw.sbiAnswer
  · exact hw.sbiAnswer
  · exact hw.sbiAnswer
  · exact hw.sbiAnswer
  · exact hw.sbiAnswer
  · exact hw.sbiFail

theorem MemForm.sbiRoot {a : W64} {p : Nat} (hw : s.MemForm) : (sbiRoot a p s).MemForm :=
  .ite hw.sbiFail hw.modPart.tlbDrop.sbiAnswer

theorem MemForm.sbiTrapHart {a : W64} {p : Nat} (hw : s.MemForm) : (sbiTrapHart a p s).MemForm :=
  .ite hw.sbiFail hw.modPart.sbiAnswer

theorem MemForm.sbiWbase {a : W64} {p : Nat} (hw : s.MemForm) : (sbiWbase a p s).MemForm := .ite hw.sbiFail hw.modPart.sbiAnswer

theorem MemForm.sbiBlkacc {p : Nat} (hw : s.MemForm) : (sbiBlkacc p s).MemForm := hw.sbiAnswer

/-! ### Power -/

theorem MemForm.alert {m : BitVec 3} (hw : s.MemForm) : (s.alert m).MemForm := hw.same

theorem MemForm.setTemp {k : Sensor} {v : Int} (hw : s.MemForm) : (s.setTemp k v).MemForm := by
  unfold State.setTemp
  extract_lets held src s1
  have h1 : s1.MemForm := by
    unfold s1
    cases k with
    | core => exact hw.modCluster
    | l2 => exact hw.same
    | hbm => exact hw.same
  exact .ite h1.alert h1

theorem MemForm.powerOn (hw : s.MemForm) : s.powerOn.MemForm := .ite hw hw.same

theorem MemForm.holdReset {code : BitVec 8} (hw : s.MemForm) : (s.holdReset code).MemForm := hw.same

theorem MemForm.railFault {r : Rail} (hw : s.MemForm) : (s.railFault r).MemForm := by
  unfold State.railFault
  extract_lets off s1
  have h1 : s1.MemForm := hw.holdReset.alert
  exact .ite hw h1.same

theorem MemForm.powerDown (hw : s.MemForm) : s.powerDown.MemForm := ⟨memWf_reset.1, And.right hw⟩

theorem MemForm.thermalHold {cl co : Nat} {v : Int} (hw : s.MemForm) : (s.thermalHold cl co v).MemForm := .ite hw.setTemp hw

theorem MemForm.thermalHoldEnd {cl : Nat} (hw : s.MemForm) : (s.thermalHoldEnd cl).MemForm := .ite hw.modCluster hw

theorem MemForm.thermalTrip {k : Sensor} {v : Int} (hw : s.MemForm) : (s.thermalTrip k v).MemForm := by
  unfold State.thermalTrip
  extract_lets s1
  have h1 : s1.MemForm := hw.setTemp.holdReset.alert
  exact .ite h1.same hw

theorem MemForm.thermalEvent (hw : s.MemForm) : s.thermalEvent.MemForm := .ite hw.same.alert hw

theorem MemForm.smbFor {f : State → State} (hw : s.MemForm) (hf : ∀ s, s.MemForm → (f s).MemForm) : (s.smbFor f).MemForm :=
  .ite (hf _ hw) hw

theorem MemForm.smbRead {code : Byte} {n : Nat} {v : W64} (hw : s.MemForm) : (s.smbRead code n v).MemForm :=
  hw.smbFor (fun _ hw => hw.same.answer)

theorem MemForm.execAlertReg (hw : s.MemForm) : NextWf (execAlertReg s) := by
  unfold Machine.execAlertReg
  dsimp only
  refine .next ?_
  split
  · exact hw.smbRead
  · exact hw.smbFor (fun _ hw => .ite hw.same hw.answer)

/-! ### The scheduler -/

theorem MemForm.headUpdate {g : Nat} (hw : s.MemForm) : (s.headUpdate g).MemForm := .ite hw hw.modGrid

theorem MemForm.passOver {t : State} {g : Nat} {own : Bool} {cores : List Nat} (hw : t.MemForm) :
    (s.passOver g own cores t).MemForm := hw

theorem MemForm.putTeam {t : State} {g n cl : Nat} (hw : s.MemForm) (ht : s.putTeam g n cl = some t) : t.MemForm := by
  unfold State.putTeam at ht
  dsimp only at ht
  split at ht
  · cases ht
  · split at ht
    · cases ht
      exact hw.beginRestore
    · split at ht
      · cases ht
      · cases ht
        exact hw.placeTeam.recheckTeam

theorem MemForm.putCohort {t : State} {g cl : Nat} {l : List Nat} (hw : s.MemForm) (ht : s.putCohort g cl l = some t) :
    t.MemForm := by
  induction l generalizing s with
  | nil =>
    cases ht
    exact hw
  | cons n rest ih =>
    unfold State.putCohort at ht
    split at ht
    · cases ht
    · next he => exact ih (hw.putTeam he) ht

theorem MemForm.placeCohort {t : State} {g c : Nat} (hw : s.MemForm) (ht : s.placeCohort g c = some t) : t.MemForm := by
  unfold State.placeCohort at ht
  dsimp only at ht
  split at ht
  · cases ht
  · obtain ⟨cl, -, he⟩ := List.exists_of_findSome?_eq_some ht
    exact hw.putCohort he

theorem MemForm.laterCohort {t : State} {g c : Nat} (hw : s.MemForm) (ht : s.laterCohort g c = some t) : t.MemForm := by
  obtain ⟨d, -, he⟩ := List.exists_of_findSome?_eq_some ht
  exact hw.placeCohort he

theorem MemForm.decision {t : State} {g : Nat} (hw : s.MemForm) (ht : s.decision g = some t) : t.MemForm := by
  unfold State.decision at ht
  dsimp only at ht
  split at ht
  · cases ht
  · split at ht
    · cases ht
    · split at ht
      · next he =>
        cases ht
        exact (hw.placeCohort he).passOver
      · split at ht
        · cases ht
        · obtain ⟨u, hu, rfl⟩ := Option.map_eq_some_iff.1 ht
          exact (hw.laterCohort hu).passOver

theorem MemForm.headUpdates {l : List Nat} (hw : s.MemForm) : (l.foldl State.headUpdate s).MemForm :=
  .foldl (fun _ _ h => h.headUpdate) hw

theorem MemForm.dispatch {g : Nat} (hw : s.MemForm) : (s.dispatch g).MemForm := by
  unfold State.dispatch
  extract_lets gs s1
  have h1 : s1.MemForm := hw.headUpdates
  refine .ite hw (.ite h1 ?_)
  split
  · next ht => exact (h1.decision ht).headUpdates.recheckAll
  · exact h1

theorem MemForm.evictFor {g : Nat} (hw : s.MemForm) : (s.evictFor g).MemForm := by
  unfold State.evictFor
  dsimp only
  split
  · exact hw
  · split
    · exact hw
    · split
      · exact hw.headUpdate
      · exact .ite hw.headUpdate (.ite hw.headUpdate.saveFirst.modGrid hw.headUpdate.saveFirst)

theorem MemForm.splitFor {gk : Nat} (hw : s.MemForm) : (s.splitFor gk).MemForm := by
  unfold State.splitFor
  dsimp only
  split
  · refine .ite hw ?_
    split
    · next ht => exact (hw.modCluster.modTeam.fetchTask ht).wake
    · exact hw.modCluster.modTeam
  · exact hw

theorem MemForm.taskSplit {cl co g : Nat} (hw : s.MemForm) : (s.taskSplit cl co g).MemForm :=
  .ite hw (.foldl (fun _ _ hw => hw.splitFor) hw)

theorem MemForm.effYieldt {sd : Nat} (hw : s.MemForm) : (s.effYieldt sd).s.MemForm := by
  unfold State.effYieldt
  dsimp only
  split
  · exact hw.putS
  · split
    · exact hw
    · split
      · exact hw
      · split
        · exact hw.beginSave
        · split
          · exact hw.beginSave.putS
          · exact hw.beginSave

theorem MemForm.opclsWrite {n : Nat} {v : W64} (hw : s.MemForm) : (s.opclsWrite n v).MemForm := .ite hw hw.same

theorem MemForm.svbCommand {cl : Nat} {v : BitVec 8} (hw : s.MemForm) : (s.svbCommand cl v).MemForm := hw.same

theorem MemForm.joinPool {cl : Nat} (hw : s.MemForm) : (s.joinPool cl).MemForm := hw.modCluster

theorem MemForm.startVoltage {cl : Nat} (hw : s.MemForm) : (s.startVoltage cl).MemForm := hw.svbCommand.modCluster

theorem MemForm.nextPointStep {cl : Nat} (hw : s.MemForm) : (s.nextPointStep cl).MemForm :=
  .ite hw (.ite hw.startVoltage (.ite hw.modCluster (.ite hw.startVoltage hw.joinPool)))

theorem MemForm.reassign {cl c : Nat} (hw : s.MemForm) : (s.reassign cl c).MemForm := hw.modCluster.nextPointStep

theorem MemForm.poolInterval {p : Nat} (hw : s.MemForm) : (s.poolInterval p).MemForm := by
  unfold State.poolInterval
  dsimp only
  split
  · exact hw
  · refine .foldl (fun _ _ hw => ?_) hw.modPart
    split
    · split
      · exact hw.reassign
      · exact hw
    · exact hw

theorem MemForm.voltageSettled {cl : Nat} (hw : s.MemForm) : (s.voltageSettled cl).MemForm :=
  .ite hw.modCluster.nextPointStep hw

theorem MemForm.frequencyEnd {cl : Nat} (hw : s.MemForm) : (s.frequencyEnd cl).MemForm := by
  unfold State.frequencyEnd
  split
  · exact hw
  · exact .ite hw hw.modCluster.nextPointStep

theorem MemForm.refill {p : Nat} (hw : s.MemForm) : (s.refill p).MemForm := hw.modPart

theorem MemForm.boostStep {p cl : Nat} (hw : s.MemForm) : (s.boostStep p cl).MemForm :=
  .ite hw (.ite (.ite hw.modCluster hw) (.ite hw.modCluster hw))

theorem MemForm.boostRefill (hw : s.MemForm) : s.boostRefill.MemForm :=
  .ite hw (.foldl (fun _ _ hw => .foldl (fun _ _ hw => hw.boostStep) hw) (.same (.foldl (fun _ _ hw => hw.refill) hw)))

/-! ### The host interface -/

theorem MemForm.pageWrite {p off : Nat} {v : W64} (hw : s.MemForm) : (s.pageWrite p off v).MemForm := by
  unfold State.pageWrite
  dsimp only
  split
  · exact hw.modPage
  · exact hw.pmreq1Write
  · exact hw.modPage
  · exact hw.ckpt0Write
  · exact hw.modPage
  · exact hw.modPage
  · exact hw.modPage
  · exact hw.trapRegWrite
  · exact hw.trapRegWrite
  · exact hw.trapRegWrite
  · exact hw.dbgselWrite
  · exact hw.modPage
  · exact hw.modPage
  · exact hw.modPage
  · exact hw.modPage
  · exact hw.sampcWrite
  · exact hw.modPage
  · exact hw.trcaWrite
  · exact hw.modPage
  · exact hw.modPage
  · exact hw.hcmdWrite
  · exact hw.himmWrite
  · exact hw.modPage
  · exact hw

theorem MemForm.devPageWrite {off : Nat} {v : W64} (hw : s.MemForm) : (s.devPageWrite off v).MemForm :=
  .ite hw (.ite hw.opclsWrite (.ite hw.same (.ite hw.same (.ite hw.modPart hw))))

theorem MemForm.bar0Write {fn : Fn} {off : Nat} {v : W64} (hw : s.MemForm) : (s.bar0Write fn off v).MemForm :=
  .ite hw (.ite (.ite hw.rcvgo hw) (.ite hw (.ite (.ite hw.mbWrite hw) (.ite (hw.queueAccess (fun _ hw => hw.qdWrite))
  (.ite (hw.portAccess (fun _ hw => .ite hw.portWrite hw)) (.ite (.ite hw hw.blockWrite) hw))))))

theorem MemForm.regWrite {sp : Space} {off : Nat} {v : W64} (hw : s.MemForm) : (s.regWrite sp off v).MemForm := by
  unfold State.regWrite
  split
  · exact hw.bar0Write
  · exact hw.doorbell
  · exact .ite hw.pageWrite hw
  · exact hw.devPageWrite
  · exact hw

theorem MemForm.regMark {sp : Space} {off : Nat} (hw : s.MemForm) : (s.regMark sp off).MemForm := by
  unfold State.regMark
  dsimp only
  split
  · exact .ite hw (.ite hw.tailRead (.ite hw.headRead hw))
  · exact hw

theorem MemForm.w1cWrite {sp : Space} {off : Nat} {v : W64} (hw : s.MemForm) : (s.w1cWrite sp off v).MemForm := by
  unfold State.w1cWrite
  dsimp only
  split
  · exact .ite hw (.ite hw.pageWrite (.ite hw.modPage hw))
  · exact .ite hw (.ite (.ite hw.mbWrite hw) (.ite (hw.queueAccess (fun _ hw => hw.qd3Clear))
      (.ite (hw.portAccess (fun _ hw => hw.modPort)) hw)))
  · exact hw

theorem MemForm.w4Miss {fn : Fn} (hw : s.MemForm) : (s.w4Miss fn).MemForm := by
  unfold State.w4Miss
  split
  · exact hw.same
  · exact .ite hw.modPart hw

theorem MemForm.bar4Mark {fn : Fn} {off len : Nat} {write : Bool} (hw : s.MemForm) : (s.bar4Mark fn off len write).MemForm := by
  unfold State.bar4Mark
  split
  · exact hw
  · exact .foldl (fun _ _ hw => hw.setAD) hw

theorem MemForm.bar4Read {fn : Fn} {off len : Nat} (hw : s.MemForm) : (s.bar4Read fn off len).MemForm := by
  unfold State.bar4Read
  split
  · exact hw
  · split
    · exact .ite hw.answer hw
    · split
      · exact hw.w4Miss.answer
      · exact hw.bar4Mark.answer

theorem MemForm.bar4Write {fn : Fn} {off : Nat} {data : List Byte} (hw : s.MemForm) : (s.bar4Write fn off data).MemForm := by
  unfold State.bar4Write
  dsimp only
  split
  · exact hw
  · split
    · exact .ite hw.same hw
    · split
      · exact hw.w4Miss
      · refine .recheckAll ?_
        refine .settleHome ?_
        refine .foldl (fun _ _ hw => ?_) hw.bar4Mark
        split
        · exact hw.hostWrite
        · exact hw.devWrite
        · exact hw

/-! ### Scalar words -/

theorem MemForm.sTwo {h : Hdr} {f : SF} {op64 : W64 → W64 → W64} {op32 : W32 → W32 → W32} (hw : s.MemForm) :
    (sTwo h f op64 op32 s).MemForm := hw.issueWord (fun _ _ hw => hw.putS)

theorem MemForm.sDivide {h : Hdr} {f : SF} {op64 : W64 → W64 → W64} {op32 : W32 → W32 → W32} (hw : s.MemForm) :
    (sDivide h f op64 op32 s).MemForm := hw.issueWord (fun _ _ hw => .ite hw.addDue.count hw.addDue)

theorem MemForm.sOne {h : Hdr} {f : SF} {op64 : W64 → W64} {op32 : W32 → W32} (hw : s.MemForm) :
    (sOne h f op64 op32 s).MemForm := hw.issueWord (fun _ _ hw => hw.putS)

/-! ### Team words -/

theorem MemForm.passTo {gk : Nat} (hw : s.MemForm) : (s.passTo gk).MemForm := by
  unfold State.passTo
  extract_lets k s1 s2 s3
  have h2 : s2.MemForm := hw.modCore.modGroup
  have h3 : s3.MemForm := by
    unfold s3
    split
    · exact h2.wake
    · exact h2
  exact .ite h3.dropBaton h3

theorem MemForm.dropRegs {n : Nat} (hw : s.MemForm) : (s.dropRegs n).MemForm := hw.modRegs

theorem MemForm.openTask {t : Task} (hw : s.MemForm) : (s.openTask t).MemForm := hw.modTeam.modGrid.modCluster

theorem MemForm.execReggrow {h : Hdr} {f : SF} (hw : s.MemForm) : NextWf (execReggrow h f s) := by
  unfold Machine.execReggrow
  dsimp only
  refine .next ?_
  refine .issueWord hw (fun _ _ hw => ?_)
  split
  · exact hw.putS
  · split
    · exact hw.modGrp.putS
    · exact hw

theorem MemForm.execRegshrink {h : Hdr} {f : SF} (hw : s.MemForm) : NextWf (execRegshrink h f s) := by
  unfold Machine.execRegshrink
  dsimp only
  refine .next ?_
  refine .issueWord hw (fun _ _ hw => ?_)
  split
  · exact hw
  · split
    · exact hw
    · exact hw.modGrp.dropRegs.grantRows

theorem MemForm.execBatget {h : Hdr} {f : SF} (hw : s.MemForm) : NextWf (execBatget h f s) := by
  unfold Machine.execBatget
  dsimp only
  refine .next ?_
  refine .issueWord hw (fun _ _ hw => ?_)
  split
  · exact hw.modCore
  · split
    · exact hw
    · exact hw.modCore

/-- A group asks for its task's next chunk, or parks for one. -/
theorem MemForm.asksTask {gk sd : Nat} (hw : s.MemForm) : (match s.fetchTask gk sd with
    | some t => ({ s := t } : Eff)
    | none => { s := s, fate := .park (.task sd) }).s.MemForm := by
  split
  · next ht => exact hw.fetchTask ht
  · exact hw

theorem MemForm.execTskget {h : Hdr} {f : SF} (hw : s.MemForm) : NextWf (execTskget h f s) := by
  refine .next (hw.issueWord fun _ s hw => ?_)
  dsimp only
  split
  · exact hw.asksTask
  · split
    · exact hw.putTask
    · exact hw.openTask.asksTask

/-! ### The tree word -/

theorem MemForm.effTree {h : Hdr} {f : TF} {act : Mask} (hw : s.MemForm) : (effTree h f act s).s.MemForm := by
  unfold State.effTree
  extract_lets r paths accs glob ld st dataOf leak badLanes mis fault sp spPieces absent wide need need8 live n s1 s2 s3
    okLoads g
    s4 spLoads loaded regWrites ws s5 s6 s7 s8 s9 rec_ s10 next lanesAt s11 moved
  have h2 : s2.MemForm := .ite hw.countMisal hw.countMisal.count
  have h4 : s4.MemForm := h2.touchPages.countOver.readGlobs
  have h5 : s5.MemForm := .ite h4.addDue h4.modRegs
  have h7 : s7.MemForm := .foldl (fun _ _ hw => hw.writeGlob) h5.touchPages.countStored
  have h9 : s9.MemForm := .foldl (fun _ _ hw => .foldl (fun _ _ hw => hw.writeSpad) hw) h7.settleMarks
  have h11 : s11.MemForm := .foldl (fun _ _ hw => .ite hw hw.modGrp.foldSig) h9.logPieces.logPieces
  clear_value s11
  split
  · exact hw
  · split
    · exact .ite hw.modGrp hw
    · split
      · exact hw
      · split
        · exact hw
        · split
          · exact hw.count
          · split
            · exact h11
            · exact h11.modGrp

/-! ### Time -/

theorem MemForm.tickCluster {ns cl : Nat} (hw : s.MemForm) : (s.tickCluster ns cl).MemForm := hw.modCluster

theorem MemForm.tickCores {ns cl : Nat} (hw : s.MemForm) : (s.tickCores ns cl).MemForm := .foldl (fun _ _ hw => hw.modCore) hw

theorem MemForm.tickSpread {ns : Nat} (hw : s.MemForm) : (s.tickSpread ns).MemForm := .ite hw.same hw.same

theorem MemForm.tick {ns : Nat} (hw : s.MemForm) : (s.tick ns).MemForm :=
  .tickSpread (.foldl (fun _ _ hw => hw.tickCores.tickCluster) hw.streamsDue.portsWaiting.same)

/-! ### The instructions and the turns -/

/-- The meaning of every instruction keeps the form. -/
theorem MemForm.exec (i : Instr) (hw : s.MemForm) : NextWf (exec i s) := by
  cases i
  case ld => exact .next (hw.memWord (fun _ _ hw => hw.effLd))
  case st => exact .next (hw.memWord (fun _ _ hw => hw.effSt))
  case sld => exact hw.execSld
  case sst => exact hw.execSst
  case ctradd => exact hw.execCtradd
  case ctrwait => exact hw.execCtrwait
  case ctrrd => exact hw.execCtrrd
  case waitk => exact hw.execWaitk
  case pf => exact hw.execPf
  case fence => exact .next (hw.accessWord (fun _ _ hw => hw.releaseBy.acquireBy))
  case remoteAccess => exact hw.execRemoteAccess
  case qpush => exact hw.execQpush
  case qpop => exact hw.execQpop
  case qpushSlotWrite => exact hw.execQpushSlotWrite
  case qpopEntryCopy => exact hw.execQpopEntryCopy
  case atomAdd | atomMin | atomMinu | atomMax | atomMaxu | atomAnd | atomOr | atomXor | atomExch | atomCas | atomFadd
      | atomFmin | atomFmax => exact .next hw.atomWord
  case atomicExecute => exact hw.execAtomicExecute
  case atomicTokenPass => exact .next (.ite hw (.ite (.modGrid (.ite hw.drainTeam hw)) (.ite hw.drainTeam hw)))
  case portEnable => exact .next (hw.portAccess (fun _ hw => hw.portOn))
  case portDisable => exact .next (hw.portAccess (fun _ hw => hw.portOff))
  case portModeSet => exact .next (hw.portAccess (fun _ hw => hw.portMode))
  case portTrained => exact .next (.ite hw.modPort.pump hw)
  case dataFlitReceive => exact .next (.ite hw.dataFlit hw)
  case ackFlitReceive => exact .next (.ite (.ite hw.fecCount.dropBad (.ite hw.fecCount.ackTo hw.fecCount)) hw)
  case replayRequest => exact .next (.ite (.ite hw.fecCount.dropBad (.ite hw.fecCount.replayFrom hw.fecCount)) hw)
  case ackTimer => exact .next (.ite hw.sendControl.modPort hw)
  case retrainDone => exact .next (.ite hw.modPort.resend.pump hw)
  case streamFlitReceive => exact .next (.ite hw.streamFlit hw)
  case streamEntryWrite => exact .next hw.streamWrite
  case bootVerify => exact .next hw.bootVerify
  case configRequest => exact .next hw.configRequest
  case rcvgo => exact .next hw.rcvgo
  case getVersion | getCapabilities | negotiateAlgorithms | getDigests | getCertificate | challenge | getMeasurements
      | spdmUnsupportedRequest => exact .next hw.spdm
  case cpaG2S | cpaS2G | cpaG2G | cpaS2S => exact .next (hw.copyWord (fun _ _ hw => hw.effCpa))
  case cpavGlobal | cpavScratchpad => exact .next (hw.copyWord (fun _ _ hw => hw.effCpav))
  case cptG2S | cptS2G => exact .next (hw.copyWord (fun _ _ hw => hw.effCpt))
  case cpmGlobal | cpmScratchpad => exact .next (hw.copyWord (fun _ _ hw => hw.effCpm))
  case copyLanding => exact hw.execCopyLanding
  case cpavCommit => exact hw.execCpavCommit
  case multicastDelivery => exact hw.execMulticastDelivery
  case crfcfg => exact .next (hw.accessWord (fun _ _ hw => hw.effCrfcfg))
  case crfroute => exact .next (hw.accessWord (fun _ _ hw => hw.effCrfroute))
  case crfdep => exact .next (hw.accessWord (fun _ _ hw => hw.effCrfdep))
  case crfstat | sfastat | ssel | smov | smovlo | sbfx | sbfi | slea | srd => exact .next (hw.issueWord (fun _ _ hw => hw.putS))
  case crfdrop => exact hw.execCrfdrop
  case depositArrival => exact hw.execDepositArrival
  case depositLanded => exact hw.execDepositLanded
  case slotDeadline => exact hw.execSlotDeadline
  case vfadd | vfsub | vfmul | vfmin | vfmax | vadd | vsub | vmul | vmulh | vmulhu | vand | vor | vxor | vshl | vshr | vsar
      | vmin | vminu | vmax | vmaxu => exact .next hw.v3Two
  case vfma | vmad => exact .next hw.v3Three
  case vfneg | vfabs | vfrnd | vnot | vabs | vneg | vpopc | vclz => exact .next hw.v3One
  case vfcmp | vcmp => exact .next hw.v3Rel
  case vfclass => exact .ite (.next hw.v3One) (.next (hw.issueWord (fun _ _ hw => hw.putP)))
  case vfdiv => exact .next hw.v3TwoLong
  case vexp2 | vlog2 | vrcp | vrsq | vsqrt | vsinpi | vcospi | vtanh | vsigm => exact .next hw.v3OneLong
  case vfaddImm | vfmulImm | vfminImm | vfmaxImm | vaddImm | vmulImm | vandImm | vorImm | vxorImm | vshlImm | vshrImm
      | vsarImm | vminImm | vminuImm | vmaxImm | vmaxuImm => exact .next hw.viTwo
  case vfcmpImm | vcmpImm => exact .next hw.viRel
  case vmovFloatImm | vmovImm => exact .next hw.viMov
  case vmov | vsel | vbcast | vlaneid | vcvt | vcvtbsUnpack => exact .next (hw.issueWord (fun _ _ hw => hw.putV))
  case vshuf => exact hw.execVshuf
  case vballot => exact .next (hw.issueWord (fun _ _ hw => hw.putS.putS))
  case vany | vall => exact .next (hw.issueWord (fun _ _ hw => hw.setQ))
  case vred | vfred => exact .next hw.reduceWord
  case vscan | vfscan => exact .next hw.scanWord
  case vcvtbsPack =>
    exact .next (hw.issueWord (fun _ _ hw => .countPois (.ite (.count (.addDue (.ite hw hw.count)))
      (.addDue (.ite hw hw.count)))))
  case mma => exact hw.execMma
  case maccld | maccst | mcvt => exact .next hw.moveWord
  case shpset | runend | strict => exact .next (hw.issueWord (fun _ _ hw => hw.modGrp))
  case smooth => exact hw.execSmooth
  case matrixEngineExec => exact .next (.ite hw hw.engineStep)
  case ttq => exact .next (hw.accessWord (fun _ _ hw => hw.effTtq))
  case ttwait => exact hw.execTtwait
  case nzscan => exact .next (hw.accessWord (fun _ _ hw => hw.effScan))
  case macroOp => exact hw.execMacroOp
  case nzsRun => exact .next (.ite hw hw.scanStep)
  case coll => exact .next (hw.accessWord (fun _ _ hw => hw.effColl))
  case collw => exact .next (hw.issueWord (fun _ _ hw => hw.effCollw))
  case collFlitArrival => exact hw.execCollFlitArrival
  case collStepTimeout => exact .next hw.collStepTimeout
  case collResultTimeout => exact .next hw.collResultTimeout
  case nop | trapWord | syscall | bkpt => exact .next (hw.issueWord (fun _ _ hw => hw))
  case bra | brq => exact .next (hw.issueWord (fun _ _ hw => hw.branchAll))
  case jmp | ret => exact .next (hw.issueWord (fun _ _ hw => hw.jumpReg))
  case jmpv => exact hw.execJmpv
  case call => exact .next (hw.issueWord (fun _ _ hw => hw.putLink.branchAll))
  case calli => exact hw.execCalli
  case exitWord => exact .next ((hw.issueWord (fun _ _ hw => hw.modGrp)).groupExit)
  case trapRingSet => exact .next hw.trapRegWrite
  case trapRecord => exact .next hw.trapRecord
  case ckpt0Go => exact .next (.ite hw.ckpt0Write hw)
  case dbgselGo => exact .next (.ite hw.dbgselWrite hw)
  case traceArm => exact .next (.ite hw.trcaWrite hw)
  case samplingEnable => exact .next (.ite hw.sampcWrite hw)
  case sampleRecord => exact .next hw.sampleRecord
  case hangCheck => exact .next hw.hangCheck
  case runStart => exact .next hw.startRun
  case longLatencyResult => exact .next hw.writeDue
  case tlbWalk => exact .next hw.walkStep
  case icacheFill => exact .next (.ite hw.fillLine hw)
  case runendExpiry => exact .next (.ite hw.modGroup hw)
  case preempt | releaseHeld => exact .next (.ite hw.pmreq1Write hw)
  case preemptEstimate => exact .next hw.preemptEstimate
  case drainDeadline => exact .next hw.drainDeadline
  case saveComplete => exact .next hw.saveComplete
  case restoreComplete => exact .next hw.restoreComplete
  case senioritySave => exact .next hw.senioritySave
  case frost | thaw => exact .next (.ite hw.modCore hw)
  case barometerTick => exact .next hw.barometerTick
  case stallSample => exact .next hw.stallSample
  case draftTick => exact .next hw.draftTick
  case draftStop => exact .next hw.draftStop
  case draftAbandon => exact .next hw.draftAbandon
  case draftRelease => exact .next hw.draftRelease
  case sfaload => exact .next (hw.accessWord (fun _ _ hw => hw.effSfaload))
  case sfaclamp => exact .next (hw.accessWord (fun _ _ hw => hw.effSfaclamp))
  case sfaseed => exact .next (hw.issueWord (fun _ _ hw => hw.effSfaseed))
  case sfasweep => exact .next (hw.issueWord (fun _ _ hw => hw.effSfasweep))
  case sfaread => exact .next (hw.accessWord (fun _ _ hw => hw.effSfaread))
  case sfaLoadRun => exact .next hw.sfaLoadRun
  case sfaClampRun => exact .next hw.sfaClampRun
  case sfaSeedRun => exact .next hw.sfaSeedRun
  case sfaColourStep => exact .next hw.sfaColourStep
  case sfaReadRun => exact .next hw.sfaReadRun
  case sideLogRetry => exact .next (.ite hw.retryLog hw)
  case launchRecordConsume => exact .next hw.launchConsume
  case gridEnd => exact .next hw.gridEnd
  case softError => exact .next (.ite hw.corrected hw.uncorrected)
  case trapret => exact hw.execTrapret
  case ctlrd => exact hw.execCtlrd
  case ctlwr => exact hw.execCtlwr
  case sigrd => exact .next (hw.issueWord (fun _ _ hw => .putS (.ite hw.modGrp hw)))
  case smpctl => exact hw.execSmpctl
  case tlbinv h f => exact MemForm.execTlbinv (f := f) hw
  case tlbinvall h f => exact MemForm.execTlbinvall (f := f) hw
  case cwb => exact hw.execCwb
  case cinv => exact hw.execCinv
  case halt => exact hw.execHalt
  case create => exact .next (hw.mbRun (fun _ _ hw => hw.mbCreate))
  case modify => exact .next (hw.mbRun (fun _ _ hw => hw.mbModify))
  case start => exact .next (hw.mbRun (fun _ _ hw => hw.mbStart))
  case stop => exact .next (hw.mbRun (fun _ _ hw => hw.mbStop))
  case partitionStopped => exact .next hw.partitionStopped
  case delete => exact .next (hw.mbRun (fun _ _ hw => hw.mbDelete))
  case setwin => exact .next (hw.mbRun (fun _ _ hw => hw.mbSetwin))
  case query => exact .next (hw.mbRun (fun _ _ hw => hw.mbQuery))
  case mailboxUnknownCmd => exact .next (.ite hw.mbEnd hw)
  case getInfo => exact .next (hw.sbiCall (fun _ _ _ hw => hw.sbiInfo))
  case setRoot => exact .next (hw.sbiCall (fun _ _ _ hw => hw.sbiRoot))
  case setTrapHart => exact .next (hw.sbiCall (fun _ _ _ hw => hw.sbiTrapHart))
  case setWbase => exact .next (hw.sbiCall (fun _ _ _ hw => hw.sbiWbase))
  case getBlkacc => exact .next (hw.sbiCall (fun _ _ _ hw => hw.sbiBlkacc))
  case sbiUnknownFunction => exact .next (hw.sbi (fun _ _ hw => hw.sbiFail))
  case queueEnable | queueDisable => exact .next (.ite (hw.queueAccess (fun _ hw => hw.qd0Write)) hw)
  case doorbell => exact .next hw.doorbell
  case pwrOkHigh => exact .next hw.powerOn
  case perstNDeassert | pwrRefresh => exact .next (.ite hw.same hw)
  case railFault => exact .next hw.railFault
  case powerDown => exact .next hw.powerDown
  case thermalHold => exact .next hw.thermalHold
  case thermalHoldEnd => exact .next hw.thermalHoldEnd
  case thermalTrip => exact .next hw.thermalTrip
  case thermalEvent => exact .next hw.thermalEvent
  case svbNak => exact .next hw.alert
  case ident | stateCode | tmax | pwr | clmask => exact .next hw.smbRead
  case alertReg => exact hw.execAlertReg
  case smbUnknownCode => exact .next (hw.smbFor (fun _ hw => .ite hw.answer hw))
  case dispatchDecision => exact .next hw.dispatch
  case indexOrderEviction => exact .next hw.evictFor
  case taskSplit => exact .next hw.taskSplit
  case yieldt => exact .next (hw.issueWord (fun _ _ hw => hw.effYieldt))
  case opclsWrite => exact .next hw.opclsWrite
  case poolReassign => exact .next hw.poolInterval
  case boostRefill => exact .next hw.boostRefill
  case voltageSettled => exact .next hw.voltageSettled
  case frequencyStepEnd => exact .next hw.frequencyEnd
  case bar4Read => exact .next hw.bar4Read
  case bar4Write => exact .next hw.bar4Write
  case registerWrite => exact .next hw.regWrite
  case w1cClear => exact .next hw.w1cWrite
  case sadd | ssub | smul | smulh | smulhu | sand | sor | sxor | sshl | sshr | ssar | smin | sminu | smax | smaxu =>
    exact .next hw.sTwo
  case sdiv | sdivu | srem | sremu => exact .next hw.sDivide
  case snot | sclz | spopc => exact .next hw.sOne
  case scmp => exact .next (hw.issueWord (fun _ _ hw => .setQ (.ite hw.count hw)))
  case smovhi => exact .next (hw.issueWord (fun _ _ hw => .ite hw.modRegs hw.modRegs.count))
  case pair => exact .next (hw.issueWord (fun _ _ hw => .ite (.putV (.ite hw.putS hw)) (.ite hw.putS hw)))
  case reggrow => exact hw.execReggrow
  case regshrink => exact hw.execRegshrink
  case batget h f => exact MemForm.execBatget (f := f) hw
  case batpass => exact .next (hw.issueWord (fun _ _ hw => hw.passTo))
  case tskget => exact hw.execTskget
  case prog => exact .next (hw.issueWord (fun _ _ hw => hw.modTeam))
  case tree => exact .next (hw.issueWord (fun _ _ hw => hw.effTree))

/-! ### The agenda's turns -/

/-- What a turn comes to carries a state in canonical form. -/
def TodoWf : Todo → Prop
  | .run _ t => t.MemForm
  | .done t => t.MemForm
  | .stop _ => True

theorem TodoWf.ite {c : Prop} [Decidable c] {a b : Todo} (ha : TodoWf a) (hb : TodoWf b) : TodoWf (if c then a else b) := by
  split
  · exact ha
  · exact hb

theorem MemForm.issueTurn {cl co qd : Nat} (hw : s.MemForm) : TodoWf (s.issueTurn cl co qd) := by
  unfold State.issueTurn
  refine .ite hw ?_
  split
  · next hx => exact MemForm.of_fst hx hw.nextWord
  · next hx => exact MemForm.of_fst hx hw.nextWord

theorem MemForm.eventTurn {i : Instr} {x : Ev} (hw : s.MemForm) : TodoWf (s.eventTurn i x) := by
  unfold State.eventTurn
  split
  · exact hw.same
  · exact hw

theorem MemForm.handlerTurn {p : Nat} (hw : s.MemForm) : TodoWf (s.handlerTurn p) := by
  unfold State.handlerTurn
  refine .ite hw ?_
  split
  · exact hw.same
  · exact hw

theorem MemForm.hartStore {pa : Nat} {data : List Byte} (hw : s.MemForm) : TodoWf (s.hartStore pa data) := by
  unfold State.hartStore
  refine .ite trivial (.ite hw ?_)
  exact hw.devWrite.recheckAll

theorem MemForm.clocked {f : State → State} (hw : s.MemForm) (hf : (f s).MemForm) : TodoWf (s.clocked f) := by
  unfold State.clocked
  exact MemForm.ite hf hw

theorem MemForm.nextTodo (hw : s.MemForm) : TodoWf s.nextTodo := by
  unfold State.nextTodo
  split
  · exact hw.issueTurn
  · extract_lets s1
    have h1 : s1.MemForm := hw.same
    split
    · exact h1.issueTurn
    · exact h1.eventTurn
    · exact h1.handlerTurn
    · exact h1.clocked h1.tick
    · exact h1.setTemp
    · exact h1.clocked h1.dropSector
    · exact h1.hartStore
    · exact h1.clocked h1.hsmStart
    · exact h1.clocked h1.hsmStop
    · exact h1.clocked h1.hartMode
    · exact h1.clocked h1.modHart
    · exact h1.clocked h1.answer
    · exact h1.clocked h1.hartReg
    · exact h1.clocked h1.hartTrap
    · exact h1.clocked h1.hartSret
    · exact .ite trivial (h1.clocked h1.hartLoad)
    · exact h1.clocked h1.hartMask
    · exact h1.clocked h1.regMark.answer

theorem MemForm.step (hw : s.MemForm) : NextWf (step s) := by
  unfold Machine.step
  have h := hw.nextTodo
  split
  · next hx => exact (hx ▸ h : TodoWf (.run _ _)).exec _
  · next hx => exact .next (hx ▸ h : TodoWf (.done _))
  · intro t ht
    cases ht

end Sys2Proof.Machine.State

namespace Sys2Proof.Proofs
open Sys2Proof Sys2Proof.Machine Sys2Proof.Machine.State

/-- Settles O58: every operation keeps the form, so every instruction and every turn does. -/
theorem stepKeepsMemoryForm : Obligations.StepKeepsMemoryForm := fun _ t hw ht => MemForm.step hw t ht

end Sys2Proof.Proofs


/-! ## Stores to a scratchpad and to other teams, scalar loads (O23, O24)

The words of the access layout that are ready go on with the state of their effect (`takes_of_memWord`). What a store does before its
bytes are written (`storeReady`), the writes themselves and the sample leave the word's group alone. -/

namespace Sys2Proof.Machine.State
open Sys2Proof

/-! ### Words that go on -/

section
variable {s e t : State} {h : Hdr} {i : Instr} {f : MF} {regs : List Nat}

/-- A word that takes an effect with no register changed goes on, and the machine meets what the end of a word keeps. -/
theorem Takes.goes {P : State → Prop} (ht : s.Takes i e) (hr : e.grp.regs = s.grp.regs)
    (hP : ∀ t, e.OnlyGroup t → t.grp = { countLa e.grp s.nextId s.cur.lanes with pcs := t.grp.pcs } → P t) : s.Goes i P := by
  obtain ⟨t, hx, hpass, hot, hgrp⟩ := ht
  exact ⟨t, hx, hpass, by rw [hgrp]; exact hr, hP t hot hgrp⟩

/-- A scalar word reads no register below the budget. -/
theorem scalarUses_check (hm : s.MemReady h f regs) (sr : List Nat) :
    s.issueCheck h { sr := sr, tw := f.tw } (s.activeLanes h) = none :=
  issueCheck_none s h _ _ hm.issues.noStrictLook rfl rfl (fun n hn => by cases hn) fun n hn => by cases hn

/-- A lane store that is ready takes its effect. -/
theorem st_takes (hm : s.MemReady h f (f.addrRegs ++ f.dataRegs)) (he : effSt f (s.activeLanes h) s = { s := e })
    (hk : s.LeavesIssuer e) : s.Takes (.st h f) e :=
  takes_of_memWord (u := laneUses f false) rfl hm rfl (laneUses_check hm) he hk.toKeepsIssuer

/-- A scalar store that is ready takes its effect. -/
theorem sst_takes (hm : s.MemReady h f []) (hact : s.activeLanes h ≠ 0) (he : effSst f (s.activeLanes h) s = { s := e })
    (hk : s.LeavesIssuer e) : s.Takes (.sst h f) e := by
  refine takes_of_memWord (u := { sr := f.vd.toNat % 64 :: f.addrScalars, tw := f.tw }) rfl hm rfl (scalarUses_check hm _) ?_
    hk.toKeepsIssuer
  rw [if_neg (by simpa using hact)]
  exact he

theorem OnlyGroup.spad (h : e.OnlyGroup t) (k : Nat) : (t.team k).spad = (e.team k).spad := (congrArg Team.spad (h.teams k) :)

theorem OnlyGroup.flights (h : e.OnlyGroup t) : t.flights = e.flights := (congrArg State.flights h.device).trans rfl

end

/-! ### What the sample of a word leaves (R279) -/

section
variable {s0 s : State} {act : Mask} {n : Nat} {store : Bool}

/-- An operation is of groups and cores alone, and leaves the caches. -/
structure SamplesOnly (s t : State) : Prop where
  rest : t = { s with groups := t.groups, cores := t.cores }
  l1 : ∀ k, (t.core k).l1 = (s.core k).l1

theorem SamplesOnly.trans {s t u : State} (h : s.SamplesOnly t) (k : t.SamplesOnly u) : s.SamplesOnly u :=
  ⟨by rw [k.rest, h.rest], fun c => (k.l1 c).trans (h.l1 c)⟩

theorem samplesOnly_modGrp (s : State) (f : Group → Group) : s.SamplesOnly (s.modGrp f) := ⟨rfl, fun _ => rfl⟩

theorem samplesOnly_modCore (s : State) (k : Nat) {f : Core → Core} (hf : ∀ c, (f c).l1 = c.l1) :
    s.SamplesOnly (s.modCore k f) := ⟨rfl, fun j => by
  rw [modCore_core]
  split
  · next h => rw [hf, h]
  · rfl⟩

theorem samplesOnly_sampleIssue (s0 s : State) (act : Mask) (n : Nat) (store : Bool) :
    s.SamplesOnly (s0.sampleIssue s act n store) := by
  unfold sampleIssue
  dsimp only
  split
  · exact samplesOnly_modGrp ..
  · split
    · refine .trans (.trans (samplesOnly_modGrp ..) (samplesOnly_modCore _ _ ?_)) (samplesOnly_modCore _ _ ?_)
      · exact fun _ => rfl
      · exact fun _ => rfl
    · refine .trans (samplesOnly_modGrp ..) (samplesOnly_modCore _ _ ?_)
      exact fun _ => rfl

theorem sampleIssue_team (k : Nat) : (s0.sampleIssue s act n store).team k = s.team k := by
  rw [(samplesOnly_sampleIssue s0 s act n store).rest]
  rfl

theorem sampleIssue_mem : (s0.sampleIssue s act n store).mem = s.mem := by
  rw [(samplesOnly_sampleIssue s0 s act n store).rest]

theorem sampleIssue_hostMem : (s0.sampleIssue s act n store).hostMem = s.hostMem := by
  rw [(samplesOnly_sampleIssue s0 s act n store).rest]

theorem sampleIssue_seen (k a : Nat) : (s0.sampleIssue s act n store).seen k a = s.seen k a := by
  unfold State.seen
  rw [sampleIssue_mem, (samplesOnly_sampleIssue s0 s act n store).l1]

end

/-! ### What a store does before its bytes are written -/

/-- R163, R169, R262: a misaligned store is counted, a release performed, and poisoned words that are written are counted. -/
def storeReady (s : State) (f : MF) (mis : Bool) (locs : List Nat) (ds : List (List PByte)) : State :=
  ((s.countMisal mis).releaseNow f locs).countStored ds

section
variable {s : State} {f : MF} {mis : Bool} {locs : List Nat} {ds : List (List PByte)}

theorem servedLogged_releaseNow (s : State) (f : MF) (locs : List Nat) : s.ServedLogged (s.releaseNow f locs) := by
  have hrel : s.ServedLogged (s.releaseBy s.curGrp f.scp.toNat) :=
    .ite (fun _ => .of_served (served_wbCore ..)) fun _ => .refl s
  exact .ite (fun _ => .ite (fun _ => hrel.trans (.foldl (fun _ _ => servedLogged_logLeak ..) _ _)) fun _ => hrel) fun _ => .refl s

theorem servedLogged_storeReady (s : State) (f : MF) (mis : Bool) (locs : List Nat) (ds : List (List PByte)) :
    s.ServedLogged (s.storeReady f mis locs ds) :=
  ((ServedLogged.of_served (served_countMisal ..)).trans (servedLogged_releaseNow ..)).trans (.of_served (served_countWritten ..))

theorem sameBytes_countIf (s : State) (b : Bool) (cl off n : Nat) : s.SameBytes (if b then s.count cl off n else s) := by
  split <;> exact ⟨rfl, rfl, rfl⟩

theorem sameBytes_countOver (s : State) (ps : List Piece) : s.SameBytes (s.countOver ps) := by
  unfold countOver
  dsimp only
  split <;> exact ⟨rfl, rfl, rfl⟩

/-- A store that is no release moves no byte before its own. -/
theorem sameBytes_storeReady (h : f.ord = 0) : s.SameBytes (s.storeReady f mis locs ds) := by
  have hrel : f.isRel = false := by
    unfold MF.isRel
    rw [h]
    rfl
  unfold storeReady releaseNow
  rw [hrel]
  exact (sameBytes_countIf s mis ..).trans (sameBytes_countWritten ..)

end

/-! ### The own scratchpad (R134) -/

/-- Pieces written to the own scratchpad in order, each a part of its data. -/
def padStores (s : State) (ps : List Piece) (data : Piece → List PByte) : State :=
  ps.foldl (fun s p => s.writeSpad p (pieceData (data p) p)) s

section
variable {s : State} {f : MF} {mis : Bool} {locs : List Nat} {ds : List (List PByte)} {ps : List Piece} {data : Piece → List PByte}

theorem spares_padStores (s : State) (ps : List Piece) (data : Piece → List PByte) : s.Spares (s.padStores ps data) :=
  .foldl (fun _ _ => spares_writeSpad ..) ps s

theorem sameBytes_padStores (s : State) (ps : List Piece) (data : Piece → List PByte) : s.SameBytes (s.padStores ps data) :=
  .foldl (fun _ _ => sameBytes_writeSpad ..) ps s

theorem padStores_spad : ((s.padStores ps data).team s.curTeam).spad =
    spadAfter s.curGrid.alloc ps (fun p => (pieceData (data p) p).map Prod.fst) (s.team s.curTeam).spad :=
  foldl_spad (g := fun alloc m (p : Piece) => match spReduce alloc p.at_ with
    | some o => Memory.setBytes m o ((pieceData (data p) p).map Prod.fst)
    | none => m) (fun _ _ => (spares_writeSpad ..).cur) (fun _ _ => writeSpad_curGrid ..) (fun _ _ => writeSpad_spad ..) ps s

theorem writeSpad_otherTeam {k : Nat} (hk : k ≠ s.curTeam) (p : Piece) (bs : List PByte) :
    (s.writeSpad p bs).team k = s.team k := by
  unfold writeSpad
  split
  · rw [modTeam_team, if_neg hk]
  · rfl

theorem padStores_otherTeam {k : Nat} (hk : k ≠ s.curTeam) : (s.padStores ps data).team k = s.team k := by
  unfold padStores
  induction ps generalizing s with
  | nil => rfl
  | cons p ps ih =>
    have hcur := curTeam_of_cur (spares_writeSpad s p (pieceData (data p) p)).cur
    exact (ih (by rw [hcur]; exact hk)).trans (writeSpad_otherTeam hk ..)

/-- The state that a store to the own scratchpad leads to. -/
def ownStored (s : State) (f : MF) (mis : Bool) (locs : List Nat) (ds : List (List PByte)) (ps : List Piece)
    (data : Piece → List PByte) : State := ((s.storeReady f mis locs ds).countOver ps).padStores ps data

theorem servedLogged_beforePad (s : State) (f : MF) (mis : Bool) (locs : List Nat) (ds : List (List PByte)) (ps : List Piece) :
    s.ServedLogged ((s.storeReady f mis locs ds).countOver ps) :=
  (servedLogged_storeReady ..).trans (.of_served (served_countOver ..))

theorem spares_ownStored : s.Spares (s.ownStored f mis locs ds ps data) :=
  (Spares.of_servedLogged (servedLogged_beforePad ..)).trans (spares_padStores ..)

theorem ownStored_spad : ((s.ownStored f mis locs ds ps data).team s.curTeam).spad =
    spadAfter s.curGrid.alloc ps (fun p => (pieceData (data p) p).map Prod.fst) (s.team s.curTeam).spad := by
  have hlog := servedLogged_beforePad s f mis locs ds ps
  have hcur : ((s.storeReady f mis locs ds).countOver ps).cur = s.cur := (Spares.of_servedLogged hlog).cur
  have halloc : ((s.storeReady f mis locs ds).countOver ps).curGrid.alloc = s.curGrid.alloc := by
    unfold curGrid
    rw [hcur, hlog.alloc]
  have hpad := padStores_spad (s := (s.storeReady f mis locs ds).countOver ps) (ps := ps) (data := data)
  rw [halloc, curTeam_of_cur hcur, hlog.team] at hpad
  exact hpad

theorem ownStored_otherTeam {k : Nat} (hk : k ≠ s.curTeam) : (s.ownStored f mis locs ds ps data).team k = s.team k := by
  have hlog := servedLogged_beforePad s f mis locs ds ps
  exact (padStores_otherTeam (by rw [curTeam_of_cur (Spares.of_servedLogged hlog).cur]; exact hk)).trans (hlog.team k)

theorem sameBytes_ownStored (h : f.ord = 0) : s.SameBytes (s.ownStored f mis locs ds ps data) :=
  ((sameBytes_storeReady h).trans (sameBytes_countOver ..)).trans (sameBytes_padStores ..)

/-- The state after a store to the own scratchpad, its sample included. -/
def ownStoreDone (s : State) (f : MF) (act : Mask) (mis : Bool) (locs : List Nat) (ds : List (List PByte)) (ps : List Piece)
    (data : Piece → List PByte) : State := s.sampleIssue (s.ownStored f mis locs ds ps data) act (wordCount ps) true

/-- The ends of `st` and `sst` to the own scratchpad. -/
def stOwn (s : State) (f : MF) (act : Mask) : State :=
  s.ownStoreDone f act ((s.mPieces f act).any fun p => p.n != f.size) (act.lanes.map (s.mSum f))
    (act.lanes.map fun l => laneData s.src f.dataRegs f.size l) (s.mPieces f act) fun p => laneData s.src f.dataRegs f.size p.lane
def sstOwn (s : State) (f : MF) (act : Mask) : State :=
  s.ownStoreDone f act (s.mSum f 0 % f.size != 0) [s.mSum f 0] [scalarData s.src (f.vd.toNat % 64) f.size]
    (s.scalarPieces f act f.size) fun _ => scalarData s.src (f.vd.toNat % 64) f.size

theorem effSt_own {act : Mask} (ht : s.mTarget f = .own) (hclean : s.mPois f act = 0)
    (habs : s.absentLines (s.mPieces f act) = []) : effSt f act s = { s := s.stOwn f act } := by
  simp only [effSt, ht, hclean, habs]
  rfl

theorem effSst_own {act : Mask} (ht : s.mTarget f = .own) (hclean : s.mPois f act = 0)
    (habs : s.absentLines (s.scalarPieces f act f.size) = []) : effSst f act s = { s := s.sstOwn f act } := by
  simp only [effSst, ht, hclean, habs]
  rfl

theorem leavesIssuer_ownStoreDone (act : Mask) : s.LeavesIssuer (s.ownStoreDone f act mis locs ds ps data) :=
  spares_ownStored.leavesIssuer.trans (leavesIssuer_sampleIssue ..)

/-- A word that takes the effect of a store to the own scratchpad leaves the scratchpads so. -/
theorem goes_ownStoreDone {i : Instr} {act : Mask} (ht : s.Takes i (s.ownStoreDone f act mis locs ds ps data)) :
    s.Goes i fun t =>
      (t.team s.curTeam).spad =
        spadAfter s.curGrid.alloc ps (fun p => (pieceData (data p) p).map Prod.fst) (s.team s.curTeam).spad ∧
      (f.ord = 0 → t.mem = s.mem ∧ t.hostMem = s.hostMem ∧ ∀ k, k ≠ s.curTeam → (t.team k).spad = (s.team k).spad) := by
  refine ht.goes (leavesIssuer_ownStoreDone act).regs fun t hot _ => ⟨?_, fun hord => ?_⟩
  · rw [hot.spad, ownStoreDone, sampleIssue_team, ownStored_spad]
  · have hend := SameBytes.of_onlyGroup hot
    have hbytes := sameBytes_ownStored (s := s) (f := f) (mis := mis) (locs := locs) (ds := ds) (ps := ps) (data := data) hord
    refine ⟨?_, ?_, fun k hk => ?_⟩
    · rw [hend.mem, ownStoreDone, sampleIssue_mem, hbytes.mem]
    · rw [hend.host, ownStoreDone, sampleIssue_hostMem, hbytes.host]
    · rw [hot.spad, ownStoreDone, sampleIssue_team, ownStored_otherTeam hk]

end

end Sys2Proof.Machine.State

namespace Sys2Proof.Proofs
open Sys2Proof Sys2Proof.Machine Sys2Proof.Machine.State

/-- Settles O23: both words lead to `ownStored`, whose writes are those of `spadAfter`. -/
theorem scratchpadStore : Obligations.ScratchpadStore := by
  intro s h f ht hact store
  refine ⟨fun hm habs => ?_, fun _ hm habs => ?_⟩
  · exact goes_ownStoreDone (st_takes hm (effSt_own ht hm.clean habs) (leavesIssuer_ownStoreDone _))
  · exact goes_ownStoreDone (sst_takes hm hact (effSst_own ht hm.clean habs) (leavesIssuer_ownStoreDone _))

end Sys2Proof.Proofs

namespace Sys2Proof.Machine.State
open Sys2Proof

/-! ### Stores to other teams (R138, R150, O24) -/

section
variable {s : State} {f : MF} {mis : Bool} {locs : List Nat} {ds : List (List PByte)} {h : Hdr} {i : Instr} {act : Mask}

/-- An operation that leaves the context and the next number as they were is followed by flights of the issuing group. -/
theorem sends_launch {s1 t : State} {b : Body} {acq : Option (Nat × Bool)} (hc : s1.cur = s.cur) (hn : s.nextId ≤ s1.nextId)
    (ht : t.flights = (s1.launch b acq).2.flights) : s.Sends t b := by
  refine ⟨{ id := s1.nextId, g := s1.cur.g, t := s1.cur.t, grp := s1.cur.grp, core := s1.curCore, cmd := s1.nextId, acq := acq
            body := b }, ?_, rfl, hn, ?_, ?_, ?_, curCore_of_cur hc⟩
  · rw [ht]
    exact List.mem_append_right _ (List.mem_singleton.2 rfl)
  · exact congrArg Cur.g hc
  · exact congrArg Cur.t hc
  · exact congrArg Cur.grp hc

theorem ServedLogged.nextId {s t : State} (h : s.ServedLogged t) : t.nextId = s.nextId := by rw [h.served.rest]
theorem ServedLogged.cur {s t : State} (h : s.ServedLogged t) : t.cur = s.cur := (Spares.of_servedLogged h).cur

/-- The state after a store is sent to another team. -/
def remoteStoreDone (s : State) (f : MF) (act : Mask) (mis : Bool) (locs : List Nat) (ds : List (List PByte)) (b : Body) (n : Nat) :
    State := s.sampleIssue ((s.storeReady f mis locs ds).launch b none).2 act n true

theorem leavesIssuer_remoteStoreDone (b : Body) (n : Nat) : s.LeavesIssuer (s.remoteStoreDone f act mis locs ds b n) :=
  ((Spares.of_servedLogged (servedLogged_storeReady ..)).leavesIssuer.trans (leavesIssuer_launch ..)).trans
    (leavesIssuer_sampleIssue ..)

theorem goes_remoteStoreDone {b : Body} {n : Nat} (ht : s.Takes i (s.remoteStoreDone f act mis locs ds b n)) :
    s.Goes i fun t => s.Sends t b := by
  have hready := servedLogged_storeReady s f mis locs ds
  refine ht.goes (leavesIssuer_remoteStoreDone ..).regs fun t hot _ => ?_
  exact sends_launch hready.cur hready.nextId.ge (hot.flights.trans (sampleIssue_flights ..))

/-- The state after a store to a team that is not there. -/
def goneStoreDone (s : State) (f : MF) (act : Mask) (mis : Bool) (locs : List Nat) (ds : List (List PByte)) (n k : Nat) : State :=
  s.sampleIssue ((s.storeReady f mis locs ds).count s.cur.cl 0x110 n) act k true

theorem servedLogged_beforeGone (n : Nat) : s.ServedLogged ((s.storeReady f mis locs ds).count s.cur.cl 0x110 n) :=
  (servedLogged_storeReady ..).trans (.of_served (served_count ..))

theorem leavesIssuer_goneStoreDone (n k : Nat) : s.LeavesIssuer (s.goneStoreDone f act mis locs ds n k) :=
  (Spares.of_servedLogged (servedLogged_beforeGone n)).leavesIssuer.trans (leavesIssuer_sampleIssue ..)

theorem goes_goneStoreDone {n k : Nat} (ht : s.Takes i (s.goneStoreDone f act mis locs ds n k)) :
    s.Goes i fun t => (t.team s.curTeam).spad = (s.team s.curTeam).spad := by
  refine ht.goes (leavesIssuer_goneStoreDone ..).regs fun t hot _ => ?_
  rw [hot.spad, goneStoreDone, sampleIssue_team, (servedLogged_beforeGone n).team]

theorem size_pos (f : MF) : 0 < f.size := Nat.two_pow_pos _

theorem exists_lane (hact : act ≠ 0) : ∃ l, l ∈ act.lanes := by
  by_contra hno
  refine hact (BitVec.eq_of_getLsbD_eq fun l hl => ?_)
  rw [show (0 : Mask).getLsbD l = false from BitVec.getLsbD_zero, ← Bool.not_eq_true]
  exact fun hb => hno ⟨l, mem_lanes.2 ⟨hl, hb⟩⟩

theorem mPieces_ne_nil (hact : act ≠ 0) : s.mPieces f act ≠ [] := by
  obtain ⟨l, hl⟩ := exists_lane hact
  obtain ⟨p, hp, -⟩ := exists_piece l (s.mSum f l) (size_pos f)
  exact List.ne_nil_of_mem (List.mem_flatMap.2 ⟨l, hl, hp⟩)

/-- The runs of bytes that a store sends. -/
def storeRuns (ps : List Piece) (data : Piece → List PByte) : List (Nat × List PByte) :=
  ps.map fun p => (p.at_, pieceData (data p) p)

def stRemote (s : State) (f : MF) (act : Mask) (u : Nat) : State :=
  s.remoteStoreDone f act ((s.mPieces f act).any fun p => p.n != f.size) (act.lanes.map (s.mSum f))
    (act.lanes.map fun l => laneData s.src f.dataRegs f.size l)
    (.remStore u (storeRuns (s.mPieces f act) fun p => laneData s.src f.dataRegs f.size p.lane)) (wordCount (s.mPieces f act))

def sstRemote (s : State) (f : MF) (act : Mask) (u : Nat) : State :=
  s.remoteStoreDone f act (s.mSum f 0 % f.size != 0) [s.mSum f 0] [scalarData s.src (f.vd.toNat % 64) f.size]
    (.remStore u (storeRuns (s.scalarPieces f act f.size) fun _ => scalarData s.src (f.vd.toNat % 64) f.size))
    (wordCount (s.scalarPieces f act f.size))

def stGone (s : State) (f : MF) (act : Mask) : State :=
  s.goneStoreDone f act ((s.mPieces f act).any fun p => p.n != f.size) (act.lanes.map (s.mSum f)) []
    (s.mPieces f act).length (wordCount (s.mPieces f act))

def sstGone (s : State) (f : MF) (act : Mask) : State :=
  s.goneStoreDone f act (s.mSum f 0 % f.size != 0) [s.mSum f 0] [scalarData s.src (f.vd.toNat % 64) f.size]
    (s.scalarPieces f act f.size).length (wordCount (s.scalarPieces f act f.size))

theorem effSt_remote {u : Nat} (hact : act ≠ 0) (ht : s.mTarget f = .rem u) (hclean : s.mPois f act = 0) :
    effSt f act s = { s := s.stRemote f act u } := by
  have hruns : (storeRuns (s.mPieces f act) fun p => laneData s.src f.dataRegs f.size p.lane).isEmpty = false := by
    rw [List.isEmpty_eq_false_iff]
    exact fun h => mPieces_ne_nil hact (List.map_eq_nil_iff.1 h)
  unfold storeRuns at hruns
  simp only [effSt, ht, hclean, hruns]
  rfl

theorem effSst_remote {u : Nat} (ht : s.mTarget f = .rem u) (hclean : s.mPois f act = 0) :
    effSst f act s = { s := s.sstRemote f act u } := by
  simp only [effSst, ht, hclean]
  rfl

theorem effSt_gone (ht : s.mTarget f = .gone) (hclean : s.mPois f act = 0) : effSt f act s = { s := s.stGone f act } := by
  simp only [effSt, ht, hclean]
  rfl

theorem effSst_gone (ht : s.mTarget f = .gone) (hclean : s.mPois f act = 0) : effSst f act s = { s := s.sstGone f act } := by
  simp only [effSst, ht, hclean]
  rfl

/-! ### Scalar loads and counter reads (R404, R411) -/

theorem sld_takes {e : State} (hm : s.MemReady h f []) (hact : s.activeLanes h ≠ 0)
    (he : effSld h f (f.vd.toNat % 64) f.size false (s.activeLanes h) s = { s := e }) (hk : s.KeepsIssuer e) :
    s.Takes (.sld h f) e := by
  refine takes_of_memWord (u := { sr := f.addrScalars, tw := f.tw }) rfl hm rfl (scalarUses_check hm _) ?_ hk
  rw [if_neg (by simpa using hact)]
  exact he

theorem ctrrd_takes {e : State} (hm : s.MemReady h f []) (hact : s.activeLanes h ≠ 0)
    (he : effSld h f (f.vd.toNat % 64) 8 true (s.activeLanes h) s = { s := e }) (hk : s.KeepsIssuer e) :
    s.Takes (.ctrrd h f) e := by
  refine takes_of_memWord (u := { sr := f.addrScalars, tw := f.tw }) rfl hm rfl (scalarUses_check hm _) ?_ hk
  rw [if_neg (by simpa using hact)]
  exact he

/-- The state after a scalar is read at issue. -/
def scalarDone (s s1 : State) (h : Hdr) (f : MF) (act : Mask) (bs : List PByte) (n : Nat) : State :=
  s.sampleIssue (s1.addDue h.la.toNat [(1, f.vd.toNat % 64)]
    [.scal (f.vd.toNat % 64) (loadScalar f.sx bs).1 (loadScalar f.sx bs).2] 0) act n false

/-- The state after a read of a scalar is sent out. -/
def scalarSent (s s1 : State) (h : Hdr) (f : MF) (act : Mask) (b : Body) (n : Nat) : State :=
  s.sampleIssue ((s1.addDue h.la.toNat [(1, f.vd.toNat % 64)] [] 1).launch b
    (if f.isAcq then some (f.scp.toNat, f.rmt) else none)).2 act n false

variable {s1 : State} {n : Nat}

theorem defers_scalarDone {bs : List PByte} (h1 : s.Served s1)
    (ht : s.KeepsIssuer (s.scalarDone s1 h f act bs n) → s.Takes i (s.scalarDone s1 h f act bs n)) :
    s.Defers h i (fun ws => ws = [.scal (f.vd.toNat % 64) (loadScalar f.sx bs).1 (loadScalar f.sx bs).2]) 0 := by
  obtain ⟨hk, hregs, hdue⟩ := adds_due (h := h) h1 (leavesIssuer_sampleIssue s _ act n false)
  exact (ht hk).defers hregs hdue rfl

theorem goes_scalarSent {b : Body} (h1 : s.Served s1)
    (ht : s.KeepsIssuer (s.scalarSent s1 h f act b n) → s.Takes i (s.scalarSent s1 h f act b n)) :
    s.Goes i fun t => (∃ d ∈ t.grp.due, d.id = s.nextId ∧ d.left = 1 ∧ d.writes = [] ∧ d.dst = [(1, f.vd.toNat % 64)]) ∧
      s.Sends t b := by
  obtain ⟨hk, hregs, hdue⟩ := adds_due (h := h) h1 ((leavesIssuer_launch _ b _).trans (leavesIssuer_sampleIssue s _ act n false))
  refine (ht hk).goes hregs fun t hot hgrp =>
    ⟨⟨s.freshDue h.la.toNat [(1, f.vd.toNat % 64)] [] 1, ?_, rfl, rfl, rfl, rfl⟩, ?_⟩
  · rw [hgrp]
    exact mem_due_countLa s.cur.lanes hdue rfl
  · refine sends_launch ((addDue_cur ..).trans h1.cur) ?_ (hot.flights.trans (sampleIssue_flights ..))
    rw [addDue_nextId, h1.rest]
    exact Nat.le_succ _

/-- What a scalar load reads of global memory, and what a scalar or counter read does before it. -/
def sldGlob (s : State) (f : MF) (act : Mask) : State × SMap (List PByte) :=
  let qs := (s.lookup .load (s.scalarPieces f act f.size)).1
  (((s.countMisal (s.mSum f 0 % f.size != 0)).acquireNow f).touchPages .load qs).readGlobs qs
def scalarOwn (s : State) (f : MF) (ps : List Piece) (n : Nat) : State :=
  ((s.countMisal (s.mSum f 0 % n != 0)).acquireNow f).countOver ps
def scalarGone (s : State) (f : MF) (ps : List Piece) (n : Nat) : State :=
  ((s.countMisal (s.mSum f 0 % n != 0)).acquireNow f).count s.cur.cl 0x110 ps.length

theorem served_sldGlob : s.Served (s.sldGlob f act).1 :=
  (((served_countMisal ..).trans (served_acquireNow ..)).trans (served_touchPages ..)).trans (served_readGlobs ..)
theorem served_scalarOwn (ps : List Piece) (n : Nat) : s.Served (s.scalarOwn f ps n) :=
  ((served_countMisal ..).trans (served_acquireNow ..)).trans (served_countOver ..)
theorem served_scalarGone (ps : List Piece) (n : Nat) : s.Served (s.scalarGone f ps n) :=
  ((served_countMisal ..).trans (served_acquireNow ..)).trans (served_count ..)

variable {sz : Nat} {ctr : Bool}

/-- R411: a counter read is aligned; a scalar load need not be (R163). -/
def ReadsAligned (s : State) (f : MF) (n : Nat) (ctr : Bool) : Prop := ctr = true → s.mSum f 0 % n = 0

theorem readsAligned_load (s : State) (f : MF) (n : Nat) : s.ReadsAligned f n false := fun h => nomatch h

theorem ReadsAligned.noTrap (hal : s.ReadsAligned f sz ctr) : (ctr && s.mSum f 0 % sz != 0) = false := by
  cases ctr with
  | false => rfl
  | true => simpa [ReadsAligned] using hal

theorem effSld_global (ht : s.mTarget f = .glob) (hclean : s.mPois f act = 0)
    (hfail : (s.lookup .load (s.scalarPieces f act f.size)).2 = [])
    (hord : s.orderHeld .load (s.lookup .load (s.scalarPieces f act f.size)).1 = false) :
    effSld h f (f.vd.toNat % 64) f.size false act s = { s := (s.scalarDone (s.sldGlob f act).1 h f act
      (((s.sldGlob f act).2.map Prod.snd).getD 0 []) (sectorCount (s.scalarPieces f act f.size))) } := by
  simp only [effSld, ht, hclean, hfail, hord]
  rfl

theorem effSld_own (hal : s.ReadsAligned f sz ctr) (ht : s.mTarget f = .own) (hclean : s.mPois f act = 0)
    (habs : s.absentLines (s.scalarPieces f act sz) = []) :
    effSld h f (f.vd.toNat % 64) sz ctr act s = { s := (s.scalarDone (s.scalarOwn f (s.scalarPieces f act sz) sz) h f act
      (((s.readSpads (s.scalarPieces f act sz)).map Prod.snd).getD 0 []) (wordCount (s.scalarPieces f act sz))) } := by
  rw [← readSpads_of_served (served_scalarOwn (f := f) (s.scalarPieces f act sz) sz)]
  simp only [effSld, hal.noTrap, ht, hclean, habs]
  rfl

theorem effSld_remote {u : Nat} (hal : s.ReadsAligned f sz ctr) (ht : s.mTarget f = .rem u) (hclean : s.mPois f act = 0) :
    effSld h f (f.vd.toNat % 64) sz ctr act s = { s := (s.scalarSent (s.countMisal (s.mSum f 0 % sz != 0)) h f act
      (.remLoad u sz [(0, s.mSum f 0)] s.nextId (f.vd.toNat % 64) true f.sx) (wordCount (s.scalarPieces f act sz))) } := by
  simp only [effSld, hal.noTrap, ht, hclean]
  rfl

theorem effSld_gone (hal : s.ReadsAligned f sz ctr) (ht : s.mTarget f = .gone) (hclean : s.mPois f act = 0) :
    effSld h f (f.vd.toNat % 64) sz ctr act s = { s := (s.scalarDone (s.scalarGone f (s.scalarPieces f act sz) sz) h f act
      (List.replicate sz (0, false)) (wordCount (s.scalarPieces f act sz))) } := by
  simp only [effSld, hal.noTrap, ht, hclean]
  rfl

/-- R411: a counter read of global memory is performed where the counter lies. -/
theorem effCtrrd_global {q : GPiece} (hal : s.mSum f 0 % 8 = 0) (ht : s.mTarget f = .glob) (hclean : s.mPois f act = 0)
    (hq : s.lookup .load (s.scalarPieces f act 8) = ([q], [])) :
    effSld h f (f.vd.toNat % 64) 8 true act s = { s := (s.scalarSent (s.touchPages .load [q]) h f act
      (.ctrRead (.glob (s.mSum f 0)) (GPiece.place q) s.nextId (f.vd.toNat % 64)) (sectorCount (s.scalarPieces f act 8))) } := by
  simp only [effSld, hal, ht, hclean, hq]
  rfl

end

end Sys2Proof.Machine.State

namespace Sys2Proof.Proofs
open Sys2Proof Sys2Proof.Machine Sys2Proof.Machine.State

/-- Settles O24, target by target. -/
theorem remoteStoreAndScalarLoad : Obligations.RemoteStoreAndScalarLoad := by
  intro s h f hact act sd a ps runs put later
  refine ⟨fun hm => ⟨fun u ht => ?_, fun ht => ?_⟩, fun hm _ => ⟨fun u ht => ?_, fun ht => ?_, fun ht hfail hord => ?_,
    fun ht habs => ?_, fun u ht => ?_, fun ht => ?_⟩, fun hm hal => ⟨fun q ht hq => ?_, fun ht habs => ?_, fun u ht => ?_, fun ht => ?_⟩⟩
  · exact goes_remoteStoreDone (st_takes hm (effSt_remote hact ht hm.clean) (leavesIssuer_remoteStoreDone ..))
  · exact goes_goneStoreDone (st_takes hm (effSt_gone ht hm.clean) (leavesIssuer_goneStoreDone ..))
  · exact goes_remoteStoreDone (sst_takes hm hact (effSst_remote ht hm.clean) (leavesIssuer_remoteStoreDone ..))
  · exact goes_goneStoreDone (sst_takes hm hact (effSst_gone ht hm.clean) (leavesIssuer_goneStoreDone ..))
  · exact defers_scalarDone served_sldGlob fun hk => sld_takes hm hact (effSld_global ht hm.clean hfail hord) hk
  · exact defers_scalarDone (served_scalarOwn ..) fun hk => sld_takes hm hact (effSld_own (readsAligned_load s f f.size) ht hm.clean habs) hk
  · exact goes_scalarSent (served_countMisal ..) fun hk => sld_takes hm hact (effSld_remote (readsAligned_load s f f.size) ht hm.clean) hk
  · exact defers_scalarDone (served_scalarGone ..) fun hk => sld_takes hm hact (effSld_gone (readsAligned_load s f f.size) ht hm.clean) hk
  · exact goes_scalarSent (served_touchPages ..) fun hk => ctrrd_takes hm hact (effCtrrd_global hal ht hm.clean hq) hk
  · exact defers_scalarDone (served_scalarOwn ..) fun hk => ctrrd_takes hm hact (effSld_own (fun _ => hal) ht hm.clean habs) hk
  · exact goes_scalarSent (served_countMisal ..) fun hk => ctrrd_takes hm hact (effSld_remote (fun _ => hal) ht hm.clean) hk
  · exact defers_scalarDone (served_scalarGone ..) fun hk => ctrrd_takes hm hact (effSld_gone (fun _ => hal) ht hm.clean) hk

end Sys2Proof.Proofs

namespace Sys2Proof.Machine.State
open Sys2Proof

/-! ### Stores to global memory (R139, O22)

Before a store that is no release writes its bytes it counts, which moves no byte and hinders no translation (`SameView`); its
pieces then go to the L1 one after the other. -/

section
variable {s t : State}

/-- Two states differ in the counters of clusters alone: translations find the same. -/
structure SameView (s t : State) : Prop where
  rest : t = { s with clusters := t.clusters }
  tlb : ∀ c, (t.cluster c).tlb2 = (s.cluster c).tlb2

theorem SameView.refl (s : State) : s.SameView s := ⟨rfl, fun _ => rfl⟩

theorem sameView_count (s : State) (cl off n : Nat) : s.SameView (s.count cl off n) := ⟨rfl, fun c => by
  rw [count, modCluster_cluster]
  split
  · next h => rw [h]
  · rfl⟩

theorem SameView.trans {u : State} (h : s.SameView t) (k : t.SameView u) : s.SameView u :=
  ⟨by rw [k.rest, h.rest], fun c => (k.tlb c).trans (h.tlb c)⟩

theorem SameView.ite {u : State} {c : Prop} [Decidable c] (h : s.SameView t) (k : s.SameView u) :
    s.SameView (if c then t else u) := by
  split
  · exact h
  · exact k

theorem SameView.sameBytes (h : s.SameView t) : s.SameBytes t := by
  rw [h.rest]
  exact ⟨rfl, rfl, rfl⟩

theorem SameView.tlbLookup (h : s.SameView t) (k p va : Nat) : t.tlbLookup k p va = s.tlbLookup k p va := by
  have hcore : t.core k = s.core k := by rw [h.rest]; rfl
  have hwalk : t.walkBlock p va = s.walkBlock p va := by rw [h.rest]; rfl
  unfold State.tlbLookup
  rw [hcore, h.tlb, hwalk]

theorem SameView.modCluster (h : s.SameView t) (k : Nat) {f : Cluster → Cluster}
    (hf : ∀ x y, y.tlb2 = x.tlb2 → (f y).tlb2 = (f x).tlb2) : (s.modCluster k f).SameView (t.modCluster k f) where
  rest := by rw [h.rest]; rfl
  tlb c := by
    rw [modCluster_cluster, modCluster_cluster]
    split
    · exact hf _ _ (h.tlb k)
    · exact h.tlb c

theorem SameView.modCore (h : s.SameView t) (k : Nat) (f : Core → Core) : (s.modCore k f).SameView (t.modCore k f) := by
  refine ⟨?_, h.tlb⟩
  rw [h.rest]
  rfl

theorem SameView.tlbTouch (h : s.SameView t) (k : Nat) (e : TlbEntry) (va : Nat) :
    (s.tlbTouch k e va).SameView (t.tlbTouch k e va) := by
  unfold State.tlbTouch
  refine SameView.modCluster (h.modCore k _) _ fun x y hxy => ?_
  dsimp only
  rw [hxy]

theorem SameView.setAD (h : s.SameView t) (p va : Nat) (w : Bool) : (s.setAD p va w).SameView (t.setAD p va w) := by
  have hwalk : t.walk p va = s.walk p va := by rw [h.rest]; rfl
  unfold State.setAD
  rw [hwalk]
  split
  · exact h
  · refine ⟨?_, h.tlb⟩
    rw [h.rest]

theorem SameView.xlatTouch (h : s.SameView t) (k p va : Nat) (a : Acc) : (s.xlatTouch k p va a).SameView (t.xlatTouch k p va a) := by
  unfold State.xlatTouch
  rw [h.tlbLookup]
  split
  · exact h
  · dsimp only
    split
    · exact (h.tlbTouch ..).setAD ..
    · exact h.tlbTouch ..

theorem SameView.touchPages (h : s.SameView t) (a : Acc) (qs : List GPiece) :
    (s.touchPages a qs).SameView (t.touchPages a qs) := by
  unfold State.touchPages
  refine List.foldl_rel h fun g _ u v h => ?_
  have hcore : v.curCore = u.curCore := by rw [h.rest]; rfl
  have hpart : v.curPart = u.curPart := by rw [h.rest]; rfl
  rw [hcore, hpart]
  exact h.xlatTouch ..

theorem sameView_storeReady {f : MF} (h : f.ord = 0) (mis : Bool) (locs : List Nat) (ds : List (List PByte)) :
    s.SameView (s.storeReady f mis locs ds) := by
  have hrel : f.isRel = false := by
    unfold MF.isRel
    rw [h]
    rfl
  have hmis : s.SameView (s.countMisal mis) := .ite (sameView_count ..) (.refl s)
  unfold storeReady releaseNow
  rw [hrel]
  exact hmis.trans (.ite (.refl _) (sameView_count ..))

/-! ### The L1 through a look at pages -/

theorem xlatTouch_l1 (s : State) (k p va : Nat) (a : Acc) (j : Nat) : ((s.xlatTouch k p va a).core j).l1 = (s.core j).l1 := by
  have htouch : ∀ e, ((s.tlbTouch k e va).core j).l1 = (s.core j).l1 := fun e => by
    rw [tlbTouch, modCluster_core_frame, modCore_core]
    split
    · next h => rw [h]
    · rfl
  have hset : ∀ (u : State) (w : Bool), ((u.setAD p va w).core j).l1 = (u.core j).l1 := fun u w => by
    unfold core
    rw [setAD_cores]
  unfold xlatTouch
  split
  · rfl
  · dsimp only
    split
    · rw [hset, htouch]
    · exact htouch _

theorem touchPages_l1 (s : State) (a : Acc) (qs : List GPiece) (j : Nat) : ((s.touchPages a qs).core j).l1 = (s.core j).l1 := by
  unfold touchPages
  generalize distinct (qs.map fun q => q.p.at_ / 65536) = gs
  induction gs generalizing s with
  | nil => rfl
  | cons g gs ih => exact (ih _).trans (xlatTouch_l1 ..)

end

/-! ### Pieces written one after the other -/

/-- Pieces written to global memory in order. -/
def globStored (u : State) (st : List GPiece) (data : GPiece → List PByte) : State := st.foldl (fun s q => s.writeGlob q (data q)) u

section
variable {B u : State} {k : Nat} {st : List GPiece} {data : GPiece → List PByte}

theorem servedLogged_globStored (u : State) (st : List GPiece) (data : GPiece → List PByte) :
    u.ServedLogged (u.globStored st data) := .foldl (fun _ _ => servedLogged_writeGlob ..) st u

variable (hmt : ∀ q ∈ st, q.mt = 0) (hk : u.curCore = k)
include hmt hk

theorem globStored_host : (u.globStored st data).hostMem = u.hostMem := by
  rw [globStored, foldl_writeGlob k data hmt hk, (KeepsHost.foldl (fun _ _ => keepsHost_glStore ..) st u).host]

variable (hlen : ∀ q ∈ st, (data q).length = q.p.n)
include hlen

/-- R139, R166: a byte that one piece alone covers is what that piece stores. -/
theorem globStored_covered {q : GPiece} {i : Nat} (hq : q ∈ st) (hi : i < q.p.n)
    (halone : ∀ q' ∈ st, q' ≠ q → ¬ q'.Covers (q.pa + i)) :
    (u.globStored st data).Stored k (q.pa + i) (((data q).map Prod.fst).getD i 0) := by
  rw [globStored, foldl_writeGlob k data hmt hk]
  refine stored_glStores (q := q) ?_ (Nat.le_add_right ..) ?_ (fun q' hq' hne => ?_) (.inl hq)
  · rw [Nat.add_sub_cancel_left]
  · rw [hlen q hq]
    omega
  · rw [hlen q' hq']
    exact halone q' hq' hne

/-- R4, R139: a byte that no piece covers stays what the core saw, where its L1 has room. -/
theorem globStored_beside (hB : B.SameBytes u) (hwt : (B.core k).writeThrough = false) (hfits : B.L1Fits k st) {a : Nat}
    (ha : ∀ q ∈ st, ¬ q.Covers a) : (u.globStored st data).seen k a = B.seen k a := by
  have hcore : u.core k = B.core k := by unfold core; rw [hB.cores]
  have hbegin : SeesAs B u k (distinct (l1Lines (B.core k) ++ st.flatMap fun q => linesOf q.pa q.p.n))
      (fun a => ∀ q ∈ st, ¬ q.Covers a) :=
    { mem := hB.mem
      through := by rw [hcore]; exact hwt
      lines := fun l hl => mem_distinct.2 (List.mem_append_left _ (hcore ▸ hl))
      seen := fun a _ => hB.seen k a }
  rw [globStored, foldl_writeGlob k data hmt hk]
  refine (hbegin.glStores (data := data) hfits (fun q hq l hl => ?_) (fun q hq a ha => ?_)).seen a ha
  · rw [hlen q hq] at hl
    exact mem_distinct.2 (List.mem_append_right _ (List.mem_flatMap.2 ⟨q, hq, hl⟩))
  · rw [hlen q hq]
    exact ha q hq

end

/-! ### The whole of a store -/

section
variable {s : State} {f : MF} {h : Hdr} {i : Instr} {act : Mask} {mis : Bool} {locs : List Nat} {ds : List (List PByte)}
  {st : List GPiece} {data : Nat → List PByte} {ws : List (Nat × List PByte)} {n : Nat}

/-- The part of its lane's data that a piece stores. -/
def laneBytes (data : Nat → List PByte) (q : GPiece) : List PByte := pieceData (data q.p.lane) q.p

/-- The state in which a store's pages are touched, and that in which its pieces are written and their marks settled. -/
def globReady (s : State) (f : MF) (mis : Bool) (locs : List Nat) (ds : List (List PByte)) (st : List GPiece) : State :=
  (s.storeReady f mis locs ds).touchPages .store st
def globWritten (s : State) (f : MF) (mis : Bool) (locs : List Nat) (ds : List (List PByte)) (st : List GPiece)
    (data : Nat → List PByte) (ws : List (Nat × List PByte)) : State :=
  ((s.globReady f mis locs ds st).globStored st (laneBytes data)).settleMarks s.curCore ws

/-- The state after a store to global memory, its sample included. -/
def globStoreDone (s : State) (f : MF) (act : Mask) (mis : Bool) (locs : List Nat) (ds : List (List PByte)) (st : List GPiece)
    (data : Nat → List PByte) (ws : List (Nat × List PByte)) (n : Nat) : State :=
  s.sampleIssue (s.globWritten f mis locs ds st data ws) act n true

theorem servedLogged_globReady : s.ServedLogged (s.globReady f mis locs ds st) :=
  (servedLogged_storeReady ..).trans (.of_served (served_touchPages ..))

theorem servedLogged_globWritten : s.ServedLogged (s.globWritten f mis locs ds st data ws) :=
  (servedLogged_globReady.trans (servedLogged_globStored ..)).trans (.of_served (served_settleMarks ..))

theorem leavesIssuer_globStoreDone : s.LeavesIssuer (s.globStoreDone f act mis locs ds st data ws n) :=
  (Spares.of_servedLogged servedLogged_globWritten).leavesIssuer.trans (leavesIssuer_sampleIssue ..)

/-- A word that takes the effect of a store to pages of memory type 0 leaves memory so. -/
theorem goes_globStoreDone (hord : f.ord = 0) (hwt : (s.core s.curCore).writeThrough = false) (hmt : ∀ q ∈ st, q.mt = 0)
    (hlen : ∀ q ∈ st, (laneBytes data q).length = q.p.n) (ht : s.Takes i (s.globStoreDone f act mis locs ds st data ws n)) :
    s.Goes i fun t =>
      (s.L1Fits s.curCore st → ∀ a, (∀ q ∈ st, ¬ q.Covers a) → t.seen s.curCore a = (s.touchPages .store st).seen s.curCore a) ∧
      (∀ q i, q ∈ st → i < q.p.n → (∀ q' ∈ st, q' ≠ q → ¬ q'.Covers (q.pa + i)) →
        t.seen s.curCore (q.pa + i) = ((data q.p.lane).getD (q.p.idx + i) (0, false)).1) ∧ t.hostMem = s.hostMem := by
  have hk : (s.globReady f mis locs ds st).curCore = s.curCore := curCore_of_cur servedLogged_globReady.cur
  have hbytes : (s.touchPages .store st).SameBytes (s.globReady f mis locs ds st) :=
    ((sameView_storeReady hord ..).touchPages ..).sameBytes
  refine ht.goes leavesIssuer_globStoreDone.regs fun t hot _ => ?_
  have hend := SameBytes.of_onlyGroup hot
  refine ⟨fun hfits a ha => ?_, fun q i hq hi halone => ?_, ?_⟩
  · rw [hend.seen, globStoreDone, sampleIssue_seen, globWritten, settleMarks_seen]
    refine globStored_beside hmt hk hlen hbytes ?_ ?_ ha
    · exact ((keepsHost_touchPages ..).through _).trans hwt
    · unfold L1Fits l1Lines at hfits ⊢
      rw [touchPages_l1]
      exact hfits
  · rw [hend.seen, globStoreDone, sampleIssue_seen, ← getD_pieceData _ hi]
    exact (Stored.settleMarks (globStored_covered hmt hk hlen hq hi halone) ws).seen
  · rw [hend.host, globStoreDone, sampleIssue_hostMem, globWritten, (keepsHost_settleMarks ..).host, globStored_host hmt hk,
      hbytes.host, (keepsHost_touchPages ..).host]

/-! ### The data of the pieces -/

theorem length_laneData (r : Regs) (f : MF) (l : Nat) : (laneData r f.dataRegs f.size l).length = f.size := by
  unfold laneData MF.dataRegs MF.size
  have hwords : ∀ vs : List Nat, (vs.flatMap fun v => (leBytes 4 (r.lane v l).toNat).map fun b =>
      (b, (r.vgetPois v).getLsbD l)).length = 4 * vs.length := fun vs => by
    induction vs with
    | nil => rfl
    | cons v vs ih =>
      rw [List.flatMap_cons, List.length_append, ih, List.length_map, leBytes_length, List.length_cons]
      omega
  rw [List.length_take, hwords, List.length_map, List.length_range, Nat.min_eq_left]
  have hle := f.sz.isLt
  interval_cases f.sz.toNat <;> decide

theorem length_scalarData (r : Regs) (n : Nat) {size : Nat} (h : size ≤ 8) : (scalarData r n size).length = size := by
  unfold scalarData
  rw [List.length_take, List.length_map, List.length_range, Nat.min_eq_left h]

theorem length_laneBytes {a : Acc} {ps : List Piece} {q : GPiece} {m : Nat} (hq : q ∈ (s.lookup a ps).1)
    (hps : ∀ p ∈ ps, p.idx + p.n ≤ m) (hd : (data q.p.lane).length = m) : (laneBytes data q).length = q.p.n :=
  length_pieceData ((hps _ (mem_of_mem_lookup hq)).trans hd.ge)

theorem mPieces_within {p : Piece} (h : p ∈ s.mPieces f act) : p.idx + p.n ≤ f.size := by
  obtain ⟨l, -, hp⟩ := List.mem_flatMap.1 h
  exact (piece_within hp).2

/-! ### The two words -/

def stGlob (s : State) (f : MF) (act : Mask) : State :=
  let data := laneData s.src f.dataRegs f.size
  let st := (s.lookup .store (s.mPieces f act)).1
  s.globStoreDone f act ((s.mPieces f act).any fun p => p.n != f.size) (act.lanes.map (s.mSum f)) (act.lanes.map data) st data
    ((st.filter fun q => q.mt != 1).map fun q => (q.pa, laneBytes data q)) (sectorCount (s.mPieces f act))

def sstGlob (s : State) (f : MF) (act : Mask) : State :=
  let data := scalarData s.src (f.vd.toNat % 64) f.size
  s.globStoreDone f act (s.mSum f 0 % f.size != 0) [s.mSum f 0] [data] (s.lookup .store (s.scalarPieces f act f.size)).1
    (fun _ => data) [] (sectorCount (s.scalarPieces f act f.size))

/-- Pieces of memory type 0 leak nothing to the host. -/
theorem filter_host {st : List GPiece} (hmt : ∀ q ∈ st, q.mt = 0) (g : GPiece → Bool) : (st.filter fun q => q.mt == 1 && g q) = [] :=
  List.filter_eq_nil_iff.2 fun q hq => by simp [hmt q hq]

theorem effSt_glob (hord : f.ord = 0) (ht : s.mTarget f = .glob) (hclean : s.mPois f act = 0)
    (hfail : (s.lookup .store (s.mPieces f act)).2 = []) (hmt : ∀ q ∈ (s.lookup .store (s.mPieces f act)).1, q.mt = 0)
    (hwait : s.orderHeld .store (s.lookup .store (s.mPieces f act)).1 = false) : effSt f act s = { s := s.stGlob f act } := by
  have hrel : f.isRel = false := by
    unfold MF.isRel
    rw [hord]
    rfl
  have hnone : lanesOf ([] : List Piece) = 0 := maskOf_false
  have hbuf : s.bufferHeld [] = false := by simp [bufferHeld]
  simp only [effSt, ht, hclean, hfail, hwait, filter_host hmt, hrel, hbuf, List.map_nil, hnone]
  rfl

theorem effSst_glob (hord : f.ord = 0) (ht : s.mTarget f = .glob) (hclean : s.mPois f act = 0)
    (hfail : (s.lookup .store (s.scalarPieces f act f.size)).2 = [])
    (hmt : ∀ q ∈ (s.lookup .store (s.scalarPieces f act f.size)).1, q.mt = 0)
    (hwait : s.orderHeld .store (s.lookup .store (s.scalarPieces f act f.size)).1 = false) :
    effSst f act s = { s := s.sstGlob f act } := by
  have hrel : f.isRel = false := by
    unfold MF.isRel
    rw [hord]
    rfl
  have hbuf : s.bufferHeld [] = false := by simp [bufferHeld]
  have hleak : ((s.lookup .store (s.scalarPieces f act f.size)).1.any fun q => q.mt == 1 &&
      anyPois (pieceData (scalarData s.src (f.vd.toNat % 64) f.size) q.p)) = false :=
    List.any_eq_false.2 fun q hq => by simp [hmt q hq]
  simp only [effSst, ht, hclean, hfail, hwait, hrel, hbuf, hleak]
  rfl

end

end Sys2Proof.Machine.State

namespace Sys2Proof.Proofs
open Sys2Proof Sys2Proof.Machine Sys2Proof.Machine.State

/-- Settles O22: both words lead to `globStoreDone`. -/
theorem globalStore : Obligations.GlobalStore := by
  intro s h f hwt hord ht hact store
  refine ⟨?_, fun hsz => ?_⟩
  · intro hm hfail hmt hwait before
    refine goes_globStoreDone hord hwt hmt (fun q hq => ?_)
      (st_takes hm (effSt_glob hord ht hm.clean hfail hmt hwait) leavesIssuer_globStoreDone)
    exact length_laneBytes hq (fun _ hp => mPieces_within hp) (length_laneData ..)
  · intro hm hfail hmt hwait before
    refine goes_globStoreDone hord hwt hmt (fun q hq => ?_)
      (sst_takes hm hact (effSst_glob hord ht hm.clean hfail hmt hwait) leavesIssuer_globStoreDone)
    refine length_laneBytes hq (fun _ hp => (piece_within hp).2) (length_scalarData _ _ ?_)
    exact Nat.pow_le_pow_right (by decide) hsz

end Sys2Proof.Proofs

/-! ## What an atomic leaves in a location (O26) -/

namespace Sys2Proof.Machine
open Sys2Proof Sys2Proof.Machine.State

section
variable {n : Nat}

/-- The bytes of a word are read back as the word. -/
theorem leNat_word (x : BitVec (8 * n)) : leNat (leBytes n x.toNat) = x.toNat := by
  rw [leNat_leBytes]
  exact Nat.mod_eq_of_lt x.isLt

/-- The signed value of a word, as the operations form it. -/
theorem signed_toNat {w : Nat} (x : BitVec w) :
    (if pow2 w ≤ 2 * x.toNat then (x.toNat : Int) - (pow2 w : Nat) else x.toNat) = x.toInt := by
  rw [BitVec.toInt_eq_toNat_cond, pow2]
  by_cases h : 2 ^ w ≤ 2 * x.toNat
  · rw [if_pos h, if_neg (Nat.not_lt.2 h)]
  · rw [if_neg h, if_pos (Nat.not_le.1 h)]

theorem toNat_ite {w : Nat} (p : Prop) [Decidable p] (x y : BitVec w) : (if p then x else y).toNat = if p then x.toNat else y.toNat := by
  split <;> rfl

section
variable (x y c : BitVec (8 * n))

/-- What operation `op` makes of three words of `n` bytes. -/
def rmwOf (op : Nat) : List Byte := rmwNew op n (leBytes n x.toNat) (leBytes n y.toNat) (leBytes n c.toNat)

theorem rmwOf_add : rmwOf x y c 1 = leBytes n (x + y).toNat := by
  simp only [rmwOf, rmwNew, leNat_word, BitVec.toNat_add]
  rfl

theorem rmwOf_counterAdd : rmwOf x y c 14 = leBytes n (x + y).toNat := by
  simp only [rmwOf, rmwNew, leNat_word, BitVec.toNat_add]
  rfl

theorem rmwOf_min : rmwOf x y c 2 = leBytes n (if y.toInt < x.toInt then y else x).toNat := by
  simp only [rmwOf, rmwNew, leNat_word, signed_toNat, toNat_ite]

theorem rmwOf_max : rmwOf x y c 4 = leBytes n (if x.toInt < y.toInt then y else x).toNat := by
  simp only [rmwOf, rmwNew, leNat_word, signed_toNat, toNat_ite]

theorem rmwOf_minu : rmwOf x y c 3 = leBytes n (if y.toNat < x.toNat then y else x).toNat := by
  have hmin : Nat.min x.toNat y.toNat = if y.toNat < x.toNat then y.toNat else x.toNat := by
    show min x.toNat y.toNat = _
    split <;> omega
  simp only [rmwOf, rmwNew, leNat_word, toNat_ite, hmin]

theorem rmwOf_maxu : rmwOf x y c 5 = leBytes n (if x.toNat < y.toNat then y else x).toNat := by
  have hmax : Nat.max x.toNat y.toNat = if x.toNat < y.toNat then y.toNat else x.toNat := by
    show max x.toNat y.toNat = _
    split <;> omega
  simp only [rmwOf, rmwNew, leNat_word, toNat_ite, hmax]

theorem rmwOf_and : rmwOf x y c 6 = leBytes n (x &&& y).toNat := by
  simp only [rmwOf, rmwNew, leNat_word, BitVec.toNat_and]

theorem rmwOf_or : rmwOf x y c 7 = leBytes n (x ||| y).toNat := by
  simp only [rmwOf, rmwNew, leNat_word, BitVec.toNat_or]

theorem rmwOf_xor : rmwOf x y c 8 = leBytes n (x ^^^ y).toNat := by
  simp only [rmwOf, rmwNew, leNat_word, BitVec.toNat_xor]

theorem rmwOf_exchange : rmwOf x y c 9 = leBytes n y.toNat := by
  simp only [rmwOf, rmwNew, leNat_word]

theorem rmwOf_swap : rmwOf x y c 10 = leBytes n (if x = c then y else x).toNat := by
  simp only [rmwOf, rmwNew, leNat_word, toNat_ite, beq_iff_eq, BitVec.toNat_inj]

end

section
variable (x y c : W32)

theorem w32_toNat : w32 x.toNat = x := by simp [w32]

theorem rmwOf_addFloat : rmwOf (n := 4) x y c 11 = leBytes 4 (rne32 (FVal.add 0 (f32 x) (f32 y))).toNat := by
  simp only [rmwOf, rmwNew, leNat_word (n := 4), w32_toNat, add32]

theorem rmwOf_minFloat : rmwOf (n := 4) x y c 12 = leBytes 4 (rne32 ((f32 x).minimum (f32 y))).toNat := by
  simp only [rmwOf, rmwNew, leNat_word (n := 4), w32_toNat, min32]

theorem rmwOf_maxFloat : rmwOf (n := 4) x y c 13 = leBytes 4 (rne32 ((f32 x).maximum (f32 y))).toNat := by
  simp only [rmwOf, rmwNew, leNat_word (n := 4), w32_toNat, max32]

end

end

end Sys2Proof.Machine

namespace Sys2Proof.Proofs
open Sys2Proof Sys2Proof.Machine Sys2Proof.Machine.State

/-- Settles O26, operation by operation. -/
theorem atomicOperations : Obligations.AtomicOperations := by
  refine ⟨fun n x y c _ => ?_, fun n x y c _ => rmwOf_swap x y c, fun x y c => ?_⟩
  · exact ⟨rmwOf_add x y c, rmwOf_min x y c, rmwOf_minu x y c, rmwOf_max x y c, rmwOf_maxu x y c, rmwOf_and x y c,
      rmwOf_or x y c, rmwOf_xor x y c, rmwOf_exchange x y c, rmwOf_counterAdd x y c⟩
  · exact ⟨rmwOf_addFloat x y c, rmwOf_minFloat x y c, rmwOf_maxFloat x y c⟩

end Sys2Proof.Proofs

/-! ## The atomics (O27)

An atomic whose lanes are aligned and unpoisoned takes one of five ways; each is said once as the state that it leads to. -/

namespace Sys2Proof.SMap

theorem find_map {α β : Type} (g : α → β) (m : SMap α) (k : Nat) :
    SMap.find (m.map fun e => (e.1, g e.2)) k = (m.find k).map g := by
  induction m with
  | nil => rfl
  | cons e m ih =>
    obtain ⟨j, v⟩ := e
    rw [List.map_cons]
    by_cases hj : j = k
    · simp [SMap.find, hj]
    · simpa [SMap.find, hj] using ih

theorem contains_keys {α : Type} (m : SMap α) (k : Nat) : (m.map Prod.fst).contains k = (m.find k).isSome := by
  induction m with
  | nil => rfl
  | cons e m ih =>
    obtain ⟨j, _⟩ := e
    rw [List.map_cons, List.contains_cons]
    by_cases hj : j = k
    · simp [SMap.find, hj]
    · simp only [SMap.find, hj, if_false, ← ih]
      simp [Ne.symm hj]

/-- The first entry of a list built from its keys. -/
theorem find_map_keys {α : Type} (g : Nat → α) {ks : List Nat} {k : Nat} :
    SMap.find (ks.map fun k => (k, g k)) k = if k ∈ ks then some (g k) else none := by
  induction ks with
  | nil => rfl
  | cons j ks ih =>
    rw [List.map_cons]
    by_cases hj : j = k
    · simp [SMap.find, hj]
    · simp only [SMap.find, hj, if_false, ih, List.mem_cons, Ne.symm hj, false_or]

end Sys2Proof.SMap

namespace Sys2Proof.Machine
open Sys2Proof

/-! ### The writes of the old values (R405) -/

theorem loadWords_word {bs : List PByte} {n i : Nat} (hlen : bs.length = n) (hi : i < Nat.max 1 (n / 4)) :
    ((loadWords false bs).getD i (0, false)).1 = w32 (leNat (((bs.map Prod.fst).drop (4 * i)).take 4)) := by
  subst hlen
  unfold loadWords
  by_cases hn : bs.length < 4
  · have hmax : Nat.max 1 (bs.length / 4) = 1 := by
      rw [Nat.div_eq_of_lt hn]
      rfl
    have h0 : i = 0 := by omega
    subst h0
    simp only [if_pos hn, Bool.false_and, Bool.false_eq_true, if_false]
    rw [Nat.mul_zero, List.drop_zero, List.take_of_length_le (by rw [List.length_map]; omega)]
    rfl
  · have hmax : Nat.max 1 (bs.length / 4) = bs.length / 4 := Nat.max_eq_right (by omega)
    rw [hmax] at hi
    simp only [if_neg hn]
    simp [List.getD_eq_getElem?_getD, List.getElem?_map, List.getElem?_range hi]

section
variable {vd n : Nat} {res : SMap (List PByte)} {l i : Nat}

/-- The write of the old values' word `j`. -/
def rmwWord (vd : Nat) (res : SMap (List PByte)) (j : Nat) : RegWr :=
  .loaded (vd + j) (maskOf fun l => (res.map Prod.fst).contains l)
    ((List.range 128).map fun l => ((SMap.get (res.map fun e => (e.1, loadWords false e.2)) l []).getD j (0, false)).1)
    (maskOf fun l => ((SMap.get (res.map fun e => (e.1, loadWords false e.2)) l []).getD j (0, false)).2)

theorem rmwWrites_eq : State.rmwWrites vd n res = (List.range (Nat.max 1 (n / 4))).map (rmwWord vd res) := rfl

/-- The word that a lane's old bytes make. -/
def oldWord (res : SMap (List PByte)) (i l : Nat) : Option W32 := (res.find l).map fun bs => ((loadWords false bs).getD i (0, false)).1

theorem laneHit_rmwWord (hl : l < 128) (j : Nat) :
    State.laneHit (vd + i) l (rmwWord vd res j) = if j = i then oldWord res i l else none := by
  simp only [rmwWord, State.laneHit, getLsbD_maskOf _ _ hl, SMap.contains_keys, getD_range_map _ _ _ hl, Nat.add_left_cancel_iff]
  by_cases hji : j = i
  · subst hji
    cases hf : res.find l with
    | none => simp [oldWord, hf]
    | some bs => simp [oldWord, SMap.get, SMap.find_map, hf]
  · simp [hji]

/-- A lane of a register after the old values are written. -/
theorem rmwWrites_lane (hl : l < 128) (hi : i < Nat.max 1 (n / 4)) (r : Regs) :
    ((State.rmwWrites vd n res).foldl Regs.write r).lane (vd + i) l = (oldWord res i l).getD (r.lane (vd + i) l) := by
  refine State.foldl_write_opt (get := fun r => r.lane (vd + i) l) (hit := State.laneHit (vd + i) l)
    (fun r w => State.write_lane r w (vd + i) hl) (fun b hb => ?_) (fun w hw c hc => ?_) r
  · refine ⟨rmwWord vd res i, List.mem_map_of_mem (List.mem_range.2 hi), ?_⟩
    rw [laneHit_rmwWord hl, if_pos rfl, hb]
  · rw [rmwWrites_eq] at hw
    obtain ⟨j, -, rfl⟩ := List.mem_map.1 hw
    rw [laneHit_rmwWord hl] at hc
    split at hc
    · exact hc
    · cases hc

end

namespace State

/-! ### How an atomic issues -/

section
variable {s e : State} {h : Hdr} {i : Instr} {f : MF} {op : Nat} {act : Mask}

/-- R405: one access for each active lane. -/
def atomPieces (s : State) (f : MF) (act : Mask) : List Piece :=
  act.lanes.map fun l => { lane := l, idx := 0, at_ := s.mSum f l, n := f.size }

/-- An atomic that is ready, and whose lanes' locations are aligned (R405). -/
structure AtomReady (s : State) (h : Hdr) (f : MF) (op : Nat) : Prop where
  ready : s.MemReady h f (f.addrRegs ++ f.atomRegs (op == 10) ++ (if f.sx then [] else f.atomRegs false))
  aligned : ∀ p ∈ s.atomPieces f (s.activeLanes h), p.at_ % f.size = 0
  active : s.activeLanes h ≠ 0

theorem AtomReady.clean (hr : s.AtomReady h f op) : s.mPois f (s.activeLanes h) = 0 := hr.ready.clean

theorem AtomReady.filter_misaligned (hr : s.AtomReady h f op) :
    (((s.activeLanes h).lanes.map fun l => (l, s.mSum f l)).filter fun x => x.2 % f.size != 0) = [] := by
  refine List.filter_eq_nil_iff.2 fun x hx => ?_
  obtain ⟨l, hl, rfl⟩ := List.mem_map.1 hx
  have h0 := hr.aligned _ (List.mem_map_of_mem hl)
  simpa using h0

theorem atom_takes (hx : exec i s = .next (atomWord h f op s)) (hr : s.AtomReady h f op)
    (he : effAtom h f op (s.activeLanes h) s = { s := e }) (hk : s.KeepsIssuer e) : s.Takes i e := by
  refine takes_of_memWord (u := atomUses f (op == 10)) hx hr.ready rfl ?_ he hk
  refine issueCheck_none s h _ _ hr.ready.issues.noStrictLook rfl rfl (fun n hn => hr.ready.below n ?_) fun n hn => by cases hn
  unfold atomUses at hn
  simp only [List.mem_append] at hn ⊢
  tauto

/-- The registers that an atomic's result goes to, and the number of its result. -/
def atomDst (f : MF) : List (Nat × Nat) :=
  ((List.range (Nat.max 1 (f.size / 4))).map fun i => f.vd.toNat + i).map fun r => (0, r)
def atomDue (s : State) (f : MF) : Option Nat := if f.sx then none else some s.nextId
def atomAcq (f : MF) : Option (Nat × Bool) := if f.isAcq then some (f.scp.toNat, f.rmt) else none

/-- The result of an atomic that has one: its old values, or the parts that are to come. -/
def addOld (u : State) (h : Hdr) (f : MF) (ws : List RegWr) (left : Nat) : State :=
  if f.sx then u else u.addDue h.la.toNat (atomDst f) ws left

theorem atomDst_eq (f : MF) : atomDst f = (List.range (Nat.max 1 (f.size / 4))).map fun i => (0, f.vd.toNat + i) := List.map_map ..

/-- An atomic's result is due after operations that leave its group alone, with further ones behind it. -/
theorem addOld_keeps {u e : State} {ws : List RegWr} {left : Nat} (hu : s.LeavesIssuer u) (hn : u.nextId = s.nextId)
    (he : (u.addOld h f ws left).LeavesIssuer e) : s.KeepsIssuer e ∧ e.grp.regs = s.grp.regs ∧
      (f.sx = false → s.freshDue h.la.toNat (atomDst f) ws left ∈ e.grp.due) := by
  unfold addOld at he
  by_cases hsx : f.sx = true
  · rw [if_pos hsx] at he
    have hk := hu.trans he
    exact ⟨hk.toKeepsIssuer, hk.regs, fun h => absurd hsx (by simp [h])⟩
  · rw [if_neg hsx] at he
    have hfresh : u.freshDue h.la.toNat (atomDst f) ws left = s.freshDue h.la.toNat (atomDst f) ws left := by
      unfold freshDue
      rw [hn, hu.cur]
    refine ⟨(hu.toKeepsIssuer.trans (keepsIssuer_addDue ..)).trans he.toKeepsIssuer, ?_, fun _ => ?_⟩
    · rw [he.regs, addDue_grp]
      exact hu.regs
    · rw [he.due, addDue_grp, hfresh]
      exact List.mem_append_right _ (List.mem_singleton.2 rfl)

/-- What the statement says of an atomic's result: `left` parts outstanding, or the old values there. -/
def OldDue (s : State) (f : MF) (act : Mask) (t : State) (left : Nat) (old : Nat → List Byte) : Prop :=
  f.sx = false → ∃ d ∈ t.grp.due, d.id = s.nextId ∧ d.left = left ∧
    d.dst = (List.range (Nat.max 1 (f.size / 4))).map (fun i => (0, f.vd.toNat + i)) ∧ (left ≠ 0 → d.writes = []) ∧
    (left = 0 → ∀ i l, i < Nat.max 1 (f.size / 4) → l < 128 → (d.writes.foldl Regs.write s.grp.regs).lane (f.vd.toNat + i) l =
      if act.getLsbD l then w32 (leNat (((old l).drop (4 * i)).take 4)) else s.grp.regs.lane (f.vd.toNat + i) l)

theorem oldDue_later {t : State} {left : Nat} {old : Nat → List Byte} (hleft : left ≠ 0)
    (ht : t.grp = { countLa e.grp s.nextId s.cur.lanes with pcs := t.grp.pcs })
    (hdue : f.sx = false → s.freshDue h.la.toNat (atomDst f) [] left ∈ e.grp.due) : s.OldDue f act t left old := by
  refine fun hsx => ⟨s.freshDue h.la.toNat (atomDst f) [] left, ?_, rfl, rfl, atomDst_eq f, fun _ => rfl, fun h0 => absurd h0 hleft⟩
  rw [ht]
  exact mem_due_countLa s.cur.lanes (hdue hsx) rfl

theorem oldDue_now {t : State} {res : SMap (List PByte)} {old : Nat → List Byte}
    (hres : ∀ l < 128, (res.find l).map (List.map Prod.fst) = if act.getLsbD l then some (old l) else none)
    (hlen : ∀ l bs, res.find l = some bs → bs.length = f.size)
    (ht : t.grp = { countLa e.grp s.nextId s.cur.lanes with pcs := t.grp.pcs })
    (hdue : f.sx = false → s.freshDue h.la.toNat (atomDst f) (rmwWrites f.vd.toNat f.size res) 0 ∈ e.grp.due) :
    s.OldDue f act t 0 old := by
  refine fun hsx => ⟨s.freshDue h.la.toNat (atomDst f) (rmwWrites f.vd.toNat f.size res) 0, ?_, rfl, rfl,
    atomDst_eq f, fun h0 => absurd rfl h0, fun _ i l hi hl => ?_⟩
  · rw [ht]
    exact mem_due_countLa s.cur.lanes (hdue hsx) rfl
  · refine (rmwWrites_lane hl hi _).trans ?_
    have hl' := hres l hl
    unfold oldWord
    cases hf : res.find l with
    | none =>
      rw [hf] at hl'
      by_cases ha : act.getLsbD l = true
      · rw [if_pos ha] at hl'
        cases hl'
      · rw [if_neg ha]
        rfl
    | some bs =>
      rw [hf] at hl'
      by_cases ha : act.getLsbD l = true
      · rw [if_pos ha] at hl' ⊢
        rw [← Option.some.inj hl']
        exact loadWords_word (hlen l bs hf) hi
      · rw [if_neg ha] at hl'
        cases hl'

/-! ### Operations sent out for each location -/

/-- Operations sent one after the other. -/
def launchAll (u : State) (acq : Option (Nat × Bool)) (bs : List Body) : State := bs.foldl (fun u b => (u.launch b acq).2) u

variable {u t : State} {acq : Option (Nat × Bool)} {bs : List Body} {b : Body}

theorem leavesIssuer_launchAll (u : State) (acq : Option (Nat × Bool)) (bs : List Body) : u.LeavesIssuer (u.launchAll acq bs) := by
  induction bs generalizing u with
  | nil => exact .of_served (.refl u)
  | cons b bs ih => exact (leavesIssuer_launch ..).trans (ih _)

theorem launchAll_team (k : Nat) : (u.launchAll acq bs).team k = u.team k := by
  induction bs generalizing u with
  | nil => rfl
  | cons b bs ih => exact ih (u := (u.launch b acq).2)

theorem mem_flights_launchAll {fl : Flight} (hfl : fl ∈ u.flights) : fl ∈ (u.launchAll acq bs).flights := by
  induction bs generalizing u with
  | nil => exact hfl
  | cons b bs ih => exact ih (u := (u.launch b acq).2) (List.mem_append_left _ hfl)

/-- Each operation of a list is sent. -/
theorem sends_launchAll (hc : u.cur = s.cur) (hn : s.nextId ≤ u.nextId) (ht : t.flights = (u.launchAll acq bs).flights)
    (hb : b ∈ bs) : s.Sends t b := by
  induction bs generalizing u with
  | nil => cases hb
  | cons b' bs ih =>
    rcases List.mem_cons.1 hb with rfl | hb
    · obtain ⟨fl, hfl, hrest⟩ := sends_launch (acq := acq) (b := b) hc hn rfl
      exact ⟨fl, ht ▸ mem_flights_launchAll (u := (u.launch b acq).2) hfl, hrest⟩
    · exact ih (u := (u.launch b' acq).2) hc (Nat.le_succ_of_le hn) ht hb

/-! ### The end of an atomic -/

theorem addDue_team (u : State) (la : Nat) (dst : List (Nat × Nat)) (ws : List RegWr) (left k : Nat) :
    (u.addDue la dst ws left).team k = u.team k := by
  unfold addDue overPrimary
  dsimp only
  split <;> rfl

theorem addOld_team (u : State) (h : Hdr) (f : MF) (ws : List RegWr) (left k : Nat) : (u.addOld h f ws left).team k = u.team k := by
  unfold addOld
  split
  · rfl
  · exact addDue_team ..

theorem addOld_cur (u : State) (h : Hdr) (f : MF) (ws : List RegWr) (left : Nat) : (u.addOld h f ws left).cur = u.cur := by
  unfold addOld
  split
  · rfl
  · exact addDue_cur ..

theorem le_addOld_nextId (u : State) (h : Hdr) (f : MF) (ws : List RegWr) (left : Nat) :
    u.nextId ≤ (u.addOld h f ws left).nextId := by
  unfold addOld
  split
  · exact le_refl _
  · rw [addDue_nextId]
    exact Nat.le_succ _

/-- The state after an atomic that went as far as `u`: its result, the operations it sends, its sample. -/
def atomDone (s u : State) (h : Hdr) (f : MF) (act : Mask) (ws : List RegWr) (left : Nat) (bs : List Body) (n : Nat) : State :=
  s.sampleIssue ((u.addOld h f ws left).launchAll (atomAcq f) bs) act n f.sx

theorem goes_atomDone {ws : List RegWr} {left n : Nat} {old : Nat → List Byte} (hu : s.LeavesIssuer u) (hn : u.nextId = s.nextId)
    (ht : s.KeepsIssuer (s.atomDone u h f act ws left bs n) → s.Takes i (s.atomDone u h f act ws left bs n))
    (hold : ∀ t e : State, t.grp = { countLa e.grp s.nextId s.cur.lanes with pcs := t.grp.pcs } →
      (f.sx = false → s.freshDue h.la.toNat (atomDst f) ws left ∈ e.grp.due) → s.OldDue f act t left old) :
    s.Goes i fun t => s.OldDue f act t left old ∧ (∀ b ∈ bs, s.Sends t b) ∧ ∀ k, (t.team k).spad = (u.team k).spad := by
  obtain ⟨hk, hregs, hdue⟩ := addOld_keeps (h := h) (f := f) (ws := ws) (left := left) (e := s.atomDone u h f act ws left bs n) hu hn
    ((leavesIssuer_launchAll _ (atomAcq f) bs).trans (leavesIssuer_sampleIssue s _ act n f.sx))
  refine (ht hk).goes hregs fun t hot hgrp => ⟨hold t _ hgrp hdue, fun b hb => ?_, fun k => ?_⟩
  · refine sends_launchAll ((addOld_cur u h f ws left).trans hu.cur) ?_ (hot.flights.trans (sampleIssue_flights ..)) hb
    exact hn ▸ le_addOld_nextId ..
  · rw [hot.spad, atomDone, sampleIssue_team, launchAll_team, addOld_team]

theorem Goes.imp {P Q : State → Prop} (hg : s.Goes i P) (hpq : ∀ t, P t → Q t) : s.Goes i Q := by
  obtain ⟨t, hx, hpass, hregs, hp⟩ := hg
  exact ⟨t, hx, hpass, hregs, hpq t hp⟩

end

end State
end Sys2Proof.Machine

namespace Sys2Proof.Machine.State
open Sys2Proof

/-! ### On the own scratchpad (R134, R160) -/

/-- What an operation leaves of a scratchpad, and what it finds there. -/
def atomPut (s : State) (f : MF) (op : Nat) (m : Memory) (p : Piece) : Memory :=
  match spReduce s.curGrid.alloc p.at_ with
  | some o => Memory.setBytes m o (rmwNew op f.size (Memory.bytes m o f.size) (s.rmwLane f op p.lane).data (s.rmwLane f op p.lane).cmp)
  | none => m
def atomFound (s : State) (f : MF) (m : Memory) (at_ : Nat) : List Byte :=
  match spReduce s.curGrid.alloc at_ with
  | some o => Memory.bytes m o f.size
  | none => List.replicate f.size 0

/-- One lane's operation: the machine, and the old values with their marks. -/
def atomStep (s : State) (f : MF) (op : Nat) (x : State × SMap (List PByte)) (p : Piece) : State × SMap (List PByte) :=
  match spReduce s.curGrid.alloc p.at_ with
  | some o =>
    let old := spadPBytes (x.1.team s.curTeam) o f.size
    let d := s.rmwLane f op p.lane
    let new := rmwNew op f.size (old.map Prod.fst) d.data d.cmp
    let m := rmwPois op (anyPois old) d.pois
    ((x.1.modTeam s.curTeam fun y => spPutP y o f.size (new.map fun b => (b, m))).countStored [new.map fun b => (b, m)],
      x.2.put p.lane old)
  | none => (x.1, x.2.put p.lane (List.replicate f.size (0, false)))

section
variable {s : State} {f : MF} {op : Nat} {x : State × SMap (List PByte)} {p : Piece} {ps : List Piece}

theorem spadPBytes_bytes (x : Team) (o n : Nat) : (spadPBytes x o n).map Prod.fst = Memory.bytes x.spad o n := by
  rw [spadPBytes, List.map_map, Memory.bytes_eq_map]
  rfl

theorem rmwNew_length (op n : Nat) (old new cmp : List Byte) : (rmwNew op n old new cmp).length = n := by
  unfold rmwNew
  exact leBytes_length ..

theorem countStored_team (u : State) (ds : List (List PByte)) (k : Nat) : (u.countStored ds).team k = u.team k :=
  (served_countWritten ..).team k

theorem spares_atomStep (x : State × SMap (List PByte)) (p : Piece) : x.1.Spares (atomStep s f op x p).1 := by
  unfold atomStep
  split
  · exact Spares.trans (t := x.1.modTeam s.curTeam _) (.of_group rfl (.refl _)) (.of_served (served_countWritten ..))
  · exact .refl _

theorem atomStep_spad : ((atomStep s f op x p).1.team s.curTeam).spad = atomPut s f op (x.1.team s.curTeam).spad p := by
  unfold atomStep atomPut
  split
  · dsimp only
    rw [countStored_team, modTeam_team, if_pos rfl, spPutP_spad (by rw [List.length_map, rmwNew_length]), spadPBytes_bytes,
      List.map_map]
    simp [Function.comp_def]
  · rfl

/-- A step notes what its lane found. -/
theorem atomStep_old : ∃ old : List PByte, (atomStep s f op x p).2 = x.2.put p.lane old ∧ old.length = f.size ∧
    old.map Prod.fst = atomFound s f (x.1.team s.curTeam).spad p.at_ := by
  unfold atomStep atomFound
  split
  · exact ⟨_, rfl, by simp [spadPBytes], spadPBytes_bytes ..⟩
  · exact ⟨_, rfl, by simp, by simp⟩

theorem spares_atomSteps (x : State × SMap (List PByte)) : x.1.Spares (ps.foldl (atomStep s f op) x).1 := by
  induction ps generalizing x with
  | nil => exact .refl _
  | cons p ps ih => exact (spares_atomStep x p).trans (ih _)

theorem atomSteps_spad : ((ps.foldl (atomStep s f op) x).1.team s.curTeam).spad =
    ps.foldl (atomPut s f op) (x.1.team s.curTeam).spad := by
  induction ps generalizing x with
  | nil => rfl
  | cons p ps ih => rw [List.foldl_cons, List.foldl_cons, ih, atomStep_spad]

theorem atomStep_nextId : (atomStep s f op x p).1.nextId = x.1.nextId := by
  unfold atomStep
  split
  · exact (ServedLogged.of_served (served_countWritten ..)).nextId.trans rfl
  · rfl

theorem atomSteps_nextId : (ps.foldl (atomStep s f op) x).1.nextId = x.1.nextId := by
  induction ps generalizing x with
  | nil => rfl
  | cons p ps ih => rw [List.foldl_cons, ih, atomStep_nextId]

theorem atomSteps_find_other {l : Nat} (hl : ∀ p ∈ ps, p.lane ≠ l) : (ps.foldl (atomStep s f op) x).2.find l = x.2.find l := by
  induction ps generalizing x with
  | nil => rfl
  | cons p ps ih =>
    obtain ⟨old, he, -, -⟩ := atomStep_old (s := s) (f := f) (op := op) (x := x) (p := p)
    rw [List.foldl_cons, ih fun p hp => hl p (List.mem_cons_of_mem _ hp), he, SMap.find_put,
      if_neg (Ne.symm (hl p List.mem_cons_self))]

/-- A lane finds what the lanes before it left. -/
theorem atomSteps_find {l a : Nat} (hnd : (ps.map Piece.lane).Nodup) (hp : ∃ p ∈ ps, p.lane = l ∧ p.at_ = a) :
    ∃ old : List PByte, (ps.foldl (atomStep s f op) x).2.find l = some old ∧ old.length = f.size ∧
      old.map Prod.fst = atomFound s f ((ps.takeWhile fun p => p.lane != l).foldl (atomPut s f op) (x.1.team s.curTeam).spad) a := by
  induction ps generalizing x with
  | nil =>
    obtain ⟨p, hp, -⟩ := hp
    cases hp
  | cons p ps ih =>
    rw [List.map_cons, List.nodup_cons] at hnd
    rw [List.foldl_cons]
    by_cases hpl : p.lane = l
    · have ha : p.at_ = a := by
        obtain ⟨p', hp', hl', ha'⟩ := hp
        rcases List.mem_cons.1 hp' with rfl | hmem
        · exact ha'
        · exact absurd (hpl.trans hl'.symm ▸ List.mem_map_of_mem hmem) hnd.1
      obtain ⟨old, he, hlen, hold⟩ := atomStep_old (s := s) (f := f) (op := op) (x := x) (p := p)
      refine ⟨old, ?_, hlen, ?_⟩
      · rw [atomSteps_find_other fun p' hp' hl' => hnd.1 (hpl.trans hl'.symm ▸ List.mem_map_of_mem hp'), he, SMap.find_put, if_pos hpl.symm]
      · rw [hold, ha, List.takeWhile_cons, if_neg (by simp [hpl])]
        rfl
    · obtain ⟨p', hp', hl', ha'⟩ := hp
      have hmem : p' ∈ ps := (List.mem_cons.1 hp').resolve_left fun h => hpl (h ▸ hl')
      obtain ⟨old, hf, hlen, hold⟩ := ih (x := atomStep s f op x p) hnd.2 ⟨p', hmem, hl', ha'⟩
      refine ⟨old, hf, hlen, ?_⟩
      rw [hold, atomStep_spad, List.takeWhile_cons, if_pos (by simp [hpl])]
      rfl

end

section
variable {s e : State} {h : Hdr} {i : Instr} {f : MF} {op : Nat} {act : Mask}

theorem nodup_lanes (act : Mask) : act.lanes.Nodup := List.nodup_range.filter _

theorem atomPieces_lanes : (s.atomPieces f act).map Piece.lane = act.lanes := by
  simp [atomPieces, Function.comp_def]

theorem exists_atomPiece {l : Nat} : (∃ p ∈ s.atomPieces f act, p.lane = l ∧ p.at_ = s.mSum f l) ↔ l ∈ act.lanes := by
  unfold atomPieces
  constructor
  · rintro ⟨p, hp, rfl, -⟩
    obtain ⟨l, hl, rfl⟩ := List.mem_map.1 hp
    exact hl
  · exact fun hl => ⟨_, List.mem_map_of_mem hl, rfl, rfl⟩

/-- What happens before an atomic's operations: a release is performed, and an acquire (R169). -/
def atomBegun (s : State) (f : MF) (act : Mask) : State := s.releaseNow f (act.lanes.map (s.mSum f))

theorem servedLogged_atomBegun : s.ServedLogged (s.atomBegun f act) := servedLogged_releaseNow ..

/-! ### The own scratchpad -/

/-- The lanes' operations on the own scratchpad, and the old values. -/
def atomOwnSteps (s : State) (f : MF) (op : Nat) (act : Mask) : State × SMap (List PByte) :=
  (s.atomPieces f act).foldl (atomStep s f op) (((s.atomBegun f act).acquireNow f).countOver (s.atomPieces f act), [])

/-- The state after an atomic on the own scratchpad. -/
def atomOwnDone (s : State) (h : Hdr) (f : MF) (op : Nat) (act : Mask) : State :=
  s.atomDone (s.atomOwnSteps f op act).1.recheckAll h f act (rmwWrites f.vd.toNat f.size (s.atomOwnSteps f op act).2) 0 []
    (wordCount (s.atomPieces f act))

theorem effAtom_own (hr : s.AtomReady h f op) (ht : s.mTarget f = .own)
    (habs : s.absentLines (s.atomPieces f (s.activeLanes h)) = []) :
    effAtom h f op (s.activeLanes h) s = { s := s.atomOwnDone h f op (s.activeLanes h) } := by
  have hps : (((s.activeLanes h).lanes.map fun l => (l, s.mSum f l)).map fun x =>
      ({ lane := x.1, idx := 0, at_ := x.2, n := f.size } : Piece)) = s.atomPieces f (s.activeLanes h) := List.map_map ..
  have hact : (s.activeLanes h != 0) = true := by simpa using hr.active
  unfold effAtom
  simp only [hr.filter_misaligned, ht, hps, hr.clean, habs, hact]
  cases hsx : f.sx
  · simp only [atomOwnDone, atomDone, addOld, hsx]
    rfl
  · simp only [atomOwnDone, atomDone, addOld, hsx]
    rfl

theorem servedLogged_beforeAtomOwn : s.ServedLogged (((s.atomBegun f act).acquireNow f).countOver (s.atomPieces f act)) :=
  (servedLogged_atomBegun.trans (.of_served (served_acquireNow ..))).trans (.of_served (served_countOver ..))

theorem leavesIssuer_atomOwn : s.LeavesIssuer (s.atomOwnSteps f op act).1.recheckAll :=
  have hsteps := spares_atomSteps (s := s) (f := f) (op := op) (ps := s.atomPieces f act)
    (((s.atomBegun f act).acquireNow f).countOver (s.atomPieces f act), [])
  (((Spares.of_servedLogged servedLogged_beforeAtomOwn).trans hsteps).trans (.of_served (served_recheckAll _))).leavesIssuer

theorem atomOwn_nextId : (s.atomOwnSteps f op act).1.recheckAll.nextId = s.nextId := by
  rw [(ServedLogged.of_served (served_recheckAll _)).nextId, atomOwnSteps, atomSteps_nextId, servedLogged_beforeAtomOwn.nextId]

theorem atomOwn_spad : ((s.atomOwnSteps f op act).1.recheckAll.team s.curTeam).spad =
    (s.atomPieces f act).foldl (atomPut s f op) (s.team s.curTeam).spad := by
  rw [(served_recheckAll _).team, atomOwnSteps, atomSteps_spad, servedLogged_beforeAtomOwn.team]

/-- What a lane of an atomic on the own scratchpad finds (R160). -/
def atomOld (s : State) (f : MF) (op : Nat) (act : Mask) (l : Nat) : List Byte :=
  atomFound s f (((s.atomPieces f act).takeWhile fun p => p.lane != l).foldl (atomPut s f op) (s.team s.curTeam).spad) (s.mSum f l)

theorem atomOwnSteps_find {l : Nat} (hl : l ∈ act.lanes) : ∃ old : List PByte,
    (s.atomOwnSteps f op act).2.find l = some old ∧ old.length = f.size ∧ old.map Prod.fst = s.atomOld f op act l := by
  rw [atomOld, ← servedLogged_beforeAtomOwn.team]
  exact atomSteps_find (by rw [atomPieces_lanes]; exact nodup_lanes act) (exists_atomPiece.2 hl)

theorem atomOwnSteps_find_none {l : Nat} (hl : l ∉ act.lanes) : (s.atomOwnSteps f op act).2.find l = none := by
  rw [atomOwnSteps, atomSteps_find_other]
  · rfl
  · exact fun p hp hpl => hl (hpl ▸ atomPieces_lanes (s := s) (f := f) ▸ List.mem_map_of_mem hp)

theorem atomOwn_goes (hx : exec i s = .next (atomWord h f op s)) (hr : s.AtomReady h f op) (ht : s.mTarget f = .own)
    (habs : s.absentLines (s.atomPieces f (s.activeLanes h)) = []) : s.Goes i fun t =>
      (t.team s.curTeam).spad = (s.atomPieces f (s.activeLanes h)).foldl (atomPut s f op) (s.team s.curTeam).spad ∧
      s.OldDue f (s.activeLanes h) t 0 (s.atomOld f op (s.activeLanes h)) := by
  refine Goes.imp (goes_atomDone leavesIssuer_atomOwn atomOwn_nextId (atom_takes hx hr (effAtom_own hr ht habs))
    fun t e => oldDue_now (fun l hl => ?_) fun l bs hbs => ?_) fun t ht => ⟨(ht.2.2 _).trans atomOwn_spad, ht.1⟩
  · by_cases ha : (s.activeLanes h).getLsbD l = true
    · obtain ⟨old, hf, -, hold⟩ := atomOwnSteps_find (s := s) (f := f) (op := op) (mem_lanes.2 ⟨hl, ha⟩)
      rw [if_pos ha, hf, Option.map_some, hold]
    · rw [if_neg ha, atomOwnSteps_find_none fun hmem => ha (mem_lanes.1 hmem).2]
      rfl
  · by_cases hmem : l ∈ (s.activeLanes h).lanes
    · obtain ⟨old, hf, hlen, -⟩ := atomOwnSteps_find (s := s) (f := f) (op := op) hmem
      rw [hf] at hbs
      exact Option.some.inj hbs ▸ hlen
    · rw [atomOwnSteps_find_none hmem] at hbs
      cases hbs

/-! ### A team that is not there (R138) -/

/-- The old values that a team that is not there gives. -/
def zerosOf (f : MF) (act : Mask) : SMap (List PByte) := act.lanes.map fun l => (l, List.replicate f.size (0, false))

/-- The state in which an atomic on a team that is not there has its result, and the state after it. -/
def atomGoneBegun (s : State) (f : MF) (act : Mask) : State :=
  ((s.atomBegun f act).acquireNow f).count s.cur.cl 0x110 (s.atomPieces f act).length
def atomGoneDone (s : State) (h : Hdr) (f : MF) (act : Mask) : State :=
  s.atomDone (s.atomGoneBegun f act) h f act (rmwWrites f.vd.toNat f.size (zerosOf f act)) 0 [] (wordCount (s.atomPieces f act))

theorem effAtom_gone (hr : s.AtomReady h f op) (ht : s.mTarget f = .gone) :
    effAtom h f op (s.activeLanes h) s = { s := s.atomGoneDone h f (s.activeLanes h) } := by
  have hps : (((s.activeLanes h).lanes.map fun l => (l, s.mSum f l)).map fun x =>
      ({ lane := x.1, idx := 0, at_ := x.2, n := f.size } : Piece)) = s.atomPieces f (s.activeLanes h) := List.map_map ..
  have hact : (s.activeLanes h != 0) = true := by simpa using hr.active
  unfold effAtom
  simp only [hr.filter_misaligned, ht, hps, hr.clean, hact]
  cases hsx : f.sx
  · simp only [atomGoneDone, atomDone, addOld, hsx]
    rfl
  · simp only [atomGoneDone, atomDone, addOld, hsx]
    rfl

theorem atomGone_goes (hx : exec i s = .next (atomWord h f op s)) (hr : s.AtomReady h f op) (ht : s.mTarget f = .gone) :
    s.Goes i fun t => s.OldDue f (s.activeLanes h) t 0 (fun _ => List.replicate f.size 0) ∧
      (t.team s.curTeam).spad = (s.team s.curTeam).spad := by
  have hlog : s.ServedLogged (s.atomGoneBegun f (s.activeLanes h)) :=
    (servedLogged_atomBegun.trans (.of_served (served_acquireNow ..))).trans (.of_served (served_count ..))
  refine Goes.imp (goes_atomDone (Spares.of_servedLogged hlog).leavesIssuer hlog.nextId (atom_takes hx hr (effAtom_gone hr ht))
    fun t e => oldDue_now (fun l hl => ?_) fun l bs hbs => ?_) fun t ht => ⟨ht.1, (ht.2.2 _).trans (by rw [hlog.team])⟩
  · rw [zerosOf, SMap.find_map_keys]
    simp only [mem_lanes, hl, true_and]
    split <;> simp
  · rw [zerosOf, SMap.find_map_keys] at hbs
    split at hbs
    · rw [← Option.some.inj hbs, List.length_replicate]
    · cases hbs

/-! ### Another team (R138) -/

theorem length_byKey_ne_zero {l : List (Nat × Nat)} (hl : l ≠ []) : (byKey l).length ≠ 0 := by
  obtain ⟨e, l, rfl⟩ := List.exists_cons_of_ne_nil hl
  exact Nat.succ_ne_zero _

theorem lanes_ne_nil (hact : act ≠ 0) : act.lanes ≠ [] := by
  obtain ⟨l, hl⟩ := exists_lane hact
  exact List.ne_nil_of_mem hl

/-- The locations of an atomic on another team, with their lanes, and the operation sent for each. -/
def atomRemLocs (s : State) (f : MF) (act : Mask) : List (Nat × List Nat) :=
  byKey (act.lanes.map fun l => ((spReduce s.curGrid.alloc (s.mSum f l)).getD (s.mSum f l), l))
def atomRemBody (s : State) (f : MF) (op u : Nat) (e : Nat × List Nat) : Body :=
  .remRmw u e.1 op f.sz.toNat (e.2.map (s.rmwLane f op)) (atomDue s f) f.vd.toNat

/-- The state after an atomic is sent to another team. -/
def atomRemDone (s : State) (h : Hdr) (f : MF) (op u : Nat) (act : Mask) : State :=
  s.atomDone (s.atomBegun f act) h f act [] (s.atomRemLocs f act).length ((s.atomRemLocs f act).map (s.atomRemBody f op u))
    (wordCount (s.atomPieces f act))

theorem effAtom_rem {u : Nat} (hr : s.AtomReady h f op) (ht : s.mTarget f = .rem u) :
    effAtom h f op (s.activeLanes h) s = { s := s.atomRemDone h f op u (s.activeLanes h) } := by
  have hps : (((s.activeLanes h).lanes.map fun l => (l, s.mSum f l)).map fun x =>
      ({ lane := x.1, idx := 0, at_ := x.2, n := f.size } : Piece)) = s.atomPieces f (s.activeLanes h) := List.map_map ..
  have hlocs : (((s.activeLanes h).lanes.map fun l => (l, s.mSum f l)).map fun x =>
      ((spReduce s.curGrid.alloc x.2).getD x.2, x.1)) = (s.activeLanes h).lanes.map fun l =>
      ((spReduce s.curGrid.alloc (s.mSum f l)).getD (s.mSum f l), l) := List.map_map ..
  have hact : (s.activeLanes h == 0) = false := by simpa using hr.active
  unfold effAtom
  simp only [hr.filter_misaligned, ht, hps, hlocs, hr.clean, hact]
  cases hsx : f.sx
  · simp only [atomRemDone, atomDone, addOld, hsx, launchAll, List.foldl_map, atomRemBody, atomDue]
    rfl
  · simp only [atomRemDone, atomDone, addOld, hsx, launchAll, List.foldl_map, atomRemBody, atomDue]
    rfl

theorem atomRem_goes {u : Nat} (hx : exec i s = .next (atomWord h f op s)) (hr : s.AtomReady h f op) (ht : s.mTarget f = .rem u) :
    s.Goes i fun t => s.OldDue f (s.activeLanes h) t (s.atomRemLocs f (s.activeLanes h)).length (fun _ => []) ∧
      ∀ e ∈ s.atomRemLocs f (s.activeLanes h), s.Sends t (s.atomRemBody f op u e) := by
  have hlog := servedLogged_atomBegun (s := s) (f := f) (act := s.activeLanes h)
  have hne : (s.atomRemLocs f (s.activeLanes h)).length ≠ 0 :=
    length_byKey_ne_zero fun hnil => lanes_ne_nil hr.active (List.map_eq_nil_iff.1 hnil)
  exact Goes.imp (goes_atomDone (Spares.of_servedLogged hlog).leavesIssuer hlog.nextId (atom_takes hx hr (effAtom_rem hr ht))
    fun t e => oldDue_later hne) fun t ht => ⟨ht.1, fun e he => ht.2.1 _ (List.mem_map_of_mem he)⟩

/-! ### Global memory (R160, R161) -/

/-- The locations of an atomic on global memory, with their lanes, and the operation sent for each. -/
def atomGlobLocs (s : State) (f : MF) (act : Mask) : List (Nat × List Nat) :=
  byKey ((s.lookup .store (s.atomPieces f act)).1.map fun q => (2 * q.pa + bit (q.mt == 1), q.p.lane))
def atomGlobBody (s : State) (f : MF) (op : Nat) (e : Nat × List Nat) : Body :=
  .rmw (if e.1 % 2 == 1 then .host (e.1 / 2) (s.mSum f (e.2.getD 0 0)) else .dev (e.1 / 2)) (s.mSum f (e.2.getD 0 0)) op f.sz.toNat
    (e.2.map (s.rmwLane f op)) (atomDue s f) f.vd.toNat

/-- The way of an atomic on global memory (R161). -/
def atomWay (s : State) (f : MF) (op : Nat) (act : Mask) : FloatWay :=
  if (11 ≤ op && s.curGrid.det : Bool) then s.floatWay (!f.sx) act.count else .direct

theorem atomWay_direct (hd : (11 ≤ op → s.curGrid.det = false) ∨ s.floatWay (!f.sx) act.count = .direct) :
    s.atomWay f op act = .direct := by
  unfold atomWay
  split
  · next hfl =>
    simp only [Bool.and_eq_true, decide_eq_true_eq] at hfl
    exact hd.resolve_left fun hno => by simp [hno hfl.1] at hfl
  · rfl

/-- The state in which an atomic on global memory sends its operations, and the state after it. -/
def atomGlobBegun (s : State) (f : MF) (act : Mask) : State :=
  (s.atomBegun f act).touchPages .store (s.lookup .store (s.atomPieces f act)).1
def atomGlobDone (s : State) (h : Hdr) (f : MF) (op : Nat) (act : Mask) : State :=
  s.atomDone (s.atomGlobBegun f act) h f act [] (s.atomGlobLocs f act).length ((s.atomGlobLocs f act).map (s.atomGlobBody f op))
    (sectorCount (s.atomPieces f act))

theorem effAtom_glob (hr : s.AtomReady h f op) (ht : s.mTarget f = .glob)
    (hfail : (s.lookup .store (s.atomPieces f (s.activeLanes h))).2 = [])
    (hclean : ∀ q ∈ (s.lookup .store (s.atomPieces f (s.activeLanes h))).1, q.mt = 1 → (s.rmwLane f op q.p.lane).pois = false)
    (hway : s.atomWay f op (s.activeLanes h) = .direct) :
    effAtom h f op (s.activeLanes h) s = { s := s.atomGlobDone h f op (s.activeLanes h) } := by
  have hps : (((s.activeLanes h).lanes.map fun l => (l, s.mSum f l)).map fun x =>
      ({ lane := x.1, idx := 0, at_ := x.2, n := f.size } : Piece)) = s.atomPieces f (s.activeLanes h) := List.map_map ..
  have hact : (s.activeLanes h == 0) = false := by simpa using hr.active
  have hnone : lanesOf ([] : List Piece) = 0 := maskOf_false
  have hbuf : s.bufferHeld [] = false := by simp [bufferHeld]
  have hleak : ((s.lookup .store (s.atomPieces f (s.activeLanes h))).1.filter fun q =>
      q.mt == 1 && (s.rmwLane f op q.p.lane).pois) = [] :=
    List.filter_eq_nil_iff.2 fun q hq => by
      by_cases hmt : q.mt = 1
      · simp [hclean q hq hmt]
      · simp [hmt]
  have hwait : (s.activeLanes h != 0 && FloatWay.direct == .wait) = false := Bool.and_false _
  unfold atomWay at hway
  unfold effAtom
  simp only [hr.filter_misaligned, ht, hps, hr.clean, hact, hway, hfail, hwait, hleak, hbuf, List.map_nil, hnone, bne_self_eq_false, Bool.false_eq_true,
    if_false, BitVec.or_self]
  cases hsx : f.sx
  · simp only [atomGlobDone, atomDone, addOld, hsx, launchAll, List.foldl_map, atomGlobBody, atomDue]
    rfl
  · simp only [atomGlobDone, atomDone, addOld, hsx, launchAll, List.foldl_map, atomGlobBody, atomDue]
    rfl

theorem atomGlob_goes (hx : exec i s = .next (atomWord h f op s)) (hr : s.AtomReady h f op) (ht : s.mTarget f = .glob)
    (hfail : (s.lookup .store (s.atomPieces f (s.activeLanes h))).2 = [])
    (hclean : ∀ q ∈ (s.lookup .store (s.atomPieces f (s.activeLanes h))).1, q.mt = 1 → (s.rmwLane f op q.p.lane).pois = false)
    (hway : s.atomWay f op (s.activeLanes h) = .direct) :
    s.Goes i fun t => s.OldDue f (s.activeLanes h) t (s.atomGlobLocs f (s.activeLanes h)).length (fun _ => []) ∧
      ∀ e ∈ s.atomGlobLocs f (s.activeLanes h), s.Sends t (s.atomGlobBody f op e) := by
  have hlog : s.ServedLogged (s.atomGlobBegun f (s.activeLanes h)) := servedLogged_atomBegun.trans (.of_served (served_touchPages ..))
  have hne : (s.atomGlobLocs f (s.activeLanes h)).length ≠ 0 := by
    obtain ⟨l, hl⟩ := exists_lane hr.active
    obtain ⟨q, hq, -⟩ := exists_mem_lookup hfail (List.mem_map_of_mem hl)
    exact length_byKey_ne_zero fun hnil => List.ne_nil_of_mem hq (List.map_eq_nil_iff.1 hnil)
  exact Goes.imp (goes_atomDone (Spares.of_servedLogged hlog).leavesIssuer hlog.nextId
    (atom_takes hx hr (effAtom_glob hr ht hfail hclean hway)) fun t e => oldDue_later hne) fun t ht =>
      ⟨ht.1, fun e he => ht.2.1 _ (List.mem_map_of_mem he)⟩

end

end Sys2Proof.Machine.State

namespace Sys2Proof.Machine.State
open Sys2Proof

/-! ### Float additions that wait in the buffer (R161) -/

section
variable {s t : State}

/-- An operation leaves the cores' float buffers. -/
structure KeepsFloats (s t : State) : Prop where
  fbuf : ∀ k, (t.core k).fbuf = (s.core k).fbuf

theorem KeepsFloats.refl (s : State) : s.KeepsFloats s := ⟨fun _ => rfl⟩
theorem KeepsFloats.trans {u : State} (h : s.KeepsFloats t) (k : t.KeepsFloats u) : s.KeepsFloats u :=
  ⟨fun c => (k.fbuf c).trans (h.fbuf c)⟩

theorem KeepsFloats.of_cores (h : t.cores = s.cores) : s.KeepsFloats t := ⟨fun k => by unfold core; rw [h]⟩

theorem KeepsFloats.foldl {α : Type} {f : State → α → State} (hf : ∀ (s : State) a, s.KeepsFloats (f s a)) (l : List α) (s : State) :
    s.KeepsFloats (l.foldl f s) := by
  induction l generalizing s with
  | nil => exact .refl s
  | cons a l ih => exact (hf s a).trans (ih _)

theorem keepsFloats_modCore (s : State) (k : Nat) {f : Core → Core} (hf : ∀ c, (f c).fbuf = c.fbuf) :
    s.KeepsFloats (s.modCore k f) := ⟨fun j => by
  rw [modCore_core]
  split
  · next h => rw [hf, h]
  · rfl⟩

theorem keepsFloats_wbSector (s : State) (k sec : Nat) : s.KeepsFloats (s.wbSector k sec) := by
  unfold wbSector
  split
  · exact .refl s
  · split
    · exact .refl s
    · dsimp only
      refine .trans (.of_cores ?_) (keepsFloats_modCore _ k ?_)
      · rfl
      · exact fun _ => rfl

theorem keepsFloats_wbCore (s : State) (k : Nat) : s.KeepsFloats (s.wbCore k) := .foldl (fun s _ => keepsFloats_wbSector s k _) _ s

theorem keepsFloats_vaWrite (s : State) (p va : Nat) (bs : List Byte) : s.KeepsFloats (s.vaWrite p va bs) := by
  refine .trans (.of_cores (vaTouch_cores s p va bs.length true)) (.foldl (fun u c => ?_) _ _)
  split
  · split <;> exact .of_cores rfl
  · exact .refl u

theorem keepsFloats_logLeak (s : State) (g kind addr len dev : Nat) : s.KeepsFloats (s.logLeak g kind addr len dev) := by
  unfold logLeak
  dsimp only
  split
  · exact .refl s
  · split
    · exact keepsFloats_vaWrite ..
    · split
      · exact (keepsFloats_vaWrite ..).trans (.of_cores rfl)
      · exact .of_cores rfl

theorem keepsFloats_releaseNow (s : State) (f : MF) (locs : List Nat) : s.KeepsFloats (s.releaseNow f locs) := by
  have hrel : s.KeepsFloats (s.releaseBy s.curGrp f.scp.toNat) := by
    unfold releaseBy
    split
    · exact keepsFloats_wbCore ..
    · exact .refl s
  unfold releaseNow
  split
  · dsimp only
    split
    · exact hrel.trans (.foldl (fun _ _ => keepsFloats_logLeak ..) _ _)
    · exact hrel
  · exact .refl s

theorem keepsFloats_sampleIssue (s0 s : State) (act : Mask) (n : Nat) (store : Bool) :
    s.KeepsFloats (s0.sampleIssue s act n store) := by
  have hgrp : s.KeepsFloats (s.modGrp fun x => { x with replays := 0, forced := false }) := .of_cores rfl
  unfold sampleIssue
  dsimp only
  split
  · exact hgrp
  · split
    · refine .trans (hgrp.trans (keepsFloats_modCore _ _ ?_)) (keepsFloats_modCore _ _ ?_)
      · exact fun _ => rfl
      · exact fun _ => rfl
    · refine hgrp.trans (keepsFloats_modCore _ _ ?_)
      exact fun _ => rfl

/-- The registers that a word reads are those that it read before. -/
theorem ServedLogged.src (h : s.ServedLogged t) : t.src = s.src := by
  have hquad : t.quad t.curQuad = s.quad s.curQuad := by
    unfold curQuad quad
    rw [h.cur, h.served.rest]
  unfold State.src
  rw [h.cur, hquad, (Spares.of_servedLogged h).leavesIssuer.regs]

variable {e : State} {h : Hdr} {i : Instr} {f : MF} {op : Nat} {act : Mask}

/-- The state after float additions are put in the buffer. -/
def atomBufferDone (s : State) (f : MF) (op : Nat) (act : Mask) : State :=
  s.sampleIssue ((s.atomBegun f act).bufferFloat f op act) act (sectorCount (s.atomPieces f act)) true

theorem effAtom_buffer (hr : s.AtomReady h f op) (ht : s.mTarget f = .glob) (hsx : f.sx = true)
    (hway : s.atomWay f op (s.activeLanes h) = .buffer) :
    effAtom h f op (s.activeLanes h) s = { s := s.atomBufferDone f op (s.activeLanes h) } := by
  have hps : (((s.activeLanes h).lanes.map fun l => (l, s.mSum f l)).map fun x =>
      ({ lane := x.1, idx := 0, at_ := x.2, n := f.size } : Piece)) = s.atomPieces f (s.activeLanes h) := List.map_map ..
  have hact : (s.activeLanes h == 0) = false := by simpa using hr.active
  have hwait : (s.activeLanes h != 0 && FloatWay.buffer == .wait) = false := Bool.and_false _
  have hlook : (FloatWay.buffer != .direct) = true := rfl
  unfold atomWay at hway
  rw [hsx] at hway
  unfold effAtom
  simp only [hr.filter_misaligned, ht, hps, hr.clean, hact, hsx, hway, hwait, hlook, if_true, BitVec.or_self, bne_self_eq_false]
  rfl

theorem leavesIssuer_atomBufferDone : s.LeavesIssuer (s.atomBufferDone f op act) :=
  ((Spares.of_servedLogged servedLogged_atomBegun).leavesIssuer.trans (leavesIssuer_modCore ..)).trans (leavesIssuer_sampleIssue ..)

/-- The entries that float additions put in the buffer. -/
def floatEntries (s : State) (f : MF) (op : Nat) (act : Mask) : List FloatEntry :=
  act.lanes.map fun l =>
    { g := s.cur.g, t := s.cur.t, grp := s.cur.grp, addr := s.mSum f l, op := op - 11, operand := w32 (leNat (s.rmwLane f op l).data)
      pois := (s.rmwLane f op l).pois, id := s.nextId, lane := l, pc := s.cur.pc }

theorem bufferFloat_fbuf (s : State) (f : MF) (op : Nat) (act : Mask) :
    ((s.bufferFloat f op act).core s.curCore).fbuf = (s.core s.curCore).fbuf ++ s.floatEntries f op act := by
  unfold bufferFloat
  dsimp only
  rw [modCore_core, if_pos rfl]
  rfl

theorem floatEntries_of_servedLogged (hlog : s.ServedLogged t) : t.floatEntries f op act = s.floatEntries f op act := by
  unfold floatEntries mSum rmwLane
  rw [hlog.src, hlog.cur, hlog.nextId]

theorem atomBufferDone_fbuf : ((s.atomBufferDone f op act).core s.curCore).fbuf =
    (s.core s.curCore).fbuf ++ s.floatEntries f op act := by
  have hlog := servedLogged_atomBegun (s := s) (f := f) (act := act)
  have hbuf := bufferFloat_fbuf (s.atomBegun f act) f op act
  rw [curCore_of_cur hlog.cur, floatEntries_of_servedLogged hlog, atomBegun, (keepsFloats_releaseNow ..).fbuf] at hbuf
  exact ((keepsFloats_sampleIssue ..).fbuf _).trans hbuf

theorem OnlyGroup.fbuf (h : e.OnlyGroup t) (k : Nat) : (t.core k).fbuf = (e.core k).fbuf := by
  have hd := h.device
  unfold core
  rw [show t.cores = e.cores from (congrArg State.cores hd :)]

theorem atomBuffer_goes (hx : exec i s = .next (atomWord h f op s)) (hr : s.AtomReady h f op) (ht : s.mTarget f = .glob)
    (hsx : f.sx = true) (hway : s.atomWay f op (s.activeLanes h) = .buffer) :
    s.Goes i fun t => (t.core s.curCore).fbuf = (s.core s.curCore).fbuf ++ s.floatEntries f op (s.activeLanes h) := by
  have hk := leavesIssuer_atomBufferDone (s := s) (f := f) (op := op) (act := s.activeLanes h)
  refine (atom_takes hx hr (effAtom_buffer hr ht hsx hway) hk.toKeepsIssuer).goes hk.regs fun t hot _ => ?_
  rw [hot.fbuf, atomBufferDone_fbuf]

end

end Sys2Proof.Machine.State

namespace Sys2Proof.Proofs
open Sys2Proof Sys2Proof.Machine Sys2Proof.Machine.State

/-- Settles O27: the thirteen words are one word with an operation each, and that word goes one of five ways. -/
theorem atomics : Obligations.Atomics := by
  intro s h f hact act n ps result later dst acts
  have all : ∀ i op, exec i s = .next (atomWord h f op s) → acts i op := by
    intro i op hx hm hal after found
    have hr : s.AtomReady h f op := ⟨hm, hal, hact⟩
    refine ⟨fun ht habs => atomOwn_goes hx hr ht habs, ?_, ?_, fun u ht => atomRem_goes hx hr ht, fun ht => atomGone_goes hx hr ht⟩
    · intro ht hfail hclean locs hd
      exact atomGlob_goes hx hr ht hfail hclean (atomWay_direct hd)
    · intro ht hop hdet hsx hw
      have hway : s.atomWay f op (s.activeLanes h) = .buffer := by
        unfold atomWay
        rw [if_pos (by simp [hop, hdet]), hsx]
        exact hw
      refine (atomBuffer_goes hx hr ht hsx hway).imp fun t hbuf => ⟨_, hbuf, ?_, ?_⟩
      · exact List.map_map ..
      · exact List.map_map ..
  exact ⟨all _ _ rfl, all _ _ rfl, all _ _ rfl, all _ _ rfl, all _ _ rfl, all _ _ rfl, all _ _ rfl, all _ _ rfl, all _ _ rfl,
    all _ _ rfl, all _ _ rfl, all _ _ rfl, all _ _ rfl⟩

end Sys2Proof.Proofs

/-! ## Copies and multicasts land (O46)

What is left to do when the bytes of an operation are in their place is its end (`OpEnded`): the flight is gone and, with the last of
a command, its token falls. Before that the bytes move, which leaves flights, and of groups all but where they wait (`Carries`). -/

namespace Sys2Proof.Machine.State
open Sys2Proof

/-! ### The end of an operation (R145) -/

section
variable {s t u : State} {f : Flight} {gk n st : Nat}

/-- An operation leaves memories, marks, teams and flights, and of groups all but where they wait. -/
structure Rouses (s t : State) : Prop where
  mem : t.mem = s.mem
  memPois : t.memPois = s.memPois
  teams : t.teams = s.teams
  flights : t.flights = s.flights
  group : ∀ gk, (s.group gk).SameButPark (t.group gk)

theorem Rouses.refl (s : State) : s.Rouses s := ⟨rfl, rfl, rfl, rfl, fun _ => .refl _⟩

theorem Rouses.trans (h : s.Rouses t) (k : t.Rouses u) : s.Rouses u where
  mem := k.mem.trans h.mem
  memPois := k.memPois.trans h.memPois
  teams := k.teams.trans h.teams
  flights := k.flights.trans h.flights
  group gk := (h.group gk).trans (k.group gk)

theorem Rouses.foldl {α : Type} {g : State → α → State} (hg : ∀ (s : State) a, s.Rouses (g s a)) (l : List α) (s : State) :
    s.Rouses (l.foldl g s) := by
  induction l generalizing s with
  | nil => exact .refl s
  | cons a l ih => exact (hg s a).trans (ih _)

theorem rouses_modCore (s : State) (k : Nat) (g : Core → Core) : s.Rouses (s.modCore k g) := ⟨rfl, rfl, rfl, rfl, fun _ => .refl _⟩

theorem trapGroup_memPois (s : State) (gk pc : Nat) (sec : Bool) (tr : Trap) : (s.trapGroup gk pc sec tr).memPois = s.memPois := by
  unfold trapGroup
  dsimp only
  split
  · rfl
  · split <;> rfl

theorem wake_memPois (s : State) (gk : Nat) : (s.wake gk).memPois = s.memPois := by
  unfold wake
  dsimp only
  split
  · rfl
  · exact trapGroup_memPois ..

theorem rouses_wake (s : State) (gk : Nat) : s.Rouses (s.wake gk) where
  mem := (sameMaps_wake s gk).mem
  memPois := wake_memPois ..
  teams := (served_wake s gk).teams
  flights := (served_wake s gk).flights
  group := (served_wake s gk).group

theorem rouses_dropJobSectors (s : State) (gk : Nat) (m : BitVec 8) : s.Rouses (s.dropJobSectors gk m) := by
  unfold dropJobSectors
  exact .trans (.foldl (fun _ _ => .foldl (fun _ _ => rouses_modCore ..) _ _) _ s) (rouses_modCore ..)

/-- Is an operation the last of its command, and its group there. -/
def LastOf (s : State) (f : Flight) : Prop :=
  (∀ y ∈ s.flights, y.cmd = f.cmd → y.id = f.id) ∧ (s.groups.find (grpKey f.g f.t f.grp)).isSome = true

/-- What the end of an operation with a status leaves. -/
structure OpEnded (s : State) (f : Flight) (st : Nat) (t : State) : Prop where
  mem : t.mem = s.mem
  memPois : t.memPois = s.memPois
  teams : t.teams = s.teams
  flights : t.flights = s.flights.filter fun y => y.id != f.id
  calm : s.Calm → t.Calm
  token : ∀ n, f.tk = some n → s.LastOf f →
    (t.group (grpKey f.g f.t f.grp)).kc n = (s.group (grpKey f.g f.t f.grp)).kc n - 1 ∧
    (t.group (grpKey f.g f.t f.grp)).ks n = max ((s.group (grpKey f.g f.t f.grp)).ks n) st

theorem Rouses.calm (h : s.Rouses t) (hc : s.Calm) : t.Calm := fun gk l want scp rmt => by
  rcases (h.group gk).park with e | e
  · rw [e]
    exact hc gk l want scp rmt
  · exact e l want scp rmt

theorem tokenFell_ks (k st : Nat) (x : Group) : (tokenFell k st x).ks k = max (x.ks k) st := by
  unfold tokenFell Group.ks
  exact (SMap.get_set ..).trans (if_pos rfl)

/-- R145: a token of a group whose team is on its core falls, and its group may go on. -/
theorem tokenDown_of_resident (hres : (s.team (gk / 32)).st = .resident) (hg : (s.groups.find gk).isSome = true) :
    (s.modGroup gk (tokenFell n st)).Rouses (s.tokenDown gk n st) := by
  have hnone : (s.groups.find gk).isNone = false := by simpa using hg
  have himg : atImage (s.team (gk / 32)) = false := by rw [atImage, hres]; rfl
  unfold tokenDown
  simp only [hnone, himg, Bool.false_eq_true, if_false]
  split
  · split
    · exact rouses_wake ..
    · exact .refl _
  · split
    · exact (rouses_dropJobSectors ..).trans (rouses_wake ..)
    · exact .refl _
  · exact .refl _

theorem calm_modGroup_of_park {g : Group → Group} (hg : ∀ x, (g x).park = x.park) (hc : s.Calm) (gk : Nat) : (s.modGroup gk g).Calm := by
  intro j
  rw [modGroup_group]
  split
  · rw [hg]
    exact hc gk
  · exact hc j

/-- A state in which an operation's flight is gone, its pages unpinned and a token of its group changed. -/
theorem opEnded_modGroup {g : Group → Group} (hg : ∀ x, (g x).park = x.park) (pages : List Nat)
    (ht : (((s.dropFlight f.id).unpin pages).modGroup (grpKey f.g f.t f.grp) g).Rouses t)
    (htok : ∀ n, f.tk = some n → s.LastOf f → ∀ x, (g x).kc n = x.kc n - 1 ∧ (g x).ks n = max (x.ks n) st) : s.OpEnded f st t where
  mem := ht.mem
  memPois := ht.memPois
  teams := ht.teams
  flights := ht.flights
  calm hc := ht.calm (calm_modGroup_of_park hg hc _)
  token n hn hlast := by
    have hgrp := (ht.group (grpKey f.g f.t f.grp)).rest
    rw [modGroup_group, if_pos rfl] at hgrp
    rw [hgrp]
    exact htok n hn hlast _

/-- An operation that touches no token ends. -/
theorem opEnded_drop (pages : List Nat) (htok : ∀ n, f.tk = some n → ¬ s.LastOf f) :
    s.OpEnded f st ((s.dropFlight f.id).unpin pages) where
  mem := rfl
  memPois := rfl
  teams := rfl
  flights := rfl
  calm hc := hc
  token n hn hlast := absurd hlast (htok n hn)

/-- The other operations of a command that are in flight. -/
def othersOf (s : State) (f : Flight) : List Flight := (s.dropFlight f.id).flights.filter fun x => x.cmd == f.cmd

theorem othersOf_eq_nil_of_last (h : s.LastOf f) : s.othersOf f = [] := by
  refine List.filter_eq_nil_iff.2 fun y hy hcmd => ?_
  obtain ⟨hmem, hid⟩ := List.mem_filter.1 hy
  exact absurd (h.1 y hmem (by simpa using hcmd)) (by simpa using hid)

theorem landed_eq (s : State) (f : Flight) (st : Nat) : ∃ pages, s.landed f st = match f.tk with
    | some k => if (s.othersOf f).isEmpty then ((s.dropFlight f.id).unpin pages).tokenDown (grpKey f.g f.t f.grp) k st
      else ((s.dropFlight f.id).unpin pages).tokenStatus (grpKey f.g f.t f.grp) k st
    | none => (s.dropFlight f.id).unpin pages := by
  refine ⟨f.pages.filter fun g => !(s.othersOf f).any fun x => x.pages.contains g, ?_⟩
  unfold landed othersOf
  dsimp only
  cases f.tk with
  | none => rfl
  | some k => exact (by cases ((s.dropFlight f.id).flights.filter fun x => x.cmd == f.cmd).isEmpty <;> rfl)

/-- R145, R159: an operation of a group whose team is on its core lands. -/
theorem opEnded_landed (hgrp : f.grp < 32) (hres : (s.team (teamKey f.g f.t)).st = .resident) : s.OpEnded f st (s.landed f st) := by
  obtain ⟨pages, hland⟩ := landed_eq s f st
  have hteam : (((s.dropFlight f.id).unpin pages).team (grpKey f.g f.t f.grp / 32)).st = .resident := by
    rw [grpKey_div _ _ hgrp]
    exact hres
  rw [hland]
  split
  · next n hn =>
    by_cases hg : (s.groups.find (grpKey f.g f.t f.grp)).isSome = true
    · split
      · refine opEnded_modGroup (g := tokenFell n st) (fun _ => rfl) pages (tokenDown_of_resident hteam hg) ?_
        intro m hm _ x
        obtain rfl := Option.some.inj (hn.symm.trans hm)
        exact ⟨(tokenFell_kc ..).trans (if_pos rfl), tokenFell_ks ..⟩
      · next hmore =>
        have hnone : (((s.dropFlight f.id).unpin pages).groups.find (grpKey f.g f.t f.grp)).isNone = false :=
          Option.isNone_eq_false_iff.2 hg
        have himg : atImage (((s.dropFlight f.id).unpin pages).team (grpKey f.g f.t f.grp / 32)) = false := by
          rw [atImage, hteam]
          rfl
        rw [tokenStatus, hnone, himg, if_neg (by decide), if_neg (by decide)]
        refine opEnded_modGroup (g := fun x => { x with kStat := SMap.set x.kStat 0 n (Nat.max (x.ks n) st) }) (fun _ => rfl) pages
          (.refl _) fun _ _ hlast => absurd ?_ hmore
        rw [othersOf_eq_nil_of_last hlast]
        rfl
    · have hnone : (((s.dropFlight f.id).unpin pages).groups.find (grpKey f.g f.t f.grp)).isNone = true :=
        Option.isNone_iff_eq_none.2 (show s.groups.find (grpKey f.g f.t f.grp) = none by simpa using hg)
      rw [tokenDown, tokenStatus, if_pos hnone, if_pos hnone, ite_self]
      exact opEnded_drop pages fun _ _ hlast => hg hlast.2
  · next hn => exact opEnded_drop pages fun n hn' => by rw [hn] at hn'; cases hn'

/-! ### While the bytes move -/

/-- An operation leaves flights, whether teams are on their core, and of groups all but where they wait. -/
structure Carries (s t : State) : Prop where
  flights : t.flights = s.flights
  group : ∀ gk, (s.group gk).SameButPark (t.group gk)
  listed : ∀ gk, (s.groups.find gk).isSome = true → (t.groups.find gk).isSome = true
  st : ∀ k, (t.team k).st = (s.team k).st

theorem Carries.of_worked (h : s.Worked t) : s.Carries t := ⟨h.flights, h.group, h.listed, h.st⟩
theorem Carries.of_served (h : s.Served t) : s.Carries t := .of_worked (.of_served h)

theorem Carries.trans (h : s.Carries t) (k : t.Carries u) : s.Carries u where
  flights := k.flights.trans h.flights
  group gk := (h.group gk).trans (k.group gk)
  listed gk hg := k.listed gk (h.listed gk hg)
  st j := (k.st j).trans (h.st j)

theorem Carries.calm (h : s.Carries t) (hc : s.Calm) : t.Calm := fun gk l want scp rmt => by
  rcases (h.group gk).park with e | e
  · rw [e]
    exact hc gk l want scp rmt
  · exact e l want scp rmt

theorem carries_addDeliveries (s : State) (tk : Nat) (d : Int) : s.Carries (s.addDeliveries tk d) where
  flights := rfl
  group _ := .refl _
  listed _ h := h
  st k := by
    unfold addDeliveries
    rw [modTeam_team]
    split
    · next h => rw [h]
    · rfl

/-- What a step that ends an operation leaves of its flight and its token. -/
structure OpFinished (s : State) (f : Flight) (st : Nat) (t : State) : Prop where
  gone : t.flights = s.flights.filter fun y => y.id != f.id
  token : ∀ n, f.tk = some n → s.LastOf f →
    (t.group (grpKey f.g f.t f.grp)).kc n = (s.group (grpKey f.g f.t f.grp)).kc n - 1 ∧
    (t.group (grpKey f.g f.t f.grp)).ks n = max ((s.group (grpKey f.g f.t f.grp)).ks n) st

theorem Carries.finished (h : s.Carries u) (k : u.OpEnded f st t) : s.OpFinished f st t where
  gone := by rw [k.flights, h.flights]
  token n hn hlast := by
    obtain ⟨hcount, hstat⟩ := k.token n hn ⟨by rw [h.flights]; exact hlast.1, h.listed _ hlast.2⟩
    have hgrp := (h.group (grpKey f.g f.t f.grp)).rest
    rw [hcount, hstat, hgrp]
    exact ⟨rfl, rfl⟩

/-- After bytes have moved, the operation lands, and no group is woken by what they wrote. -/
theorem Carries.lands (h : s.Carries u) (hc : s.Calm) (hgrp : f.grp < 32) (hres : (s.team (teamKey f.g f.t)).st = .resident) :
    u.OpEnded f st (u.landed f st) ∧ (u.landed f st).recheckAll = u.landed f st ∧ s.OpFinished f st (u.landed f st) := by
  have hend := opEnded_landed (s := u) (st := st) hgrp ((h.st _).trans hres)
  exact ⟨hend, recheckAll_eq_self_of_calm (hend.calm (h.calm hc)), h.finished hend⟩

end

end Sys2Proof.Machine.State

namespace Sys2Proof.Machine.State
open Sys2Proof

/-! ### Bytes without marks, moved (R166, R262) -/

section
variable {s t u : State} {f : Flight} {pb pa n : Nat} {gen : BitVec 16} {dst : Place} {src : Place}

theorem anyPois_devReadP (h : s.memPois = []) (pa n : Nat) : anyPois (s.devReadP pa n) = false := by
  simp [anyPois, devReadP, h, SMap.get, SMap.find]

theorem length_devReadP (s : State) (pa n : Nat) : (s.devReadP pa n).length = n := by simp [devReadP]

/-- One run whose bytes have no mark: the bytes are put, the marks of whole sectors settled, and what was written counted. -/
theorem copyRuns_single (hp : anyPois (s.copyRead src n) = false) : ∃ ws ds, s.copyRuns f [(src, dst, n)] =
    ((({ s with free := s.free + 128 }.copyPut f dst (s.copyRead src n)).settleHome ws).countWritten (f.core / 6) ds, false, false) := by
  unfold copyRuns
  simp only [List.map_cons, List.map_nil, List.any_cons, List.any_nil, hp, Bool.false_and, Bool.or_false, Bool.false_eq_true,
    if_false, List.foldl_cons, List.foldl_nil]
  exact ⟨_, _, rfl⟩

theorem copyPut_dev (s : State) (f : Flight) (pa : Nat) (bs : List PByte) : s.copyPut f (.dev pa) bs =
    (s.dropRange (s.coreOfGrp (grpKey f.g f.t f.grp)) pa bs.length).devWriteP pa bs := rfl

theorem served_copyPut_dev (s : State) (f : Flight) (pa : Nat) (bs : List PByte) : s.Served (s.copyPut f (.dev pa) bs) :=
  (served_dropRange ..).trans (served_devWriteP ..)

theorem served_moreFree (s : State) : s.Served { s with free := s.free + 128 } := .of_memory rfl fun _ => rfl

/-- What settles and counts the bytes that were put. -/
theorem served_putDone (s : State) (ws : List (Nat × List PByte)) (cl : Nat) (ds : List (List PByte)) :
    s.Served ((s.settleHome ws).countWritten cl ds) := (served_settleHome ..).trans (served_countWritten ..)
theorem sameMaps_putDone (s : State) (ws : List (Nat × List PByte)) (cl : Nat) (ds : List (List PByte)) :
    s.SameMaps ((s.settleHome ws).countWritten cl ds) := (sameMaps_settleHome ..).trans (sameMaps_countWritten ..)

/-- A run from device memory to device memory. -/
theorem copyRuns_devToDev (h : s.memPois = []) : ∃ u, s.copyRuns f [(.dev pb, .dev pa, n)] = (u, false, false) ∧ s.Served u ∧
    ∀ i, i < n → Memory.byte u.mem (pa + i) = Memory.byte s.mem (pb + i) := by
  obtain ⟨ws, ds, hx⟩ := copyRuns_single (f := f) (dst := .dev pa) (src := .dev pb) (anyPois_devReadP h pb n)
  refine ⟨_, hx, ((served_moreFree s).trans (served_copyPut_dev ..)).trans (served_putDone ..), fun i hi => ?_⟩
  have hlen : ((s.devReadP pb n).map Prod.fst).length = n := by rw [List.length_map, length_devReadP]
  rw [(sameMaps_putDone ..).mem, copyPut_dev, mem_devWriteP]
  refine (Memory.byte_setBytes_in _ _ pa i (by rw [show s.copyRead (.dev pb) n = s.devReadP pb n from rfl, hlen]; exact hi)).trans ?_
  rw [show s.copyRead (.dev pb) n = s.devReadP pb n from rfl, fst_devReadP, getD_bytes _ _ hi]

/-- A run from device memory to a scratchpad of a resident team. -/
theorem copyRuns_devToSpad {g v o a : Nat} (h : s.memPois = []) (hres : (s.team (teamKey g v)).st = .resident)
    (ho : spReduce (s.grid g).alloc o = some a) : ∃ u, s.copyRuns f [(.dev pb, .spad g v o, n)] = (u, false, false) ∧ s.Worked u ∧
    (u.team (teamKey g v)).spad = Memory.setBytes (s.team (teamKey g v)).spad a (Memory.bytes s.mem pb n) := by
  obtain ⟨ws, ds, hx⟩ := copyRuns_single (f := f) (dst := .spad g v o) (src := .dev pb) (anyPois_devReadP h pb n)
  have hput : { s with free := s.free + 128 }.copyPut f (.spad g v o) (s.copyRead (.dev pb) n) =
      { s with free := s.free + 128 }.spadWriteP g v a (s.devReadP pb n) := by
    unfold copyPut
    dsimp only
    rw [show (State.grid { s with free := s.free + 128 } g).alloc = (s.grid g).alloc from rfl, ho]
    rfl
  obtain ⟨hw, hs⟩ := spadWriteP_of_resident (s := { s with free := s.free + 128 }) hres a (s.devReadP pb n)
  refine ⟨_, hx, ?_, ?_⟩
  · rw [hput]
    exact ((Worked.of_served (served_moreFree s)).trans hw).trans (.of_served (served_putDone ..))
  · rw [(served_putDone ..).team, hput, hs, fst_devReadP]
    rfl

/-! ### COPY_LANDING (R137, R145, R150) -/

/-- COPY_LANDING performs an operation that nothing holds. -/
theorem exec_copyLanding {runs : List (Place × Place × Nat)} {c : Nat} (hf : s.flight s.ev.id = some f)
    (hb : f.body = .copy runs c gen) (hchan : s.inChannel f = true)
    (hsrc : s.sourcesReady f (runs.map fun r => (r.1, r.2.2)) = true) (hres : (s.team (teamKey f.g f.t)).st = .resident) :
    exec .copyLanding s = .next (s.copyLand f runs gen) := by
  have hreach := reachable_of_resident hres
  simp [exec, execCopyLanding, hf, hb, hchan, hsrc, hreach]

theorem copyLand_dev {c : Nat} (hb : f.body = .copy [(.dev pb, .dev pa, n)] c gen) :
    s.copyLand f [(.dev pb, .dev pa, n)] gen = ((s.copyRuns f [(.dev pb, .dev pa, n)]).1.landed f
      (if (s.copyRuns f [(.dev pb, .dev pa, n)]).2.2 then 3 else 0)).recheckAll := by
  simp [copyLand, lastLines_dev hb, landLines]

/-- A delivery to a scratchpad whose team is still the one it was sent to. -/
theorem copyLand_spad {o : Nat} (hres : (s.team (teamKey f.g f.t)).st = .resident) (hgen : (s.team (teamKey f.g f.t)).gen = gen) :
    ∃ r lines, (s.addDeliveries (teamKey f.g f.t) (-1)).copyRuns f [(.dev pb, .spad f.g f.t o, n)] = r ∧
      s.copyLand f [(.dev pb, .spad f.g f.t o, n)] gen = ((r.1.landLines f.g f.t lines).landed f (if r.2.2 then 3 else 0)).recheckAll :=
  ⟨_, s.lastLines f, rfl, by simp [copyLand, hres, hgen]⟩

/-- A delivery to a scratchpad whose team has gone. -/
theorem copyLand_stale {o : Nat} (hres : (s.team (teamKey f.g f.t)).st = .resident) (hgen : (s.team (teamKey f.g f.t)).gen ≠ gen) :
    s.copyLand f [(.dev pb, .spad f.g f.t o, n)] gen =
      ((s.addDeliveries (teamKey f.g f.t) (-1)).count (s.homeCl f.g f.t) 0x108 1).landed f 0 := by
  simp [copyLand, hres, hgen]

theorem addDeliveries_spad (s : State) (tk : Nat) (d : Int) (k : Nat) : ((s.addDeliveries tk d).team k).spad = (s.team k).spad := by
  unfold addDeliveries
  rw [modTeam_team]
  split
  · next h => rw [h]
  · rfl

section
variable (hf : s.flight s.ev.id = some f) (hc : s.Calm) (hp : s.memPois = []) (hgrp : f.grp < 32)
  (hres : (s.team (teamKey f.g f.t)).st = .resident)
include hf hc hp hgrp hres

theorem then_copy_devToDev {c : Nat} (hb : f.body = .copy [(.dev pb, .dev pa, n)] c gen) (hchan : s.inChannel f = true)
    (hsrc : s.sourcesReady f [(.dev pb, n)] = true) : s.Then .copyLanding fun t => s.OpFinished f 0 t ∧
      ∀ i, i < n → Memory.byte t.mem (pa + i) = Memory.byte s.mem (pb + i) := by
  obtain ⟨u, hx, hu, hbytes⟩ := copyRuns_devToDev (f := f) (pb := pb) (pa := pa) (n := n) hp
  obtain ⟨hend, hagain, hfin⟩ := (Carries.of_served hu).lands (st := 0) hc hgrp hres
  refine .of_eq (exec_copyLanding hf hb hchan hsrc hres) ((copyLand_dev hb).trans (by rw [hx]; exact hagain)) ⟨hfin, fun i hi => ?_⟩
  rw [hend.mem, hbytes i hi]

theorem then_copy_devToSpad {o a c : Nat} (hb : f.body = .copy [(.dev pb, .spad f.g f.t o, n)] c gen) (hchan : s.inChannel f = true)
    (hsrc : s.sourcesReady f [(.dev pb, n)] = true) (hgen : (s.team (teamKey f.g f.t)).gen = gen)
    (ho : spReduce (s.grid f.g).alloc o = some a) : s.Then .copyLanding fun t => s.OpFinished f 0 t ∧
      (t.team (teamKey f.g f.t)).spad = Memory.setBytes (s.team (teamKey f.g f.t)).spad a (Memory.bytes s.mem pb n) := by
  have hcar := carries_addDeliveries s (teamKey f.g f.t) (-1)
  obtain ⟨u, hx, hu, hspad⟩ := copyRuns_devToSpad (s := s.addDeliveries (teamKey f.g f.t) (-1)) (f := f) (pb := pb) (n := n) hp
    ((hcar.st _).trans hres) ho
  obtain ⟨r, lines, hr, hland⟩ := copyLand_spad (pb := pb) (o := o) (n := n) hres hgen
  obtain rfl := hr.symm.trans hx
  have hcu := hcar.trans (.of_worked hu)
  obtain ⟨-, hkept⟩ := landLines_of_resident (hcu.calm hc) ((hcu.st _).trans hres) lines
  obtain ⟨hend, hagain, hfin⟩ := (hcu.trans (.of_worked (worked_landLines u f.g f.t lines))).lands (st := 0) hc hgrp hres
  refine .of_eq (exec_copyLanding hf hb hchan hsrc hres) (hland.trans hagain) ⟨hfin, ?_⟩
  rw [team_congr hend.teams, hkept, hspad, addDeliveries_spad]
  rfl

omit hp in
theorem then_copy_stale {o c : Nat} (hb : f.body = .copy [(.dev pb, .spad f.g f.t o, n)] c gen) (hchan : s.inChannel f = true)
    (hsrc : s.sourcesReady f [(.dev pb, n)] = true) (hgen : (s.team (teamKey f.g f.t)).gen ≠ gen) :
    s.Then .copyLanding fun t => s.OpFinished f 0 t ∧ (t.team (teamKey f.g f.t)).spad = (s.team (teamKey f.g f.t)).spad := by
  have hcar := (carries_addDeliveries s (teamKey f.g f.t) (-1)).trans (.of_served (served_count _ (s.homeCl f.g f.t) 0x108 1))
  obtain ⟨hend, -, hfin⟩ := hcar.lands (st := 0) hc hgrp hres
  refine .of_eq (exec_copyLanding hf hb hchan hsrc hres) (copyLand_stale hres hgen) ⟨hfin, ?_⟩
  rw [team_congr hend.teams, (served_count ..).team, addDeliveries_spad]

end

end

end Sys2Proof.Machine.State

namespace Sys2Proof.Machine.State
open Sys2Proof

/-! ### Marks written with bytes (R262) -/

section
variable {s : State} {pa sec : Nat} {bs : List Byte}

/-- A sector that takes bytes with a mark, or had one, has it. -/
theorem devWrite_marked (h : sec ∈ sectorsOf pa bs.length ∨ s.memPois.get sec false = true) :
    (s.devWrite pa bs true).memPois.get sec false = true := by
  unfold devWrite
  dsimp only
  generalize sectorsOf pa bs.length = l at h
  generalize s.memPois = m at h
  induction l generalizing m with
  | nil => exact h.resolve_left (by simp)
  | cons j l ih =>
    refine ih _ ?_
    by_cases hj : sec = j
    · exact .inr (by rw [hj, SMap.get_set, if_pos rfl]; split <;> simp)
    · refine h.imp (fun hm => (List.mem_cons.1 hm).resolve_left hj) fun hm => ?_
      rw [SMap.get_set, if_neg hj, hm]

/-- Writes of which each is empty or has a mark: a sector that one of them covers has the mark. -/
theorem foldl_devWrite_marked (l : List (Nat × List PByte)) (u : State) (hm : ∀ c ∈ l, c.2 = [] ∨ anyPois c.2 = true)
    (h : (∃ c ∈ l, sec ∈ sectorsOf c.1 c.2.length) ∨ u.memPois.get sec false = true) :
    (l.foldl (fun s c => devWrite s c.1 (c.2.map Prod.fst) (anyPois c.2)) u).memPois.get sec false = true := by
  induction l generalizing u with
  | nil => exact h.resolve_left (by simp)
  | cons c l ih =>
    rw [List.foldl_cons]
    refine ih _ (fun c hc => hm c (List.mem_cons_of_mem _ hc)) ?_
    rcases hm c List.mem_cons_self with he | ht
    · have hno : u.devWrite c.1 (c.2.map Prod.fst) (anyPois c.2) = u := by rw [he]; rfl
      rw [hno]
      refine h.imp_left fun ⟨c', hc', hsec⟩ => ⟨c', (List.mem_cons.1 hc').resolve_left ?_, hsec⟩
      rintro rfl
      rw [he] at hsec
      simp [sectorsOf] at hsec
    · rw [ht]
      rcases h with ⟨c', hc', hsec⟩ | hg
      · rcases List.mem_cons.1 hc' with rfl | hc'
        · exact .inr (devWrite_marked (.inl (by rw [List.length_map]; exact hsec)))
        · exact .inl ⟨c', hc', hsec⟩
      · exact .inr (devWrite_marked (.inr hg))

/-- A part of marked bytes is empty or has a mark. -/
theorem anyPois_of_all {bs cs : List PByte} (hall : ∀ b ∈ bs, b.2 = true) (hsub : ∀ b ∈ cs, b ∈ bs) : cs = [] ∨ anyPois cs = true := by
  cases cs with
  | nil => exact .inl rfl
  | cons b cs => exact .inr (List.any_eq_true.2 ⟨b, List.mem_cons_self, hall b (hsub b List.mem_cons_self)⟩)

/-- Bytes that are all marked, written from an address on: the first sector has the mark. -/
theorem devWriteP_marked {bs : List PByte} (hne : bs ≠ []) (hall : ∀ b ∈ bs, b.2 = true) :
    (s.devWriteP pa bs).memPois.get (pa / 32) false = true := by
  have hlen := List.length_pos_iff.2 hne
  refine foldl_devWrite_marked _ s (fun c hc => ?_) (.inl ⟨sectorChunk pa bs (pa / 32), ?_, ?_⟩)
  · obtain ⟨sec, -, rfl⟩ := List.mem_map.1 hc
    exact anyPois_of_all hall fun b hb => List.mem_of_mem_drop (List.mem_of_mem_take hb)
  · exact List.mem_map.2 ⟨pa / 32, mem_sectorsOf (le_refl _) (Nat.lt_add_of_pos_right hlen), rfl⟩
  · have hmax : Nat.max pa (32 * (pa / 32)) = pa := Nat.max_eq_left (Nat.mul_div_le ..)
    unfold sectorChunk
    rw [hmax]
    refine mem_sectorsOf (le_refl _) (Nat.lt_add_of_pos_right ?_)
    rw [List.length_take, List.length_drop]
    omega

theorem devWriteP_cores (s : State) (pa : Nat) (bs : List PByte) : (s.devWriteP pa bs).cores = s.cores := by
  unfold devWriteP
  generalize bySector pa bs = l
  induction l generalizing s with
  | nil => rfl
  | cons c l ih => exact ih _

theorem countWritten_cores (s : State) (cl : Nat) (ds : List (List PByte)) : (s.countWritten cl ds).cores = s.cores := by
  unfold countWritten
  dsimp only
  split <;> rfl

theorem countWritten_memPois (s : State) (cl : Nat) (ds : List (List PByte)) : (s.countWritten cl ds).memPois = s.memPois := by
  unfold countWritten
  dsimp only
  split <;> rfl

end

/-! ### CPAV_COMMIT (R146) -/

section
variable {s u : State} {f : Flight} {pb pa pv n k : Nat} {runs : List (Place × Place × Nat)} {want : W64} {pois inPage : Bool}

theorem CleanL1.dropRange (h : s.CleanL1 k) (pa n : Nat) : (s.dropRange k pa n).CleanL1 k := by
  unfold State.dropRange
  induction sectorsOf pa n generalizing s with
  | nil => exact h
  | cons sec l ih => exact ih (h.dropSector sec)

/-- What a commit leaves before it compares: the core's own sector of the word given up, a poisoned compare counted. -/
def cpavReady (s : State) (f : Flight) (pv : Nat) (pois inPage : Bool) : State :=
  let u := s.dropRange (s.coreOfGrp (grpKey f.g f.t f.grp)) pv 8
  if inPage && (pois || anyPois (u.placeReadP (.dev pv) 8)) then u.count (f.core / 6) 0x3A0 1 else u

theorem served_cpavReady : s.Served (s.cpavReady f pv pois inPage) :=
  .ite (fun _ => (served_dropRange ..).trans (served_count ..)) fun _ => served_dropRange ..

/-- A core with a clean L1 finds the word where it was. -/
theorem cpavReady_of_cleanL1 (h : s.CleanL1 (s.coreOfGrp (grpKey f.g f.t f.grp))) :
    (s.cpavReady f pv pois inPage).mem = s.mem ∧ (s.cpavReady f pv pois inPage).memPois = s.memPois ∧
      (s.cpavReady f pv pois inPage).CleanL1 (s.coreOfGrp (grpKey f.g f.t f.grp)) := by
  obtain ⟨hm, hp⟩ := dropRange_of_cleanL1 h pv 8
  have hcl := h.dropRange pv 8
  unfold cpavReady
  dsimp only
  split
  · exact ⟨hm.mem, hp, hcl.of_cores_eq rfl⟩
  · exact ⟨hm.mem, hp, hcl⟩

theorem cpavDo_outOfPage : s.cpavDo f runs (.dev pv) want pois false = (s.cpavReady f pv pois false).landed f 2 := rfl

theorem cpavDo_unequal (hne : w64 (leNat (Memory.bytes (s.cpavReady f pv pois true).mem pv 8)) ≠ want) :
    s.cpavDo f runs (.dev pv) want pois true = (s.cpavReady f pv pois true).landed f 1 := by
  have hcmp : (w64 (leNat ((s.cpavReady f pv pois true).placeRead (.dev pv) 8).1) != want) = true := bne_iff_ne.2 hne
  unfold cpavDo
  exact (if_neg (by decide)).trans (if_pos hcmp)

/-- R146: the new version. -/
def cpavVersion (want : W64) (pois : Bool) : List PByte := (leBytes 8 (want + 1).toNat).map fun b => (b, pois)

theorem cpavDo_equal (heq : w64 (leNat (Memory.bytes (s.cpavReady f pv pois true).mem pv 8)) = want)
    (hr : (s.cpavReady f pv pois true).copyRuns f runs = (u, false, false)) :
    s.cpavDo f runs (.dev pv) want pois true = (((u.copyPut f (.dev pv) (cpavVersion want pois)).countWritten (f.core / 6)
      [cpavVersion want pois]).landed f 0).recheckAll := by
  have hcmp : (w64 (leNat ((s.cpavReady f pv pois true).placeRead (.dev pv) 8).1) != want) = false :=
    bne_eq_false_iff_eq.2 heq
  unfold cpavDo
  refine (if_neg (by decide)).trans ((if_neg (by rw [← Bool.not_eq_true] at hcmp; exact hcmp)).trans ?_)
  exact (congrArg (fun r : State × Bool × Bool => if r.2.1 then (r.1.landed f (if r.2.2 then 3 else 0)).recheckAll else
    (((r.1.copyPut f (.dev pv) (cpavVersion want pois)).countWritten (f.core / 6) [cpavVersion want pois]).landed f
      (if r.2.2 then 3 else 0)).recheckAll) hr).trans rfl

theorem exec_cpavCommit {ver : Place} {c : List Nat} (hf : s.flight s.ev.id = some f)
    (hb : f.body = .cpav runs ver want pois inPage c) (hsrc : s.sourcesReady f (runs.map fun r => (r.1, r.2.2)) = true) :
    exec .cpavCommit s = .next (s.cpavDo f runs ver want pois inPage) := by
  have hchan : s.inChannel f = true := by rw [inChannel, hb]
  simp [exec, execCpavCommit, hf, hb, hchan, hsrc]

/-- A run from device memory to device memory by a core whose L1 is clean. -/
theorem copyRuns_devToDev_clean (hp : s.memPois = []) (hcl : s.CleanL1 (s.coreOfGrp (grpKey f.g f.t f.grp))) :
    ∃ u, s.copyRuns f [(.dev pb, .dev pa, n)] = (u, false, false) ∧ s.Served u ∧
      u.CleanL1 (s.coreOfGrp (grpKey f.g f.t f.grp)) ∧
      u.mem = Memory.setBytes s.mem pa (Memory.bytes s.mem pb n) := by
  obtain ⟨ws, ds, hx⟩ := copyRuns_single (f := f) (dst := .dev pa) (src := .dev pb) (anyPois_devReadP hp pb n)
  have hcl' : CleanL1 { s with free := s.free + 128 } (s.coreOfGrp (grpKey f.g f.t f.grp)) := hcl
  refine ⟨_, hx, ((served_moreFree s).trans (served_copyPut_dev ..)).trans (served_putDone ..), ?_, ?_⟩
  · refine ((hcl'.dropRange pa (s.devReadP pb n).length).of_cores_eq ?_)
    rw [countWritten_cores]
    exact devWriteP_cores ..
  · have hmaps := sameMaps_devWriteP_of_cleanL1 hcl' pa (s.devReadP pb n).length (s.devReadP pb n)
    rw [(sameMaps_putDone ..).mem]
    refine hmaps.mem.trans ?_
    rw [fst_devReadP]
    rfl

end

end Sys2Proof.Machine.State

namespace Sys2Proof.Machine
open Sys2Proof

theorem leNat_lt (l : List Byte) : leNat l < 256 ^ l.length := by
  induction l with
  | nil => exact Nat.one_pos
  | cons b l ih =>
    have hb := b.isLt
    have hpow : 256 ^ (l.length + 1) = 256 * 256 ^ l.length := Nat.pow_succ'
    unfold leNat
    rw [List.length_cons, hpow]
    omega

/-- A word of memory is the number of its 8 bytes. -/
theorem w64_leNat_eq_iff (m : Memory) (a : Nat) (w : W64) : w64 (leNat (Memory.bytes m a 8)) = w ↔ leNat (Memory.bytes m a 8) = w.toNat := by
  have hlt := leNat_lt (Memory.bytes m a 8)
  rw [Memory.length_bytes] at hlt
  constructor
  · intro h
    rw [← h, w64, BitVec.toNat_ofNat]
    exact (Nat.mod_eq_of_lt hlt).symm
  · intro h
    rw [h, w64, BitVec.ofNat_toNat, BitVec.setWidth_eq]

namespace State

section
variable {s : State} {f : Flight} {pb pa pv n : Nat} {want : W64} {pois : Bool} {c : List Nat}
  (hf : s.flight s.ev.id = some f) (hc : s.Calm) (hgrp : f.grp < 32) (hres : (s.team (teamKey f.g f.t)).st = .resident)
  (hcl : s.CleanL1 (s.coreOfGrp (grpKey f.g f.t f.grp))) (hsrc : s.sourcesReady f [(.dev pb, n)] = true)
include hf hc hgrp hres hcl hsrc

theorem then_cpav_outOfPage (hb : f.body = .cpav [(.dev pb, .dev pa, n)] (.dev pv) want pois false c) :
    s.Then .cpavCommit fun t => s.OpFinished f 2 t ∧ t.mem = s.mem := by
  obtain ⟨hmem, -, -⟩ := cpavReady_of_cleanL1 (pv := pv) (pois := pois) (inPage := false) hcl
  obtain ⟨hend, -, hfin⟩ := (Carries.of_served served_cpavReady).lands (st := 2) hc hgrp hres
  exact .of_eq (exec_cpavCommit hf hb hsrc) cpavDo_outOfPage ⟨hfin, hend.mem.trans hmem⟩

theorem then_cpav_unequal (hb : f.body = .cpav [(.dev pb, .dev pa, n)] (.dev pv) want pois true c)
    (hne : leNat (Memory.bytes s.mem pv 8) ≠ want.toNat) :
    s.Then .cpavCommit fun t => s.OpFinished f 1 t ∧ t.mem = s.mem := by
  obtain ⟨hmem, -, -⟩ := cpavReady_of_cleanL1 (pv := pv) (pois := pois) (inPage := true) hcl
  obtain ⟨hend, -, hfin⟩ := (Carries.of_served served_cpavReady).lands (st := 1) hc hgrp hres
  refine .of_eq (exec_cpavCommit hf hb hsrc) (cpavDo_unequal ?_) ⟨hfin, hend.mem.trans hmem⟩
  rw [hmem]
  exact fun h => hne ((w64_leNat_eq_iff ..).1 h)

/-- The machine after a commit whose word is the expected one. -/
theorem then_cpav_equal (hp : s.memPois = []) (hb : f.body = .cpav [(.dev pb, .dev pa, n)] (.dev pv) want pois true c)
    (heq : leNat (Memory.bytes s.mem pv 8) = want.toNat) (hapart : pa + n ≤ pv ∨ pv + 8 ≤ pa) :
    s.Then .cpavCommit fun t => s.OpFinished f 0 t ∧ (pois = true → t.memPois.get (pv / 32) false = true) ∧
      leNat (Memory.bytes t.mem pv 8) = (want.toNat + 1) % pow2 64 ∧
      ∀ i, i < n → Memory.byte t.mem (pa + i) = Memory.byte s.mem (pb + i) := by
  obtain ⟨hmem, hpois, hcl'⟩ := cpavReady_of_cleanL1 (pv := pv) (pois := pois) (inPage := true) hcl
  have hready := served_cpavReady (s := s) (f := f) (pv := pv) (pois := pois) (inPage := true)
  have hcore := (Worked.of_served hready).coreOfGrp (grpKey f.g f.t f.grp)
  obtain ⟨u, hx, hu, hclu, humem⟩ := copyRuns_devToDev_clean (f := f) (pb := pb) (pa := pa) (n := n) (hpois.trans hp)
    (by rw [hcore]; exact hcl')
  have hcoreu := (Worked.of_served hu).coreOfGrp (grpKey f.g f.t f.grp)
  have hver : (cpavVersion want pois).map Prod.fst = leBytes 8 (want + 1).toNat := by
    rw [cpavVersion, List.map_map]
    exact List.map_id _
  have hvlen : (leBytes 8 (want + 1).toNat).length = 8 := leBytes_length ..
  have hputmem : (u.copyPut f (.dev pv) (cpavVersion want pois)).mem = Memory.setBytes
      (Memory.setBytes s.mem pa (Memory.bytes s.mem pb n)) pv (leBytes 8 (want + 1).toNat) := by
    have hmaps := sameMaps_devWriteP_of_cleanL1 (hcoreu ▸ hclu) pv (cpavVersion want pois).length (cpavVersion want pois)
    rw [copyPut_dev, hmaps.mem, hver, ← hmem, ← humem]
    rfl
  obtain ⟨hend, hagain, hfin⟩ := (Carries.of_served ((hready.trans hu).trans ((served_copyPut_dev u f pv (cpavVersion want pois)).trans
    (served_countWritten _ (f.core / 6) [cpavVersion want pois])))).lands (st := 0) hc hgrp hres
  have htmem := (hend.mem.trans (sameMaps_countWritten ..).mem).trans hputmem
  refine .of_eq (exec_cpavCommit hf hb hsrc) ((cpavDo_equal ?_ hx).trans hagain) ⟨hfin, fun hm => ?_, ?_, fun i hi => ?_⟩
  · rw [hmem]
    exact (w64_leNat_eq_iff ..).2 heq
  · rw [hend.memPois, countWritten_memPois, copyPut_dev]
    refine devWriteP_marked (fun hnil => ?_) fun b hb => ?_
    · rw [hnil] at hver
      exact absurd (congrArg List.length hver) (by rw [hvlen]; decide)
    · obtain ⟨_, -, rfl⟩ := List.mem_map.1 hb
      exact hm
  · have hbytes := Memory.bytes_setBytes (leBytes 8 (want + 1).toNat) (Memory.setBytes s.mem pa (Memory.bytes s.mem pb n)) pv
    rw [hvlen] at hbytes
    rw [htmem, hbytes, leNat_leBytes, BitVec.toNat_add]
    exact Nat.mod_mod _ _
  · have hblen : (Memory.bytes s.mem pb n).length = n := Memory.length_bytes ..
    rw [htmem, Memory.byte_setBytes_out _ _ _ _ (by rw [hvlen]; omega), Memory.byte_setBytes_in _ _ _ _ (by rw [hblen]; exact hi),
      getD_bytes _ _ hi]

end

/-! ### MULTICAST_DELIVERY (R148 to R150) -/

section
variable {s : State} {f : Flight} {v past : Nat} {gen : BitVec 16} {runs : List (Place × Nat × Nat)}
  {data : Option (List (Nat × List PByte))} {raised : Bool} {cs : List Nat}

theorem exec_multicastDelivery (hf : s.flight s.ev.id = some f) (hb : f.body = .mcast v gen runs data raised cs past) :
    exec .multicastDelivery s = .next (s.mcastStep f v gen runs data raised cs past) := by
  simp [exec, execMulticastDelivery, hf, hb]

/-- A change of flights that leaves their numbers: the flight of a number is the changed one. -/
theorem flight_map {g : Flight → Flight} (hg : ∀ y, (g y).id = y.id) {id : Nat} (hf : s.flight id = some f) {t : State}
    (ht : t.flights = s.flights.map g) : t.flight id = some (g f) := by
  have hpred : ((fun y : Flight => y.id == id) ∘ g) = fun y => y.id == id := funext fun y => by simp [hg]
  unfold flight at hf ⊢
  rw [ht, List.find?_map, hpred, hf]
  rfl

/-- The bytes that a delivery's command reads, noted in one of its deliveries. -/
def noteData (cmd : Nat) (d : List (Nat × List PByte)) (y : Flight) : Flight :=
  if y.cmd == cmd then
    (match y.body with
      | .mcast u g2 rs none ra c2 p2 => { y with body := .mcast u g2 rs (some d) ra c2 p2 }
      | _ => y) else y

theorem noteData_id (cmd : Nat) (d : List (Nat × List PByte)) (y : Flight) : (noteData cmd d y).id = y.id := by
  unfold noteData
  split
  · split <;> rfl
  · rfl

theorem noteData_self (d : List (Nat × List PByte)) (hb : f.body = .mcast v gen runs none raised cs past) :
    noteData f.cmd d f = { f with body := .mcast v gen runs (some d) raised cs past } := by
  unfold noteData
  rw [hb, if_pos (beq_self_eq_true _)]

theorem then_mcast_read (hf : s.flight s.ev.id = some f) (hid : f.id = s.ev.id)
    (hb : f.body = .mcast v gen runs none raised cs past) (hsrc : s.sourcesReady f (runs.map fun r => (r.1, r.2.2)) = true) :
    s.Then .multicastDelivery fun t => t.flight f.id = some { f with
      body := .mcast v gen runs (some (runs.map fun r => (r.2.1, s.copyRead r.1 r.2.2))) raised cs past } := by
  have hstep : s.mcastStep f v gen runs none raised cs past = { s with
      free := s.free + 128
      flights := s.flights.map (noteData f.cmd (runs.map fun r => (r.2.1, s.copyRead r.1 r.2.2))) } := by
    unfold mcastStep
    exact if_neg (by simp [hsrc])
  have hf' : s.flight f.id = some f := by rw [hid]; exact hf
  refine .of_eq (exec_multicastDelivery hf hb) hstep ?_
  rw [flight_map (fun y => noteData_id _ _ y) hf' rfl, noteData_self _ hb]

theorem addDeliveries_deliveries (s : State) (tk : Nat) (d : Int) :
    ((s.addDeliveries tk d).team tk).deliveries = ((s.team tk).deliveries + d).toNat := by
  unfold addDeliveries
  rw [modTeam_team, if_pos rfl]

theorem toNat_sub_one (n : Nat) : ((n : Int) + -1).toNat = n - 1 := by omega

/-- The lines that a delivery writes. -/
def deliveryLines (d : List (Nat × List PByte)) : List Nat := distinct (d.flatMap fun e => linesOf e.1 e.2.length)

/-! #### The lines of a resident team rise (R137) -/

theorem raiseLines_landing {g : Nat} (lines : List Nat) (s : State) (hres : (s.team (teamKey g v)).st = .resident)
    (hnd : lines.Nodup) (l : Nat) : ((s.raiseLines g v lines).team (teamKey g v)).landing.get l 0 =
      (s.team (teamKey g v)).landing.get l 0 + if l ∈ lines then 1 else 0 := by
  unfold raiseLines
  induction lines generalizing s with
  | nil => rfl
  | cons j lines ih =>
    obtain ⟨hj, hnd⟩ := List.nodup_cons.1 hnd
    rw [List.foldl_cons, ih _ ((worked_landing ..).st _ |>.trans hres) hnd, landing_of_resident hres, modTeam_team, if_pos rfl]
    dsimp only
    rw [SMap.get_set]
    by_cases hl : l = j
    · subst hl
      rw [if_pos rfl, if_neg hj, if_pos List.mem_cons_self]
      omega
    · rw [if_neg hl]
      simp only [List.mem_cons, hl, false_or]

theorem worked_raiseLines (s : State) (g t : Nat) (lines : List Nat) : s.Worked (s.raiseLines g t lines) :=
  .foldl (fun _ _ => worked_landing ..) lines s

theorem then_mcast_raise {d : List (Nat × List PByte)} (hf : s.flight s.ev.id = some f) (hid : f.id = s.ev.id)
    (hb : f.body = .mcast v gen runs (some d) false cs past) (hres : (s.team (teamKey f.g v)).st = .resident)
    (hgen : (s.team (teamKey f.g v)).gen = gen) (hroom : ∀ l ∈ deliveryLines d, (s.team (teamKey f.g v)).landing.get l 0 < 7) :
    s.Then .multicastDelivery fun t =>
      t.flight f.id = some { f with body := .mcast v gen runs (some d) true cs past } ∧
      ∀ l ∈ deliveryLines d, (t.team (teamKey f.g v)).landing.get l 0 = (s.team (teamKey f.g v)).landing.get l 0 + 1 := by
  have hf' : s.flight f.id = some f := by rw [hid]; exact hf
  have hcount : ∀ l, s.landCount f.g v l = (s.team (teamKey f.g v)).landing.get l 0 := fun l => by
    unfold landCount
    dsimp only
    rw [inImage_of_resident hres, if_neg (by decide)]
  have hall : ((deliveryLines d).all fun l => s.landCount f.g v l < 7) = true :=
    List.all_eq_true.2 fun l hl => by rw [hcount, decide_eq_true_eq]; exact hroom l hl
  have hstep : s.mcastStep f v gen runs (some d) false cs past =
      (s.raiseLines f.g v (deliveryLines d)).setFlight { f with body := .mcast v gen runs (some d) true cs past } := by
    unfold mcastStep
    simp only [reachable_of_resident hres, hgen, hres]
    rw [if_neg (by simp), if_neg (by decide), if_neg (by simpa [deliveryLines] using hall), if_neg (by decide)]
    rfl
  refine .of_eq (exec_multicastDelivery hf hb) hstep ⟨?_, fun l hl => ?_⟩
  · refine (flight_map (g := fun x => if x.id == f.id then { f with body := .mcast v gen runs (some d) true cs past } else x)
      (fun y => ?_) hf' ?_).trans (congrArg some (if_pos (beq_self_eq_true _)))
    · split
      · next h => exact (beq_iff_eq.1 h).symm
      · rfl
    · rw [← (worked_raiseLines s f.g v (deliveryLines d)).flights]
      rfl
  · exact (raiseLines_landing (deliveryLines d) s hres (nodup_distinct _) l).trans (congrArg _ (if_pos hl))

/-! #### A delivery ends -/

variable (hf : s.flight s.ev.id = some f) (hc : s.Calm) (hgrp : f.grp < 32) (hown : (s.team (teamKey f.g f.t)).st = .resident)
include hf hc hgrp hown

theorem then_mcast_gone {d : List (Nat × List PByte)} (hb : f.body = .mcast v gen runs (some d) raised cs past)
    (hst : (s.team (teamKey f.g v)).st = .exited ∨ (s.team (teamKey f.g v)).st = .pending) :
    s.Then .multicastDelivery fun t => s.OpFinished f 0 t ∧
      (t.team (teamKey f.g v)).deliveries = (s.team (teamKey f.g v)).deliveries - 1 ∧
      (t.team (teamKey f.g v)).spad = (s.team (teamKey f.g v)).spad := by
  have hreach : s.reachable f.g v = none := by
    rcases hst with h | h
    · rw [reachable, h]
    · rw [reachable, h]
  have hstep : s.mcastStep f v gen runs (some d) raised cs past =
      ((s.addDeliveries (teamKey f.g v) (-1)).count (s.homeCl f.g v) 0x108 1).landed f 0 := by
    unfold mcastStep
    simp only [hreach]
  obtain ⟨hend, -, hfin⟩ := ((carries_addDeliveries s (teamKey f.g v) (-1)).trans (.of_served (served_count _
    (s.homeCl f.g v) 0x108 1))).lands (st := 0) hc hgrp hown
  refine .of_eq (exec_multicastDelivery hf hb) hstep ⟨hfin, ?_, ?_⟩
  · rw [team_congr hend.teams, (served_count ..).team, addDeliveries_deliveries, toNat_sub_one]
  · rw [team_congr hend.teams, (served_count ..).team, addDeliveries_spad]

/-- The machine when a delivery's bytes are in its team's scratchpad and its lines have landed. -/
def mcastPut (s : State) (f : Flight) (v : Nat) (data : List (Nat × List PByte)) (past : Nat) : State :=
  let u := data.foldl (fun s d => s.spadWriteP f.g v d.1 d.2) s
  let u := (u.settleHome (data.filterMap fun d => (u.imgSpadAt f.g v d.1).map fun pa => (pa, d.2))).countWritten (f.core / 6)
    (data.map Prod.snd)
  if past == 0 then u else u.count (u.team (teamKey f.g v)).cl 0x100 past

omit hf hc hgrp hown in
theorem mcastWrite_eq (s : State) (f : Flight) (v : Nat) (data : List (Nat × List PByte)) (lines : List Nat) (past : Nat) :
    s.mcastWrite f v data lines past = (((((s.mcastPut f v data past).landLines f.g v lines).addDeliveries (teamKey f.g v) (-1)).landed f
      (if data.any fun d => anyPois d.2 then 3 else 0)).recheckAll) := rfl

omit hf hc hgrp hown in
theorem mcastPut_single {a : Nat} {bs : List PByte} (hres : (s.team (teamKey f.g v)).st = .resident) :
    s.Worked (s.mcastPut f v [(a, bs)] past) ∧ ((s.mcastPut f v [(a, bs)] past).team (teamKey f.g v)).spad =
      Memory.setBytes (s.team (teamKey f.g v)).spad a (bs.map Prod.fst) := by
  obtain ⟨hw, hs⟩ := spadWriteP_of_resident hres a bs
  have hdone : ∀ ws cl ds, s.Worked (((s.spadWriteP f.g v a bs).settleHome ws).countWritten cl ds) ∧
      ((((s.spadWriteP f.g v a bs).settleHome ws).countWritten cl ds).team (teamKey f.g v)).spad =
        Memory.setBytes (s.team (teamKey f.g v)).spad a (bs.map Prod.fst) := fun ws cl ds =>
    ⟨hw.trans (.of_served (served_putDone ..)), by rw [(served_putDone ..).team, hs]⟩
  unfold mcastPut
  dsimp only [List.foldl_cons, List.foldl_nil]
  split
  · exact hdone _ _ _
  · exact ⟨(hdone _ _ _).1.trans (.of_served (served_count ..)), by rw [(served_count ..).team]; exact (hdone _ _ _).2⟩

theorem then_mcast_land {a : Nat} {bs : List Byte}
    (hb : f.body = .mcast v gen runs (some [(a, bs.map fun b => (b, false))]) true cs past)
    (hres : (s.team (teamKey f.g v)).st = .resident) (hgen : (s.team (teamKey f.g v)).gen = gen) :
    s.Then .multicastDelivery fun t => s.OpFinished f 0 t ∧
      (t.team (teamKey f.g v)).spad = Memory.setBytes (s.team (teamKey f.g v)).spad a bs ∧
      (t.team (teamKey f.g v)).deliveries = (s.team (teamKey f.g v)).deliveries - 1 := by
  have hclean : (([(a, bs.map fun b => (b, false))] : List (Nat × List PByte)).any fun d => anyPois d.2) = false := by
    simp [anyPois]
  have hstep : s.mcastStep f v gen runs (some [(a, bs.map fun b => (b, false))]) true cs past =
      s.mcastWrite f v [(a, bs.map fun b => (b, false))] (deliveryLines [(a, bs.map fun b => (b, false))]) past := by
    unfold mcastStep
    simp only [reachable_of_resident hres, hgen]
    rw [if_neg (by simp), if_pos trivial]
    rfl
  obtain ⟨hw, hs⟩ := mcastPut_single (f := f) (past := past) (a := a) (bs := bs.map fun b => (b, false)) hres
  obtain ⟨-, hkept⟩ := landLines_of_resident (hw.calm hc) ((hw.st _).trans hres) (deliveryLines [(a, bs.map fun b => (b, false))])
  have hland := hw.trans (worked_landLines (s.mcastPut f v [(a, bs.map fun b => (b, false))] past) f.g v
    (deliveryLines [(a, bs.map fun b => (b, false))]))
  obtain ⟨hend, hagain, hfin⟩ := ((Carries.of_worked hland).trans (carries_addDeliveries _ (teamKey f.g v) (-1))).lands (st := 0)
    hc hgrp hown
  refine .of_eq (exec_multicastDelivery hf hb) ?_ ⟨hfin, ?_, ?_⟩
  · rw [hstep, mcastWrite_eq, hclean]
    exact hagain
  · rw [team_congr hend.teams, addDeliveries_spad, hkept, hs, List.map_map]
    exact congrArg _ (List.map_id _)
  · rw [team_congr hend.teams, addDeliveries_deliveries, toNat_sub_one, hland.team]

end

theorem Then.imp {s : State} {i : Instr} {P Q : State → Prop} (h : s.Then i P) (hpq : ∀ t, P t → Q t) : s.Then i Q := by
  obtain ⟨t, hx, hp⟩ := h
  exact ⟨t, hx, hpq t hp⟩

end State

end Sys2Proof.Machine

namespace Sys2Proof.Proofs
open Sys2Proof Sys2Proof.Machine Sys2Proof.Machine.State

/-- Settles O46, step by step: each moves its bytes (`Carries`) and then ends (`OpEnded`). -/
theorem transfers : Obligations.Transfers := by
  intro s f hf hid hc hp tk gk x k gone last token hgrp hres _
  refine ⟨fun pb pa n c gen hb hchan hsrc => ?_, fun pb o a n c gen hb hchan hsrc => ⟨fun hgen ho => ?_, fun hgen => ?_⟩,
    fun pb pa n pv want pois inPage c hb hsrc hl1 => ?_, fun u gen runs data raised cs past hb => ?_⟩
  · exact (then_copy_devToDev hf hc hp hgrp hres hb hchan hsrc).imp fun t ⟨hfin, hbytes⟩ => ⟨hfin.gone, hfin.token, hbytes⟩
  · exact (then_copy_devToSpad hf hc hp hgrp hres hb hchan hsrc hgen ho).imp fun t ⟨hfin, hspad⟩ => ⟨hfin.gone, hfin.token, hspad⟩
  · exact (then_copy_stale hf hc hgrp hres hb hchan hsrc hgen).imp fun t ⟨hfin, hspad⟩ => ⟨hfin.gone, hspad⟩
  · have hcl := cleanL1_of_eq_nil hl1
    refine ⟨?_, ?_, ?_⟩
    · rintro rfl
      exact (then_cpav_outOfPage hf hc hgrp hres hcl hsrc hb).imp fun t ⟨hfin, hmem⟩ => ⟨hfin.gone, hfin.token, hmem⟩
    · rintro rfl hne
      exact (then_cpav_unequal hf hc hgrp hres hcl hsrc hb hne).imp fun t ⟨hfin, hmem⟩ => ⟨hfin.gone, hfin.token, hmem⟩
    · rintro rfl heq hapart
      exact (then_cpav_equal hf hc hgrp hres hcl hsrc hp hb heq hapart).imp fun t ⟨hfin, hrest⟩ => ⟨hfin.gone, hfin.token, hrest⟩
  · refine ⟨?_, ?_, ?_, ?_⟩
    · rintro rfl hsrc
      exact then_mcast_read hf hid hb hsrc
    · rintro d rfl hst
      exact (then_mcast_gone hf hc hgrp hres hb hst).imp fun t ⟨hfin, hrest⟩ => ⟨hfin.gone, hrest⟩
    · rintro d rfl hst hgen rfl hroom
      exact then_mcast_raise hf hid hb hst hgen hroom
    · rintro a bs rfl hst hgen rfl
      exact (then_mcast_land hf hc hgrp hres hb hst hgen).imp fun t ⟨hfin, hrest⟩ => ⟨hfin.gone, hrest⟩

end Sys2Proof.Proofs

/-! ## The copy words (O29)

Before a copy's operations are sent its pages are touched, its sources written back and its lines raised (`Readies`); then the token
rises and the operations follow one another (`sendAll`), or there is none and the token rises and falls at once (`tokenPulse`). -/

namespace Sys2Proof.Machine.State
open Sys2Proof

/-! ### Before the operations are sent -/

section
variable {s t u : State}

/-- An operation leaves the word's context, groups, flights and their numbers, pages that are locked, and of cores and teams what
a submission looks at. -/
structure Readies (s t : State) : Prop where
  cur : t.cur = s.cur
  groups : t.groups = s.groups
  flights : t.flights = s.flights
  nextId : t.nextId = s.nextId
  plt : t.plt = s.plt
  last : ∀ k, (t.core k).copyLast = (s.core k).copyLast
  gen : ∀ k, (t.team k).gen = (s.team k).gen
  st : ∀ k, (t.team k).st = (s.team k).st

theorem Readies.refl (s : State) : s.Readies s := ⟨rfl, rfl, rfl, rfl, rfl, fun _ => rfl, fun _ => rfl, fun _ => rfl⟩

theorem Readies.trans (h : s.Readies t) (k : t.Readies u) : s.Readies u where
  cur := k.cur.trans h.cur
  groups := k.groups.trans h.groups
  flights := k.flights.trans h.flights
  nextId := k.nextId.trans h.nextId
  plt := k.plt.trans h.plt
  last c := (k.last c).trans (h.last c)
  gen c := (k.gen c).trans (h.gen c)
  st c := (k.st c).trans (h.st c)

theorem Readies.foldl {α : Type} {g : State → α → State} (hg : ∀ (s : State) a, s.Readies (g s a)) (l : List α) (s : State) :
    s.Readies (l.foldl g s) := by
  induction l generalizing s with
  | nil => exact .refl s
  | cons a l ih => exact (hg s a).trans (ih _)

theorem Readies.ite {c : Prop} [Decidable c] (h : s.Readies t) (k : s.Readies u) : s.Readies (if c then t else u) := by
  split
  · exact h
  · exact k

theorem Readies.of_served (h : s.Served t) (hg : t.groups = s.groups) (hl : ∀ k, (t.core k).copyLast = (s.core k).copyLast) :
    s.Readies t where
  cur := h.cur
  groups := hg
  flights := h.flights
  nextId := by rw [h.rest]
  plt := by rw [h.rest]
  last := hl
  gen k := by rw [h.team]
  st k := by rw [h.team]

theorem copyLast_modCore (k : Nat) {g : Core → Core} (hg : ∀ c, (g c).copyLast = c.copyLast) (j : Nat) :
    ((s.modCore k g).core j).copyLast = (s.core j).copyLast := by
  rw [modCore_core]
  split
  · next h => rw [hg, h]
  · rfl

theorem xlatTouch_copyLast (s : State) (k p va : Nat) (a : Acc) (j : Nat) :
    ((s.xlatTouch k p va a).core j).copyLast = (s.core j).copyLast := by
  have htouch : ∀ e, ((s.tlbTouch k e va).core j).copyLast = (s.core j).copyLast := fun e => by
    unfold tlbTouch
    dsimp only
    rw [modCluster_core_frame]
    refine copyLast_modCore k ?_ j
    exact fun _ => rfl
  unfold xlatTouch
  split
  · rfl
  · dsimp only
    split
    · unfold core
      rw [setAD_cores]
      exact htouch _
    · exact htouch _

theorem xlatTouch_groups (s : State) (k p va : Nat) (a : Acc) : (s.xlatTouch k p va a).groups = s.groups := by
  unfold xlatTouch
  split
  · rfl
  · dsimp only
    split
    · rw [sameButMem_setAD]
      rfl
    · rfl

theorem wbSector_copyLast (s : State) (k sec j : Nat) : ((s.wbSector k sec).core j).copyLast = (s.core j).copyLast := by
  unfold wbSector
  split
  · rfl
  · split
    · rfl
    · refine (copyLast_modCore k ?_ j).trans ?_
      · exact fun _ => rfl
      · rfl

theorem readies_xlatTouch (s : State) (k p va : Nat) (a : Acc) : s.Readies (s.xlatTouch k p va a) :=
  .of_served (served_xlatTouch ..) (xlatTouch_groups s k p va a) (xlatTouch_copyLast s k p va a)

theorem readies_wbRange (s : State) (k pa n : Nat) : s.Readies (s.wbRange k pa n) :=
  .foldl (fun s sec => .of_served (served_wbSector s k sec) (wbSector_groups s k sec) (wbSector_copyLast s k sec)) _ s

theorem readies_count (s : State) (cl off n : Nat) : s.Readies (s.count cl off n) := .of_served (served_count ..) rfl fun _ => rfl

theorem readies_countUnless (s : State) (c : Prop) [Decidable c] (cl off n : Nat) : s.Readies (if c then s else s.count cl off n) :=
  .ite (.refl s) (readies_count ..)

theorem readies_copyTouch (s : State) (gs gd : Bool) (es : List Elem) : s.Readies (s.copyTouch gs gd es) := by
  have hsrc : s.Readies (if gs then (distinct (es.map fun e => e.src / 65536)).foldl
      (fun s g => s.xlatTouch s.curCore s.curPart (g * 65536) .load) s else s) :=
    .ite (.foldl (fun _ _ => readies_xlatTouch ..) _ _) (.refl s)
  exact .ite (hsrc.trans (.foldl (fun _ _ => readies_xlatTouch ..) _ _)) hsrc

theorem readies_copySources (s : State) (ops : List (List (Place × Place × Nat))) : s.Readies (s.copySources ops) :=
  .foldl (fun _ _ => readies_wbRange ..) _ s

theorem readies_modTeam (s : State) (tk : Nat) {g : Team → Team} (hg : ∀ x, (g x).gen = x.gen) (hs : ∀ x, (g x).st = x.st) :
    s.Readies (s.modTeam tk g) where
  cur := rfl
  groups := rfl
  flights := rfl
  nextId := rfl
  plt := rfl
  last _ := rfl
  gen k := by
    rw [modTeam_team]
    split
    · next h => rw [hg, h]
    · rfl
  st k := by
    rw [modTeam_team]
    split
    · next h => rw [hs, h]
    · rfl

theorem readies_addDeliveries (s : State) (tk : Nat) (d : Int) : s.Readies (s.addDeliveries tk d) :=
  readies_modTeam s tk (fun _ => rfl) fun _ => rfl

theorem readies_raiseLines {g v : Nat} (hres : (s.team (teamKey g v)).st = .resident) (lines : List Nat) :
    s.Readies (s.raiseLines g v lines) := by
  unfold raiseLines
  induction lines generalizing s with
  | nil => exact .refl s
  | cons l lines ih =>
    have hl : s.Readies (s.landing g v l 1) := by
      rw [landing_of_resident hres]
      exact readies_modTeam s _ (fun _ => rfl) fun _ => rfl
    exact hl.trans (ih ((hl.st _).trans hres))

theorem Readies.nextChannels (h : s.Readies t) (k n : Nat) : t.nextChannels k n = s.nextChannels k n := by
  unfold State.nextChannels
  rw [h.last]

theorem Readies.grp (h : s.Readies t) : t.grp = s.grp := by
  unfold State.grp State.group curGrp
  rw [h.cur, h.groups]

/-! ### After the operations are sent -/

/-- An operation leaves the word's context, flights, locked pages, and of the word's group its registers, its tokens, and what the
end of the word looks at. -/
structure Wraps (s t : State) : Prop extends s.LeavesIssuer t where
  flights : t.flights = s.flights
  plt : t.plt = s.plt
  kc : ∀ n, t.grp.kc n = s.grp.kc n

theorem Wraps.trans (h : s.Wraps t) (k : t.Wraps u) : s.Wraps u where
  toLeavesIssuer := h.toLeavesIssuer.trans k.toLeavesIssuer
  flights := k.flights.trans h.flights
  plt := k.plt.trans h.plt
  kc n := (k.kc n).trans (h.kc n)

theorem Readies.wraps (h : s.Readies t) : s.Wraps t := ⟨⟨.of_grp h.cur h.grp, by rw [h.grp], by rw [h.grp]⟩, h.flights, h.plt, fun _ => by rw [h.grp]⟩

theorem wraps_modCore (s : State) (k : Nat) (g : Core → Core) : s.Wraps (s.modCore k g) :=
  ⟨leavesIssuer_modCore .., rfl, rfl, fun _ => rfl⟩

theorem wraps_sampled (s : State) : s.Wraps (s.modGrp fun x => { x with replays := 0, forced := false }) :=
  ⟨leavesIssuer_sampled s, rfl, rfl, fun _ => by rw [modGrp_grp]; rfl⟩

theorem wraps_sampleIssue (s0 s : State) (act : Mask) (n : Nat) (store : Bool) : s.Wraps (s0.sampleIssue s act n store) := by
  unfold sampleIssue
  dsimp only
  split
  · exact wraps_sampled s
  · split
    · exact ((wraps_sampled s).trans (wraps_modCore ..)).trans (wraps_modCore ..)
    · exact (wraps_sampled s).trans (wraps_modCore ..)

/-! ### A token of the word's group (R145) -/

theorem tokenUp_grp (s : State) (k : Nat) : (s.tokenUp s.curGrp k).grp = { s.grp with
    kCount := SMap.set s.grp.kCount 0 k (s.grp.kc k + 1)
    kStat := if s.grp.kc k == 0 then SMap.set s.grp.kStat 0 k 0 else s.grp.kStat } := modGrp_grp ..

theorem tokenUp_kc (s : State) (k : Nat) : (s.tokenUp s.curGrp k).grp.kc k = s.grp.kc k + 1 := by
  rw [tokenUp_grp]
  unfold Group.kc
  rw [SMap.get_set, if_pos rfl]

theorem keepsIssuer_tokenUp (s : State) (k : Nat) : s.KeepsIssuer (s.tokenUp s.curGrp k) :=
  keepsIssuer_modGroup s _ (fun _ => rfl) (fun _ => rfl) fun _ => rfl

theorem tokenUp_regs (s : State) (k : Nat) : (s.tokenUp s.curGrp k).grp.regs = s.grp.regs := by rw [tokenUp_grp]

/-- What a word does to its group's token, and to its registers, its locked pages and its flights. -/
structure Moved (s : State) (tk n : Nat) (plt : SMap Nat) (t : State) : Prop extends s.KeepsIssuer t where
  regs : t.grp.regs = s.grp.regs
  token : t.grp.kc tk = s.grp.kc tk + n
  plt : t.plt = plt

theorem Moved.wraps {tk n : Nat} {plt : SMap Nat} (h : s.Moved tk n plt t) (k : t.Wraps u) : s.Moved tk n plt u where
  toKeepsIssuer := h.toKeepsIssuer.trans k.toKeepsIssuer
  regs := k.regs.trans h.regs
  token := (k.kc tk).trans h.token
  plt := k.plt.trans h.plt

end

end Sys2Proof.Machine.State

namespace Sys2Proof.Machine.State
open Sys2Proof

/-! ### A copy of nothing (R134, R145) -/

section
variable {s t u e : State} {i : Instr} {f : CP} {tk : Nat} {pages : List Nat} {bodies : List Body} {b : Body}

theorem curTeam_eq_div (h : s.cur.grp < 32) : s.curGrp / 32 = s.curTeam := grpKey_div _ _ h

theorem tokenPulse_eq (hp : s.grp.park = none) (hres : (s.team s.curTeam).st = .resident) (hn : s.cur.grp < 32) :
    s.tokenPulse f = (s.tokenUp s.curGrp f.tk.toNat).modGroup s.curGrp (tokenFell f.tk.toNat 0) := by
  have hlisted : ((s.tokenUp s.curGrp f.tk.toNat).groups.find s.curGrp).isNone = false := by
    unfold tokenUp modGroup
    dsimp only
    rw [SMap.modify, SMap.find_put, if_pos rfl]
    rfl
  have himg : atImage ((s.tokenUp s.curGrp f.tk.toNat).team (s.curGrp / 32)) = false := by
    rw [curTeam_eq_div hn, show (s.tokenUp s.curGrp f.tk.toNat).team s.curTeam = s.team s.curTeam from rfl, atImage, hres]
    rfl
  have hpark : (((s.tokenUp s.curGrp f.tk.toNat).modGroup s.curGrp (tokenFell f.tk.toNat 0)).group s.curGrp).park = none := by
    rw [modGroup_group, if_pos rfl]
    exact (congrArg Group.park (tokenUp_grp s f.tk.toNat)).trans hp
  unfold tokenPulse tokenDown
  rw [hlisted, himg, if_neg (by decide), if_neg (by decide)]
  dsimp only
  rw [show (fun x : Group => { x with
    kCount := SMap.set x.kCount 0 f.tk.toNat (x.kc f.tk.toNat - 1)
    kStat := SMap.set x.kStat 0 f.tk.toNat (Nat.max (x.ks f.tk.toNat) 0) }) = tokenFell f.tk.toNat 0 from rfl, hpark]

/-- R145: the token rises and falls. -/
theorem moved_tokenPulse (hp : s.grp.park = none) (hres : (s.team s.curTeam).st = .resident) (hn : s.cur.grp < 32) :
    s.Moved f.tk.toNat 0 s.plt (s.tokenPulse f) ∧ (s.tokenPulse f).flights = s.flights := by
  rw [tokenPulse_eq hp hres hn]
  have hgrp : ((s.tokenUp s.curGrp f.tk.toNat).modGroup s.curGrp (tokenFell f.tk.toNat 0)).grp =
      tokenFell f.tk.toNat 0 (s.tokenUp s.curGrp f.tk.toNat).grp := modGrp_grp (s.tokenUp s.curGrp f.tk.toNat) _
  refine ⟨⟨(keepsIssuer_tokenUp s _).trans (keepsIssuer_modGroup _ _ (fun _ => rfl) (fun _ => rfl) fun _ => rfl), ?_, ?_, rfl⟩, rfl⟩
  · rw [hgrp]
    exact tokenUp_regs s f.tk.toNat
  · rw [hgrp, tokenFell_kc, if_pos rfl, tokenUp_kc]
    rfl

/-! ### Operations sent one after the other (R143, R145) -/

/-- One operation sent. -/
def sendOne (tk cmd : Nat) (s : State) (b : Body) : State :=
  { s with
    nextId := s.nextId + 1
    flights := s.flights ++ [{ id := s.nextId, g := s.cur.g, t := s.cur.t, grp := s.cur.grp, core := s.curCore, tk := some tk
                               cmd := cmd, pages := bodyPages b, body := b }] }

/-- The state in which the token has risen and the pages are locked. -/
def sendBegun (s : State) (tk : Nat) (pages : List Nat) : State :=
  ((s.tokenUp s.curGrp tk).pin pages).modGrp fun x => { x with pltWait := false }

theorem sendAll_eq : s.sendAll tk pages bodies = bodies.foldl (sendOne tk s.nextId) (s.sendBegun tk pages) := rfl

theorem moved_sendBegun : s.Moved tk 1 (s.pin pages).plt (s.sendBegun tk pages) := by
  have hgrp : (s.sendBegun tk pages).grp = { (s.tokenUp s.curGrp tk).grp with pltWait := false } :=
    modGrp_grp ((s.tokenUp s.curGrp tk).pin pages) _
  refine ⟨(keepsIssuer_tokenUp s tk).trans ⟨rfl, ?_, ?_, ?_⟩, ?_, ?_, rfl⟩
  · rw [hgrp]
  · rw [hgrp]
  · rw [hgrp]
  · rw [hgrp]
    exact tokenUp_regs s tk
  · rw [hgrp]
    exact tokenUp_kc s tk

/-- An operation in flight is of the word's group, sent after it issued, with a token. -/
structure IssuedBy (s : State) (tk : Nat) (fl : Flight) : Prop where
  id : s.nextId ≤ fl.id
  g : fl.g = s.cur.g
  t : fl.t = s.cur.t
  grp : fl.grp = s.cur.grp
  core : fl.core = s.curCore
  tk : fl.tk = some tk

/-- Operations sent change nothing but the flights, which they follow in order. -/
theorem foldl_sendOne (cmd : Nat) (hc : u.cur = s.cur) (hid : s.nextId ≤ u.nextId) :
    ∃ fls, (bodies.foldl (sendOne tk cmd) u).flights = u.flights ++ fls ∧ fls.map Flight.body = bodies ∧
      (∀ fl ∈ fls, s.IssuedBy tk fl) ∧
      bodies.foldl (sendOne tk cmd) u = { u with
        nextId := (bodies.foldl (sendOne tk cmd) u).nextId, flights := (bodies.foldl (sendOne tk cmd) u).flights } := by
  induction bodies generalizing u with
  | nil => exact ⟨[], (List.append_nil _).symm, rfl, by simp, rfl⟩
  | cons b bodies ih =>
    obtain ⟨fls, hfls, hbodies, hof, hrest⟩ := ih (u := sendOne tk cmd u b) hc (Nat.le_succ_of_le hid)
    refine ⟨_ :: fls, hfls.trans (List.append_assoc ..), congrArg (b :: ·) hbodies, fun fl hfl => ?_, hrest⟩
    rcases List.mem_cons.1 hfl with rfl | hfl
    · exact ⟨hid, congrArg Cur.g hc, congrArg Cur.t hc, congrArg Cur.grp hc, curCore_of_cur hc, rfl⟩
    · exact hof fl hfl

/-- R143 to R145: the token has risen, the pages are locked, and the operations have been sent. -/
theorem sendAll_spec (h : s.Readies u) : s.Moved tk 1 (s.pin pages).plt (u.sendAll tk pages bodies) ∧
    ∃ fls, (u.sendAll tk pages bodies).flights = s.flights ++ fls ∧ fls.map Flight.body = bodies ∧ ∀ fl ∈ fls, s.IssuedBy tk fl := by
  have hbegun := moved_sendBegun (s := u) (tk := tk) (pages := pages)
  obtain ⟨fls, hfls, hbodies, hof, hrest⟩ := foldl_sendOne (s := s) (tk := tk) (bodies := bodies) u.nextId
    (u := u.sendBegun tk pages) h.cur h.nextId.ge
  rw [← sendAll_eq] at hfls hrest
  refine ⟨⟨?_, ?_, ?_, ?_⟩, fls, hfls.trans (congrArg (· ++ fls) h.flights), hbodies, hof⟩
  · refine (h.wraps.toKeepsIssuer.trans hbegun.toKeepsIssuer).trans ?_
    rw [hrest]
    exact .of_grp rfl rfl
  · rw [hrest]
    exact hbegun.regs.trans h.wraps.regs
  · rw [hrest]
    exact hbegun.token.trans (by rw [h.grp])
  · rw [hrest]
    refine hbegun.plt.trans ?_
    unfold pin
    rw [h.plt]

/-! ### The ends of the words -/

theorem OnlyGroup.plt (h : e.OnlyGroup t) : t.plt = e.plt := (congrArg State.plt h.device).trans rfl

/-- What the statement says of an operation that a copy sends. -/
def Sent (s t : State) (tk : Nat) (b : Body) : Prop := s.Sends t b ∧ ∃ fl ∈ t.flights, fl.body = b ∧ fl.tk = some tk

/-- A word that sends operations goes on. -/
theorem goes_sendAll (h : s.Readies u) (hw : (u.sendAll tk pages bodies).Wraps e) (ht : s.KeepsIssuer e → s.Takes i e) :
    s.Goes i fun t => t.grp.kc tk = s.grp.kc tk + 1 ∧ t.plt = (s.pin pages).plt ∧ ∀ b ∈ bodies, s.Sent t tk b := by
  obtain ⟨hmoved, fls, hfls, hbodies, hof⟩ := sendAll_spec (tk := tk) (pages := pages) (bodies := bodies) h
  have he := hmoved.wraps hw
  refine (ht he.toKeepsIssuer).goes he.regs fun t hot hgrp => ⟨?_, hot.plt.trans he.plt, fun b hb => ?_⟩
  · rw [hgrp]
    exact he.token
  · obtain ⟨fl, hfl, rfl⟩ := List.mem_map.1 (hbodies ▸ hb)
    have hmem : fl ∈ t.flights := by
      rw [hot.flights, hw.flights, hfls]
      exact List.mem_append_right _ hfl
    have hby := hof fl hfl
    exact ⟨⟨fl, hmem, rfl, hby.id, hby.g, hby.t, hby.grp, hby.core⟩, fl, hmem, rfl, hby.tk⟩

/-- A word whose token and flights are in the end as they were goes on. -/
theorem goes_unmoved (hm : s.Moved tk 0 s.plt u) (hfl : u.flights = s.flights) (hw : u.Wraps e) (ht : s.KeepsIssuer e → s.Takes i e) :
    s.Goes i fun t => t.grp.kc tk = s.grp.kc tk + 0 ∧ t.flights = s.flights := by
  have he := hm.wraps hw
  refine (ht he.toKeepsIssuer).goes he.regs fun t hot hgrp => ⟨?_, ?_⟩
  · rw [hgrp]
    exact he.token
  · rw [hot.flights, hw.flights, hfl]

/-- A word that raises its token and lets it fall at once goes on. -/
theorem goes_pulsed (h : s.Readies u) (hp : s.grp.park = none) (hres : (s.team s.curTeam).st = .resident) (hn : s.cur.grp < 32)
    (hw : (u.tokenPulse f).Wraps e) (ht : s.KeepsIssuer e → s.Takes i e) :
    s.Goes i fun t => t.grp.kc f.tk.toNat = s.grp.kc f.tk.toNat + 0 ∧ t.flights = s.flights := by
  obtain ⟨hm, hfl⟩ := moved_tokenPulse (s := u) (f := f) (by rw [h.grp]; exact hp)
    (by rw [h.st, curTeam_of_cur h.cur]; exact hres) (by rw [h.cur]; exact hn)
  refine goes_unmoved ⟨h.wraps.toKeepsIssuer.trans hm.toKeepsIssuer, hm.regs.trans h.wraps.regs, ?_, hm.plt.trans h.plt⟩
    (hfl.trans h.flights) hw ht
  rw [hm.token, h.grp]

end

end Sys2Proof.Machine.State

namespace Sys2Proof.Machine.State
open Sys2Proof

/-! ### The copy words issue (R419) -/

section
variable {s t u v e : State} {h : Hdr} {i : Instr} {f : CP} {act : Mask} {gs gd : Bool} {es : List Elem}

/-- What every copy word asks for: it issues, no acquire of its group is out, its token may rise, and its team is on its core. -/
structure CopyIssues (s : State) (h : Hdr) (f : CP) : Prop where
  issues : s.Issues h f.tw
  noAcquire : s.acquireOut s.curGrp = false
  room : s.tokenRoom s.curGrp f.tk.toNat = true
  resident : (s.team s.curTeam).st = .resident
  grp : s.cur.grp < 32

theorem takes_of_copyWord {us : Uses} {eff : Mask → State → Eff} (hx : exec i s = .next (copyWord s h us eff)) (hi : s.CopyIssues h f)
    (htw : us.tw = f.tw) (hu : s.issueCheck h us (s.activeLanes h) = none) (he : eff (s.activeLanes h) s = { s := e })
    (hk : s.KeepsIssuer e) : s.Takes i e := by
  unfold copyWord accessWord at hx
  refine takes_of_issue (b := false) hx (htw ▸ hi.issues) hu ?_ hk
  simp only [hi.noAcquire]
  exact he

/-- The registers of a lane copy pass the checks of issue. -/
theorem cpaUses_check (hi : s.CopyIssues h f) (hb : s.Below [f.vsrc, f.vdst]) (se : List Nat) :
    s.issueCheck h (cpaUses f se) (s.activeLanes h) = none := by
  refine issueCheck_none s h _ _ hi.issues.noStrictLook rfl rfl (fun n hn => ?_) fun n hn => by cases hn
  have hn' : n = f.vsrc.toNat ∨ n = f.vdst.toNat := by simpa [cpaUses] using hn
  rcases hn' with rfl | rfl
  · exact hb f.vsrc (by simp)
  · exact hb f.vdst (by simp)

theorem cptUses_check (hi : s.CopyIssues h f) (hd : s.cptDyn h f = none) :
    s.issueCheck h (cptUses s h f) (s.activeLanes h) = none :=
  issueCheck_none s h _ _ hi.issues.noStrictLook hd rfl (fun n hn => by cases hn) fun n hn => by cases hn

/-! ### A copy without lanes -/

theorem moved_refl (s : State) (tk : Nat) : s.Moved tk 0 s.plt s := ⟨.refl s, rfl, rfl, rfl⟩

/-- A copy of no lane goes on with its token as it was. -/
theorem goes_emptyCopy (ht : s.KeepsIssuer (s.emptyCopy act).s → s.Takes i (s.emptyCopy act).s) :
    s.Goes i fun t => t.grp.kc f.tk.toNat = s.grp.kc f.tk.toNat + 0 ∧ t.flights = s.flights :=
  goes_unmoved (moved_refl s _) rfl (wraps_sampleIssue ..) ht

theorem lanes_zero : (0 : Mask).lanes = [] := by
  refine List.eq_nil_iff_forall_not_mem.2 fun l hl => ?_
  have hb := (mem_lanes.1 hl).2
  simp at hb

theorem laneElems_zero : s.laneElems f 0 = [] := by
  unfold laneElems
  rw [lanes_zero]
  rfl

theorem copyPois_zero : s.copyPois f 0 = 0 := by
  unfold copyPois
  split
  · rfl
  · exact BitVec.zero_and

theorem copyTrap_nil : s.copyTrap f gs gd [] 0 = none := rfl

theorem effCpa_empty (hi : s.CopyIssues h f) : effCpa gs gd f 0 s = s.emptyCopy 0 := by
  unfold effCpa
  simp only [laneElems_zero, copyPois_zero, copyTrap_nil, hi.room]
  rfl

theorem effCpav_empty (hi : s.CopyIssues h f) : effCpav gs f 0 s = s.emptyCopy 0 := by
  unfold effCpav
  simp only [laneElems_zero, copyPois_zero, copyTrap_nil, hi.room]
  simp

theorem effCpm_empty (hi : s.CopyIssues h f) : effCpm gs f 0 s = s.emptyCopy 0 := by
  unfold effCpm
  simp only [laneElems_zero, copyPois_zero, ite_self, BitVec.or_self, copyTrap_nil, hi.room]
  rfl

theorem effCpt_empty (hi : s.CopyIssues h f) (he : s.grp.entering = none) : effCpt gs f 0 s = s.emptyCopy 0 := by
  unfold effCpt
  simp only [he, hi.room]
  rfl

/-! ### The operations of a copy -/

/-- The bodies of the operations that a copy sends, when the state `u` has been reached. -/
def copyBodies (s u : State) (ops : List (List (Place × Place × Nat))) : List Body :=
  (List.range ops.length).map fun i =>
    .copy (ops.getD i []) ((u.nextChannels s.curCore ops.length).getD i 0) (u.team s.curTeam).gen

theorem nextChannels_getD (s : State) (k : Nat) {n i : Nat} (hi : i < n) :
    (s.nextChannels k n).getD i 0 = ((s.core k).copyLast + 1 + i) % 8 := by
  simp [nextChannels, List.getD_eq_getElem?_getD, List.getElem?_map, List.getElem?_range hi]

theorem mem_copyBodies (hu : s.Readies u) {ops : List (List (Place × Place × Nat))} {n : Nat} (hn : n < ops.length) :
    .copy (ops.getD n []) (((s.core s.curCore).copyLast + 1 + n) % 8) (s.team s.curTeam).gen ∈ copyBodies s u ops := by
  refine List.mem_map.2 ⟨n, List.mem_range.2 hn, ?_⟩
  rw [hu.nextChannels, nextChannels_getD s s.curCore hn, hu.gen]

/-- The state after a copy's operations, its sample included. -/
def copyDone (s v : State) (act : Mask) (n k : Nat) : State :=
  s.sampleIssue (v.modCore s.curCore fun c => { c with copyLast := (c.copyLast + n) % 8 }) act k true

theorem wraps_copyDone (n k : Nat) : v.Wraps (s.copyDone v act n k) := (wraps_modCore ..).trans (wraps_sampleIssue ..)

/-- What a copy between two spaces does before its operations are sent (R152, R134, R137). -/
def copyReady (s : State) (gs gd : Bool) (es : List Elem) : State :=
  let p := s.copyPlan gs gd es
  let s1 := (s.copyTouch gs gd es).copySources p.ops
  let s1 := if p.beyond == 0 then s1 else s1.count s.cur.cl 0x100 p.beyond
  let s1 := s1.raiseLines s.cur.g s.cur.t p.lines
  if gd then s1 else s1.addDeliveries s.curTeam p.ops.length

theorem readies_copyReady (hres : (s.team s.curTeam).st = .resident) : s.Readies (s.copyReady gs gd es) := by
  unfold copyReady
  dsimp only
  have hcount := ((readies_copyTouch s gs gd es).trans (readies_copySources _ (s.copyPlan gs gd es).ops)).trans
    (readies_countUnless _ ((s.copyPlan gs gd es).beyond == 0) s.cur.cl 0x100 (s.copyPlan gs gd es).beyond)
  have hraise := hcount.trans (readies_raiseLines ((hcount.st _).trans hres) (s.copyPlan gs gd es).lines)
  exact .ite hraise (hraise.trans (readies_addDeliveries ..))

/-- R420: there is room for a copy's operations. -/
structure CopyRoom (s : State) (p : Plan) : Prop where
  lines : s.landRoom p.lines = true
  channels : s.channelRoom s.curCore p.ops.length = true
  pages : s.pltRoom p.pages = true

variable {p : Plan}

/-- The end of a copy of which every element is dropped, and that of one with operations. -/
def copyDropped (s : State) (f : CP) (gs gd : Bool) (act : Mask) (es : List Elem) : State :=
  s.copyDone ((s.copyReady gs gd es).tokenPulse f) act 0 (copySectors gs gd es)
def copySent (s : State) (f : CP) (gs gd : Bool) (act : Mask) (es : List Elem) : State :=
  s.copyDone ((s.copyReady gs gd es).sendAll f.tk.toNat (s.copyPlan gs gd es).pages
    (copyBodies s (s.copyReady gs gd es) (s.copyPlan gs gd es).ops)) act (s.copyPlan gs gd es).ops.length (copySectors gs gd es)

theorem effCpa_dropped (hi : s.CopyIssues h f) (htrap : s.copyTrap f gs gd (s.laneElems f act) (s.copyPois f act) = none)
    (hact : act ≠ 0) (hroom : s.CopyRoom (s.copyPlan gs gd (s.laneElems f act)))
    (hops : (s.copyPlan gs gd (s.laneElems f act)).ops = []) :
    effCpa gs gd f act s = { s := s.copyDropped f gs gd act (s.laneElems f act) } := by
  have hact' : (act == 0) = false := by simpa using hact
  have hchan := hroom.channels
  unfold effCpa
  simp only [htrap, hi.room, hact', hroom.lines, hchan, hroom.pages]
  unfold copyDropped copyReady
  simp only [hops]
  rfl

theorem effCpa_sent (hi : s.CopyIssues h f) (htrap : s.copyTrap f gs gd (s.laneElems f act) (s.copyPois f act) = none)
    (hact : act ≠ 0) (hroom : s.CopyRoom (s.copyPlan gs gd (s.laneElems f act)))
    (hops : (s.copyPlan gs gd (s.laneElems f act)).ops ≠ []) :
    effCpa gs gd f act s = { s := s.copySent f gs gd act (s.laneElems f act) } := by
  have hact' : (act == 0) = false := by simpa using hact
  have hn : ((s.copyPlan gs gd (s.laneElems f act)).ops.length == 0) = false := by simpa using hops
  unfold effCpa
  simp only [htrap, hi.room, hact', hroom.lines, hroom.channels, hroom.pages, hn]
  rfl

theorem goes_copyDropped (hi : s.CopyIssues h f)
    (ht : s.KeepsIssuer (s.copyDropped f gs gd act es) → s.Takes i (s.copyDropped f gs gd act es)) :
    s.Goes i fun t => t.grp.kc f.tk.toNat = s.grp.kc f.tk.toNat + 0 ∧ t.flights = s.flights :=
  goes_pulsed (readies_copyReady hi.resident) hi.issues.awake hi.resident hi.grp (wraps_copyDone ..) ht

theorem goes_copySent (hi : s.CopyIssues h f)
    (ht : s.KeepsIssuer (s.copySent f gs gd act es) → s.Takes i (s.copySent f gs gd act es)) :
    s.Goes i fun t => t.grp.kc f.tk.toNat = s.grp.kc f.tk.toNat + 1 ∧ t.plt = (s.pin (s.copyPlan gs gd es).pages).plt ∧
      ∀ n, n < (s.copyPlan gs gd es).ops.length → s.Sent t f.tk.toNat (.copy ((s.copyPlan gs gd es).ops.getD n [])
        (((s.core s.curCore).copyLast + 1 + n) % 8) (s.team s.curTeam).gen) := by
  have hready := readies_copyReady (gs := gs) (gd := gd) (es := es) hi.resident
  exact (goes_sendAll hready (wraps_copyDone ..) ht).imp fun t ⟨htok, hplt, hsent⟩ =>
    ⟨htok, hplt, fun n hn => hsent _ (mem_copyBodies hready hn)⟩

end

end Sys2Proof.Machine.State

namespace Sys2Proof.Machine.State
open Sys2Proof

section
variable {s t u v e : State} {h : Hdr} {i : Instr} {f : CP} {act : Mask} {gs gd : Bool} {es : List Elem} {p : Plan}

/-! ### A copy with a version check (R421) -/

/-- What a copy with a version check does before its operation is sent. -/
def cpavTouched (s : State) (gs : Bool) (es : List Elem) (ver : Nat) : State :=
  let p := s.copyPlan gs true es
  let s1 := ((s.copyTouch gs true es).xlatTouch s.curCore s.curPart ver .store).copySources p.ops
  if p.beyond == 0 then s1 else s1.count s.cur.cl 0x100 p.beyond

theorem readies_cpavTouched (ver : Nat) : s.Readies (s.cpavTouched gs es ver) :=
  (((readies_copyTouch ..).trans (readies_xlatTouch ..)).trans (readies_copySources ..)).trans (readies_countUnless ..)

/-- The version word's address, and the operation that is sent. -/
def cpavAddr (s : State) (f : CP) : Nat := (s.src.sget f.se.toNat).toNat
def cpavBody (s u : State) (f : CP) (gs : Bool) (es : List Elem) (ver : Place) : Body :=
  .cpav (s.copyPlan gs true es).ops.flatten ver (s.src.sget (f.se.toNat + 1)) (s.src.sgetPois (f.se.toNat + 1) != 0)
    (es.all fun e => e.dst / 65536 == s.cpavAddr f / 65536) (u.nextChannels s.curCore (s.copyPlan gs true es).ops.length)

def cpavSent (s : State) (f : CP) (gs : Bool) (act : Mask) (es : List Elem) (ver : Place) : State :=
  s.copyDone ((s.cpavTouched gs es (s.cpavAddr f)).sendAll f.tk.toNat (distinct ((s.copyPlan gs true es).pages ++ placePage ver))
    [s.cpavBody (s.cpavTouched gs es (s.cpavAddr f)) f gs es ver]) act (s.copyPlan gs true es).ops.length (copySectors gs true es)

/-- R421, R424: the operands of a copy with a version check are such that it does not trap. -/
structure CpavClean (s : State) (f : CP) (gs : Bool) (act : Mask) (ver : Place) : Prop where
  trap : s.copyTrap f gs true (s.laneElems f act) 0 = none
  aligned : s.cpavAddr f % 8 = 0
  place : s.copySide true .store (s.cpavAddr f) = some ver
  lanes : s.copyPois f act = 0
  addr : s.src.sgetPois f.se.toNat = 0
  want : (s.src.sgetPois (f.se.toNat + 1) != 0) = true → ∀ pa va, ver ≠ .host pa va

theorem CpavClean.noLeak {ver : Place} (hc : s.CpavClean f gs act ver) :
    (act != 0 && s.src.sgetPois (f.se.toNat + 1) != 0 && (match some ver with | some (.host ..) => true | _ => false)) = false := by
  cases hw : s.src.sgetPois (f.se.toNat + 1) != 0 with
  | false => rw [Bool.and_false, Bool.false_and]
  | true =>
    cases ver with
    | host pa va => exact absurd rfl (hc.want hw pa va)
    | dev pa => exact Bool.and_false _
    | spad g t o => exact Bool.and_false _

theorem effCpav_sent {ver : Place} (hi : s.CopyIssues h f) (hc : s.CpavClean f gs act ver) (hact : act ≠ 0)
    (hchan : s.channelRoom s.curCore (s.copyPlan gs true (s.laneElems f act)).ops.length = true)
    (hplt : s.pltRoom (distinct ((s.copyPlan gs true (s.laneElems f act)).pages ++ placePage ver)) = true) :
    effCpav gs f act s = { s := s.cpavSent f gs act (s.laneElems f act) ver } := by
  have hact' : (act == 0) = false := by simpa using hact
  have hplace := hc.place
  have halign : ((s.src.sget f.se.toNat).toNat % 8 != 0) = false := by simpa [cpavAddr] using hc.aligned
  unfold cpavAddr at hplace
  unfold effCpav
  simp only [hc.trap, hplace, hc.lanes, hc.addr, halign, hi.room, hact', hchan, hplt, Bool.and_false, Bool.false_and,
    Option.isNone_some, bne_self_eq_false, Bool.false_eq_true, if_false, Bool.not_true]
  rw [if_neg (α := Option Trap) ?leaks]
  · rfl
  case leaks => exact Bool.not_eq_true _ ▸ hc.noLeak

theorem goes_cpavSent {ver : Place}
    (ht : s.KeepsIssuer (s.cpavSent f gs act es ver) → s.Takes i (s.cpavSent f gs act es ver)) :
    s.Goes i fun t => t.grp.kc f.tk.toNat = s.grp.kc f.tk.toNat + 1 ∧ s.Sent t f.tk.toNat (s.cpavBody s f gs es ver) := by
  have hready := readies_cpavTouched (s := s) (gs := gs) (es := es) (s.cpavAddr f)
  refine (goes_sendAll hready (wraps_copyDone ..) ht).imp fun t ⟨htok, _, hsent⟩ => ⟨htok, ?_⟩
  have hbody : s.cpavBody (s.cpavTouched gs es (s.cpavAddr f)) f gs es ver = s.cpavBody s f gs es ver := by
    unfold cpavBody
    rw [hready.nextChannels]
  exact hbody ▸ hsent _ (List.mem_singleton.2 rfl)

/-! ### A multicast (R423) -/

/-- The ranks that a multicast names, and their teams. -/
def cpmRanks (s : State) (f : CP) : List Nat := (List.range 16).filter fun r => ((s.src.sget f.se.toNat).toNat % 65536).testBit r
def cpmTeams (s : State) (f : CP) : List Nat := (s.cpmRanks f).filterMap s.cpmTeam

/-- What a multicast does before its deliveries are sent. -/
def cpmReady (s : State) (f : CP) (gs : Bool) (es : List Elem) : State :=
  let p := s.copyPlan gs false es
  let s1 := (s.copyTouch gs false es).copySources p.ops
  let s1 := if p.beyond - p.past == 0 then s1 else s1.count s.cur.cl 0x100 (p.beyond - p.past)
  let lost := (s.cpmRanks f).length - (s.cpmTeams f).length
  let s1 := if lost == 0 then s1 else s1.count s.cur.cl 0x108 lost
  (s.cpmTeams f).foldl (fun x u => x.addDeliveries (teamKey x.cur.g u) 1) s1

theorem readies_cpmReady : s.Readies (s.cpmReady f gs es) :=
  ((((readies_copyTouch ..).trans (readies_copySources ..)).trans (readies_countUnless ..)).trans (readies_countUnless ..)).trans
    (.foldl (fun _ _ => readies_addDeliveries ..) _ _)

/-- The delivery that is sent for a team. -/
def cpmBody (s x : State) (gs : Bool) (es : List Elem) (u : Nat) : Body :=
  .mcast u (x.team (teamKey s.cur.g u)).gen (s.deliveryRuns (s.copyPlan gs false es)) none false
    (x.nextChannels s.curCore (s.copyPlan gs false es).ops.length) (s.copyPlan gs false es).past

/-- The ends of a multicast: to no rank, to no team, and to some. -/
def cpmNone (s : State) (f : CP) (act : Mask) : State := s.sampleIssue (s.tokenPulse f) act 0 true
def cpmLost (s : State) (f : CP) (gs : Bool) (act : Mask) (es : List Elem) : State :=
  s.sampleIssue ((s.cpmReady f gs es).tokenPulse f) act (copySectors gs false es) true
def cpmSent (s : State) (f : CP) (gs : Bool) (act : Mask) (es : List Elem) : State :=
  s.copyDone ((s.cpmReady f gs es).sendAll f.tk.toNat (s.copyPlan gs false es).pages
    ((s.cpmTeams f).map (s.cpmBody (s.cpmReady f gs es) gs es))) act (s.copyPlan gs false es).ops.length (copySectors gs false es)

section
variable (hi : s.CopyIssues h f) (htrap : s.copyTrap f gs false (s.laneElems f act) (s.copyPois f act) = none)
  (hmask : (s.src.sgetPois f.se.toNat).getLsbD 0 = false) (hact : act ≠ 0)
  (hplt : s.pltRoom (s.copyPlan gs false (s.laneElems f act)).pages = true)
include hi htrap hmask hact hplt

theorem effCpm_lost (hus : s.cpmTeams f = []) : effCpm gs f act s =
    { s := if (s.cpmRanks f).isEmpty then s.cpmNone f act else s.cpmLost f gs act (s.laneElems f act) } := by
  have hact' : (act == 0) = false := by simpa using hact
  have hor : s.copyPois f act ||| 0 = s.copyPois f act := BitVec.or_zero
  unfold cpmTeams at hus
  unfold cpmRanks at hus ⊢
  unfold effCpm
  simp only [hmask, Bool.false_eq_true, if_false, hor, htrap, hi.room, hact', hus, hplt, Bool.not_true, List.isEmpty_nil, Bool.false_and,
    if_true]
  cases hranks : ((List.range 16).filter fun r => ((s.src.sget f.se.toNat).toNat % 65536).testBit r).isEmpty
  · unfold cpmLost cpmReady cpmTeams cpmRanks
    simp only [hus, Bool.false_eq_true, if_false]
  · rfl

theorem effCpm_sent (hus : s.cpmTeams f ≠ [])
    (hchan : s.channelRoom s.curCore (s.copyPlan gs false (s.laneElems f act)).ops.length = true) :
    effCpm gs f act s = { s := s.cpmSent f gs act (s.laneElems f act) } := by
  have hact' : (act == 0) = false := by simpa using hact
  have hor : s.copyPois f act ||| 0 = s.copyPois f act := BitVec.or_zero
  have hus' : ((s.cpmRanks f).filterMap s.cpmTeam).isEmpty = false := List.isEmpty_eq_false_iff.2 hus
  have hranks : (s.cpmRanks f).isEmpty = false := by
    rw [List.isEmpty_eq_false_iff]
    intro hnil
    exact hus (by rw [cpmTeams, hnil]; rfl)
  unfold cpmRanks at hus' hranks
  unfold effCpm
  simp only [hmask, Bool.false_eq_true, if_false, hor, htrap, hi.room, hact', hranks, hus', hchan, hplt, Bool.not_true, Bool.and_false]
  unfold cpmSent copyDone cpmReady cpmTeams cpmRanks cpmBody
  rfl

end

theorem goes_cpmLost (hi : s.CopyIssues h f)
    (ht : ∀ e, e = (if (s.cpmRanks f).isEmpty then s.cpmNone f act else s.cpmLost f gs act es) → s.KeepsIssuer e → s.Takes i e) :
    s.Goes i fun t => t.grp.kc f.tk.toNat = s.grp.kc f.tk.toNat + 0 ∧ t.flights = s.flights := by
  split at ht
  · exact goes_pulsed (.refl s) hi.issues.awake hi.resident hi.grp (wraps_sampleIssue ..) (ht _ rfl)
  · exact goes_pulsed readies_cpmReady hi.issues.awake hi.resident hi.grp (wraps_sampleIssue ..) (ht _ rfl)

theorem goes_cpmSent (ht : s.KeepsIssuer (s.cpmSent f gs act es) → s.Takes i (s.cpmSent f gs act es)) :
    s.Goes i fun t => t.grp.kc f.tk.toNat = s.grp.kc f.tk.toNat + 1 ∧
      ∀ u ∈ s.cpmTeams f, s.Sent t f.tk.toNat (s.cpmBody s gs es u) := by
  have hready := readies_cpmReady (s := s) (f := f) (gs := gs) (es := es)
  refine (goes_sendAll hready (wraps_copyDone ..) ht).imp fun t ⟨htok, _, hsent⟩ => ⟨htok, fun u hu => ?_⟩
  have hbody : s.cpmBody (s.cpmReady f gs es) gs es u = s.cpmBody s gs es u := by
    unfold cpmBody
    rw [hready.nextChannels, hready.gen]
  exact hbody ▸ hsent _ (List.mem_map_of_mem hu)

/-! ### The channels after a copy's operations (R144) -/

/-- One flight counted in a channel. -/
def loadStep (k c : Nat) (x : Nat × List Nat) (f : Flight) : Nat × List Nat :=
  if f.core != k || (isMcast f.body && x.2.contains f.cmd) then x
  else (x.1 + (channelsOf f.body).count c, if isMcast f.body then f.cmd :: x.2 else x.2)

theorem channelLoadOf_eq (fs : List Flight) (k c : Nat) : channelLoadOf fs k c = (fs.foldl (loadStep k c) (0, [])).1 := rfl

/-- Operations of a core that are no multicast add their channels. -/
theorem foldl_loadStep {k c : Nat} {fls : List Flight} (x : Nat × List Nat) (hcore : ∀ fl ∈ fls, fl.core = k)
    (hplain : ∀ fl ∈ fls, isMcast fl.body = false) :
    (fls.foldl (loadStep k c) x).1 = x.1 + ((fls.map Flight.body).flatMap channelsOf).count c := by
  induction fls generalizing x with
  | nil => rfl
  | cons fl fls ih =>
    have hone : (loadStep k c x fl).1 = x.1 + (channelsOf fl.body).count c := by
      unfold loadStep
      rw [hcore fl List.mem_cons_self, hplain fl List.mem_cons_self, bne_self_eq_false, Bool.false_and, Bool.or_false,
        if_neg (by decide)]
    rw [List.foldl_cons, ih _ (fun fl hfl => hcore fl (List.mem_cons_of_mem _ hfl))
      (fun fl hfl => hplain fl (List.mem_cons_of_mem _ hfl)), hone, List.map_cons, List.flatMap_cons, List.count_append]
    omega

theorem channelLoadOf_append {k c : Nat} {fs fls : List Flight} (hcore : ∀ fl ∈ fls, fl.core = k)
    (hplain : ∀ fl ∈ fls, isMcast fl.body = false) :
    channelLoadOf (fs ++ fls) k c = channelLoadOf fs k c + ((fls.map Flight.body).flatMap channelsOf).count c := by
  rw [channelLoadOf_eq, List.foldl_append, foldl_loadStep _ hcore hplain, channelLoadOf_eq]

/-- Operations go to the channels in turn. -/
theorem count_turns (a n : Nat) {j : Nat} (hj : j < 8) :
    ((List.range n).map fun i => (a + i) % 8).count ((a + j) % 8) = (n + 7 - j) / 8 := by
  induction n with
  | zero =>
    rw [Nat.div_eq_of_lt (by omega)]
    rfl
  | succ n ih =>
    rw [List.range_succ, List.map_append, List.count_append, ih, List.map_cons, List.map_nil, List.count_singleton]
    by_cases hturn : (a + n) % 8 = (a + j) % 8
    · rw [if_pos (by simpa using hturn)]
      omega
    · rw [if_neg (by simpa using hturn)]
      omega

theorem channels_copyBodies (hu : s.Readies u) (ops : List (List (Place × Place × Nat))) :
    (copyBodies s u ops).flatMap channelsOf = s.nextChannels s.curCore ops.length := by
  unfold copyBodies
  rw [List.flatMap_map, hu.nextChannels]
  conv_rhs => rw [nextChannels, ← List.flatMap_singleton' ((List.range ops.length).map _), List.flatMap_map]
  refine List.flatMap_congr fun i hi => ?_
  simp only [channelsOf, nextChannels_getD s s.curCore (List.mem_range.1 hi)]

/-- R144: no channel holds more than its 64 operations. -/
def Entered (s : State) (k : Nat) : Bool := (List.range 8).all fun c => s.channelLoad k c ≤ 64

/-- R144: operations that found room in the channels have entered them. -/
theorem entered_of_channelRoom {n : Nat} {fls : List Flight} (hroom : s.channelRoom s.curCore n = true)
    (ht : t.flights = s.flights ++ fls) (hcore : ∀ fl ∈ fls, fl.core = s.curCore) (hplain : ∀ fl ∈ fls, isMcast fl.body = false)
    (hchan : (fls.map Flight.body).flatMap channelsOf = s.nextChannels s.curCore n) : t.Entered s.curCore = true := by
  refine List.all_eq_true.2 fun c hc => ?_
  have hlt := List.mem_range.1 hc
  obtain ⟨j, hj, rfl⟩ : ∃ j, j < 8 ∧ ((s.core s.curCore).copyLast + 1 + j) % 8 = c :=
    ⟨(c + 8 - ((s.core s.curCore).copyLast + 1) % 8) % 8, Nat.mod_lt _ (by decide), by omega⟩
  have hone := List.all_eq_true.1 hroom j (List.mem_range.2 hj)
  rw [decide_eq_true_eq] at hone ⊢
  rw [channelLoad, ht, channelLoadOf_append hcore hplain, hchan, nextChannels, count_turns _ _ hj]
  exact hone

/-! ### A tile copy (R147, R422) -/

/-- R422: the operands of a tile copy are such that it does not trap. -/
structure CptClean (s : State) (f : CP) (gs : Bool) (act : Mask) : Prop where
  src : (s.src.sget f.ssrc.toNat + f.off.signExtend 64).toNat % f.size = 0
  dst : (s.src.sget f.sdst.toNat).toNat % f.size = 0
  srcStride : (s.src.sget (f.se.toNat + 1)).toNat % pow2 32 % f.size = 0
  dstStride : (s.src.sget (f.se.toNat + 1)).toNat / pow2 32 % f.size = 0
  fails : s.copyFails gs (!gs) (s.cptElems f (act.lanes.getD 0 0)) = []
  pois : ∀ n ∈ [f.ssrc.toNat, f.sdst.toNat, f.se.toNat + 1], s.src.sgetPois n = 0
  dims : (s.src.sgetPois f.se.toNat).getLsbD 0 = false

/-- The state after a tile copy's operations, or after a tile copy whose every element is dropped. -/
def cptDone (s : State) (f : CP) (gs : Bool) (act : Mask) (es : List Elem) : State :=
  s.copyDone (if (s.copyPlan gs (!gs) es).ops.length == 0 then (s.copyReady gs (!gs) es).tokenPulse f
    else (s.copyReady gs (!gs) es).sendAll f.tk.toNat (s.copyPlan gs (!gs) es).pages
      (copyBodies s (s.copyReady gs (!gs) es) (s.copyPlan gs (!gs) es).ops)) act (s.copyPlan gs (!gs) es).ops.length
    (copySectors gs (!gs) es)

theorem effCpt_done (hi : s.CopyIssues h f) (he : s.grp.entering = none) (hc : s.CptClean f gs act) (hact : act ≠ 0)
    (hroom : s.CopyRoom (s.copyPlan gs (!gs) (s.cptElems f (act.lanes.getD 0 0))))
    (hentered : (s.cptDone f gs act (s.cptElems f (act.lanes.getD 0 0))).Entered s.curCore = true) :
    effCpt gs f act s = { s := s.cptDone f gs act (s.cptElems f (act.lanes.getD 0 0)) } := by
  have hact' : (act == 0) = false := by simpa using hact
  have hssrc := hc.pois f.ssrc.toNat (by simp)
  have hsdst := hc.pois f.sdst.toNat (by simp)
  have hse := hc.pois (f.se.toNat + 1) (by simp)
  unfold effCpt
  simp only [he, hact', hc.src, hc.dst, hc.srcStride, hc.dstStride, hc.fails, hssrc, hsdst, hse, hc.dims, hi.room, hroom.lines,
    hroom.pages]
  cases gs
  · exact if_pos hentered
  · exact if_pos hentered

theorem cptDone_entered (hi : s.CopyIssues h f) (hroom : s.channelRoom s.curCore (s.copyPlan gs (!gs) es).ops.length = true) :
    (s.cptDone f gs act es).Entered s.curCore = true := by
  have hready := readies_copyReady (s := s) (gs := gs) (gd := !gs) (es := es) hi.resident
  unfold cptDone
  by_cases hops : (s.copyPlan gs (!gs) es).ops.length = 0
  · rw [if_pos (by simpa using hops)]
    obtain ⟨-, hfl⟩ := moved_tokenPulse (s := s.copyReady gs (!gs) es) (f := f) (by rw [hready.grp]; exact hi.issues.awake)
      (by rw [hready.st, curTeam_of_cur hready.cur]; exact hi.resident) (by rw [hready.cur]; exact hi.grp)
    refine entered_of_channelRoom (fls := []) hroom ?_ (by simp) (by simp) (by rw [hops]; rfl)
    rw [(wraps_copyDone ..).flights, hfl, hready.flights, List.append_nil]
  · rw [if_neg (by simpa using hops)]
    obtain ⟨-, fls, hfl, hbodies, hof⟩ := sendAll_spec (tk := f.tk.toNat) (pages := (s.copyPlan gs (!gs) es).pages)
      (bodies := copyBodies s (s.copyReady gs (!gs) es) (s.copyPlan gs (!gs) es).ops) hready
    refine entered_of_channelRoom hroom ((wraps_copyDone ..).flights.trans hfl) (fun fl hfl => (hof fl hfl).core) (fun fl hfl => ?_) ?_
    · have hmem : fl.body ∈ copyBodies s (s.copyReady gs (!gs) es) (s.copyPlan gs (!gs) es).ops := hbodies ▸ List.mem_map_of_mem hfl
      obtain ⟨n, -, hn⟩ := List.mem_map.1 hmem
      rw [← hn]
      rfl
    · rw [hbodies, channels_copyBodies hready]

theorem goes_cptDropped (hi : s.CopyIssues h f) (hops : (s.copyPlan gs (!gs) es).ops = [])
    (ht : s.KeepsIssuer (s.cptDone f gs act es) → s.Takes i (s.cptDone f gs act es)) :
    s.Goes i fun t => t.grp.kc f.tk.toNat = s.grp.kc f.tk.toNat + 0 ∧ t.flights = s.flights := by
  unfold cptDone at ht
  rw [if_pos (by rw [hops]; rfl)] at ht
  exact goes_pulsed (readies_copyReady hi.resident) hi.issues.awake hi.resident hi.grp (wraps_copyDone ..) ht

theorem goes_cptSent (hi : s.CopyIssues h f) (hops : (s.copyPlan gs (!gs) es).ops ≠ [])
    (ht : s.KeepsIssuer (s.cptDone f gs act es) → s.Takes i (s.cptDone f gs act es)) :
    s.Goes i fun t => t.grp.kc f.tk.toNat = s.grp.kc f.tk.toNat + 1 ∧
      ∀ n, n < (s.copyPlan gs (!gs) es).ops.length → s.Sent t f.tk.toNat (.copy ((s.copyPlan gs (!gs) es).ops.getD n [])
        (((s.core s.curCore).copyLast + 1 + n) % 8) (s.team s.curTeam).gen) := by
  have hready := readies_copyReady (s := s) (gs := gs) (gd := !gs) (es := es) hi.resident
  unfold cptDone at ht
  rw [if_neg (by simpa using hops)] at ht
  exact (goes_sendAll hready (wraps_copyDone ..) ht).imp fun t ⟨htok, _, hsent⟩ =>
    ⟨htok, fun n hn => hsent _ (mem_copyBodies hready hn)⟩

end

end Sys2Proof.Machine.State

namespace Sys2Proof.Proofs
open Sys2Proof Sys2Proof.Machine Sys2Proof.Machine.State

/-- Settles O29: each kind of copy word is said once, for every pair of spaces. -/
theorem copies : Obligations.Copies := by
  intro s h f hissues hnamed hacq htoken hres act k es last gen token sent idle lane checked tile multi
  have hi : s.CopyIssues h f := ⟨hissues, hacq, htoken, hres, hnamed.2⟩
  have empty : ∀ i us eff, exec i s = .next (copyWord s h us eff) → us.tw = f.tw → s.issueCheck h us act = none →
      eff 0 s = s.emptyCopy 0 → idle i := by
    intro i us eff hx htw hu he hact
    refine goes_emptyCopy (act := 0) (takes_of_copyWord hx hi htw hu ?_)
    rw [show s.activeLanes h = 0 from hact]
    exact he
  have lanes : ∀ i gs gd, s.Below [f.vsrc, f.vdst] → exec i s = .next (copyWord s h (cpaUses f []) (effCpa gs gd f)) →
      lane i gs gd := by
    intro i gs gd hb hx
    refine ⟨empty i _ _ hx rfl (cpaUses_check hi hb _) (effCpa_empty hi), fun htrap hact hlines hchan hpages => ?_⟩
    have hroom : s.CopyRoom (s.copyPlan gs gd es) := ⟨hlines, hchan, hpages⟩
    exact ⟨fun hops => goes_copyDropped hi
        (takes_of_copyWord hx hi rfl (cpaUses_check hi hb _) (effCpa_dropped hi htrap hact hroom hops)),
      fun hops => goes_copySent hi (takes_of_copyWord hx hi rfl (cpaUses_check hi hb _) (effCpa_sent hi htrap hact hroom hops))⟩
  have versions : ∀ i gs, s.Below [f.vsrc, f.vdst] →
      exec i s = .next (copyWord s h (cpaUses f [f.se.toNat, f.se.toNat + 1]) (effCpav gs f)) → checked i gs := by
    intro i gs hb hx
    refine ⟨empty i _ _ hx rfl (cpaUses_check hi hb _) (effCpav_empty hi), ?_⟩
    intro v htrap halign hplace hlanes haddr hwant hact hchan hpages
    have hc : s.CpavClean f gs act v := ⟨htrap, halign, hplace, hlanes, haddr, hwant⟩
    exact goes_cpavSent (takes_of_copyWord hx hi rfl (cpaUses_check hi hb _) (effCpav_sent hi hc hact hchan hpages))
  have tiles : ∀ i gs, exec i s = .next (copyWord s h (cptUses s h f) (effCpt gs f)) → tile i gs := by
    intro i gs hx hdyn hent
    refine ⟨empty i _ _ hx rfl (cptUses_check hi hdyn) (effCpt_empty hi hent), ?_⟩
    intro hact hsrc hdst hsst hdst' hfails hpois hdims hlines hpages hchan
    have hdone := effCpt_done hi hent ⟨hsrc, hdst, hsst, hdst', hfails, hpois, hdims⟩ hact ⟨hlines, hchan, hpages⟩
      (cptDone_entered hi hchan)
    have htakes := takes_of_copyWord hx hi rfl (cptUses_check hi hdyn) hdone
    exact ⟨fun hops => goes_cptDropped hi hops htakes, fun hops => goes_cptSent hi hops htakes⟩
  have multis : ∀ i gs, s.Below [f.vsrc, f.vdst] → exec i s = .next (copyWord s h (cpaUses f [f.se.toNat]) (effCpm gs f)) →
      multi i gs := by
    intro i gs hb hx
    refine ⟨empty i _ _ hx rfl (cpaUses_check hi hb _) (effCpm_empty hi), fun htrap hmask hact hpages => ⟨fun hus => ?_, fun hus hchan => ?_⟩⟩
    · exact goes_cpmLost hi fun e he => takes_of_copyWord hx hi rfl (cpaUses_check hi hb _)
        (he ▸ effCpm_lost hi htrap hmask hact hpages hus)
    · exact goes_cpmSent (takes_of_copyWord hx hi rfl (cpaUses_check hi hb _) (effCpm_sent hi htrap hmask hact hpages hus hchan))
  exact ⟨fun hb => ⟨lanes _ _ _ hb rfl, lanes _ _ _ hb rfl, lanes _ _ _ hb rfl, lanes _ _ _ hb rfl, versions _ _ hb rfl,
    versions _ _ hb rfl, multis _ _ hb rfl, multis _ _ hb rfl⟩, tiles _ _ rfl, tiles _ _ rfl⟩

end Sys2Proof.Proofs
